-- ==== Sys2Proof/Word.lean ====
section
/-! DEFINITION. The word types of the LX9484 and the plainest arithmetic on them. -/

namespace Sys2Proof

/-- A byte of a packet, a record, a mailbox bank or the flash. -/
abbrev Byte := BitVec 8
/-- A 16-bit field. -/
abbrev W16 := BitVec 16
/-- A 32-bit field or register word. -/
abbrev W32 := BitVec 32
/-- A 64-bit field: a service key, a device time, a host address (R6, R46). -/
abbrev W64 := BitVec 64

end Sys2Proof
end

