-- ==== Sys2Proof/Syntax.lean ====
section
/-! DEFINITION. The commands of the block: one constructor of `Instr` per row of opcode_table.json, with the row's
operands. A host command carries its packet header (`CmdHdr`) and its parameters field by field, at the widths of
Tables 15.4 to 15.20, so that a value out of range can be written down. An event carries what the world outside the
model decides (a measurement, a received item, an outcome), because the spec gives the row that and no more. -/

namespace Sys2Proof

/-- The four control transports (Table 14.2); the order is that of the TRANSPORT code of Table 15.3. -/
inductive Transport where
  | pcie | twoWire | service | trunk
  deriving DecidableEq, Repr

/-- The two buses that reach the direct registers (R424). -/
inductive Bus where
  | pcie | twoWire
  deriving DecidableEq, Repr

/-- What the header of a command packet that passed checks 1 to 4 of Table 14.6 carries beside its opcode
(Table 14.1), and how it entered: by which transport, and on PCIe by the command ring or the mailbox. `wait` is the
time in ns that passes before the interpreter takes the packet. -/
structure CmdHdr where
  tr      : Transport
  viaRing : Bool
  slot    : W16
  seq     : W16
  noReply : Bool
  trailer : W32
  wait    : Nat
  deriving DecidableEq, Repr

/-- One entry of an item-list command (R410); LEN is the length of `value`. -/
structure Item where
  item  : Byte
  value : List Byte
  deriving DecidableEq, Repr

/-- A stream binding (Table 15.7). -/
structure Binding where
  kind     : Byte
  ring     : Byte
  port     : Byte
  portSlot : Byte
  options  : Byte
  deriving DecidableEq, Repr

/-- The service attribute block (Table 15.6); N_BIND is the length of `bindings`. -/
structure AttrBlock where
  key           : W64
  priority      : Byte
  options       : Byte
  latency       : Byte
  follow        : Byte
  hints         : Byte
  hintInput     : Byte
  hintRing      : Byte
  hintAudioPort : Byte
  hintAudioSlot : Byte
  hintPktPort   : Byte
  bindings      : List Binding
  deriving DecidableEq, Repr

/-- The parameters of PLACEMENT_POLICY (Table 15.8). -/
structure PlacementParams where
  reserve       : Byte
  preempt       : Byte
  headReception : Byte
  deriving DecidableEq, Repr

/-- One search range of SURVEY_CONFIG (Table 15.10). -/
structure SurveyRange where
  inputs   : Byte
  standard : Byte
  startKhz : W32
  stopKhz  : W32
  stepKhz  : W32
  deriving DecidableEq, Repr

/-- The parameters of SURVEY_CONFIG (Table 15.10). -/
structure SurveyParams where
  interval : W32
  ranges   : List SurveyRange
  deriving DecidableEq, Repr

/-- The parameters of ALERT_CONFIG (Table 15.11). -/
structure AlertParams where
  mask   : W64
  limitS : W32
  deriving DecidableEq, Repr

/-- An archive extent (Table 15.12). -/
structure Extent where
  start  : W64
  length : W64
  deriving DecidableEq, Repr

/-- A leap-second entry of LEAP_TABLE_SET (Table 15.16). -/
structure LeapEntry where
  dt   : W64
  kind : Byte
  l    : W16
  deriving DecidableEq, Repr

/-- The fields of CLOCK_CONFIG by target (Table 15.15); `other` is a TARGET above 5, for which no layout applies. -/
inductive ClockBody where
  | lock   (pllG : Bool) (window n : W16)
  | clkout (enable : Byte) (delay : W16) (d m : W32)
  | ppsOut (enable squelch : Byte) (highMs : W16)
  | adc    (adcB : Bool) (divider : Byte) (delay : W16)
  | other  (target : Byte) (rest : List Byte)
  deriving DecidableEq, Repr

/-- A reference entry of REF_CONFIG (Table 15.16). -/
structure RefEntry where
  code     : Byte
  freqPrio : Byte
  timePrio : Byte
  qS       : Byte
  option   : Byte
  prefSlot : W16
  deriving DecidableEq, Repr

/-- The parameters of REF_CONFIG (Table 15.16). -/
structure RefParams where
  holdoverS : W32
  xoKind    : Byte
  entries   : List RefEntry
  deriving DecidableEq, Repr

/-- The parameters of PLAN_POLICY (Table 15.17). -/
structure PlanPolicyParams where
  policy : Byte
  mask   : Byte
  plan   : Byte
  deriving DecidableEq, Repr

/-- One iteration band of LDPC_POLICY (Table 15.18). -/
structure LdpcBand where
  i      : Byte
  iExt   : Byte
  capPct : W16
  deriving DecidableEq, Repr

/-- A symbol class of a time-code format (Table 6.4). -/
structure TcClass where
  minMs   : W16
  maxMs   : W16
  meaning : Byte
  deriving DecidableEq, Repr

/-- A field entry of a time-code format (Table 6.5). -/
structure TcField where
  kind        : Byte
  first       : Byte
  length      : Byte
  coding      : Byte
  weightStart : Byte
  checkSymbol : Byte
  deriving DecidableEq, Repr

/-- A time-code format (Table 6.4); N_FIELDS is the length of `fields`, and the table gives room for four classes. -/
structure TcFormat where
  format       : Byte
  version      : Byte
  symbols      : Byte
  symbolPeriod : W16
  keying       : Byte
  thresholdPct : Byte
  nClasses     : Byte
  frameMarkPos : Byte
  labelRef     : Byte
  timeScale    : Byte
  stdOffsetMin : W16
  baseYear     : W16
  class0       : TcClass
  class1       : TcClass
  class2       : TcClass
  class3       : TcClass
  fields       : List TcField
  deriving DecidableEq, Repr

/-- A calibration block as CAL_WRITE carries it (Table 13.2 and its body); LENGTH is the length of `body`. -/
structure CalBlock where
  block    : Byte
  version  : Byte
  state    : Byte
  fails    : Byte
  dt       : W64
  unit     : W64
  quality  : W16
  quality2 : W16
  body     : List Byte
  deriving DecidableEq, Repr

/-- A carrier range of TRUNK_MASK (Table 15.19). -/
structure MaskRange where
  first : W16
  last  : W16
  atten : Byte
  deriving DecidableEq, Repr

/-- A calendar value of the RTC (Table 15.20). -/
structure Calendar where
  year   : W16
  month  : Byte
  day    : Byte
  hour   : Byte
  minute : Byte
  second : Byte
  deriving DecidableEq, Repr

/-- How an ATTN write ended on the wire (R448 to R451). -/
inductive AttnResult where
  | sent | arbLost | nack
  deriving DecidableEq, Repr

/-- A frame of the chain port after its byte stuffing is undone (R464); LEN is the length of `payload`. -/
structure ChainFrame where
  seq     : Byte
  hw      : W16
  payload : List Byte
  crc     : W16
  deriving DecidableEq, Repr

/-- How a PLL-S recalibration went (Table 4.3, R119): how many attempts failed to lock (3: none locked), how long the
interruption lasted, and the VCO band that calibration chose. -/
structure LockRun where
  failures : Nat
  durNs    : Nat
  band     : Nat
  deriving DecidableEq, Repr

/-- One processor segment at a start (R463): whether it reported ready at the first and the second load, and whether
the segment of the other slot did. -/
structure SegLoad where
  target : Byte
  first  : Bool
  second : Bool
  other  : Bool
  deriving DecidableEq, Repr

/-- What a start meets (Table 19.6, R438, R452, R471, R488): the sampled balls, the flash size that SFDP gives, the
segment loads, and the band of PLL-G. -/
structure StartIn where
  boot     : Nat
  twAddr   : Nat
  sfdpSize : Nat
  segs     : List SegLoad
  bandG    : Nat
  wait     : Nat
  deriving DecidableEq, Repr

/-- How the flash behaved for one journal commit (R469 to R475): the body's length, whether the first CRC came out as
all ones, how many pages had to be skipped, how many copies failed their read-back, and, for each erase that the
commit needed, whether the sector read blank. -/
structure CommitIn where
  group     : Nat
  len       : Nat
  crcOnes   : Bool
  skip      : Nat
  misreads  : Nat
  blank     : List Bool
  deriving DecidableEq, Repr

/-- A received RDS group (R170, R172): its four blocks of 26 bits as they were sliced, each with the bits that are erasures, how
many blocks of offset E were counted since the group before, and the DT of block A's first bit. -/
structure RdsGroupIn where
  blocks  : List (BitVec 26 × BitVec 26)
  eBlocks : Nat
  stamp   : W64
  deriving DecidableEq, Repr

/-- A run of keyed time-code symbols from one frame-marker position to the next (R181, R182): the mark widths in ms,
0 for a symbol with no mark, the DT of the labelled edge, and whether a gap interrupted the frame. -/
structure TcFrameIn where
  widths : List Nat
  stamp  : W64
  gap    : Bool
  deriving DecidableEq, Repr

/-- A PLP of a television multiplex as its signalling gives it (R19, R218, R220, R237): identifier, signalled net rate,
code rate, codeword bits, interleaving span, group, whether it is a common PLP, and what its TS carries. -/
structure Plp where
  id      : Nat
  netKbps : Nat
  rateNum : Nat
  rateDen : Nat
  bits    : Nat
  spanNs  : Nat
  group   : Nat
  common  : Bool
  onid    : W16
  tsid    : W16
  lls     : Bool
  deriving DecidableEq, Repr

/-- The signalling of a television multiplex (R213 to R218, TV_QUERY): standard 0 DVB-T, 1 DVB-T2, 2 ATSC 3.0. -/
structure TvSignal where
  std         : Nat
  bandwidth   : Nat
  identity    : W64
  tsKbps      : Nat
  plps        : List Plp
  unsupported : Bool
  sig         : List Byte
  deriving DecidableEq, Repr

/-- A physical-layer time indication (R235): code 5 or 6, the slot that gives it, its label as DT, its stamp, and
whether ATSC 3.0 gives it only to the millisecond. -/
structure TimeInd where
  slot   : Nat
  label  : W64
  stamp  : W64
  coarse : Bool
  deriving DecidableEq, Repr

/-- A strong carrier of a band lane (R153): frequency in kHz, level in 0.01 dBm, bins, and level in 0.01 dBFS referred
to the converter (R89). -/
structure StrongCarrier where
  freqKhz : Nat
  level   : Int
  bins    : Nat
  dbfs    : Int
  deriving DecidableEq, Repr

/-- A sub-channel of a DAB ensemble as the MCI gives it (R194, R196): identifier, start address, size, protection and
bit rate. -/
structure SubCh where
  id         : Nat
  start      : Nat
  size       : Nat
  protection : Nat
  kbps       : Nat
  deriving DecidableEq, Repr

/-- A service component of a DAB ensemble (FIGs 0/2, 0/3 and 0/8): SId, SCIdS, its sub-channel, and whether it is carried in
packet mode, then with its packet address. -/
structure DabComp where
  sid    : W32
  scids  : Nat
  subCh  : Nat
  packet : Bool
  address : Nat
  deriving DecidableEq, Repr

/-- An item of a FIB, as the parsers read it (Table 9.1, EN 300 401). `fig00` carries a pending change and the CIF count
at which it occurs. -/
inductive FigItem where
  | fig00 (eid : W16) (cif : Nat) (change : Option Nat)
  | mci (next : Bool) (subChs : List SubCh) (comps : List DabComp)
  | fig06 (active : Bool) (keys : List W64)
  | fig09 (ecc : Byte)
  | fig017 (sid : W32) (pty : Byte)
  | fig018 (sid : W32) (support : W16) (clusters : List Byte)
  | fig019 (cluster : Byte) (asw : W16) (subCh : Nat)
  | fig021 (key : W64) (freqs : List Nat)
  | fig024 (sid : W32) (ensembles : List W64)
  | label (sid : W32) (name : List Byte)
  deriving DecidableEq, Repr

/-- A FIB of an ensemble (R194): whether its CRC holds, and its items. -/
structure FibIn where
  carrier : W64
  good    : Bool
  stamp   : W64
  raw     : List Byte
  items   : List FigItem
  deriving DecidableEq, Repr

/-- A service of an SDT or an SLT: service id, name, type or category, scrambling, and its audio coding code. -/
structure SiService where
  sid       : W16
  name      : List Byte
  svcType   : Byte
  scrambled : Bool
  audio     : Byte
  deriving DecidableEq, Repr

/-- An item of a PSI or SI section or an LLS table, as the parsers read it (Table 9.1). `pmt` names its programme, and
`other` is a section or table that the parsers do not read. -/
inductive SecItem where
  | pat
  | pmt (sid : W16)
  | other
  | nit (onid tsid : W16) (freqs : List Nat)
  | sdt (other : Bool) (onid tsid : W16) (services : List SiService)
  | slt (bsid : W16) (services : List SiService)
  | systemTime (leap : Option (W64 × Bool)) (l : W16)
  | aeat (id : W32) (cancel : Bool) (expiry : W64)
  deriving DecidableEq, Repr

/-- A section or LLS table of a multiplex (R240): its PID or PLP_ID, whether its CRC holds, its bytes, and what it says. -/
structure SectionIn where
  carrier : W64
  id      : Nat
  good    : Bool
  stamp   : W64
  raw     : List Byte
  item    : SecItem
  deriving DecidableEq, Repr

/-- An entry of the service map (Table 9.2). `signal`, `kbps` and `pcmRate` (decoded rate in 0.1 kHz, 0 unknown) are what
discovery read of the carrier's parameters, which the costs of R18 to R20 and the grouping of R317 need. -/
structure MapEntry where
  key      : W64
  carrier  : W64
  freqKhz  : W32
  inputs   : Byte
  flags    : Byte
  level    : W16
  margin   : W16
  freqs    : List W32
  linkSet  : Byte
  lastSeen : W32
  pty      : Byte
  svcType  : Byte
  announce : W16
  audio    : Byte
  name     : List Byte
  signal   : Option TvSignal
  kbps     : Nat
  pcmRate  : Nat
  deriving DecidableEq, Repr

/-- A probe (R245, R255): standard 0 FM, 1 DAB, 2 DVB, 3 ATSC 3.0; frequency and input; and the slot and candidate key
it is for, or none for discovery. -/
structure ProbeIn where
  standard : Nat
  freqKhz  : Nat
  input    : Nat
  forSlot  : Option (Nat × W64)
  urgent   : Bool
  deriving DecidableEq, Repr

/-- How a probe ended (Table 9.4): whether the carrier was detected, the entries its identity gave, its margin in
0.1 dB, and the programme offset, where one was measured. -/
structure ProbeOut where
  standard : Nat
  freqKhz  : Nat
  input    : Nat
  forSlot  : Option (Nat × W64)
  detected : Bool
  entries  : List MapEntry
  margin   : Int
  offset   : Option Int
  passEnd  : Bool
  deriving DecidableEq, Repr

/-- What alignment found at a splice (Table 9.8): method 0 CONTENT to 3 NONE, the offset in ns, the correlation peak in
units of 0.001, and whether the target's mean margin held (R259). -/
structure SpliceIn where
  method : Nat
  delta  : Int
  peak   : Nat
  held   : Bool
  deriving DecidableEq, Repr


/-- What a tick measured on one input over every sample that is not BLANKED (R79, R84): RMS and peak in 0.01 dBFS, the
count of OVERLOAD samples, and whether every sample was BLANKED (R81). -/
structure InputMeas where
  rms        : Int
  peak       : Int
  ovl        : Nat
  allBlanked : Bool
  deriving DecidableEq, Repr

/-- What a tick measured on one running lane, named by class and index (R140, R151, R153): marked time in ns, the saturated FIR
outputs of the tick, and the strong carriers of the last second on an RF band lane. -/
structure LaneMeas where
  cls       : Nat
  index     : Nat
  marked    : Nat
  firSat    : Nat
  carriers  : List StrongCarrier
  deriving DecidableEq, Repr

/-- Codewords that the time de-interleaver of a PLP completed in a tick (R228); carrier 0 is the trunk. `need` is the
number of iterations until every parity check holds, if it ever does. -/
structure CwBatch where
  carrier : W64
  plp     : Nat
  need    : List (Option Nat)
  deriving DecidableEq, Repr

/-- Tiles that a core of a time-shared class still had when the tick boundary arrived (R40): the class of Table 1.7, how
many tiles, and the slots that lost output. -/
structure TileLoss where
  cls   : Nat
  tiles : Nat
  slots : List Nat
  deriving DecidableEq, Repr

/-- The current source of a followed service in a tick (R257, R258, R271): its margin averaged over 1 s in 0.1 dB, whether
it has lost synchronisation, and whether the target of a splice in preparation has failed. -/
structure SourceMeas where
  slot       : Nat
  margin     : Int
  lost       : Bool
  targetLost : Bool
  deriving DecidableEq, Repr

/-- An engine value in the form of Table 10.8: TABLE, ROW, SUB and the VALUE bytes (R290). -/
structure StatItem where
  table : Nat
  row   : Nat
  sub   : Nat
  value : List Byte
  deriving DecidableEq, Repr

/-- What the start calibration measured (Table 13.5): the lock of PLL-S and the margin of its tuning voltage in mV, STEP
and LINE per input, the alignment delays and the residual in ps, three results per slice of each ADC, the quality
figures per block, and how often each step had to be repeated. -/
structure StartCal where
  lock      : LockRun
  tuneMv    : Int
  tuneOk    : Bool
  steps     : List (List Int)
  lines     : List (List Int)
  delayB    : Nat
  delayLf   : Nat
  residual  : Nat
  slices    : List (Nat × Nat × List (Int × Int × Int))
  quality   : List (Nat × Int × Int)
  repeats   : List (Nat × Nat)
  deriving DecidableEq, Repr

/-- What a tick measured (R79, R128, R151, R228, R323, R492), and the host's writes since the last tick. `errors` gives,
per time source code, DT minus the source's time in ns; `ratios` the transmitter clock offset r − 1 of a carrier in
0.001 ppm (R189, R212); `tsKbps` a regenerated TS rate that its engine measured (R20); `engines` the values that the
engine of a slot measured over the tick (R187, R208, R239); `cal` what a foreground calibration that ends in the tick measured, one
entry for each plan it ran under (R383). -/
structure TickIn where
  temp      : W16
  inputs    : List InputMeas
  lanes     : List LaneMeas
  edgeA     : Bool
  edgeB     : Bool
  errors    : List (Nat × Int)
  eps       : Int
  slewDone  : Bool
  codewords : List CwBatch
  tileLoss  : List TileLoss
  sources   : List SourceMeas
  portErr   : List (Nat × Int)
  ratios    : List (W64 × Int)
  tsKbps    : List (W64 × Nat)
  engines   : List (Nat × List StatItem)
  cal       : List StartCal
  writes    : List (Nat × Byte)
  deriving DecidableEq, Repr

/-- What a SLAVE audio port measured over 10 ms (R326): the FS period in bit clocks, the rate's deviation in ppm, and for
how many nominal frame periods no FS arrived. -/
structure SlaveClock where
  port    : Nat
  fsBits  : Nat
  ppm     : Int
  missing : Nat
  deriving DecidableEq, Repr

/-- An underrun or overrun of a programme (R330, R331): kind 0 or 1, cause 0 to 2, and the silent time. -/
structure Underrun where
  port     : Nat
  portSlot : Nat
  kind     : Nat
  cause    : Nat
  silentUs : Nat
  deriving DecidableEq, Repr

/-- A record that an engine adds to a tick's side data (Table 10.7): its type, whether it passed its check, whether it is a DLS or
DL Plus group (R204), its stamp's low word, and its body. -/
structure SideIn where
  type  : Nat
  check : Bool
  dls   : Bool
  off   : W32
  body  : List Byte
  deriving DecidableEq, Repr

/-- The content of a finished unit, in the terms of Table 10.5, as the engine or lane has it before the service's settings
choose from it. `ts` holds the PIDs that the service's PMT gives it (its own, those of its streams and of its PCR) and the
packets of the regenerated TS, each with whether it is a null packet that null packet deletion had removed (R222), those of
PID 0 as the device rewrote them for a key 0x6 (R231). `iq` holds lane outputs (R158). -/
inductive Content where
  | pcm (channels rate clock : Nat) (samples : List (BitVec 24))
  | compressed (coding : Nat) (params : W32) (aus : List (Bool × Bool × List Byte))
  | ts (own : List Nat) (packets : List (Bool × List Byte))
  | alp (packets : List (Nat × List Byte))
  | dab (entries : List (Nat × Nat × Nat × List Byte))
  | side (records : List SideIn)
  | iq (input n : Nat) (centreKhz : W32) (pairs : List (Int × Int))
  deriving DecidableEq, Repr

/-- A unit that an engine or lane finished: slot and kind, the RF instant of Table 2.1, its span in ns, the DT at which
the OFDM frame that it is drawn from began (R63), the marks of the samples that contributed (R150, R156), what the
engine found (R177, R199, R203, R217, R230), and whether it draws on each of the tick's lanes that were impaired. -/
structure UnitIn where
  slot      : Nat
  kind      : Nat
  stamp     : W64
  spanNs    : Nat
  frame     : Option W64
  blanked   : Bool
  overload  : Bool
  impulse   : Bool
  unsettled : Bool
  impaired  : Bool
  degraded  : Bool
  concealed : Bool
  lost      : Bool
  content   : Content
  deriving DecidableEq, Repr

/-- A lane section of Table 10.8: peak, RMS and the envelope's extremes in 0.01 dBm, and five counts. -/
structure LaneStat where
  cls       : Nat
  index     : Nat
  peak      : Int
  rms       : Int
  envMin    : Int
  envMax    : Int
  blanked   : Nat
  overload  : Nat
  impulse   : Nat
  unsettled : Nat
  firSat    : Nat
  deriving DecidableEq, Repr

/-- The measures of a service's statistics interval (R66, R290): lane sections, and engine values. -/
structure StatIn where
  slot     : Nat
  impaired : Nat
  lanes    : List LaneStat
  items    : List StatItem
  deriving DecidableEq, Repr

/-- The spectrum of a service's lane over a spectrum interval (R153). -/
structure SpectrumIn where
  slot       : Nat
  stamp      : W64
  spanNs     : Nat
  transforms : Nat
  centreKhz  : W32
  binMhz     : W32
  levels     : List Int
  deriving DecidableEq, Repr

/-- The result of an ADC rotation step (R371): which ADC, the percentage of usable samples, and the spare's OFFSET, GAIN
and SKEW in the units of Table 13.3, with the quality figures they give. -/
structure RotationIn where
  adc      : Nat
  usable   : Nat
  offset   : Int
  gain     : Int
  skew     : Int
  quality  : Int
  quality2 : Int
  deriving DecidableEq, Repr

/-- An estimation window of an ADC in ESTIMATION_ONLY (R374): the input's RMS level in 0.01 dBFS, and per slice the
estimate of its OFFSET, GAIN and SKEW. -/
structure EstimationIn where
  adc       : Nat
  rms       : Int
  estimates : List (Nat × Int × Int × Int)
  quality   : Int
  quality2  : Int
  deriving DecidableEq, Repr

/-- A flatness burst (R376): the input, and the LINE values it gave. -/
structure BurstIn where
  input   : Nat
  lines   : List Int
  quality : Int
  deriving DecidableEq, Repr

/-- A fit of the trunk equaliser (R379): taps, the response spread in 0.1 dB, the ripple, and the largest change of any
carrier in 0.01 dB, with the taps of a first step of at most 0.5 dB. -/
structure EqFit where
  taps    : List Int
  spread  : Nat
  ripple  : Int
  change  : Nat
  stepTap : List Int
  deriving DecidableEq, Repr

/-- A codeword as a part of a trunk frame brought it (R341): its information bytes, and whether the LDPC decoder
converged. -/
structure RxCodeword where
  bytes     : List Byte
  converged : Bool
  deriving DecidableEq, Repr

/-- What a trunk frame brought (R335, R336, R348): the table ID of the partner's data preamble or none, the arrival error
Δ in 0.1 ns, the measured time-role error e in ns, the mean data-carrier SNR in dB, the idle noise per carrier in the
units of the NOISE packet, and the codewords of the partner's part. -/
structure TrunkFrameIn where
  preamble : Option Nat
  delta    : Int
  e        : Int
  snrDb    : Int
  noise    : List Byte
  rx       : List RxCodeword
  deriving DecidableEq, Repr

/-- A decoded control burst (R338): its profile, the pair identity, the arrival error in 0.1 ns, the SNR of its preamble
in dB, and its codeword. -/
structure ControlBurst where
  profile : Nat
  pairId  : W32
  delta   : Int
  snrDb   : Int
  bytes   : List Byte
  deriving DecidableEq, Repr

/-- A UNIT packet (Table 12.8): its counter, its priority, and the record header with its payload. -/
structure TrunkUnit where
  ctr    : Byte
  prio   : Byte
  record : List Byte
  deriving DecidableEq, Repr

/-- An ACK packet. -/
structure TrunkAckIn where
  space : Byte
  base  : W16
  bits  : List Bool
  deriving DecidableEq, Repr

/-- A LOADING packet: one b per data carrier in ascending n. -/
structure LoadingIn where
  tableId : Byte
  rate    : Byte
  maskGen : W16
  switchF : W32
  bits    : List Nat
  deriving DecidableEq, Repr

/-- A LOADING_ACK packet. -/
structure LoadingAckIn where
  tableId : Byte
  switchF : W32
  deriving DecidableEq, Repr

/-- A MASK packet: one byte per carrier 80 to 4,000. -/
structure MaskIn where
  maskGen : W16
  switchF : W32
  values  : List Byte
  deriving DecidableEq, Repr

/-- A NOISE packet: one byte per carrier 80 to 4,000. -/
structure NoiseIn where
  frame  : W32
  values : List Byte
  deriving DecidableEq, Repr

/-- A TIME packet: Δ or a, and d, in 0.1 ns. -/
structure TrunkTimeIn where
  frame : W32
  value : Int
  d     : Nat
  deriving DecidableEq, Repr

/-- A SLEEP packet: P in s, W in ms, and state 0 awake or 1 sleep. -/
structure SleepIn where
  first : W64
  pS    : W16
  wMs   : W16
  sleep : Bool
  deriving DecidableEq, Repr

/-- What a receiver measured for its loading table (R349, R351): SNR_c per data carrier in 0.01 dB, and how many of the
last 100 frames' codewords failed out of how many. -/
structure RecomputeIn where
  snr    : List Int
  failed : Nat
  total  : Nat
  deriving DecidableEq, Repr

/-- The 88 bits of a wake call as the envelope detector read them (Table 12.11), in bytes. -/
structure WakeCallIn where
  bytes : List Byte
  deriving DecidableEq, Repr

/-- The commands: one constructor per row of opcode_table.json, in the order of the table. -/
inductive Instr where
  | deviceInfo (h : CmdHdr)
  | cmdRingConfig (h : CmdHdr) (items : List Item)
  | nop (h : CmdHdr) (data : List Byte)
  | eventRoute (h : CmdHdr) (transport : Byte) (mask : Option (BitVec 128))
  | eventFetch (h : CmdHdr)
  | modeSet (h : CmdHdr) (mode : Byte)
  | wakeBudget (h : CmdHdr) (budgetMs : W32)
  | modeQuery (h : CmdHdr)
  | reset (h : CmdHdr) (kind : Byte) (confirm : W16)
  | thermalQuery (h : CmdHdr)
  | serviceAdd (h : CmdHdr) (attrs : AttrBlock)
  | serviceRemove (h : CmdHdr)
  | serviceModify (h : CmdHdr) (attrs : AttrBlock)
  | serviceQuery (h : CmdHdr) (key : Option W64)
  | placementPolicy (h : CmdHdr) (params : Option PlacementParams)
  | placementQuery (h : CmdHdr)
  | surveyConfig (h : CmdHdr) (params : Option SurveyParams)
  | mapQuery (h : CmdHdr)
  | mapRead (h : CmdHdr) (byKey : Byte) (first : W16) (key : W64)
  | followPolicy (h : CmdHdr) (items : List Item)
  | linksetSet (h : CmdHdr) (index : Byte) (keys : List W64)
  | linksetQuery (h : CmdHdr) (index : Byte)
  | followQuery (h : CmdHdr)
  | alertConfig (h : CmdHdr) (params : Option AlertParams)
  | ringConfig (h : CmdHdr) (ring : Byte) (items : List Item)
  | ringQuery (h : CmdHdr) (ring : Byte)
  | archiveConfig (h : CmdHdr) (items : List Item)
  | archiveExtentAdd (h : CmdHdr) (extents : List Extent)
  | archiveQuery (h : CmdHdr) (what : Byte) (first : W16)
  | outputQuery (h : CmdHdr) (first : W16)
  | audioPortConfig (h : CmdHdr) (port : Byte) (items : List Item)
  | audioPortQuery (h : CmdHdr) (port : Byte)
  | audioPortStart (h : CmdHdr) (mask trigger : Byte) (startDt : W64)
  | audioPortStop (h : CmdHdr) (mask : Byte)
  | pktPortConfig (h : CmdHdr) (port : Byte) (items : List Item)
  | pktPortQuery (h : CmdHdr) (port : Byte)
  | timeSet (h : CmdHdr) (form arm : Byte) (value : W64)
  | timeQuery (h : CmdHdr)
  | leapTableSet (h : CmdHdr) (mode : Byte) (expiry : W64) (entries : List LeapEntry)
  | leapTableQuery (h : CmdHdr)
  | clockConfig (h : CmdHdr) (body : ClockBody)
  | clockQuery (h : CmdHdr)
  | refConfig (h : CmdHdr) (params : Option RefParams)
  | refQuery (h : CmdHdr)
  | ppsTod (h : CmdHdr) (dt : W64)
  | rfConfig (h : CmdHdr) (input gainMode target atten : Byte)
  | rfQuery (h : CmdHdr) (input : Byte)
  | planPolicy (h : CmdHdr) (params : Option PlanPolicyParams)
  | planDefer (h : CmdHdr) (seconds : W16)
  | planQuery (h : CmdHdr)
  | coexConfig (h : CmdHdr) (items : List Item)
  | coexQuery (h : CmdHdr)
  | combTest (h : CmdHdr) (input on : Byte)
  | firBankLoad (h : CmdHdr) (cls bank phase : Byte) (coeffs : List W32)
  | firBankQuery (h : CmdHdr) (cls bank : Byte)
  | laneQuery (h : CmdHdr) (first : W16)
  | laneConfig (h : CmdHdr) (items : List Item)
  | analogueConfig (h : CmdHdr) (items : List Item)
  | analogueQuery (h : CmdHdr)
  | timecodeFormatLoad (h : CmdHdr) (fmt : TcFormat)
  | timecodeFormatQuery (h : CmdHdr) (format : Byte)
  | dabConfig (h : CmdHdr) (items : List Item)
  | dabQuery (h : CmdHdr)
  | tvConfig (h : CmdHdr) (items : List Item)
  | tvQuery (h : CmdHdr)
  | ldpcPolicy (h : CmdHdr) (bands : Option (List LdpcBand))
  | ldpcQuery (h : CmdHdr)
  | calRun (h : CmdHdr) (target options scope : Byte)
  | calQuery (h : CmdHdr)
  | calRead (h : CmdHdr) (block : Byte)
  | calWrite (h : CmdHdr) (block : CalBlock)
  | calConfig (h : CmdHdr) (items : List Item)
  | trunkConfig (h : CmdHdr) (items : List Item)
  | trunkQuery (h : CmdHdr)
  | trunkSleep (h : CmdHdr) (firstDt : W64)
  | trunkWake (h : CmdHdr)
  | trunkMask (h : CmdHdr) (ranges : List MaskRange)
  | trunkRemote (h : CmdHdr) (packet : List Byte)
  | trunkNoiseQuery (h : CmdHdr) (endOf : Byte) (first : W16)
  | imageBegin (h : CmdHdr) (slot : Byte) (length : W32)
  | imageData (h : CmdHdr) (slot : Byte) (offset : W32) (data : List Byte)
  | imageEnd (h : CmdHdr) (slot : Byte)
  | imageActivate (h : CmdHdr) (slot : Byte) (dt : W64)
  | imageQuery (h : CmdHdr)
  | settingsQuery (h : CmdHdr)
  | settingsReset (h : CmdHdr) (groups : W32) (confirm : W16)
  | otpKey (h : CmdHdr) (action keySlot : Byte) (confirm : W16) (hash : List Byte)
  | chainConfig (h : CmdHdr) (enable : Byte)
  | rtcSet (h : CmdHdr) (cal : Calendar) (option : Byte)
  | rtcQuery (h : CmdHdr)
  | backupWrite (h : CmdHdr) (offset : Byte) (data : List Byte)
  | backupRead (h : CmdHdr) (offset len : Byte)
  | rtcAlarm (h : CmdHdr) (cal : Calendar) (enable : Byte)
  | diagQuery (h : CmdHdr)
  | diagLogRead (h : CmdHdr) (first : W16)
  | mailboxDoorbell (bus : Bus) (wait : Nat)
  | cmdRingDoorbell (bus : Bus) (producer : BitVec 24) (writes : List (Nat × Byte)) (wait : Nat)
  | intStatusWrite (bus : Bus) (value : W32)
  | intEnableWrite (bus : Bus) (value : W32)
  | dtMatchCommit (bus : Bus) (hi : W32) (wait : Nat)
  | multiwordSnapshotRead (bus : Bus) (addr : W16) (wait : Nat)
  | registerWrite (bus : Bus) (addr : W16) (len : Nat) (value : W64) (enables : Bool)
  | msixUnmask (enable funcMask : Bool) (masked : W64)
  | pciePowerState (d3 pme : Bool)
  | perst
  | writePacket (bytes : List Byte) (cutOff : Bool) (wait : Nat)
  | readStatus
  | readPacket (complete : Bool)
  | twWriteTransaction (addrByte : Byte) (bytes : List Byte) (stopped : Bool) (wait : Nat)
  | twReadTransaction (addrByte : Byte) (count : Nat) (wait : Nat)
  | twTimeout
  | attnWrite (result : AttnResult) (wait : Nat)
  | attnWriteRetry (result : AttnResult) (wait : Nat)
  | chainImageStart (f : ChainFrame) (wait : Nat)
  | chainImageBlock (f : ChainFrame) (wait : Nat)
  | chainImageDone (f : ChainFrame) (wait : Nat)
  | chainActivate (f : ChainFrame) (wait : Nat)
  | tick (inp : TickIn)
  | thermalShedStep
  | thermalRestart (temp : W16)
  | engineSettled (slot : Nat) (wait : Nat)
  | migrationSwitch (slot : Nat) (wait : Nat)
  | migrationRelease (slot : Nat)
  | migrationAbandon (slot : Nat) (wait : Nat)
  | planChange (lock : LockRun)
  | planDeferralEnd (wait : Nat)
  | pllSLockLost (lock : LockRun) (wait : Nat)
  | pllSRetry (lock : LockRun) (wait : Nat)
  | pllGLockLost
  | ppsEdge (wait : Nat)
  | referenceQualified (code : Nat) (timeRole : Bool) (wait : Nat)
  | referenceLoss (code : Nat) (wait : Nat)
  | holdoverExpiry (wait : Nat)
  | timeStep
  | dtWrap
  | dtMatchExpiry (bus : Bus) (wait : Nat)
  | coexRequest (pri gntIn : Bool) (wait : Nat)
  | coexGrant (wait : Nat)
  | coexRelease (wait : Nat)
  | coexTailExpiry (wait : Nat)
  | coexGrantLimit (wait : Nat)
  | protectionWindowLead (wait : Nat)
  | protectionWindowEnd (wait : Nat)
  | coexAckTimeout (wait : Nat)
  | coexInputStuck (wire : Nat) (wait : Nat)
  | audStartEdge (rising : Bool) (wait : Nat)
  | audioPortTrigger (wait : Nat)
  | slaveClockCheck (m : SlaveClock) (wait : Nat)
  | audioUnderrun (u : Underrun) (wait : Nat)
  | zeroCrossingSwitch (port channel : Nat) (wait : Nat)
  | zeroCrossingTimeout (port channel : Nat) (wait : Nat)
  | unitCompletion (u : UnitIn) (wait : Nat)
  | collectorWrite (writes : List (Nat × Byte)) (wait : Nat)
  | engineHoldDrop (slot : Nat) (kind : Byte)
  | ringModerationTimer (ring : Nat) (wait : Nat)
  | archiveIndexUnit (slot : Nat)
  | statisticsIntervalEnd (st : StatIn)
  | spectrumIntervalEnd (sp : SpectrumIn)
  | pktPortPacket (port : Nat) (wait : Nat)
  | rdsGroup (slot : Nat) (g : RdsGroupIn) (wait : Nat)
  | rdsSyncLoss (slot : Nat) (wait : Nat)
  | pilotStateChange (slot : Nat) (present : Bool) (wait : Nat)
  | amSyncLock (slot : Nat) (locked : Bool) (wait : Nat)
  | timecodeFrame (slot : Nat) (f : TcFrameIn) (wait : Nat)
  | fibReceived (f : FibIn) (wait : Nat)
  | dabReconfiguration (carrier : W64) (cif : Nat) (wait : Nat)
  | dabSyncLoss (carrier : W64) (wait : Nat)
  | dabSearchTimeout (carrier : W64) (wait : Nat)
  | sectionReceived (x : SectionIn) (wait : Nat)
  | tvSyncLoss (carrier : W64) (wait : Nat)
  | tvReconfiguration (carrier : W64) (t : TvSignal) (wait : Nat)
  | tvSearchTimeout (carrier : W64) (wait : Nat)
  | timeIndication (ti : TimeInd) (wait : Nat)
  | alertTimeout (slot : Nat) (wait : Nat)
  | probeStart (p : ProbeIn) (wait : Nat)
  | probeEnd (p : ProbeOut) (wait : Nat)
  | mapPublication
  | mapEntryExpiry (key : W64)
  | spliceSwitch (slot : Nat) (m : SpliceIn) (wait : Nat)
  | spliceTimeout (slot : Nat) (wait : Nat)
  | rotationStep (r : RotationIn)
  | estimationWindow (r : EstimationIn)
  | flatnessBurst (b : BurstIn)
  | rtcTrimMeasure (errorCppm : Int) (wait : Nat)
  | equaliserFit (f : EqFit) (wait : Nat)
  | modeTransition (c : StartCal) (segs : List SegLoad)
  | modeTransitionComplete (wait : Nat)
  | trunkFrame (f : TrunkFrameIn)
  | controlBurstReceived (b : ControlBurst) (wait : Nat)
  | trunkUnitPacket (u : TrunkUnit) (wait : Nat)
  | trunkCommandPacket (packet : List Byte) (wait : Nat)
  | trunkReplyEventPacket (packet : List Byte) (wait : Nat)
  | trunkAck (a : TrunkAckIn) (wait : Nat)
  | trunkLoading (l : LoadingIn) (wait : Nat)
  | trunkLoadingAck (l : LoadingAckIn) (wait : Nat)
  | trunkMaskPacket (m : MaskIn) (wait : Nat)
  | trunkNoise (n : NoiseIn) (wait : Nat)
  | trunkTime (t : TrunkTimeIn) (wait : Nat)
  | trunkSleepPacket (p : SleepIn) (wait : Nat)
  | loadingRecompute (r : RecomputeIn) (wait : Nat)
  | trunkAckTimeout (wait : Nat)
  | trunkLoss (wait : Nat)
  | trunkRemoteResend (seq : W16) (wait : Nat)
  | meetWindowWake (wait : Nat)
  | meetWindowEnd (wait : Nat)
  | wakeCallAccepted (c : WakeCallIn) (wait : Nat)
  | wakeCallSend (wait : Nat)
  | recoveryTimeout (wait : Nat)
  | longCall (wait : Nat)
  | imageActivation
  | trialConfirm
  | trialFailure
  | journalCommit (c : CommitIn)
  | powerOnReset (allDown : Bool)
  | railPowerLoss (allDown vbatOk : Bool)
  | resetNAsserted
  | watchdogReset
  | deviceStart (inp : StartIn)
  | backupDomainReset
  | rtcSecondRollover
  | rtcUnlockTimeout
  | rtcWriteCommit (wait : Nat)
  | rtcDtCorrection (diffUs : Nat) (wait : Nat)
  | oscillatorStopped
  | rdsSynchronisation (slot : Nat) (wait : Nat)
  | dabSynchronised (carrier : W64) (mode : Nat) (wait : Nat)
  | tvSynchronised (carrier : W64) (t : TvSignal) (wait : Nat)
  | carrierDetected (wait : Nat)
  | chainByteReceived (b : Byte)
  | boundaryScan (edges : List (Bool × Bool))
  deriving DecidableEq, Repr

end Sys2Proof
end

