-- ==== Sys2Proof/Machine/PartsProto.lean ====
section
/-! DEFINITION. The parts of the state that chapters 14 to 17 give: packets and replies, the queues of each transport,
the command rings, the direct registers of each bus, MSI-X, the service port and the two-wire port. -/

namespace Sys2Proof.Machine

/-- Sparse memory: (address, byte) pairs in rising order of address, listing no byte equal to what an unlisted
address reads as (`Memory.wf`). Log entry 6. -/
abbrev Memory := List Host.Cell

/-- Statuses of Table 14.7. -/
inductive Status where
  | ok | okPending | badOpcode | badLength | badParam | badCrc | badSlot | wrongMode | busyRunning | noCapacity
  | notFound | locked | thermalLimit | imageRefused | calRejected | nvReadOnly | internalFault
  deriving DecidableEq, Repr

/-- A reply, field by field (Table 14.1); `params` is what follows the DT of R53. -/
structure Reply where
  opcode : W16
  seq    : W16
  status : Status
  gen    : W16
  eff    : W32
  dt     : W64
  params : List Byte
  deriving DecidableEq, Repr

/-- An event packet of one transport (R399, Table 14.1); `params` is what follows its DT. -/
structure Event where
  code   : W16
  seq    : W16
  slot   : W16
  gen    : W16
  tick   : W32
  dt     : W64
  params : List Byte
  deriving DecidableEq, Repr

/-- A kept entry of the duplicate record (R396). The reply is absent while the placement round that makes it is
still to come (R23); `id` ties it to its place in the outbox. -/
structure DupEntry where
  seq     : W16
  trailer : W32
  id      : Nat
  reply   : Option Reply
  deriving DecidableEq, Repr

/-- A reply that waits to leave, in the order of acceptance (R402). -/
structure OutEntry where
  id      : Nat
  viaRing : Bool
  noReply : Bool
  reply   : Option Reply
  deriving DecidableEq, Repr

/-- What each transport has of its own (R388, R396, R400), and its counters of DIAG_QUERY. -/
structure Port where
  dups      : List DupEntry
  outbox    : List OutEntry
  events    : List Event
  evSeq     : W16
  accepted  : Nat
  refused   : Nat
  retries   : Nat
  evDropped : Nat
  deriving DecidableEq, Repr

/-- The command ring and the reply/event ring at run time (R391, R392); the settings are items of Table 14.3. -/
structure CmdRings where
  cmdProducer   : Nat
  cmdConsumer   : Nat
  replyProducer : Nat
  replyConsumer : Nat
  replyWraps    : Nat
  starts        : List Nat
  fault         : Bool
  cmdWasOff     : Bool
  replyWasOff   : Bool
  unsignalled   : Nat
  timerUs       : Option Nat
  deriving DecidableEq, Repr

/-- The banked registers and shadows of one bus (R424, R430, Table 16.2) and its mailbox bank (R389). INT_STATUS bit 1
is not stored: it is the state of the bus's event queue. -/
structure BusRegs where
  intStatus  : W32
  intEnable  : W32
  dtMatch    : W64
  matchArmed : Bool
  stage      : W32
  snapUnit   : W32
  snapDt     : W32
  snapMatch  : W32
  bank       : Memory
  bankBusy   : Bool
  deriving DecidableEq, Repr

/-- The PCIe endpoint (R419, R435, R487): power state and PME enable, the MSI-X capability's enables, and
the mask and pending bits of its vectors and
the address and data words of its table (PCI Express Base Specification). -/
structure Pcie where
  d3        : Bool
  pme       : Bool
  msixOn    : Bool
  funcMask  : Bool
  masked    : W64
  pba       : W64
  table     : Memory
  speed     : Nat
  width     : Nat
  deriving DecidableEq, Repr

/-- The service port (R393). -/
structure SvcPort where
  discarded : Bool
  deriving DecidableEq, Repr

/-- An ATTN write that the device has to send or repeat (R447 to R451). -/
structure AttnWrite where
  due     : W64
  arbLost : Nat
  nacks   : Nat
  deriving DecidableEq, Repr

/-- The two-wire port: its sampled address bits, pointer, half-written word and ATTN writes (chapter 17). -/
structure TwPort where
  addrBits : Nat
  pointer  : W16
  partWord : List Byte
  readWord : W32
  readLeft : Nat
  attnLow  : Bool
  lastAttn : Option W64
  attn     : Option AttnWrite
  deriving DecidableEq, Repr

/-- What left the device on a transport, a pin or a port. `pcm` is the part of a programme that an audio port plays from the
presentation time `at_` on (R318), as the words of its slots;
`floated` says that every I/O ball goes into high impedance, or leaves it (R491, R521). -/
inductive Out where
  | msix (vector : Nat)
  | svcStatus (b : Byte)
  | svcBytes (b : List Byte)
  | readData (b : List Byte)
  | attnWrite (b : List Byte)
  | chainByte (b : Byte)
  | tdo (b : Option Bool)
  | trunkFrame (control : Bool) (packets : List (List Byte))
  | wakeCall (b : List Byte)
  | tsPacket (port : Nat) (b : List Byte)
  | pcm (port slot : Nat) (at_ : Int) (words : List W32)
  | pin (name : String) (level : Bool)
  | floated (b : Bool)
  deriving DecidableEq, Repr

end Sys2Proof.Machine
end

