-- ==== Sys2Proof/Machine/Bytes.lean ====
section
/-! DEFINITION. Bytes: little-endian fields (R2), the three CRCs of the spec (R285, R341, R359), SHA-256, and ECDSA
over P-256 (R453). -/

namespace Sys2Proof.Machine

/-- The `n` bytes of `v`, low byte first (R2). -/
def le : Nat → Nat → List Byte
  | 0, _ => []
  | n + 1, v => BitVec.ofNat 8 v :: le n (v / 256)

/-- A signed value in `n` bytes, two's complement, low byte first. -/
def leInt (n : Nat) (v : Int) : List Byte := le n (v % (2 ^ (8 * n) : Nat)).toNat

/-- The value of bytes taken low byte first. -/
def unle : List Byte → Nat
  | [] => 0
  | b :: bs => b.toNat + 256 * unle bs

/-- The value of bytes taken high byte first. -/
def unbe (bs : List Byte) : Nat := bs.foldl (fun a b => a * 256 + b.toNat) 0

/-- The `n` bytes of `v`, high byte first. -/
def be (n v : Nat) : List Byte := (le n v).reverse

/-- The little-endian field of `n` bytes at offset `off`; bytes past the end read as zero. -/
def field (bs : List Byte) (off n : Nat) : Nat := unle ((bs.drop off).take n)

/-- A byte read as signed. -/
def sbyte (b : Byte) : Int := b.toInt

/-- `n` zero bytes: a reserved field (R3). -/
def zeros (n : Nat) : List Byte := List.replicate n 0

/-- How many bytes bring `n` to a multiple of `m`. -/
def padLen (m n : Nat) : Nat := (m - n % m) % m

/-- Bytes padded with zero bytes to a multiple of 4 (R410). -/
def pad4 (bs : List Byte) : List Byte := bs ++ zeros (padLen 4 bs.length)

/-- `n` rounded up to a multiple of `m`. -/
def roundUp (m n : Nat) : Nat := n + padLen m n

/-- One byte through the reflected CRC32 register. -/
def crc32Byte (c : W32) (b : Byte) : W32 :=
  (List.range 8).foldl (fun c _ => if c.getLsbD 0 then (c >>> 1) ^^^ 0xEDB88320#32 else c >>> 1)
    (c ^^^ b.setWidth 32)

/-- The CRC32 of R285: polynomial 0x04C11DB7, reflected, initial value and final XOR all ones. -/
def crc32 (bs : List Byte) : W32 := (bs.foldl crc32Byte 0xFFFFFFFF#32) ^^^ 0xFFFFFFFF#32

/-- One byte through the CRC-16 register of polynomial 0x1021, not reflected. -/
def crc16Byte (c : W16) (b : Byte) : W16 :=
  (List.range 8).foldl (fun c _ => if c.getLsbD 15 then (c <<< 1) ^^^ 0x1021#16 else c <<< 1)
    (c ^^^ (b.setWidth 16 <<< 8))

/-- The CRC-16 of R341 and R464: initial value 0xFFFF, no final XOR. -/
def crc16 (bs : List Byte) : W16 := bs.foldl crc16Byte 0xFFFF#16

/-- A CRC-8 of polynomial `poly` and initial value `init`, not reflected (R359). -/
def crc8 (poly init : Byte) (bs : List Byte) : Byte :=
  bs.foldl (fun c b =>
    (List.range 8).foldl (fun c _ => if c.getLsbD 7 then (c <<< 1) ^^^ poly else c <<< 1) (c ^^^ b)) init

/-- The round constants of SHA-256. -/
def shaK : List W32 :=
  [0x428a2f98#32, 0x71374491#32, 0xb5c0fbcf#32, 0xe9b5dba5#32, 0x3956c25b#32, 0x59f111f1#32, 0x923f82a4#32,
   0xab1c5ed5#32, 0xd807aa98#32, 0x12835b01#32, 0x243185be#32, 0x550c7dc3#32, 0x72be5d74#32, 0x80deb1fe#32,
   0x9bdc06a7#32, 0xc19bf174#32, 0xe49b69c1#32, 0xefbe4786#32, 0x0fc19dc6#32, 0x240ca1cc#32, 0x2de92c6f#32,
   0x4a7484aa#32, 0x5cb0a9dc#32, 0x76f988da#32, 0x983e5152#32, 0xa831c66d#32, 0xb00327c8#32, 0xbf597fc7#32] ++
  [0xc6e00bf3#32, 0xd5a79147#32, 0x06ca6351#32, 0x14292967#32, 0x27b70a85#32, 0x2e1b2138#32, 0x4d2c6dfc#32,
   0x53380d13#32, 0x650a7354#32, 0x766a0abb#32, 0x81c2c92e#32, 0x92722c85#32, 0xa2bfe8a1#32, 0xa81a664b#32,
   0xc24b8b70#32, 0xc76c51a3#32, 0xd192e819#32, 0xd6990624#32, 0xf40e3585#32, 0x106aa070#32, 0x19a4c116#32,
   0x1e376c08#32, 0x2748774c#32, 0x34b0bcb5#32, 0x391c0cb3#32, 0x4ed8aa4a#32, 0x5b9cca4f#32, 0x682e6ff3#32] ++
  [0x748f82ee#32, 0x78a5636f#32, 0x84c87814#32, 0x8cc70208#32, 0x90befffa#32, 0xa4506ceb#32, 0xbef9a3f7#32,
   0xc67178f2#32]

/-- The eight words of the SHA-256 chaining value. -/
structure ShaSt where
  a : W32
  b : W32
  c : W32
  d : W32
  e : W32
  f : W32
  g : W32
  h : W32
  deriving DecidableEq, Repr

/-- The initial chaining value of SHA-256. -/
def shaInit : ShaSt :=
  ⟨0x6a09e667#32, 0xbb67ae85#32, 0x3c6ef372#32, 0xa54ff53a#32, 0x510e527f#32, 0x9b05688c#32, 0x1f83d9ab#32,
   0x5be0cd19#32⟩

/-- One round, with the sum of its constant and message word. -/
def shaRound (s : ShaSt) (kw : W32) : ShaSt :=
  let s1 := s.e.rotateRight 6 ^^^ s.e.rotateRight 11 ^^^ s.e.rotateRight 25
  let ch := (s.e &&& s.f) ^^^ (~~~ s.e &&& s.g)
  let t1 := s.h + s1 + ch + kw
  let s0 := s.a.rotateRight 2 ^^^ s.a.rotateRight 13 ^^^ s.a.rotateRight 22
  let mj := (s.a &&& s.b) ^^^ (s.a &&& s.c) ^^^ (s.b &&& s.c)
  ⟨t1 + (s0 + mj), s.a, s.b, s.c, s.d + t1, s.e, s.f, s.g⟩

/-- The message schedule, newest word first. -/
def shaSchedule : Nat → List W32 → List W32
  | 0, ws => ws
  | n + 1, ws =>
    let w (i : Nat) : W32 := ws.getD i 0
    let s0 := (w 14).rotateRight 7 ^^^ (w 14).rotateRight 18 ^^^ ((w 14) >>> 3)
    let s1 := (w 1).rotateRight 17 ^^^ (w 1).rotateRight 19 ^^^ ((w 1) >>> 10)
    shaSchedule n ((w 15 + s0 + w 6 + s1) :: ws)

/-- The big-endian words of a block. -/
def shaWords : Nat → List Byte → List W32
  | 0, _ => []
  | n + 1, bs => BitVec.ofNat 32 (unbe (bs.take 4)) :: shaWords n (bs.drop 4)

/-- One 64-byte block. -/
def shaBlock (s : ShaSt) (blk : List Byte) : ShaSt :=
  let ws := (shaSchedule 48 (shaWords 16 blk).reverse).reverse
  let t := (shaK.zip ws).foldl (fun s kw => shaRound s (kw.1 + kw.2)) s
  ⟨s.a + t.a, s.b + t.b, s.c + t.c, s.d + t.d, s.e + t.e, s.f + t.f, s.g + t.g, s.h + t.h⟩

/-- `n` blocks in a row. -/
def shaBlocks : Nat → ShaSt → List Byte → ShaSt
  | 0, s, _ => s
  | n + 1, s, bs => shaBlocks n (shaBlock s (bs.take 64)) (bs.drop 64)

/-- SHA-256 of a byte string, as 32 bytes. -/
def sha256 (bs : List Byte) : List Byte :=
  let msg := bs ++ [0x80#8] ++ zeros (padLen 64 (bs.length + 9)) ++ be 8 (8 * bs.length)
  let s := shaBlocks (msg.length / 64) shaInit msg
  [s.a, s.b, s.c, s.d, s.e, s.f, s.g, s.h].flatMap (fun w => be 4 w.toNat)

/-- The field prime of P-256. -/
def p256p : Nat := 0xffffffff00000001000000000000000000000000ffffffffffffffffffffffff
/-- The group order of P-256. -/
def p256n : Nat := 0xffffffff00000000ffffffffffffffffbce6faada7179e84f3b9cac2fc632551
/-- The coefficient b of P-256. -/
def p256b : Nat := 0x5ac635d8aa3a93e7b3ebbd55769886bc651d06b0cc53b0f63bce3c3e27d2604b
/-- The base point of P-256. -/
def p256g : Nat × Nat :=
  (0x6b17d1f2e12c4247f8bce6e563a440f277037d812deb33a0f4a13945d898c296,
   0x4fe342e2fe1a7f9b8ee7eb4a7c0f9e162bce33576b315ececbb6406837bf51f5)

/-- `b ^ e mod m`, over the low `k` bits of `e`. -/
def powMod (m : Nat) : Nat → Nat → Nat → Nat
  | 0, _, _ => 1 % m
  | k + 1, b, e => let r := powMod m k (b * b % m) (e / 2); if e % 2 = 1 then b * r % m else r

/-- The inverse modulo a prime, by Fermat. -/
def invMod (m a : Nat) : Nat := powMod m 256 (a % m) (m - 2)

/-- The sum of two points of P-256; `none` is the point at infinity. -/
def ecAdd : Option (Nat × Nat) → Option (Nat × Nat) → Option (Nat × Nat)
  | none, q => q
  | p, none => p
  | some (x1, y1), some (x2, y2) =>
    if x1 = x2 ∧ (y1 + y2) % p256p = 0 then none
    else
      let lam :=
        if x1 = x2 then (3 * x1 * x1 + (p256p - 3)) * invMod p256p (2 * y1) % p256p
        else (y2 + p256p - y1) * invMod p256p (x2 + p256p - x1) % p256p
      let x3 := (lam * lam + 2 * p256p - x1 - x2) % p256p
      some (x3, (lam * (x1 + p256p - x3) + p256p - y1) % p256p)

/-- The multiple of a point by the low `k` bits of a scalar. -/
def ecMul : Nat → Nat → Option (Nat × Nat) → Option (Nat × Nat)
  | 0, _, _ => none
  | k + 1, e, p =>
    let r := ecMul k (e / 2) (ecAdd p p)
    if e % 2 = 1 then ecAdd p r else r

/-- ECDSA over P-256 with SHA-256 (R453): public key X then Y and signature r and s, big-endian. -/
def ecdsaValid (pub r s msg : List Byte) : Bool :=
  let x := unbe (pub.take 32)
  let y := unbe ((pub.drop 32).take 32)
  let r := unbe r
  let s := unbe s
  let onCurve := x < p256p && y < p256p && (y * y) % p256p == (x * x * x + (p256p - 3) * x + p256b) % p256p
  let z := unbe (sha256 msg)
  let w := invMod p256n s
  onCurve && 0 < r && r < p256n && 0 < s && s < p256n &&
    match ecAdd (ecMul 256 (z * w % p256n) (some p256g)) (ecMul 256 (r * w % p256n) (some (x, y))) with
    | none => false
    | some (vx, _) => vx % p256n == r

end Sys2Proof.Machine
end

