-- ==== Sys2Proof/Decode.lean ====
section
/-! DEFINITION. The command packets of Table 14.1: checks 1 to 4 of Table 14.6, the parameters of Tables 15.4 to 15.20,
and beside them the encoder of the same layouts. The opcode table gives its rows no bits, so `decodeTableWord` reads no
word. -/

namespace Sys2Proof

open Sys2Proof.Machine (le unle field zeros pad4 padLen crc32)

/-- The rows of opcode_table.json give no bits, so no word spells a command. -/
def decodeTableWord (_nbits _w : Nat) : Option Instr := none

/-- The 8-bit field at an offset. -/
def f8 (p : List Byte) (o : Nat) : Byte := p.getD o 0
/-- The 16-bit field at an offset (R2). -/
def f16 (p : List Byte) (o : Nat) : W16 := BitVec.ofNat 16 (field p o 2)
/-- The 32-bit field at an offset. -/
def f32 (p : List Byte) (o : Nat) : W32 := BitVec.ofNat 32 (field p o 4)
/-- The 64-bit field at an offset. -/
def f64 (p : List Byte) (o : Nat) : W64 := BitVec.ofNat 64 (field p o 8)
/-- The bytes of a 16-bit field. -/
def e16 (v : W16) : List Byte := le 2 v.toNat
/-- The bytes of a 32-bit field. -/
def e32 (v : W32) : List Byte := le 4 v.toNat
/-- The bytes of a 64-bit field. -/
def e64 (v : W64) : List Byte := le 8 v.toNat

/-- A value where a condition holds: the PARAM_LEN rule of R404. -/
def lenIf {α : Type} (c : Bool) (x : α) : Option α := if c then some x else none

/-- `n` entries of `k` bytes from the start of `p`, each read by `rd`. -/
def entries {α : Type} (k : Nat) (rd : List Byte → α) : Nat → List Byte → List α
  | 0, _ => []
  | n + 1, p => rd p :: entries k rd n (p.drop k)

/-- The ITEM entries of an item list (R410); none where they do not fill the bytes exactly. `fuel` bounds the number of
entries. -/
def decodeItems : Nat → List Byte → Option (List Item)
  | _, [] => some []
  | 0, _ :: _ => none
  | fuel + 1, p =>
    let len := field p 2 2
    let size := 4 + len + padLen 4 len
    if p.length < size then none
    else (decodeItems fuel (p.drop size)).map (fun r => ⟨f8 p 0, (p.drop 4).take len⟩ :: r)

/-- The bytes of an item list (R410). -/
def encodeItemList (items : List Item) : List Byte :=
  items.flatMap (fun it => [it.item, 0] ++ le 2 it.value.length ++ pad4 it.value)

/-- Table 15.7. -/
def readBinding (p : List Byte) : Binding := ⟨f8 p 0, f8 p 1, f8 p 2, f8 p 3, f8 p 4⟩
/-- Table 15.7. -/
def bindingBytes (b : Binding) : List Byte := [b.kind, b.ring, b.port, b.portSlot, b.options, 0, 0, 0]

/-- Table 15.6; PARAM_LEN is 20 + 8 × N_BIND. -/
def readAttrs (p : List Byte) : Option AttrBlock :=
  let n := (f8 p 12).toNat
  lenIf (p.length == 20 + 8 * n)
    ⟨f64 p 0, f8 p 8, f8 p 9, f8 p 10, f8 p 11, f8 p 13, f8 p 14, f8 p 15, f8 p 16, f8 p 17, f8 p 18,
      entries 8 readBinding n (p.drop 20)⟩
/-- Table 15.6. -/
def attrBytes (a : AttrBlock) : List Byte :=
  e64 a.key ++ [a.priority, a.options, a.latency, a.follow, BitVec.ofNat 8 a.bindings.length, a.hints, a.hintInput,
    a.hintRing, a.hintAudioPort, a.hintAudioSlot, a.hintPktPort, 0] ++ a.bindings.flatMap bindingBytes

/-- A range of SURVEY_CONFIG (Table 15.10). -/
def readRange (p : List Byte) : SurveyRange := ⟨f8 p 0, f8 p 1, f32 p 4, f32 p 8, f32 p 12⟩
/-- A range of SURVEY_CONFIG (Table 15.10). -/
def rangeBytes (r : SurveyRange) : List Byte :=
  [r.inputs, r.standard, 0, 0] ++ e32 r.startKhz ++ e32 r.stopKhz ++ e32 r.stepKhz
/-- SURVEY_CONFIG (Table 15.10). -/
def surveyBytes (s : SurveyParams) : List Byte :=
  e32 s.interval ++ [BitVec.ofNat 8 s.ranges.length, 0, 0, 0] ++ s.ranges.flatMap rangeBytes

/-- An archive extent (Table 15.12). -/
def readExtent (p : List Byte) : Extent := ⟨f64 p 0, f64 p 8⟩
/-- An archive extent (Table 15.12). -/
def extentBytes (x : Extent) : List Byte := e64 x.start ++ e64 x.length

/-- A leap-second entry (Table 15.16). -/
def readLeap (p : List Byte) : LeapEntry := ⟨f64 p 0, f8 p 8, f16 p 10⟩
/-- A leap-second entry (Table 15.16), with the byte at 9 that LEAP_TABLE_QUERY uses for ORIGIN. -/
def leapBytes (x : LeapEntry) (origin : Byte) : List Byte := e64 x.dt ++ [x.kind, origin] ++ e16 x.l ++ zeros 4

/-- A reference entry (Table 15.16). -/
def readRef (p : List Byte) : RefEntry := ⟨f8 p 0, f8 p 1, f8 p 2, f8 p 3, f8 p 4, f16 p 6⟩
/-- A reference entry (Table 15.16). -/
def refBytes (x : RefEntry) : List Byte := [x.code, x.freqPrio, x.timePrio, x.qS, x.option, 0] ++ e16 x.prefSlot
/-- REF_CONFIG (Table 15.16). -/
def refParamBytes (r : RefParams) : List Byte :=
  e32 r.holdoverS ++ [r.xoKind, BitVec.ofNat 8 r.entries.length, 0, 0] ++ r.entries.flatMap refBytes

/-- CLOCK_CONFIG (Table 15.15, R404): the layout of the TARGET carried, or none beyond the selector. -/
def readClock (p : List Byte) : Option ClockBody :=
  match (f8 p 0).toNat with
  | 0 => lenIf (p.length == 8) (.lock false (f16 p 4) (f16 p 6))
  | 1 => lenIf (p.length == 8) (.lock true (f16 p 4) (f16 p 6))
  | 2 => lenIf (p.length == 16) (.clkout (f8 p 4) (f16 p 6) (f32 p 8) (f32 p 12))
  | 3 => lenIf (p.length == 8) (.ppsOut (f8 p 4) (f8 p 5) (f16 p 6))
  | 4 => lenIf (p.length == 8) (.adc false (f8 p 4) (f16 p 6))
  | 5 => lenIf (p.length == 8) (.adc true (f8 p 4) (f16 p 6))
  | _ => lenIf (p.length != 0) (.other (f8 p 0) (p.drop 1))
/-- CLOCK_CONFIG (Table 15.15). -/
def clockBytes : ClockBody → List Byte
  | .lock g w n => [if g then 1 else 0, 0, 0, 0] ++ e16 w ++ e16 n
  | .clkout en d dv m => [2, 0, 0, 0, en, 0] ++ e16 d ++ e32 dv ++ e32 m
  | .ppsOut en sq h => [3, 0, 0, 0, en, sq] ++ e16 h
  | .adc b dv d => [if b then 5 else 4, 0, 0, 0, dv, 0] ++ e16 d
  | .other t rest => t :: rest

/-- A band of LDPC_POLICY (Table 15.18). -/
def readBand (p : List Byte) : LdpcBand := ⟨f8 p 0, f8 p 1, f16 p 2⟩
/-- A band of LDPC_POLICY (Table 15.18). -/
def bandBytes (b : LdpcBand) : List Byte := [b.i, b.iExt] ++ e16 b.capPct

/-- A symbol class (Table 6.4). -/
def readClass (p : List Byte) : TcClass := ⟨f16 p 0, f16 p 2, f8 p 4⟩
/-- A symbol class (Table 6.4). -/
def classBytes (c : TcClass) : List Byte := e16 c.minMs ++ e16 c.maxMs ++ [c.meaning, 0]
/-- A field entry (Table 6.5). -/
def readTcField (p : List Byte) : TcField := ⟨f8 p 0, f8 p 1, f8 p 2, f8 p 3, f8 p 4, f8 p 5⟩
/-- A field entry (Table 6.5). -/
def tcFieldBytes (x : TcField) : List Byte :=
  [x.kind, x.first, x.length, x.coding, x.weightStart, x.checkSymbol, 0, 0]
/-- A time-code format (Table 6.4); PARAM_LEN is 44 + 8 × N_FIELDS (R185). -/
def readFormat (p : List Byte) : Option TcFormat :=
  let n := (f8 p 9).toNat
  lenIf (44 ≤ p.length && p.length == 44 + 8 * n)
    ⟨f8 p 0, f8 p 1, f8 p 2, f16 p 4, f8 p 6, f8 p 7, f8 p 8, f8 p 10, f8 p 11, f8 p 12, f16 p 14, f16 p 16,
      readClass (p.drop 20), readClass (p.drop 26), readClass (p.drop 32), readClass (p.drop 38),
      entries 8 readTcField n (p.drop 44)⟩
/-- A time-code format (Table 6.4). -/
def formatBytes (f : TcFormat) : List Byte :=
  [f.format, f.version, f.symbols, 0] ++ e16 f.symbolPeriod ++ [f.keying, f.thresholdPct, f.nClasses,
    BitVec.ofNat 8 f.fields.length, f.frameMarkPos, f.labelRef, f.timeScale, 0] ++ e16 f.stdOffsetMin ++ e16 f.baseYear
    ++ [0, 0] ++ classBytes f.class0 ++ classBytes f.class1 ++ classBytes f.class2 ++ classBytes f.class3
    ++ f.fields.flatMap tcFieldBytes

/-- A calibration block as CAL_WRITE carries it (Table 13.2, R382). -/
def readCalBlock (p : List Byte) : Option CalBlock :=
  lenIf (32 ≤ p.length && p.length == 32 + field p 4 4)
    ⟨f8 p 0, f8 p 1, f8 p 2, f8 p 3, f64 p 8, f64 p 16, f16 p 24, f16 p 26, p.drop 32⟩
/-- A calibration block (Table 13.2). -/
def calBlockBytes (b : CalBlock) : List Byte :=
  [b.block, b.version, b.state, b.fails] ++ le 4 b.body.length ++ e64 b.dt ++ e64 b.unit ++ e16 b.quality
    ++ e16 b.quality2 ++ zeros 4 ++ b.body

/-- A carrier range of TRUNK_MASK (Table 15.19). -/
def readMaskRange (p : List Byte) : MaskRange := ⟨f16 p 0, f16 p 2, f8 p 4⟩
/-- A carrier range of TRUNK_MASK (Table 15.19). -/
def maskRangeBytes (r : MaskRange) : List Byte := e16 r.first ++ e16 r.last ++ [r.atten, 0, 0, 0]

/-- A calendar value (Table 15.20). -/
def readCalendar (p : List Byte) : Calendar := ⟨f16 p 0, f8 p 2, f8 p 3, f8 p 4, f8 p 5, f8 p 6⟩
/-- A calendar value with its byte 7 (Table 15.20). -/
def calendarBytes (c : Calendar) (b7 : Byte) : List Byte :=
  e16 c.year ++ [c.month, c.day, c.hour, c.minute, c.second, b7]

/-- A command whose parameters are one fixed length. -/
def fixed (p : List Byte) (n : Nat) (i : Instr) : Option Instr := lenIf (p.length == n) i

/-- A command whose parameters are a selector of `k` bytes and an item list. -/
def withItems (p : List Byte) (k : Nat) (mk : List Item → Instr) : Option Instr :=
  if p.length < k then none else (decodeItems p.length (p.drop k)).map mk

/-- Families 0x00xx and 0x01xx (Tables 15.4 and 15.5). -/
def decodeSystem (op : Nat) (h : CmdHdr) (p : List Byte) : Option Instr :=
  match op with
  | 0x0001 => fixed p 0 (.deviceInfo h)
  | 0x0002 => withItems p 0 (.cmdRingConfig h)
  | 0x0003 => lenIf (p.length ≤ 64) (.nop h p)
  | 0x0004 =>
    if p.length = 4 then some (.eventRoute h (f8 p 0) none)
    else fixed p 20 (.eventRoute h (f8 p 0) (some (BitVec.ofNat 128 (field p 4 16))))
  | 0x0005 => fixed p 0 (.eventFetch h)
  | 0x0101 => fixed p 4 (.modeSet h (f8 p 0))
  | 0x0102 => fixed p 4 (.wakeBudget h (f32 p 0))
  | 0x0103 => fixed p 0 (.modeQuery h)
  | 0x0104 => fixed p 4 (.reset h (f8 p 0) (f16 p 2))
  | 0x0105 => fixed p 0 (.thermalQuery h)
  | _ => none

/-- Families 0x02xx to 0x04xx (Tables 15.8, 15.10 and 15.11). -/
def decodeServices (op : Nat) (h : CmdHdr) (p : List Byte) : Option Instr :=
  match op with
  | 0x0201 => (readAttrs p).map (.serviceAdd h)
  | 0x0202 => fixed p 0 (.serviceRemove h)
  | 0x0203 => (readAttrs p).map (.serviceModify h)
  | 0x0204 =>
    if h.slot = 0xFFFF#16 then fixed p 8 (.serviceQuery h (some (f64 p 0))) else fixed p 0 (.serviceQuery h none)
  | 0x0205 =>
    if p.length = 0 then some (.placementPolicy h none)
    else fixed p 4 (.placementPolicy h (some ⟨f8 p 0, f8 p 1, f8 p 2⟩))
  | 0x0206 => fixed p 0 (.placementQuery h)
  | 0x0301 =>
    if p.length = 0 then some (.surveyConfig h none)
    else
      let n := (f8 p 4).toNat
      fixed p (8 + 16 * n) (.surveyConfig h (some ⟨f32 p 0, entries 16 readRange n (p.drop 8)⟩))
  | 0x0302 => fixed p 0 (.mapQuery h)
  | 0x0303 => fixed p 16 (.mapRead h (f8 p 0) (f16 p 2) (f64 p 8))
  | 0x0401 => withItems p 0 (.followPolicy h)
  | 0x0402 =>
    let n := (f8 p 1).toNat
    fixed p (4 + 8 * n) (.linksetSet h (f8 p 0) (entries 8 (fun q => f64 q 0) n (p.drop 4)))
  | 0x0403 => fixed p 4 (.linksetQuery h (f8 p 0))
  | 0x0404 => fixed p 0 (.followQuery h)
  | 0x0405 =>
    if p.length = 0 then some (.alertConfig h none) else fixed p 12 (.alertConfig h (some ⟨f64 p 0, f32 p 8⟩))
  | _ => none

/-- Families 0x05xx to 0x07xx (Tables 15.12 to 15.14). -/
def decodeOutputs (op : Nat) (h : CmdHdr) (p : List Byte) : Option Instr :=
  match op with
  | 0x0501 => withItems p 4 (.ringConfig h (f8 p 0))
  | 0x0502 => fixed p 4 (.ringQuery h (f8 p 0))
  | 0x0503 => withItems p 0 (.archiveConfig h)
  | 0x0504 =>
    let n := field p 0 2
    fixed p (4 + 16 * n) (.archiveExtentAdd h (entries 16 readExtent n (p.drop 4)))
  | 0x0505 => fixed p 4 (.archiveQuery h (f8 p 0) (f16 p 2))
  | 0x0506 => fixed p 4 (.outputQuery h (f16 p 0))
  | 0x0601 => withItems p 4 (.audioPortConfig h (f8 p 0))
  | 0x0602 => fixed p 4 (.audioPortQuery h (f8 p 0))
  | 0x0603 => fixed p 16 (.audioPortStart h (f8 p 0) (f8 p 1) (f64 p 8))
  | 0x0604 => fixed p 4 (.audioPortStop h (f8 p 0))
  | 0x0701 => withItems p 4 (.pktPortConfig h (f8 p 0))
  | 0x0702 => fixed p 4 (.pktPortQuery h (f8 p 0))
  | _ => none

/-- Families 0x08xx and 0x09xx (Tables 15.16 and 15.17). -/
def decodeTimeRf (op : Nat) (h : CmdHdr) (p : List Byte) : Option Instr :=
  match op with
  | 0x0801 => fixed p 16 (.timeSet h (f8 p 0) (f8 p 1) (f64 p 8))
  | 0x0802 => fixed p 0 (.timeQuery h)
  | 0x0803 =>
    let n := (f8 p 1).toNat
    fixed p (16 + 16 * n) (.leapTableSet h (f8 p 0) (f64 p 8) (entries 16 readLeap n (p.drop 16)))
  | 0x0804 => fixed p 0 (.leapTableQuery h)
  | 0x0805 => (readClock p).map (.clockConfig h)
  | 0x0806 => fixed p 0 (.clockQuery h)
  | 0x0807 =>
    if p.length = 0 then some (.refConfig h none)
    else
      let n := (f8 p 5).toNat
      fixed p (8 + 8 * n) (.refConfig h (some ⟨f32 p 0, f8 p 4, entries 8 readRef n (p.drop 8)⟩))
  | 0x0808 => fixed p 0 (.refQuery h)
  | 0x0809 => fixed p 8 (.ppsTod h (f64 p 0))
  | 0x0901 => fixed p 4 (.rfConfig h (f8 p 0) (f8 p 1) (f8 p 2) (f8 p 3))
  | 0x0902 => fixed p 4 (.rfQuery h (f8 p 0))
  | 0x0903 =>
    if p.length = 0 then some (.planPolicy h none)
    else fixed p 4 (.planPolicy h (some ⟨f8 p 0, f8 p 1, f8 p 2⟩))
  | 0x0904 => fixed p 4 (.planDefer h (f16 p 0))
  | 0x0905 => fixed p 0 (.planQuery h)
  | 0x0906 => withItems p 0 (.coexConfig h)
  | 0x0907 => fixed p 0 (.coexQuery h)
  | 0x0908 => fixed p 4 (.combTest h (f8 p 0) (f8 p 1))
  | _ => none

/-- Family 0x0Axx (Table 15.18). -/
def decodeEngines (op : Nat) (h : CmdHdr) (p : List Byte) : Option Instr :=
  match op with
  | 0x0A01 =>
    let n := (f8 p 3).toNat
    fixed p (4 + 4 * n) (.firBankLoad h (f8 p 0) (f8 p 1) (f8 p 2) (entries 4 (fun q => f32 q 0) n (p.drop 4)))
  | 0x0A02 => fixed p 4 (.firBankQuery h (f8 p 0) (f8 p 1))
  | 0x0A03 => fixed p 4 (.laneQuery h (f16 p 0))
  | 0x0A04 => withItems p 0 (.laneConfig h)
  | 0x0A05 => withItems p 0 (.analogueConfig h)
  | 0x0A06 => fixed p 0 (.analogueQuery h)
  | 0x0A07 => (readFormat p).map (.timecodeFormatLoad h)
  | 0x0A08 => fixed p 4 (.timecodeFormatQuery h (f8 p 0))
  | 0x0A09 => withItems p 0 (.dabConfig h)
  | 0x0A0A => fixed p 0 (.dabQuery h)
  | 0x0A0B => withItems p 0 (.tvConfig h)
  | 0x0A0C => fixed p 0 (.tvQuery h)
  | 0x0A0D =>
    if p.length = 0 then some (.ldpcPolicy h none) else fixed p 16 (.ldpcPolicy h (some (entries 4 readBand 4 p)))
  | 0x0A0E => fixed p 0 (.ldpcQuery h)
  | _ => none

/-- Families 0x0Bxx and 0x0Cxx (Table 15.19). -/
def decodeCalTrunk (op : Nat) (h : CmdHdr) (p : List Byte) : Option Instr :=
  match op with
  | 0x0B01 => fixed p 4 (.calRun h (f8 p 0) (f8 p 1) (f8 p 2))
  | 0x0B02 => fixed p 0 (.calQuery h)
  | 0x0B03 => fixed p 4 (.calRead h (f8 p 0))
  | 0x0B04 => (readCalBlock p).map (.calWrite h)
  | 0x0B05 => withItems p 0 (.calConfig h)
  | 0x0C01 => withItems p 0 (.trunkConfig h)
  | 0x0C02 => fixed p 0 (.trunkQuery h)
  | 0x0C03 => fixed p 8 (.trunkSleep h (f64 p 0))
  | 0x0C04 => fixed p 0 (.trunkWake h)
  | 0x0C05 =>
    let n := field p 0 2
    fixed p (4 + 8 * n) (.trunkMask h (entries 8 readMaskRange n (p.drop 4)))
  | 0x0C06 => lenIf (20 ≤ p.length && p.length == 20 + field p 6 2) (.trunkRemote h p)
  | 0x0C07 => fixed p 4 (.trunkNoiseQuery h (f8 p 0) (f16 p 2))
  | _ => none

/-- Families 0x0Dxx to 0x0Fxx (Tables 15.19 and 15.20). -/
def decodeFirmware (op : Nat) (h : CmdHdr) (p : List Byte) : Option Instr :=
  match op with
  | 0x0D01 => fixed p 8 (.imageBegin h (f8 p 0) (f32 p 4))
  | 0x0D02 => lenIf (9 ≤ p.length && p.length ≤ 4072) (.imageData h (f8 p 0) (f32 p 4) (p.drop 8))
  | 0x0D03 => fixed p 4 (.imageEnd h (f8 p 0))
  | 0x0D04 => fixed p 16 (.imageActivate h (f8 p 0) (f64 p 8))
  | 0x0D05 => fixed p 0 (.imageQuery h)
  | 0x0D06 => fixed p 0 (.settingsQuery h)
  | 0x0D07 => fixed p 8 (.settingsReset h (f32 p 0) (f16 p 4))
  | 0x0D08 => fixed p 36 (.otpKey h (f8 p 0) (f8 p 1) (f16 p 2) (p.drop 4))
  | 0x0D09 => fixed p 4 (.chainConfig h (f8 p 0))
  | 0x0E01 => fixed p 8 (.rtcSet h (readCalendar p) (f8 p 7))
  | 0x0E02 => fixed p 0 (.rtcQuery h)
  | 0x0E03 =>
    let n := (f8 p 1).toNat
    fixed p (4 + n + padLen 4 n) (.backupWrite h (f8 p 0) ((p.drop 4).take n))
  | 0x0E04 => fixed p 4 (.backupRead h (f8 p 0) (f8 p 1))
  | 0x0E05 => fixed p 8 (.rtcAlarm h (readCalendar p) (f8 p 7))
  | 0x0F01 => fixed p 0 (.diagQuery h)
  | 0x0F02 => fixed p 4 (.diagLogRead h (f16 p 0))
  | _ => none

/-- The command that an opcode and its parameters spell; none where PARAM_LEN is not that of the layout (check 4 of
Table 14.6, R404). -/
def decodeParams (op : Nat) (h : CmdHdr) (p : List Byte) : Option Instr :=
  match op / 0x100 with
  | 0x00 | 0x01 => decodeSystem op h p
  | 0x02 | 0x03 | 0x04 => decodeServices op h p
  | 0x05 | 0x06 | 0x07 => decodeOutputs op h p
  | 0x08 | 0x09 => decodeTimeRf op h p
  | 0x0A => decodeEngines op h p
  | 0x0B | 0x0C => decodeCalTrunk op h p
  | 0x0D | 0x0E | 0x0F => decodeFirmware op h p
  | _ => none

/-- How many opcodes each family has, from 1 upwards (R414). -/
def familySizes : List Nat := [5, 5, 6, 3, 5, 6, 4, 2, 9, 8, 14, 5, 7, 9, 5, 2]

/-- Whether an opcode is assigned to a command (check 3). -/
def assigned (op : Nat) : Bool := 1 ≤ op % 0x100 && op % 0x100 ≤ familySizes.getD (op / 0x100) 0

/-- The opcode of a host command, and the bytes of its parameters, in the layouts of Tables 15.4 to 15.20. A row that is
no host command has none. -/
def encodeParams : Instr → Option (Nat × CmdHdr × List Byte)
  | .deviceInfo h => some (0x0001, h, [])
  | .cmdRingConfig h items => some (0x0002, h, encodeItemList items)
  | .nop h data => some (0x0003, h, data)
  | .eventRoute h t none => some (0x0004, h, [t, 0, 0, 0])
  | .eventRoute h t (some m) => some (0x0004, h, [t, 0, 0, 0] ++ le 16 m.toNat)
  | .eventFetch h => some (0x0005, h, [])
  | .modeSet h m => some (0x0101, h, [m, 0, 0, 0])
  | .wakeBudget h b => some (0x0102, h, e32 b)
  | .modeQuery h => some (0x0103, h, [])
  | .reset h k c => some (0x0104, h, [k, 0] ++ e16 c)
  | .thermalQuery h => some (0x0105, h, [])
  | .serviceAdd h a => some (0x0201, h, attrBytes a)
  | .serviceRemove h => some (0x0202, h, [])
  | .serviceModify h a => some (0x0203, h, attrBytes a)
  | .serviceQuery h none => some (0x0204, h, [])
  | .serviceQuery h (some k) => some (0x0204, h, e64 k)
  | .placementPolicy h none => some (0x0205, h, [])
  | .placementPolicy h (some p) => some (0x0205, h, [p.reserve, p.preempt, p.headReception, 0])
  | .placementQuery h => some (0x0206, h, [])
  | .surveyConfig h none => some (0x0301, h, [])
  | .surveyConfig h (some p) => some (0x0301, h, surveyBytes p)
  | .mapQuery h => some (0x0302, h, [])
  | .mapRead h by_ first key => some (0x0303, h, [by_, 0] ++ e16 first ++ zeros 4 ++ e64 key)
  | .followPolicy h items => some (0x0401, h, encodeItemList items)
  | .linksetSet h i keys => some (0x0402, h, [i, BitVec.ofNat 8 keys.length, 0, 0] ++ keys.flatMap e64)
  | .linksetQuery h i => some (0x0403, h, [i, 0, 0, 0])
  | .followQuery h => some (0x0404, h, [])
  | .alertConfig h none => some (0x0405, h, [])
  | .alertConfig h (some p) => some (0x0405, h, e64 p.mask ++ e32 p.limitS)
  | .ringConfig h r items => some (0x0501, h, [r, 0, 0, 0] ++ encodeItemList items)
  | .ringQuery h r => some (0x0502, h, [r, 0, 0, 0])
  | .archiveConfig h items => some (0x0503, h, encodeItemList items)
  | .archiveExtentAdd h xs => some (0x0504, h, le 2 xs.length ++ [0, 0] ++ xs.flatMap extentBytes)
  | .archiveQuery h w f => some (0x0505, h, [w, 0] ++ e16 f)
  | .outputQuery h f => some (0x0506, h, e16 f ++ [0, 0])
  | .audioPortConfig h p items => some (0x0601, h, [p, 0, 0, 0] ++ encodeItemList items)
  | .audioPortQuery h p => some (0x0602, h, [p, 0, 0, 0])
  | .audioPortStart h m t dt => some (0x0603, h, [m, t, 0, 0, 0, 0, 0, 0] ++ e64 dt)
  | .audioPortStop h m => some (0x0604, h, [m, 0, 0, 0])
  | .pktPortConfig h p items => some (0x0701, h, [p, 0, 0, 0] ++ encodeItemList items)
  | .pktPortQuery h p => some (0x0702, h, [p, 0, 0, 0])
  | .timeSet h f a v => some (0x0801, h, [f, a, 0, 0, 0, 0, 0, 0] ++ e64 v)
  | .timeQuery h => some (0x0802, h, [])
  | .leapTableSet h m x es =>
    some (0x0803, h, [m, BitVec.ofNat 8 es.length, 0, 0, 0, 0, 0, 0] ++ e64 x ++ es.flatMap (fun e => leapBytes e 0))
  | .leapTableQuery h => some (0x0804, h, [])
  | .clockConfig h b => some (0x0805, h, clockBytes b)
  | .clockQuery h => some (0x0806, h, [])
  | .refConfig h none => some (0x0807, h, [])
  | .refConfig h (some p) => some (0x0807, h, refParamBytes p)
  | .refQuery h => some (0x0808, h, [])
  | .ppsTod h dt => some (0x0809, h, e64 dt)
  | .rfConfig h i g t a => some (0x0901, h, [i, g, t, a])
  | .rfQuery h i => some (0x0902, h, [i, 0, 0, 0])
  | .planPolicy h none => some (0x0903, h, [])
  | .planPolicy h (some p) => some (0x0903, h, [p.policy, p.mask, p.plan, 0])
  | .planDefer h n => some (0x0904, h, e16 n ++ [0, 0])
  | .planQuery h => some (0x0905, h, [])
  | .coexConfig h items => some (0x0906, h, encodeItemList items)
  | .coexQuery h => some (0x0907, h, [])
  | .combTest h i on => some (0x0908, h, [i, on, 0, 0])
  | .firBankLoad h c b p cs => some (0x0A01, h, [c, b, p, BitVec.ofNat 8 cs.length] ++ cs.flatMap e32)
  | .firBankQuery h c b => some (0x0A02, h, [c, b, 0, 0])
  | .laneQuery h f => some (0x0A03, h, e16 f ++ [0, 0])
  | .laneConfig h items => some (0x0A04, h, encodeItemList items)
  | .analogueConfig h items => some (0x0A05, h, encodeItemList items)
  | .analogueQuery h => some (0x0A06, h, [])
  | .timecodeFormatLoad h f => some (0x0A07, h, formatBytes f)
  | .timecodeFormatQuery h f => some (0x0A08, h, [f, 0, 0, 0])
  | .dabConfig h items => some (0x0A09, h, encodeItemList items)
  | .dabQuery h => some (0x0A0A, h, [])
  | .tvConfig h items => some (0x0A0B, h, encodeItemList items)
  | .tvQuery h => some (0x0A0C, h, [])
  | .ldpcPolicy h none => some (0x0A0D, h, [])
  | .ldpcPolicy h (some bs) => some (0x0A0D, h, bs.flatMap bandBytes)
  | .ldpcQuery h => some (0x0A0E, h, [])
  | .calRun h t o s => some (0x0B01, h, [t, o, s, 0])
  | .calQuery h => some (0x0B02, h, [])
  | .calRead h b => some (0x0B03, h, [b, 0, 0, 0])
  | .calWrite h b => some (0x0B04, h, calBlockBytes b)
  | .calConfig h items => some (0x0B05, h, encodeItemList items)
  | .trunkConfig h items => some (0x0C01, h, encodeItemList items)
  | .trunkQuery h => some (0x0C02, h, [])
  | .trunkSleep h dt => some (0x0C03, h, e64 dt)
  | .trunkWake h => some (0x0C04, h, [])
  | .trunkMask h rs => some (0x0C05, h, le 2 rs.length ++ [0, 0] ++ rs.flatMap maskRangeBytes)
  | .trunkRemote h p => some (0x0C06, h, p)
  | .trunkNoiseQuery h e f => some (0x0C07, h, [e, 0] ++ e16 f)
  | .imageBegin h s n => some (0x0D01, h, [s, 0, 0, 0] ++ e32 n)
  | .imageData h s o d => some (0x0D02, h, [s, 0, 0, 0] ++ e32 o ++ d)
  | .imageEnd h s => some (0x0D03, h, [s, 0, 0, 0])
  | .imageActivate h s dt => some (0x0D04, h, [s, 0, 0, 0, 0, 0, 0, 0] ++ e64 dt)
  | .imageQuery h => some (0x0D05, h, [])
  | .settingsQuery h => some (0x0D06, h, [])
  | .settingsReset h g c => some (0x0D07, h, e32 g ++ e16 c ++ [0, 0])
  | .otpKey h a k c hash => some (0x0D08, h, [a, k] ++ e16 c ++ hash)
  | .chainConfig h e => some (0x0D09, h, [e, 0, 0, 0])
  | .rtcSet h c o => some (0x0E01, h, calendarBytes c o)
  | .rtcQuery h => some (0x0E02, h, [])
  | .backupWrite h o d => some (0x0E03, h, [o, BitVec.ofNat 8 d.length, 0, 0] ++ pad4 d)
  | .backupRead h o n => some (0x0E04, h, [o, n, 0, 0])
  | .rtcAlarm h c e => some (0x0E05, h, calendarBytes c e)
  | .diagQuery h => some (0x0F01, h, [])
  | .diagLogRead h f => some (0x0F02, h, e16 f ++ [0, 0])
  | _ => none

/-- A whole command packet: header, parameters and trailer (Table 14.1, R386). -/
def commandPacket (op : Nat) (h : CmdHdr) (p : List Byte) : List Byte :=
  let body := le 2 op ++ [1#8, if h.noReply then 1 else 0] ++ e16 h.seq ++ le 2 p.length ++ e16 h.slot ++ zeros 6 ++ p
  body ++ le 4 (crc32 body).toNat

/-- What the checks before the duplicate record, and checks 2 to 4, make of the bytes that a transport holds: no trailer
to check, a bad trailer, a refusal of a later check with the header as received, or a command. -/
inductive Parsed where
  | noTrailer (opcode seq slot : W16) (noReply : Bool)
  | badCrc (opcode seq slot : W16) (noReply : Bool)
  | badLength (opcode : W16) (h : CmdHdr)
  | badOpcode (opcode : W16) (h : CmdHdr)
  | command (opcode : W16) (h : CmdHdr) (i : Instr)
  deriving DecidableEq, Repr

/-- Checks 1 to 4 of Table 14.6 on the bytes that a transport holds. `exact_` says that the transport knows how many bytes
it received, `maxLen` is R385's limit of PARAM_LEN, and `wait` the time before the interpreter takes the packet. -/
def parsePacket (tr : Transport) (viaRing exact_ : Bool) (maxLen : Nat) (wait : Nat) (bs : List Byte) : Parsed :=
  let op := f16 bs 0
  let seq := f16 bs 4
  let slot := f16 bs 8
  let noReply := (f8 bs 3).getLsbD 0
  let n := field bs 6 2
  if bs.length < 20 + n ∨ 4092 < 20 + n then .noTrailer op seq slot noReply
  else
    let tl := f32 bs (16 + n)
    if crc32 (bs.take (16 + n)) ≠ tl then .badCrc op seq slot noReply
    else
      let h : CmdHdr := ⟨tr, viaRing, slot, seq, noReply, tl, wait⟩
      if maxLen < n ∨ (exact_ = true ∧ bs.length ≠ 20 + n) then .badLength op h
      else if f8 bs 2 ≠ 1#8 ∨ (f8 bs 3).getLsbD 7 = true ∨ assigned op.toNat = false then .badOpcode op h
      else match decodeParams op.toNat h ((bs.drop 16).take n) with
        | none => .badLength op h
        | some i => .command op h i

end Sys2Proof
end

