-- ==== Sys2Proof/Machine/PartsLanes.lean ====
section
/-! DEFINITION. The parts of the state that chapters 5 and 6 give: running lanes, and the analogue engines. -/

namespace Sys2Proof.Machine

/-- A running lane (R160). `cls` is 0 RF band, 1 LF band, 2 channel; `k` holds m for a channel lane; `parent` is the
index of its band lane; `nco` is in units of 1/10,240 Hz; `bank` is none where no FIR runs; `unsettled` is the count of
R156 at the last start; `users` lists the slots it serves and `joining` those that migrate to it; `markedNs` is R151's
marked time of the last tick. -/
structure Lane where
  cls       : Nat
  index     : Nat
  input     : Nat
  k         : Nat
  parent    : Nat
  bank      : Option Nat
  nco       : Int
  w         : Int
  unsettled : Nat
  firSat    : Nat
  impaired  : Nat
  rawSat    : Nat
  markedNs  : Nat
  carriers  : List StrongCarrier
  users     : List Nat
  joining   : List Nat
  dedicated : Bool
  startDt   : W64
  deriving DecidableEq, Repr

/-- An analogue engine (R161 to R187) of one service: pilot, RDS synchronisation, SYNC lock, and the last time-code frame's failure
reason and label; then the counts of Table 6.9 that the block makes: ticks with the pilot and with SYNC lock, RDS blocks by
confidence, groups, E blocks and losses, and time-code symbols and frames, the failed ones by reason 1 to 6. -/
structure AnalogueSt where
  pilot      : Bool
  rdsSync    : Bool
  syncLock   : Bool
  tcReason   : Option Nat
  tcLabel    : Option W64
  pilotTicks : Nat
  lockTicks  : Nat
  conf       : List Nat
  groups     : Nat
  eBlocks    : Nat
  rdsLosses  : Nat
  symOk      : Nat
  symBad     : Nat
  tcGood     : Nat
  tcBad      : List Nat
  deriving DecidableEq, Repr

end Sys2Proof.Machine
end

