-- ==== Sys2Proof/Machine/PartsSettings.lean ====
section
/-! DEFINITION. The settings of the device and of a service: one record each, of which the state holds the accepted
copy, the copy in force, and the copies that wait for their effective tick (R61 to R65). -/

namespace Sys2Proof.Machine

/-- The value of an item of a settings table (R410): not set since reset, a number (or the position in a list), one
of the words given as an alternative to a number (0 the first), or raw bytes for the encodings of Table 15.2. -/
inductive ItemV where
  | notSet
  | num (v : Int)
  | word (k : Nat)
  | bytes (b : List Byte)
  deriving DecidableEq, Repr

/-- The values of one settings table, in item order. -/
abbrev ItemTable := List ItemV

/-- Lock settings of a synthesiser (Table 4.2), in the units of Table 15.15. -/
structure LockCfg where
  window : W16
  n      : W16
  deriving DecidableEq, Repr

/-- CLKOUT (Table 15.15). -/
structure ClkoutCfg where
  enable : Byte
  delay  : W16
  d      : W32
  m      : W32
  deriving DecidableEq, Repr

/-- PPS_OUT (Table 15.15, R114). -/
structure PpsOutCfg where
  enable  : Byte
  squelch : Byte
  highMs  : W16
  deriving DecidableEq, Repr

/-- An ADC clock output in MAINTAIN (Table 15.15). -/
structure AdcClkCfg where
  divider : Byte
  delay   : W16
  deriving DecidableEq, Repr

/-- The gain control of one input (RF_CONFIG, Table 15.17). -/
structure RfCfg where
  mode   : Byte
  target : Byte
  atten  : Byte
  deriving DecidableEq, Repr

/-- A FIR bank loaded by the host (R145). -/
structure FirBank where
  cls    : Nat
  bank   : Nat
  phase  : Nat
  coeffs : List W32
  deriving DecidableEq, Repr

/-- A link set (R261): its index and its members in preference order. -/
structure LinkCfg where
  index : Nat
  keys  : List W64
  deriving DecidableEq, Repr

/-- Every device setting; `gen` is the device generation that the last change produced (R62). -/
structure Settings where
  gen        : W16
  cmdRing    : ItemTable
  evMask     : List (BitVec 128)
  wakeBudget : W32
  chain      : Bool
  placement  : PlacementParams
  survey     : SurveyParams
  follow     : ItemTable
  links      : List LinkCfg
  alertMask  : W64
  rings      : List ItemTable
  archive    : ItemTable
  audio      : List ItemTable
  pkt        : List ItemTable
  lockS      : LockCfg
  lockG      : LockCfg
  clkout     : ClkoutCfg
  ppsOut     : PpsOutCfg
  adcA       : Option AdcClkCfg
  adcB       : Option AdcClkCfg
  refs       : RefParams
  leapHost   : List LeapEntry
  leapExpiry : Option W64
  rf         : List RfCfg
  plan       : PlanPolicyParams
  coex       : ItemTable
  lane       : ItemTable
  dab        : ItemTable
  tv         : ItemTable
  ldpc       : List LdpcBand
  cal        : ItemTable
  trunk      : ItemTable
  trunkMask  : List MaskRange
  fir        : List FirBank
  formats    : List TcFormat
  deriving DecidableEq, Repr

/-- The settings of one service incarnation (R61); `gen` is its settings generation. -/
structure SvcSettings where
  gen        : W16
  attrs      : AttrBlock
  lane       : ItemTable
  analogue   : ItemTable
  dab        : ItemTable
  tv         : ItemTable
  alertMask  : W64
  alertLimit : W32
  deriving DecidableEq, Repr

/-- A change waiting for its effective tick: after a step of DT it applies at the first tick boundary (R60), so it is
kept as the number of tick boundaries still to come. -/
structure Sched (α : Type) where
  ticksLeft : Nat
  value     : α
  deriving DecidableEq, Repr

end Sys2Proof.Machine
end

