-- ==== Sys2Proof/Machine/PartsMap.lean ====
section
/-! DEFINITION. The parts of the state that chapter 9 gives: the service map, link sets, following and alerts. -/

namespace Sys2Proof.Machine

/-- A link set learned from FIG 0/6 (R262), with the DT at which it was last signalled. -/
structure LearnedSet where
  index : Nat
  keys  : List W64
  seen  : W64
  deriving DecidableEq, Repr

/-- One copy of the map with what is double-buffered beside it (R246): the host's and the learned link sets, and the
frequencies that signalling lists for a key (R253). -/
structure MapCopy where
  entries : List MapEntry
  links   : List LinkCfg
  learned : List LearnedSet
  lists   : List (W64 × List Nat)
  deriving DecidableEq, Repr

/-- The service map (R243 to R250). `due` is set by the end of an interval or pass or by LINKSET_SET, `passDone` by the
end of a pass. `absent` holds, for each key, the ticks for which its own carrier omitted it, and `refusedKeys` the
discoveries refused in the pass. `active` counts ticks in SURVEY, SERVE and RELAY, and `seenAt` is that count at each
key's last observation (R248). -/
structure MapSt where
  published   : MapCopy
  shadow      : MapCopy
  gen         : W32
  refused     : Nat
  refusedIval : Nat
  refusedKeys : List W64
  passes      : Nat
  due         : Bool
  passDone    : Bool
  absent      : List (W64 × Nat)
  seenAt      : List (W64 × Nat)
  active      : Nat
  learnRefused : Nat
  failedPoints : List (Nat × Nat)
  probes      : List ProbeIn
  deriving DecidableEq, Repr

/-- States of a candidate (R254). -/
inductive CandState where
  | unknown | valid | invalid | absent
  deriving DecidableEq, Repr

/-- A candidate of a followed service (R253, FOLLOW_QUERY); `offset` is P, measured at `offsetAt`. -/
structure Candidate where
  key     : W64
  freqKhz : Nat
  input   : Nat
  state   : CandState
  margin  : Int
  measured : W64
  heldOut : W64
  offset  : Option Int
  offsetAt : W64
  deriving DecidableEq, Repr


/-- A routed announcement (R275): its type, the originating key, the frequency or sub-channel, and its start. -/
structure Routing where
  type    : Nat
  key     : W64
  subCh   : Nat
  freqKhz : Nat
  since   : W64
  pending : Bool
  deriving DecidableEq, Repr

/-- Where a service is received: the entry of the map that placed it, the input and the frequency. `carrier` is the
whole-multiplex key of a DAB or television service, `signal` and `kbps` what its costs need (R18 to R20), `audio` the
coding (AUDIO of Table 9.2) and `pcmRate` the decoded rate in 0.1 kHz, 0 unknown. -/
structure Reception where
  input   : Nat
  freqKhz : Nat
  carrier : W64
  signal  : Option TvSignal
  kbps    : Nat
  audio   : Nat
  pcmRate : Nat
  deriving DecidableEq, Repr

/-- A splice in preparation (R258, R267): cause 0 FAILURE, 1 RETURN, 2 BETTER; the target and where it is received; and
whether it has given up correlation for methods 3 and 4 (R269). -/
structure Splice where
  cause   : Nat
  target  : Candidate
  dest    : Reception
  started : W64
  fallback : Bool
  deriving DecidableEq, Repr

/-- What following holds for a service (R253 to R271). `curKey` is the key of the current source, 0 for the service's own;
`failMs` is how long the current margin has been below 0 dB. -/
structure FollowSt where
  cands      : List Candidate
  curKey     : W64
  margin     : Int
  failMs     : Nat
  lastSplice : Option W64
  splice     : Option Splice
  routing    : Option Routing
  delay      : Nat
  pendDelay  : Nat
  deriving DecidableEq, Repr

/-- An active alert of a carrier (R272): its type, its carrier and originating key, cluster, sub-channel or frequency,
the DT of the last signalling, and the slots whose route limit it has used up (R275). -/
structure Alert where
  type    : Nat
  carrier : W64
  key     : W64
  cluster : Nat
  subCh   : Nat
  freqKhz : Nat
  id      : W32
  expiry  : W64
  seen    : W64
  spent   : List Nat
  deriving DecidableEq, Repr

/-- What the RDS parser remembers of a slot's station between groups (R240, R242, R272): ECC, the characters of PS, those of
the PS of other networks by PI, PTY and TA with how many groups in a row have carried them, and TP. -/
structure RdsParse where
  slot   : Nat
  ecc    : Nat
  ps     : List Byte
  eonPs  : List (W16 × List Byte)
  pty    : Nat
  ptyRun : Nat
  ta     : Bool
  taRun  : Nat
  tp     : Bool
  deriving DecidableEq, Repr

end Sys2Proof.Machine
end

