-- ==== Sys2Proof/Machine/PartsSvc.lean ====
section
/-! DEFINITION. The parts of the state that chapter 1 gives: services and what the Tessellator holds. -/

namespace Sys2Proof.Machine

/-- States of Table 1.4. -/
inductive SvcState where
  | requested | awaiting | admitted | placed | migrating | parked | following | removed
  deriving DecidableEq, Repr

/-- A migration (Table 1.11): the new reception, whether the service moves decoding to the head, the ticks left before
its lanes start, and how far it has come. -/
structure Migration where
  dest     : Reception
  toHead   : Bool
  started  : W64
  settled  : Bool
  switched : Bool
  deriving DecidableEq, Repr

/-- A service (R12, R13) and what it holds while it has a slot. `fresh` says that its SERVICE_ADD itself entered
REQUESTED; `addOrder`, `admitOrder` and `parkOrder` order the work of R23, R26 and R27; `removedKinds` are kinds
unbound earlier (R416); `genSince` is the start of the
tick from which the generation in force counts, and `prevGen` the one before it (R63); `honoured` are the hints
honoured. `values` are the engine values of the last tick; `base` the engine's counts when its statistics interval
began, which was at `statFrom`. -/
structure Service where
  slot         : Nat
  inc          : Nat
  state        : SvcState
  reason       : Nat
  stateDt      : W64
  fresh        : Bool
  hintRefused  : Nat
  honoured     : Nat
  addOrder     : Nat
  admitOrder   : Nat
  parkOrder    : Nat
  acc          : SvcSettings
  force        : SvcSettings
  sched        : List (Sched SvcSettings)
  prevGen      : W16
  genSince     : W64
  rx           : Reception
  diversity    : Bool
  headDecode   : Bool
  removedKinds : List Nat
  migration    : Option Migration
  follow       : FollowSt
  analogue     : AnalogueSt
  values       : List StatItem
  base         : List ((Nat × Nat × Nat) × Nat)
  statFrom     : W64
  deriving DecidableEq, Repr

/-- A SERVICE_ADD or SERVICE_MODIFY that waits for its placement round, with the reply it is to make (R23) and
the DT of its acceptance (R53). -/
structure PendSvc where
  id     : Nat
  tr     : Transport
  seq    : W16
  modify : Bool
  slot   : W16
  attrs  : AttrBlock
  gen    : W16
  dt     : W64
  deriving DecidableEq, Repr

/-- What the Tessellator holds beside the services: the last incarnation of each slot, the order counters, the waiting
commands, the reserve under which the load last fitted (R25), the TICK_OVERRUN counter, and per class the tick of the
last EV_TICK_OVERRUN and the overruns since it (R41). `rfLost` says that RF reception is lost for want of a lock
(R119). -/
structure PlaceSt where
  incs      : List Nat
  order     : Nat
  pending   : List PendSvc
  fitted    : Nat
  overruns  : Nat
  lastOver  : List (Option Nat × Nat)
  rfLost    : Bool
  deriving DecidableEq, Repr

end Sys2Proof.Machine
end

