-- ==== Sys2Proof/Machine/Cover.lean ====
section
/-! DEFINITION. The band-lane cover of R21 and R541: occupied bands, the three steps, and which lanes they open.
Frequencies are integers in units of 1/10,240 Hz, so that every rate, edge and centre of the rules is exact. -/

namespace Sys2Proof.Machine

/-- Units per Hz. -/
def uHz : Nat := 10240

/-- fs of a sampling plan in Hz (Table 3.3). -/
def planFs (plan : Nat) : Nat :=
  if plan = 0 then 3686400000 else if plan = 1 then 3763200000 else if plan = 2 then 3840000000 else 3993600000

/-- The rate of an input's converter in Hz: the plan's for RFA and RFB, 122.88 MS/s for LFIN (R86, R87). -/
def inputFs (plan input : Nat) : Nat := if input = 2 then 122880000 else planFs plan

/-- The output rate of a band lane, fs / 2^k. -/
def foU (fs k : Nat) : Int := (fs * uHz / 2 ^ k : Nat)

/-- The standard code of a key (R6). -/
def keyStd (k : W64) : Nat := k.toNat / 2 ^ 60
/-- The carrier code of a whole-multiplex key. -/
def keyCarrier (k : W64) : Nat := k.toNat / 2 ^ 56 % 16
/-- The standard of what a key is received from: that of the multiplex for a 0x9 key. -/
def keyRxStd (k : W64) : Nat := if keyStd k = 9 then keyCarrier k else keyStd k
/-- The frequency field of a frequency key, in kHz. -/
def keyFreq (k : W64) : Nat := k.toNat % 2 ^ 32
/-- The input of a raw-band key. -/
def keyInput (k : W64) : Nat := k.toNat / 2 ^ 40 % 4
/-- The bandwidth code of a raw-band key. -/
def keyN (k : W64) : Nat := k.toNat / 2 ^ 32 % 256

/-- The bits of a key that its standard gives a field (R7, Table 1.1). -/
def keyMask (k : W64) : W64 :=
  match keyStd k with
  | 1 => 0xF000FF000000FFFF#64
  | 2 | 3 | 4 => 0xF0000000FFFFFFFF#64
  | 5 => 0xF00FFF00FFFFFFFF#64
  | 6 => 0xF000FFFFFFFFFFFF#64
  | 7 => 0xF0000000FFFFFFFF#64
  | 8 => 0xF00003FFFFFFFFFF#64
  | 9 =>
    match keyCarrier k with
    | 5 => 0xFF00FF000000FFFF#64
    | 6 => 0xFF00FFFFFFFF0000#64
    | _ => 0xFF000000FFFF0000#64
  | _ => 0xFFFFFFFFFFFFFFFF#64

/-- The cleared key (R7). -/
def clearKey (k : W64) : W64 := k &&& keyMask k

/-- The occupied bandwidth of a reception (Table 1.8). -/
def occupied (key : W64) (rx : Reception) (fs : Nat) : Int :=
  let bw : Nat := match rx.signal with | some t => t.bandwidth | none => 8
  match keyRxStd key with
  | 1 | 2 => (260000 * uHz : Nat)
  | 3 => (10000 * uHz : Nat)
  | 4 => (2000 * uHz : Nat)
  | 5 => (1536000 * uHz : Nat)
  | 6 =>
    if (match rx.signal with | some t => t.std | none => 0) = 1 then (bw * 975000 * uHz : Nat) else (bw * 951000 * uHz : Nat)
  | 7 => (5830000 * uHz : Nat)
  | _ => foU fs (keyN key) * 4 / 5

/-- The total decimation T of Table 5.6. -/
def totalT (key : W64) (input : Nat) : Nat :=
  match keyRxStd key with
  | 1 | 2 => 13
  | 3 => if input = 2 then 13 else 15
  | 4 => 15
  | 5 => 10
  | 6 | 7 => 8
  | _ => keyN key

/-- What the cover places: an occupied band with the bounds of its lane's k (R21). `kAlone` is k_max in a lane that
step 1 gave to it alone, `ded` the k of a dedicated raw-band lane, and `users` the slots it serves. -/
structure Band where
  lo     : Int
  hi     : Int
  kMin   : Nat
  kMax   : Nat
  kAlone : Nat
  ded    : Option Nat
  tv     : Bool
  users  : List Nat
  deriving DecidableEq, Repr

/-- The band of a reception on an input at rate `fs` (R21, Table 1.8, Table 5.6). -/
def bandOf (key : W64) (rx : Reception) (fs : Nat) (user : Nat) : Band :=
  let c : Int := (rx.freqKhz * 1000 * uHz : Nat)
  let w := occupied key rx fs
  let std := keyRxStd key
  let t := min 12 (totalT key rx.input)
  let n := keyN key
  { lo := c - w / 2
    hi := c + w / 2
    kMin := if std = 8 ∧ 16 ≤ n then n - 10 else 5
    kMax := if std = 5 ∨ std = 6 ∨ std = 7 then t - 1 else t
    kAlone := t
    ded := if std = 8 ∧ n ≤ 12 then some n else none
    tv := std = 6 ∨ std = 7
    users := [user] }

/-- A lane of a cover: k, the lower edge of its usable band, and the bands assigned to it. `own` says that step 1 gave it
to one band alone, `ded` that it is a dedicated raw-band lane. -/
structure CovLane where
  k     : Nat
  lo    : Int
  bands : List Band
  own   : Bool
  ded   : Bool
  deriving DecidableEq, Repr

/-- Twice the centre of a lane at rate `fs`. -/
def CovLane.centre2 (l : CovLane) (fs : Nat) : Int := 2 * l.lo + foU fs l.k * 4 / 5

/-- Whether a usable band of the given k and lower edge wholly contains a band (R21). -/
def covers (fs k : Nat) (lo : Int) (b : Band) : Bool :=
  decide (lo ≤ b.lo) && decide (b.hi ≤ lo + foU fs k * 4 / 5)

/-- Whether a usable band with this lower edge lies at or above 0.2 of its output rate (R132). -/
def above (fs k : Nat) (lo : Int) : Bool := decide (foU fs k ≤ 5 * lo)

/-- The smallest k from `k0` to 12 for which a condition holds. -/
def firstK (k0 : Nat) (p : Nat → Bool) : Option Nat := (List.range 13).find? (fun k => decide (k0 ≤ k) && p k)

/-- The largest k up to `k1` and above `k0` for which a condition holds. -/
def lastK (k0 k1 : Nat) (p : Nat → Bool) : Option Nat :=
  ((List.range 13).reverse).find? (fun k => decide (k0 < k ∧ k ≤ k1) && p k)

/-- A list put in order of lower band edge. -/
def sortBands (bs : List Band) : List Band := bs.mergeSort (fun a b => decide (a.lo ≤ b.lo))

/-- Step 1: lanes opened at the lowest uncovered edge, until every band is covered; none where one cannot be. -/
def coverStep1 (fs : Nat) : Nat → List Band → Option (List CovLane)
  | _, [] => some []
  | 0, _ :: _ => none
  | fuel + 1, b :: bs =>
    match firstK 5 (fun k => above fs k b.lo) with
    | none => none
    | some k =>
      if !(covers fs k b.lo b && decide (k ≤ b.kAlone)) then none
      else
        let take (x : Band) : Bool := covers fs k b.lo x && decide (k ≤ x.kMax)
        let mine := bs.filter take
        (coverStep1 fs fuel (bs.filter (fun x => !take x))).map
          (fun ls => ⟨k, b.lo, b :: mine, mine.isEmpty, false⟩ :: ls)

/-- Step 2: one lane raised to the largest k that still holds its bands, centred on their span. -/
def coverStep2 (fs : Nat) (l : CovLane) : CovLane :=
  let lo := l.bands.foldl (fun m b => min m b.lo) (l.bands.map (·.lo) |>.headD 0)
  let hi := l.bands.foldl (fun m b => max m b.hi) lo
  let kMax := match l.bands with
    | [b] => b.kAlone
    | bs => bs.foldl (fun m b => min m b.kMax) 12
  let edge (k : Nat) : Int := (lo + hi - foU fs k * 4 / 5) / 2
  match lastK l.k kMax (fun k => decide (hi - lo ≤ foU fs k * 4 / 5) && above fs k (edge k)) with
  | some k => { l with k := k, lo := edge k }
  | none => l

/-- The lane of step 2 that takes a raw band of step 3: the largest k, then the lowest index. -/
def takeLane (fs : Nat) (b : Band) (ls : List CovLane) : Option Nat :=
  let ok := ls.zipIdx.filter (fun x => decide (b.kMin ≤ x.1.k ∧ x.1.k ≤ b.kMax) && covers fs x.1.k x.1.lo b)
  (ok.foldl (fun best x => match best with
    | none => some x
    | some y => if y.1.k < x.1.k then some x else some y) none).map (·.2)

/-- Step 3: raw bands with n ≥ 16, in order; none where one cannot be covered. -/
def coverStep3 (fs : Nat) (ls : List CovLane) : List Band → Option (List CovLane)
  | [] => some ls
  | b :: bs =>
    match takeLane fs b ls with
    | some i => coverStep3 fs (ls.modify i (fun l => { l with bands := l.bands ++ [b] })) bs
    | none =>
      let edge (k : Nat) : Int := (b.lo + b.hi - foU fs k * 4 / 5) / 2
      match firstK b.kMin (fun k => above fs k (edge k)) with
      | none => none
      | some k =>
        if covers fs k (edge k) b && decide (k ≤ b.kMax) then coverStep3 fs (ls ++ [⟨k, edge k, [b], false, false⟩]) bs
        else none

/-- Bands that a fixed lane of a pinned service already holds are assigned to it (R31). -/
def coverFixed (fs : Nat) (fixed_ : List (Nat × Int)) (bs : List Band) : List CovLane × List Band :=
  fixed_.foldl (fun acc f =>
    let take (x : Band) : Bool := covers fs f.1 f.2 x && decide (x.kMin ≤ f.1 ∧ f.1 ≤ x.kMax)
    (acc.1 ++ [⟨f.1, f.2, acc.2.filter take, false, false⟩], acc.2.filter (fun x => !take x))) ([], bs)

/-- The cover of one input (R21): the shared lanes in order of the cover index, then the dedicated raw-band lanes in
ascending order of centre; none where some band cannot be covered. -/
def cover (fs : Nat) (fixed_ : List (Nat × Int)) (bs : List Band) : Option (List CovLane) :=
  let shared := bs.filter (fun b => b.ded.isNone)
  let ded := sortBands (bs.filter (fun b => b.ded.isSome))
  let f := coverFixed fs fixed_ (sortBands shared)
  let low := f.2.filter (fun b => decide (b.kMin = 5))
  let raw := f.2.filter (fun b => !decide (b.kMin = 5))
  match coverStep1 fs low.length low with
  | none => none
  | some ls =>
    match coverStep3 fs (f.1 ++ ls.map (coverStep2 fs)) raw with
    | none => none
    | some all =>
      let dl := ded.map (fun b =>
        let k := b.ded.getD 12
        (⟨k, (b.lo + b.hi - foU fs k * 4 / 5) / 2, [b], false, true⟩ : CovLane))
      if dl.all (fun l => above fs l.k l.lo) then some (all ++ dl) else none

/-- Whether a lane feeds a television engine directly, without a channel lane (R18, R144). -/
def CovLane.direct (l : CovLane) : Bool :=
  l.own && match l.bands with | b :: _ => b.tv && l.k == 8 | [] => false

/-- Whether a band can be covered at a rate at all (R541). -/
def coverable (fs : Nat) (b : Band) : Bool :=
  match b.ded with
  | some k => above fs k ((b.lo + b.hi - foU fs k * 4 / 5) / 2)
  | none => (firstK b.kMin (fun k => decide (k ≤ b.kAlone) && decide (b.hi - b.lo ≤ foU fs k * 4 / 5) && above fs k b.lo)).isSome

end Sys2Proof.Machine
end

