-- ==== Sys2Proof/Machine/Mem.lean ====
section
/-! DEFINITION. Sparse memories in one canonical form: mailbox banks, host memory as the device sees it, the MSI-X
table and the external flash. `d` is what an unlisted address reads as (log entry 6). -/

namespace Sys2Proof.Machine

/-- The byte at an address. -/
def Memory.read (d : Byte) : Memory → Nat → Byte
  | [], _ => d
  | (a, b) :: m, x => if x = a then b else Memory.read d m x

/-- The memory with one byte written; a byte equal to `d` is not listed. -/
def Memory.write (d : Byte) : Memory → Nat → Byte → Memory
  | [], x, v => if v = d then [] else [(x, v)]
  | (a, b) :: m, x, v =>
    if x = a then (if v = d then m else (a, v) :: m)
    else if x < a then (if v = d then (a, b) :: m else (x, v) :: (a, b) :: m)
    else (a, b) :: Memory.write d m x v

/-- The canonical form: addresses strictly rising, and no listed byte equal to `d`. -/
def Memory.wf (d : Byte) : Memory → Bool
  | [] => true
  | [(_, b)] => b != d
  | (a, b) :: (a', b') :: m => b != d && decide (a < a') && Memory.wf d ((a', b') :: m)

/-- The `n` bytes from an address. -/
def Memory.readN (d : Byte) (m : Memory) : Nat → Nat → List Byte
  | _, 0 => []
  | x, n + 1 => Memory.read d m x :: Memory.readN d m (x + 1) n

/-- The memory with a run of bytes written from an address. -/
def Memory.writeN (d : Byte) : Memory → Nat → List Byte → Memory
  | m, _, [] => m
  | m, x, b :: bs => Memory.writeN d (Memory.write d m x b) (x + 1) bs

/-- The memory after a list of byte writes. -/
def Memory.writeCells (d : Byte) (m : Memory) (cs : List Host.Cell) : Memory :=
  cs.foldl (fun m c => Memory.write d m c.1 c.2) m

/-- The memory with `n` bytes from `x` set to `d`: an erased run of flash. -/
def Memory.clear (m : Memory) (x n : Nat) : Memory := m.filter (fun c => c.1 < x || x + n ≤ c.1)

/-- What an unlisted byte of host memory, of a mailbox bank and of the MSI-X table reads as. Table 16.2 calls the
mailbox window undefined at reset. DESIGN CHOICE, unsafe: log entry 6. -/
def ramDefault : Byte := 0#8
/-- What an erased byte of flash reads as (R470, R473). -/
def flashDefault : Byte := 0xFF#8

end Sys2Proof.Machine
end

