-- ==== Sys2Proof/Machine/Items.lean ====
section
/-! DEFINITION. Item-list settings (R409 to R411, Table 15.2): the kinds of item, their encodings, and the settings
tables 14.3, 9.7, 10.1, 10.9, 10.10, 11.1, 3.9, 5.7, 6.1, 7.3, 8.7, 12.1 and 13.6. -/

namespace Sys2Proof.Machine

/-- The range of an item (R410, Table 15.2). `words` is how many words the cell gives beside a number: 0xFFFF_FFFF is
the first and 0xFFFF_FFFE the second. -/
inductive ItemKind where
  | choice (n : Nat)
  | uint (lo hi words : Nat)
  | sint (lo hi : Int) (words : Nat)
  | pow2 (lo hi words : Nat)
  | addr (align : Nat)
  | mask (bits : Nat) (nonzero : Bool)
  | schedule
  | plpList
  | audioComponent
  | flush
  | divider (dLo dHi : Nat)
  | pidFilter
  | pilot
  deriving DecidableEq, Repr

/-- A row of a settings table: its range and its default. -/
structure ItemSpec where
  kind : ItemKind
  dflt : ItemV
  deriving DecidableEq, Repr

/-- The word that an unsigned 32-bit value spells, if the cell has that many words (R410 rule 2). -/
def wordOf (words v : Nat) : Option ItemV :=
  if words ≥ 1 ∧ v = 0xFFFFFFFF then some (.word 0)
  else if words ≥ 2 ∧ v = 0xFFFFFFFE then some (.word 1)
  else none

/-- A value that lies in a numeric range, or spells a word. -/
def numOrWord (words v : Nat) (x : Int) (ok : Bool) : Option ItemV :=
  match wordOf words v with
  | some w => some w
  | none => if ok then some (.num x) else none

/-- The value that VALUE bytes spell for an item kind; none where the LEN or the value is refused (R411). -/
def ItemKind.decode (k : ItemKind) (v : List Byte) : Option ItemV :=
  let n := unle v
  let four := v.length = 4
  match k with
  | .choice m => if four ∧ n < m then some (.num n) else none
  | .uint lo hi ws => if four then numOrWord ws n n (lo ≤ n && n ≤ hi) else none
  | .sint lo hi ws =>
    let x := (BitVec.ofNat 32 n).toInt
    if four then numOrWord ws n x (decide (lo ≤ x) && decide (x ≤ hi)) else none
  | .pow2 lo hi ws => if four then numOrWord ws n n (lo ≤ n && n ≤ hi && n == 2 ^ Nat.log2 n) else none
  | .addr a => if v.length = 8 ∧ n % a = 0 then some (.num n) else none
  | .mask bits nz =>
    let x := n % 2 ^ bits
    if four ∧ ¬ (nz ∧ x = 0) then some (.num x) else none
  | .schedule =>
    if v.length = 0 then some (.word 0)
    else
      let len := field v 8 4
      let per := field v 12 4
      if v.length = 16 ∧ 1 ≤ len ∧ len ≤ 100 ∧ 1 ≤ per ∧ per ≤ 60000 then some (.bytes v) else none
  | .plpList =>
    if v.length = 0 then some (.word 0) else if v.length ≤ 4 then some (.bytes v) else none
  | .audioComponent =>
    if v.length = 0 then some (.word 0)
    else if four then some (.bytes (v.take 3 ++ [(v.getD 3 0) &&& 1#8])) else none
  | .flush => if four ∧ n ≤ 1 then some (.num n) else none
  | .divider lo hi =>
    let d := field v 0 4
    if v.length = 8 ∧ lo ≤ d ∧ d ≤ hi then some (.bytes v) else none
  | .pidFilter =>
    if v.length = 0 then some (.word 0)
    else if v.length % 2 = 0 ∧ v.length ≤ 128 then some (.bytes v) else none
  | .pilot =>
    if ¬ four then none
    else if n = 0xFFFFFFFF then some (.word 0)
    else some (.num (n % 65536))

/-- How many bytes a number of this kind takes. -/
def ItemKind.len : ItemKind → Nat
  | .addr _ => 8
  | _ => 4

/-- Whether the kind has a LEN other than 4, so that its word is encoded as LEN 0 (R410 rule 2). -/
def ItemKind.longForm : ItemKind → Bool
  | .addr _ | .schedule | .plpList | .audioComponent | .divider _ _ | .pidFilter => true
  | _ => false

/-- The VALUE bytes of an item in force (R409, R410). -/
def ItemKind.encode (k : ItemKind) : ItemV → List Byte
  | .notSet => []
  | .num v => leInt k.len v
  | .word w => if k.longForm then [] else le 4 (0xFFFFFFFF - w)
  | .bytes b => b

/-- The defaults of a table. -/
def tableDefaults (tbl : List ItemSpec) : ItemTable := tbl.map (·.dflt)

/-- The read-back of a table in ascending item order (R409), as ITEM entries numbered from `i`. -/
def encodeItems : Nat → List ItemSpec → ItemTable → List Item
  | _, [], _ => []
  | i, sp :: tbl, vs =>
    let rest := encodeItems (i + 1) tbl vs.tail
    if sp.kind = .flush then rest
    else ⟨BitVec.ofNat 8 i, sp.kind.encode (vs.headD sp.dflt)⟩ :: rest

/-- The bytes of one ITEM entry (R410). -/
def itemBytes (it : Item) : List Byte :=
  [it.item, 0] ++ le 2 it.value.length ++ pad4 it.value

/-- The bytes of an item list. -/
def itemsBytes (items : List Item) : List Byte := items.flatMap itemBytes

/-- The read-back bytes of a table. -/
def readTable (tbl : List ItemSpec) (vs : ItemTable) : List Byte := itemsBytes (encodeItems 1 tbl vs)

/-- One item put into a table (R411): refused outside the table, out of range, or where it does not apply. -/
def applyItem (tbl : List ItemSpec) (applies : Nat → Bool) (vs : ItemTable) (it : Item) : Option ItemTable :=
  let i := it.item.toNat
  match tbl[i - 1]? with
  | none => none
  | some sp =>
    if i = 0 || !applies i then none
    else (sp.kind.decode it.value).map (fun v => vs.set (i - 1) v)

/-- An item list put into a table; none where R411 refuses it. -/
def applyItems (tbl : List ItemSpec) (applies : Nat → Bool) (vs : ItemTable) (items : List Item) : Option ItemTable :=
  if (items.map (·.item)).Nodup then items.foldlM (applyItem tbl applies) vs else none

/-- Item `i` of a table, counted from 1. -/
def ItemTable.at (t : ItemTable) (i : Nat) : ItemV := t.getD (i - 1) .notSet

/-- Item `i` as a natural number; a word or an unset item gives `d`. -/
def ItemTable.nat (t : ItemTable) (i : Nat) (d : Nat := 0) : Nat :=
  match t.at i with | .num v => v.toNat | _ => d

/-- Item `i` as an integer. -/
def ItemTable.int (t : ItemTable) (i : Nat) : Int :=
  match t.at i with | .num v => v | _ => 0

/-- Whether item `i` is set to its first word. -/
def ItemTable.isWord (t : ItemTable) (i : Nat) : Bool := t.at i == .word 0

/-- Item `i` as bytes. -/
def ItemTable.raw (t : ItemTable) (i : Nat) : List Byte :=
  match t.at i with | .bytes b => b | _ => []

/-- Table 14.3: the command ring and the reply/event ring. -/
def tbl143 : List ItemSpec :=
  [⟨.choice 2, .num 0⟩, ⟨.addr 4096, .notSet⟩, ⟨.pow2 (2 ^ 12) (2 ^ 20) 0, .notSet⟩,
   ⟨.choice 2, .num 0⟩, ⟨.addr 4096, .notSet⟩, ⟨.pow2 (2 ^ 16) (2 ^ 24) 0, .notSet⟩,
   ⟨.addr 64, .notSet⟩, ⟨.uint 1 256 0, .num 1⟩, ⟨.uint 0 1000 0, .num 0⟩]

/-- Table 3.9: the coexistence wires. Item 4 is in steps of 0.1 µs. -/
def tbl39 : List ItemSpec :=
  [⟨.choice 2, .num 0⟩, ⟨.choice 3, .num 2⟩, ⟨.mask 5 false, .num 0⟩, ⟨.uint 2 1000 0, .num 10⟩,
   ⟨.uint 0 50 0, .num 5⟩, ⟨.uint 1 1000 0, .num 100⟩, ⟨.schedule, .word 0⟩, ⟨.uint 1 1000 0, .num 100⟩]

/-- Table 9.7: following. Item 9 is in steps of 0.1 s. -/
def tbl97 : List ItemSpec :=
  [⟨.uint 1 20 0, .num 6⟩, ⟨.uint 100 5000 0, .num 500⟩, ⟨.uint 0 20 0, .num 3⟩, ⟨.uint 0 30 0, .num 10⟩,
   ⟨.uint 0 600 0, .num 10⟩, ⟨.uint 5 600 0, .num 30⟩, ⟨.uint 1 16 0, .num 4⟩, ⟨.uint 10 3600 0, .num 300⟩,
   ⟨.uint 5 40 0, .num 20⟩, ⟨.uint 10 1000 0, .num 200⟩, ⟨.uint 1 8 0, .num 4⟩, ⟨.uint 2 60 0, .num 10⟩,
   ⟨.uint 0 100 0, .num 20⟩, ⟨.choice 2, .num 1⟩]

/-- Table 10.1: one output ring; the default vector depends on the ring. -/
def tbl101 (ring : Nat) : List ItemSpec :=
  [⟨.choice 2, .num 0⟩, ⟨.addr 4096, .notSet⟩, ⟨.pow2 (2 ^ 22) (2 ^ 28) 0, .notSet⟩, ⟨.addr 64, .notSet⟩,
   ⟨.uint 1 63 0, .num ((1 + ring % 63 : Nat) : Int)⟩, ⟨.uint 1 1024 0, .num 32⟩, ⟨.uint 0 1000 0, .num 250⟩]

/-- Table 10.9: the archive. Item 3 is an action and holds no value. -/
def tbl109 : List ItemSpec :=
  [⟨.pow2 1 256 0, .num 4⟩, ⟨.uint 64 1048576 0, .num 1024⟩, ⟨.flush, .num 0⟩]

/-- Table 10.10: one packet port. Item 6 is in kbit/s. -/
def tbl1010 : List ItemSpec :=
  [⟨.choice 2, .num 0⟩, ⟨.divider 9 1023, .bytes (le 4 12 ++ le 4 0)⟩, ⟨.choice 2, .num 0⟩, ⟨.choice 2, .num 1⟩,
   ⟨.choice 2, .num 0⟩, ⟨.uint 1000 135000 1, .word 0⟩, ⟨.uint 20 2000 0, .num 1000⟩, ⟨.pidFilter, .word 0⟩]

/-- Table 11.1: one audio port. -/
def tbl111 : List ItemSpec :=
  [⟨.choice 2, .num 0⟩, ⟨.choice 4, .num 2⟩, ⟨.choice 4, .num 1⟩, ⟨.choice 2, .num 0⟩, ⟨.uint 16 1024 0, .num 64⟩,
   ⟨.uint 1 32 0, .num 2⟩, ⟨.uint 8 32 0, .num 32⟩, ⟨.choice 4, .num 2⟩, ⟨.uint 0 255 0, .num 1⟩,
   ⟨.choice 3, .num 2⟩, ⟨.choice 2, .num 1⟩, ⟨.choice 2, .num 0⟩, ⟨.choice 2, .num 0⟩, ⟨.uint 20 5000 1, .word 0⟩,
   ⟨.pilot, .word 0⟩, ⟨.uint 1 100 0, .num 10⟩]

/-- Table 5.7: lanes. Item 1's words are AUTO and off; items 3, 7 are in steps of 0.5 and of 10 ms. -/
def tbl57 : List ItemSpec :=
  [⟨.uint 2 7 2, .word 0⟩, ⟨.choice 5, .num 2⟩, ⟨.uint 8 64 0, .num 16⟩, ⟨.uint 1 10000 0, .num 100⟩,
   ⟨.uint 1 10000 0, .num 100⟩, ⟨.uint 10 60000 0, .num 1000⟩, ⟨.uint 1 1000 0, .num 10⟩, ⟨.uint 0 8 0, .num 8⟩]

/-- Table 6.1: analogue engines. Item 12 is in steps of 10 Hz. -/
def tbl61 : List ItemSpec :=
  [⟨.choice 3, .num 1⟩, ⟨.choice 2, .num 0⟩, ⟨.uint 20 50 0, .num 36⟩, ⟨.uint 10 40 0, .num 18⟩,
   ⟨.choice 2, .num 1⟩, ⟨.choice 3, .num 2⟩, ⟨.choice 4, .num 1⟩, ⟨.choice 4, .num 2⟩, ⟨.choice 4, .num 2⟩,
   ⟨.uint 1 8 0, .num 4⟩, ⟨.uint 0 7 0, .num 0⟩, ⟨.uint 2 50 0, .num 10⟩]

/-- Table 7.3: DAB. -/
def tbl73 : List ItemSpec :=
  [⟨.mask 4 true, .num 15⟩, ⟨.uint 0 60 0, .num 10⟩, ⟨.choice 2, .num 0⟩, ⟨.choice 2, .num 0⟩, ⟨.choice 3, .num 2⟩,
   ⟨.choice 2, .num 0⟩]

/-- Table 8.7: television. -/
def tbl87 : List ItemSpec :=
  [⟨.uint 0 60 0, .num 10⟩, ⟨.plpList, .word 0⟩, ⟨.audioComponent, .word 0⟩, ⟨.choice 2, .num 0⟩,
   ⟨.choice 2, .num 0⟩, ⟨.choice 2, .num 0⟩, ⟨.choice 2, .num 0⟩]

/-- Table 12.1: the trunk. Item 7 is in steps of 2 ms. -/
def tbl121 : List ItemSpec :=
  [⟨.choice 3, .num 0⟩, ⟨.uint 1 0xFFFFFFFF 0, .notSet⟩, ⟨.uint 2 38 0, .num 6⟩, ⟨.uint 0 12 0, .num 3⟩,
   ⟨.sint (-22) 8 0, .num 8⟩, ⟨.uint 1 3600 0, .num 60⟩, ⟨.uint 5 100 0, .num 10⟩, ⟨.uint 1 3600 0, .num 10⟩]

/-- Table 13.6: calibration. -/
def tbl136 : List ItemSpec :=
  [⟨.choice 2, .num 1⟩, ⟨.choice 2, .num 1⟩, ⟨.uint 1 600 0, .num 10⟩, ⟨.choice 2, .num 1⟩, ⟨.choice 2, .num 0⟩]

end Sys2Proof.Machine
end

