-- ==== Sys2Proof/Config.lean ====
section
/-! DEFINITION. What one unit fixes in its OTP, and the free values: nothing here has a body, so no proof can
lean on a value of it. -/

namespace Sys2Proof.Config

/-- The 64-bit unit identifier of the OTP (R366, Table 16.2). Log entry 3. -/
opaque unitId : W64
/-- The silicon step of DEV_ID bits 15:0; Table 16.2 gives its value in the map, so only a unit's OTP could differ. -/
def siliconStep : Nat := 1
/-- Byte `i` of the factory body of calibration block `b` in OTP (R368). Log entry 3. -/
opaque factoryByte (b i : Nat) : Byte
/-- The factory quality figures of calibration block `b` (R366, R368). Log entry 3. -/
opaque factoryQuality (b : Nat) : W16 × W16
/-- The key hash that the factory programmed in OTP key slot 0 (R457). Log entry 3. -/
opaque otpHash : List Byte
/-- The leap-second table that the built image carries: (DT of the second, inserted?, L), and its expiry (R72).
The example of R75 names its last entry only. Log entry 4. -/
opaque imageLeapExpiry : W64
/-- A free value: the n-th value that the spec leaves open, applied to the counter `freeCtr` that
the step advances. Log entry 5. -/
opaque freeValue (n : Nat) : Nat
/-- Coefficient `i` of built-in FIR bank (`cls`, `bank`): Table 5.4 gives the bank's response and not its taps. Log entry 21. -/
opaque builtinCoeff (cls bank i : Nat) : W32
/-- Which data register an instruction word of the JTAG port selects: 0 boundary, 1 IDCODE, 2 bypass. R522 names
the registers and gives no instruction codes. -/
opaque jtagSelect (ir : List Bool) : Nat
/-- The number of boundary-scan cells, which R522 does not give. -/
opaque jtagCells : Nat
/-- What a segment of TARGET 0x10 holds: its expiry and its rows (DT, deleted?, L). Table 18.3 gives the segment no layout. -/
opaque leapSegment (bs : List Byte) : W64 × List (W64 × Bool × W16)
/-- The width of the JTAG instruction register, which R522 does not give. -/
opaque jtagIrWidth : Nat

end Sys2Proof.Config
end

