-- ==== Sys2Proof/Machine/PartsCarrier.lean ====
section
/-! DEFINITION. The parts of the state that chapters 7 and 8 give: DAB and television engines by carrier, and the LDPC
pool. -/

namespace Sys2Proof.Machine

/-- A DAB engine on its ensemble (R188 to R209). `notInMci` says that the limit of R192 for the MCI has passed; `modes` is
the allowed-mode mask with which its acquisition began, `step4` the DT at which the FIC was first decoded, and `lostAt`
that of a loss under R193. `support` holds, by SId, the announcement support flags and clusters of FIG 0/18. -/
structure DabEngine where
  synced   : Bool
  modes    : Nat
  notInMci : Bool
  txMode   : Nat
  eid      : W16
  cif      : Nat
  subChs   : List SubCh
  comps    : List DabComp
  nextMci  : Option (Nat × List SubCh × List DabComp)
  support  : List (W32 × W16 × List Byte)
  startDt  : W64
  step4    : Option W64
  lostAt   : Option W64
  fibGood  : Nat
  fibBad   : Nat
  losses   : Nat
  reconfigs : Nat
  deriving DecidableEq, Repr

/-- A television engine on its multiplex (R211 to R239). `branches` counts its engines: 2 in diversity. -/
structure TvEngine where
  synced      : Bool
  unsupported : Bool
  signal      : TvSignal
  branches    : Nat
  branchLost  : Nat
  startDt     : W64
  lostAt      : Option W64
  losses      : Nat
  reconfigs   : Nat
  deriving DecidableEq, Repr

/-- What receives a carrier. -/
inductive Engine where
  | dab (e : DabEngine)
  | tv (e : TvEngine)
  deriving DecidableEq, Repr

/-- A DAB ensemble or television multiplex with an engine: its whole-multiplex key (standard 0x9), frequency and input
(R18). `ratio` is the transmitter clock offset r − 1 in 0.001 ppm (R189, R212), none before it is measured. -/
structure CarrierSt where
  key     : W64
  freqKhz : Nat
  input   : Nat
  engine  : Engine
  ratio   : Option Int
  deriving DecidableEq, Repr

/-- A codeword that waits for the pool or is in it: the iterations it needs to converge, or none if it never does. -/
structure Codeword where
  need : Option Nat
  done : Nat
  deriving DecidableEq, Repr

/-- A stream of codewords (R228): a PLP of a carrier, or the trunk (`carrier` 0). `quotaNum` is its quota in
edge-iterations of the limit, so that no fraction is lost. -/
structure CodeQueue where
  carrier  : W64
  plp      : Nat
  band     : Nat
  bits     : Nat
  tiles    : Nat
  quota    : Nat
  waiting  : List Codeword
  released : List Codeword
  deriving DecidableEq, Repr

/-- The LDPC pool (R225 to R230, LDPC_QUERY): its streams, the tiles that each band used per tick (sum, ticks, largest),
and its counters. -/
structure LdpcSt where
  queues      : List CodeQueue
  usedSum     : List Nat
  usedMax     : List Nat
  ticks       : Nat
  extended    : Nat
  interrupted : Nat
  dropped     : Nat
  deriving DecidableEq, Repr

end Sys2Proof.Machine
end

