-- ==== Sys2Proof/Machine/PartsOut.lean ====
section
/-! DEFINITION. The parts of the state that chapters 10 and 11 give: streams, the collector's queue, output rings, unit
tags, the archive, packet ports and audio ports. -/

namespace Sys2Proof.Machine

/-- The chunk that an archived stream writes into (R302, R303). -/
structure Chunk where
  start : Nat
  size  : Nat
  used  : Nat
  epoch : Nat
  deriving DecidableEq, Repr

/-- A stream (R68): its slot and incarnation and its kind, where it goes, what it has delivered, and the FLAGS that its
next delivered unit carries. `autoRing` waits for a ring under R282. `lastPending` says that a unit carrying
LAST_OF_INCARNATION is still to come, `lastDt` is the DT of the last unit handed over (R57), `ctr` is the trunk's
STREAM_CTR (Table 12.8), and `served` orders the collector's turns (R296). From the DT `resume` on, units carry the marks
of R98. `settleNs` and `settleUnits` are how much more PCM carries UNSETTLED (R180, R207, R238), and `gapNext` says that what was
dropped after the last unit gives the next one GAP_BEFORE (R230). -/
structure Stream where
  slot        : W16
  kind        : Nat
  prio        : Nat
  ring        : Option Nat
  autoRing    : Bool
  port        : Option Nat
  portSlot    : Nat
  archive     : Bool
  bindIdx     : Nat
  seq         : Nat
  drops       : Nat
  flags       : W32
  lastPending : Bool
  lastDt      : W64
  ctr         : Nat
  served      : Nat
  chunk       : Option Chunk
  resume      : Option W64
  settleNs    : Nat
  settleUnits : Nat
  gapNext     : Bool
  deriving DecidableEq, Repr

/-- A side-data record that waits for its unit: TYPE and CHECK of Table 10.5, its stamp, and its body. -/
structure SideRec where
  slot  : W16
  stamp : W64
  type  : Nat
  check : Bool
  body  : List Byte
  deriving DecidableEq, Repr

/-- A finished unit in the collector's queue (R295), with the tick of its completion. -/
structure OutUnit where
  slot    : W16
  kind    : Nat
  gen     : W16
  dt      : W64
  spanNs  : Nat
  flags   : W32
  payload : List Byte
  tick    : Nat
  deriving DecidableEq, Repr

/-- A record in a ring: the offset at which it starts and the tag it holds, none for a pad record (R279, R291). -/
structure RingRec where
  start : Nat
  tag   : Option Nat
  slot  : W16
  deriving DecidableEq, Repr

/-- An output ring at run time (R278 to R283, RING_QUERY); its settings are items of Table 10.1. -/
structure RingSt where
  on          : Bool
  fault       : Bool
  producer    : Nat
  consumer    : Nat
  wraps       : Nat
  records     : Nat
  recs        : List RingRec
  unsignalled : Nat
  timerUs     : Option Nat
  deriving DecidableEq, Repr

/-- Unit tags (R291 to R294): the last tag issued, the generation of every tag issued since reset, and the count of
ticks in which the collector waited. The tags held are those of the rings' records. -/
structure TagSt where
  last      : Nat
  gens      : List (Nat × Nat)
  waitTicks : Nat
  waited    : Bool
  deriving DecidableEq, Repr

/-- A held archive extent: where its unassigned part starts and how long that is (R301). -/
structure HeldExtent where
  start     : Nat
  remaining : Nat
  deriving DecidableEq, Repr

/-- An entry of an archive-index unit (R307). -/
structure IndexEntry where
  slot    : W16
  dt      : W64
  archive : W64
  seq     : Nat
  kind    : Nat
  bytes   : Nat
  deriving DecidableEq, Repr

/-- The archive (R300 to R307). `lastChunk` is the offset of the chunk assigned last; `lowSaid` and `fullSaid` hold back
a repeated event; `nextSec` is the second that each slot's next index unit covers. -/
structure ArchiveSt where
  extents   : List HeldExtent
  epoch     : Nat
  lastChunk : Option Nat
  lowSaid   : Bool
  fullSaid  : Bool
  index     : List IndexEntry
  nextSec   : List (W16 × Nat)
  deriving DecidableEq, Repr

/-- A TS packet that waits at a packet port, with the DT of its unit, the DT at which it came, and whether a gap before it
restarts the schedule (R312). -/
structure TsPacket where
  bytes   : List Byte
  dt      : W64
  ready   : W64
  restart : Bool
  deriving DecidableEq, Repr

/-- A packet port at run time (R308 to R312). `t0` and `i` are the paced schedule's start in ns and packet count; `count` is
the packets of the second in progress, and `rate` the rate of the one before. -/
structure PktSt where
  queue   : List TsPacket
  t0      : Option Nat
  i       : Nat
  sent    : Nat
  dropped : Nat
  late    : Nat
  rate    : Nat
  count   : Nat
  deriving DecidableEq, Repr

/-- A programme on an audio port (R316 to R324). `path` is 0 port clock, 1 direct, 2 converter; `delay` is L in ns;
`playing` says that it is past its start under R327; `ending` that it leaves with its last unit. -/
structure Prog where
  slot     : W16
  portSlot : Nat
  channels : Nat
  path     : Nat
  delay    : Nat
  late     : Bool
  playing  : Bool
  ending   : Bool
  deriving DecidableEq, Repr

/-- A change of PCM content that waits for a zero crossing of one channel (R328): what it is, and since when. `raise` is a
rise of the delay D of a followed service, `lift` one of L that comes with Q. -/
inductive ZcKind where
  | start | stop | path (p : Nat) | raise (delay : Nat) | lift (l : Nat) | migration | splice | alert
  deriving DecidableEq, Repr

/-- A channel's waiting change. -/
structure ZcChange where
  channel : Nat
  kind    : ZcKind
  since   : W64
  deriving DecidableEq, Repr

/-- An arming of an audio port (R327): trigger 0 rising edge, 1 falling edge, 2 a start DT. -/
structure Arming where
  trigger : Nat
  dt      : W64
  deriving DecidableEq, Repr

/-- An audio port at run time (R313 to R331, AUDIO_PORT_QUERY): state 0 STOPPED, 1 ARMED, 2 RUNNING, 3 CLOCK_FAULT; Q in
ms; y in 0.001 ppm; `goodMs` counts valid frames in CLOCK_FAULT; `lastEvent` and `since` limit EV_PORT_UNDERRUN. -/
structure AudioSt where
  state      : Nat
  armed      : Option Arming
  armTicks   : Option (Nat × Arming)
  stopTicks  : Option Nat
  stopping   : Bool
  q          : Nat
  pilot      : Option W16
  pilotWhy   : Nat
  y          : Int
  ep         : Int
  firstFrame : W64
  progs      : List Prog
  changes    : List ZcChange
  underruns  : Nat
  overruns   : Nat
  fades      : Nat
  faults     : Nat
  goodMs     : Nat
  lastEvent  : Option Nat
  since      : Nat
  deriving DecidableEq, Repr

end Sys2Proof.Machine
end

