-- ==== Sys2Proof/Machine/PartsSys.lean ====
section
/-! DEFINITION. The parts of the state that chapters 18 to 20 give: image slots, OTP keys, modes, resets, temperature,
and the backup domain. -/

namespace Sys2Proof.Machine

/-- The modes of Table 19.1. -/
inductive Mode where
  | backup | dormant | survey | serve | relay | maintain
  deriving DecidableEq, Repr

/-- The DORMANT sub-states of Table 19.3. -/
inductive SubState where
  | hot | warm | cool | cold
  deriving DecidableEq, Repr

/-- A mode or sub-state change: accepted, with the ticks left to its effective tick, or under way (R481, R484). -/
structure ModeChange where
  target    : Mode
  sub       : SubState
  cause     : Nat
  ticksLeft : Nat
  begun     : Bool
  deriving DecidableEq, Repr

/-- Modes, resets and the start (R479 to R490). `uptime` counts ticks since the last reset. `leftRelay` is set while a
mast is out of RELAY under R483. `enterMaintain` holds the KIND 1 of a RESET for the start that follows. `startPend` says that the start waits for
the backup domain's interface to unlock (R498, R507), and `bootEvents` holds the events raised once READY is set. -/
structure PowerSt where
  railsGood     : Bool
  ioUp          : Bool
  ready         : Bool
  recovery      : Bool
  mode          : Mode
  sub           : SubState
  change        : Option ModeChange
  lastReset     : Nat
  resetIn       : Option Nat
  enterMaintain : Bool
  segFailed     : Bool
  leftRelay     : Bool
  uptime        : Nat
  resets        : Nat
  startPend     : Bool
  bootEvents    : List (Nat × List Byte)
  deriving DecidableEq, Repr

/-- The temperature sensor's level logic (R492 to R494). The counters are ticks; `shedSteps` is how many steps of 10 %
the admissible amounts stand lowered, and `shedTicks` counts to the next step. -/
structure ThermalSt where
  temp      : W16
  tempMax   : W16
  level     : Nat
  hot110    : Nat
  hot115    : Nat
  coolTicks : Nat
  inLevel   : Nat
  warnings  : Nat
  sheds     : Nat
  shedSteps : Nat
  shedTicks : Nat
  shutdown  : Bool
  coldReads : Nat
  deriving DecidableEq, Repr

/-- Image slot states of Table 18.5. -/
inductive ImgState where
  | empty | receiving | refused | bootable | scheduled | trial | running | failed
  deriving DecidableEq, Repr

/-- Who holds a transfer: a command transport or the chain port (R458). -/
inductive ImgOwner where
  | transport (t : Transport) | chain
  deriving DecidableEq, Repr

/-- A transfer in progress (R458): the first 384 bytes stay in RAM until IMAGE_END. -/
structure ImgTransfer where
  owner    : ImgOwner
  length   : Nat
  next     : Nat
  head     : List Byte
  chainSeq : Byte
  deriving DecidableEq, Repr

/-- One image slot (R455, R458, R460). `activate` is the DT of a pending activation; `atOnce` marks one with DT 0. -/
structure ImgSlot where
  state    : ImgState
  reason   : Nat
  version  : W32
  length   : Nat
  activate : Option W64
  transfer : Option ImgTransfer
  deriving DecidableEq, Repr

/-- An OTP key slot (R457). -/
structure OtpKey where
  hash    : Option (List Byte)
  revoked : Bool
  deriving DecidableEq, Repr

/-- The SYSTEM record of the journal (Table 18.8, R461, R373, R475). -/
structure SysRecord where
  bootSlot       : Nat
  prevSlot       : Nat
  trialCount     : Nat
  confirmed      : Bool
  retiredA       : W32
  retiredB       : W32
  retiredSectors : Nat
  deriving DecidableEq, Repr

/-- The external flash's image slots and what the running image's header says (R452 to R463). `trialTick` counts the ticks since
READY of a trial, `trialHit` says that the last reset counts as a trial failure, and `notes` holds the slots and reasons that the
next start reports. -/
structure FlashSt where
  size      : Nat
  mem       : Memory
  slot0     : ImgSlot
  slot1     : ImgSlot
  running   : Nat
  fwVersion : W32
  format    : Nat
  formatMin : Nat
  trialTick : Option Nat
  keys      : List OtpKey
  trialHit  : Bool
  notes     : List (Nat × Nat)
  deriving DecidableEq, Repr

/-- A calendar value inside the backup domain: TIME and DATE of R499, with the year in full (YEAR + 2000). -/
structure RtcCal where
  year   : Nat
  month  : Nat
  day    : Nat
  hour   : Nat
  minute : Nat
  second : Nat
  deriving DecidableEq, Repr

/-- A write that waits for its whole second (R502): option 0, 1 or 2 and the calendar. -/
structure RtcWrite where
  option    : Nat
  cal       : RtcCal
  ticksLeft : Nat
  deriving DecidableEq, Repr

/-- The backup domain (R496 to R507): TIME, DATE, CONTROL, TRIM, ALARM and BACKUP of R499, and what the device keeps of
it: `wasVbat` is RTC_QUERY FLAGS bit 2. -/
structure RtcSt where
  cal       : RtcCal
  halt      : Bool
  osf       : Bool
  vbatSeen  : Bool
  alarmEn   : Bool
  alarmFlag : Bool
  locked    : Bool
  onVbat    : Bool
  trim      : W16
  alarm     : RtcCal
  backup    : List Byte
  wasVbat   : Bool
  write     : List RtcWrite
  lockedDue : Bool
  lastSet   : Option W64
  deriving DecidableEq, Repr

/-- An entry of the diagnostic log (DIAG_LOG_READ, Table 15.20). -/
structure DiagEntry where
  dt   : W64
  code : W16
  args : List Byte
  deriving DecidableEq, Repr

end Sys2Proof.Machine
end

