-- ==== Sys2Proof/Machine/PartsTime.lean ====
section
/-! DEFINITION. The parts of the state that chapters 2 to 4 give: device time, the leap-second table, references and
the timebase, the synthesisers, the RF inputs, the sampling plan and the coexistence wires. -/

namespace Sys2Proof.Machine

/-- An entry of the leap-second table (R72); `origin` is 0 image, 1 host, 2 learned (Table 15.16). -/
structure LeapRow where
  dt      : W64
  deleted : Bool
  l       : W16
  origin  : Nat
  deriving DecidableEq, Repr

/-- Device time (R46 to R60). `boundary` is the DT at which the tick in progress ends. `offset` is the sum of the
offset steps that wait for the next tick boundary, `atPps` the DT to be set at the next PPS edge, and `stepDue` the DT
that the tick boundary just reached is to set. `rtcSeed` says that DT stands on an RTC seed (R48). -/
structure TimeSt where
  dt       : W64
  boundary : Nat
  seeded   : Bool
  rtcSeed  : Bool
  offset   : Option Int
  atPps    : Option W64
  armed    : Bool
  stepDue  : Option W64
  image    : List LeapRow
  imageExp : W64
  learned  : List LeapRow
  deriving DecidableEq, Repr

/-- Time states of Table 4.7. -/
inductive TState where
  | free | acquiring | locked | holdover | expired
  deriving DecidableEq, Repr

/-- One reference of Table 4.4: its qualification in each role, whether its criterion holds now, and for how many ticks
it has held without interruption in each role (R123). -/
structure RefState where
  qualF : Bool
  qualT : Bool
  critF : Bool
  critT : Bool
  heldF : Nat
  heldT : Nat
  deriving DecidableEq, Repr

/-- The timebase unit (R120 to R130). `e` is in ns, `eps` in 2^-16 ppb. `outTicks` counts consecutive ticks with |e|
beyond the window. `ppsCount` is the label of the last PPS edge, `ppsTod` a label waiting for its edge with the DT of
its acceptance. `tInd` holds, for codes 5 and 6, the errors of the last time indications, newest first, and `tcRun`
the consecutive good and failed frames of the LF time code. -/
structure RefSt where
  refs       : List RefState
  freqRef    : Nat
  timeSrc    : Option Nat
  tstate     : TState
  e          : Int
  eps        : Int
  epsHist    : List Int
  freqHold   : Bool
  freqSlew   : Bool
  outTicks   : Nat
  holdTicks  : Nat
  holdRef    : Nat
  ppsCount   : Option W64
  ppsTod     : Option (W64 × W64)
  lastEdge   : Option W64
  tInd5      : List Int
  tInd6      : List Int
  tcGood     : Nat
  tcFail     : Nat
  tcLast     : Option (W64 × W64)
  deriving DecidableEq, Repr

/-- One synthesiser (R112 to R119, CLOCK_QUERY). -/
structure PllSt where
  locked : Bool
  band   : Nat
  losses : Nat
  deriving DecidableEq, Repr

/-- The synthesisers; `adcOn` says that the ADC clocks run, `retry` that PLL-S repeats its sequence every 1 s after a
third failure (R119), with the plan before and the DT of the stop where a plan change is what it repeats; `ppsHigh` is the
level of PPS_OUT (R114). -/
structure ClockSt where
  pllS    : PllSt
  pllG    : PllSt
  adcOn   : Bool
  retry   : Bool
  stopped : Option (Nat × W64)
  ppsHigh : Bool
  deriving DecidableEq, Repr

/-- One RF input: attenuation in force, the last tick's measurements, the counted low ticks of Table 3.2 rule 3, and
the counters of R84. -/
structure InputSt where
  atten    : Nat
  rms      : Int
  peak     : Int
  ovlLast  : Nat
  ovlTotal : Nat
  ovlTicks : Nat
  lowTicks : Nat
  comb     : Bool
  deriving DecidableEq, Repr

/-- A ranked plan (R92, PLAN_QUERY): hits per priority, index n for priority n. -/
structure PlanRank where
  eligible  : Bool
  position  : Nat
  spurHits  : List Nat
  imageHits : List Nat
  deriving DecidableEq, Repr

/-- A proposal that stands (R93, R95): plan, reason code of PLAN_QUERY, change tick. -/
structure PlanProposal where
  plan       : Nat
  reason     : Nat
  changeTick : Nat
  announced  : Bool
  deriving DecidableEq, Repr

/-- The sampling plan (R87 to R100). `forced` is a FIXED plan that takes force at its tick. `hostMade` notes that the
plan in force became ineligible because PLAN_POLICY removed it from the mask (R95). -/
structure PlanSt where
  plan       : Nat
  proposal   : Option PlanProposal
  deferEnd   : Option W64
  lastChange : Option W64
  rank       : List PlanRank
  forced     : Option Nat
  hostMade   : Bool
  deriving DecidableEq, Repr

/-- The phase of a coexistence request (Table 3.10): no request, blanked and waiting for the grant, granted, or
released and in the tail. `withheld` marks a grant that a protection window withholds. -/
inductive CoexPhase where
  | idle | waiting (withheld : Bool) | granted | tail
  deriving DecidableEq, Repr

/-- The coexistence wires (R101 to R107): wire levels, the request's phase with the DT at which it was entered, the
protection window, the DT of each input's last transition, and the counters of COEX_QUERY. -/
structure CoexSt where
  reqIn     : Bool
  priIn     : Bool
  gntOut    : Bool
  reqOut    : Bool
  gntIn     : Bool
  phase     : CoexPhase
  reqDt     : W64
  phaseDt   : W64
  window    : Bool
  windowEnd : W64
  leadDt    : W64
  ackSeen   : Bool
  limitSaid : Bool
  lastEdge  : List W64
  stuckSaid : List Bool
  reasons   : List Nat
  grants    : Nat
  withheld  : Nat
  blankedNs : Nat
  deriving DecidableEq, Repr

end Sys2Proof.Machine
end

