-- ==== Sys2Proof/Machine/PartsTrunk.lean ====
section
/-! DEFINITION. The parts of the state that chapters 12 and 13 give: the trunk link and the calibration blocks, and the
JTAG port of R522. -/

namespace Sys2Proof.Machine

/-- Link states of Table 12.9. -/
inductive LinkState where
  | off | search | control | data | sleep | recovery | lost
  deriving DecidableEq, Repr

/-- A loading table (R349, R350): rate code, and b per data carrier in ascending n. -/
structure LoadTable where
  rate    : Nat
  bits    : List Nat
  maskGen : W16
  deriving DecidableEq, Repr

/-- One direction of the link: the active table ID, both tables, a switch that waits for its frame, whether its
LOADING_ACK has come, and the last measurement of the receiver (TRUNK_NOISE_QUERY). -/
structure DirSt where
  active  : Nat
  table0  : LoadTable
  table1  : LoadTable
  switch  : Option (Nat × Nat)
  acked   : Bool
  snr     : List Int
  noise   : List Byte
  noiseF  : W32
  deriving DecidableEq, Repr

/-- A codeword sent and not yet acknowledged (R344): its SEQ, how often it was sent again, and its packet bytes with the
offset of the first packet that starts in it. -/
structure TxCodeword where
  seq    : Nat
  retx   : Nat
  first  : Nat
  bytes  : List Byte
  failed : Bool
  deriving DecidableEq, Repr

/-- A packet that waits to be sent: its rank in the order of R343 (1 to 5), what it is a copy of (0 none, 1 the MASK packet,
n + 2 the command of the remote with id n), and its bytes. -/
structure TxPacket where
  rank  : Nat
  tag   : Nat
  bytes : List Byte
  deriving DecidableEq, Repr

/-- One SEQ space of a direction (R341, R342): the next SEQ, the codewords not yet acknowledged, the part of a packet that did
not fit in the last codeword with what it is a copy of, and the next SEQ expected from the partner. -/
structure SpaceSt where
  next     : Nat
  unacked  : List TxCodeword
  carry    : List Byte
  carryTag : Nat
  rxNext   : Nat
  deriving DecidableEq, Repr

/-- The codeword that ends a packet: whether it is a control codeword, and its SEQ. -/
structure CwRef where
  ctrl : Bool
  seq  : Nat
  deriving DecidableEq, Repr

/-- A command that the head sent to the mast and whose reply has not come (R364, R394): the reply's place in the outbox of the
transport it came by, the SEQ of TRUNK_REMOTE and of the wrapped packet, how often it was sent again, the DT of its
acceptance, the codeword that carried its end, and the DT at which that was acknowledged. -/
structure Remote where
  id     : Nat
  tr     : Transport
  seq    : W16
  wseq   : W16
  packet : List Byte
  sends  : Nat
  dt     : W64
  cw     : Option CwRef
  acked  : Option W64
  deriving DecidableEq, Repr

/-- A mask change that waits for its frame (R354). -/
structure PendMask where
  gen    : W16
  frame  : Nat
  values : List Byte
  cw     : Option CwRef
  acked  : Bool
  deriving DecidableEq, Repr

/-- The trunk (R332 to R365, TRUNK_QUERY). Times are in 0.1 ns, `e` in ns. `ackFrames` counts frames without an ACK,
`goodAcks` consecutive acknowledged frames, `snrAge` frames since the partner's SNR report, `timeRun` consecutive
frames with a TIME packet, `bursts` decoded bursts in CONTROL. `lastHeard` is the DT of the partner's last decoded
burst or part. `rhos` holds the last values of ρ in 0.001 ppm, newest first, `doubled` the windows that still use 2g.
`toSend` holds the packets queued for the partner. `timeSeen` says that a TIME packet came in the frame in progress, `useBursts`
that R347 has the sender send control bursts, and `bursting` that a head in LOST has sent a call. -/
structure TrunkSt where
  state     : LinkState
  fromState : LinkState
  since     : W64
  frame     : Nat
  profTx    : Nat
  profRx    : Nat
  a         : Int
  d         : Nat
  e         : Int
  heard     : Bool
  answered  : Bool
  lastHeard : W64
  snrRep    : Int
  snrAge    : Nat
  mySnr     : Nat
  ackFrames : Nat
  goodAcks  : Nat
  timeRun   : Nat
  bursts    : Nat
  hm        : DirSt
  mh        : DirSt
  maskGen   : W16
  mask      : List Byte
  pendMask  : Option PendMask
  estimate  : Nat
  data      : SpaceSt
  ctrl      : SpaceSt
  toSend    : List TxPacket
  timeSeen  : Bool
  useBursts : Bool
  bursting  : Bool
  remotes   : List Remote
  sent      : Nat
  retx      : Nat
  lost      : Nat
  callsSent : Nat
  callsAcc  : Nat
  callType  : Nat
  callDue   : Option W64
  sleepTicks : Option Nat
  firstWin  : W64
  nextWin   : W64
  winOpen   : Bool
  winOk     : Bool
  pS        : Nat
  wMs       : Nat
  lastE     : Option Int
  rhos      : List Int
  doubled   : Nat
  unitCtrs  : List (W16 × Nat × Nat)
  listenMs  : Nat
  deriving DecidableEq, Repr

/-- A slice's trims under one plan (Table 13.3): OFFSET, GAIN and SKEW in its units. -/
structure SliceTrim where
  offset : Int
  gain   : Int
  skew   : Int
  deriving DecidableEq, Repr

/-- The header fields of a calibration block (Table 13.2) beside BLOCK, VERSION, LENGTH and UNIT. -/
structure CalHead where
  state    : Nat
  fails    : Nat
  dt       : W64
  quality  : W16
  quality2 : W16
  deriving DecidableEq, Repr

/-- An RF ADC's block (Table 13.3), and its rotation: the slice that the spare is measured against (R371, R372), per
slice the consecutive failed estimates of ESTIMATION_ONLY, and the slice that replaced each slice last. -/
structure AdcCal where
  head     : CalHead
  mode     : Nat
  spare    : Nat
  retired  : W32
  trims    : List (List SliceTrim)
  status   : List Nat
  fails    : List Nat
  target   : Nat
  estFails : List Nat
  deriving DecidableEq, Repr

/-- A flatness block: STEP and LINE (R366). -/
structure FlatCal where
  head  : CalHead
  steps : List Int
  lines : List Int
  deriving DecidableEq, Repr

/-- The clocks block 0x20. -/
structure ClockCal where
  head    : CalHead
  bandG   : Nat
  ampG    : Nat
  bandS   : List Nat
  ampS    : List Nat
  delayA  : Nat
  delayB  : Nat
  delayLf : Nat
  deriving DecidableEq, Repr

/-- The trunk equaliser block 0x30, and the DT of the last fit (R379). -/
structure EqCal where
  head : CalHead
  taps : List Int
  last : Option W64
  deriving DecidableEq, Repr

/-- The RTC trim block 0x40. -/
structure TrimCal where
  head  : CalHead
  trim  : W16
  error : Int
  deriving DecidableEq, Repr

/-- A foreground calibration that CAL_RUN started: target, options and scope. -/
structure CalJob where
  target  : Nat
  options : Nat
  scope   : Nat
  deriving DecidableEq, Repr

/-- The calibration blocks (R366 to R384). `startDone` says that the start calibration ran since the RF ADCs were last
powered. -/
structure CalSt where
  adcA      : AdcCal
  adcB      : AdcCal
  flatA     : FlatCal
  flatB     : FlatCal
  flatLf    : FlatCal
  clocks    : ClockCal
  eq        : EqCal
  trim      : TrimCal
  startDone : Bool
  job       : Option CalJob
  lockTicks : Nat
  deriving DecidableEq, Repr

/-- The states of the IEEE 1149.1 TAP controller (R522). -/
inductive TapState where
  | testLogicReset | runTestIdle | selectDr | captureDr | shiftDr | exit1Dr | pauseDr | exit2Dr | updateDr
  | selectIr | captureIr | shiftIr | exit1Ir | pauseIr | exit2Ir | updateIr
  deriving DecidableEq, Repr

/-- The JTAG port: controller state, instruction and data shift registers, and the instruction in force. -/
structure JtagSt where
  tap   : TapState
  irSh  : List Bool
  ir    : List Bool
  dr    : List Bool
  deriving DecidableEq, Repr

end Sys2Proof.Machine
end

