-- ==== Sys2Proof/Machine/State.lean ====
section
/-! DEFINITION. The state of the block, the reasons a step can stop, and the state right after reset. -/

namespace Sys2Proof.Machine

/-- A record of the settings journal (R469). Its body is the group's contents in a layout that the spec leaves to the
image's FORMAT, so it is held as the settings themselves, of which only the group's part counts. Log entry 20. -/
structure JRecord where
  group  : Nat
  format : Nat
  rseq   : W32
  len    : Nat
  body   : Settings
  sys    : SysRecord
  deriving DecidableEq, Repr

/-- A journal sector (R470 to R475). `nextPage` is the first page that follows every programmed page. -/
structure JSector where
  spare    : Bool
  retired  : Bool
  inUse    : Bool
  seq      : Nat
  erases   : Nat
  nextPage : Nat
  records  : List JRecord
  deriving DecidableEq, Repr

/-- The settings journal (R467 to R476). `dirty` holds the groups with a change not yet committed and the ticks since
the first such change. -/
structure JournalSt where
  sectors  : List JSector
  current  : Nat
  rseq     : W32
  nextSeq  : Nat
  sys      : SysRecord
  dirty    : List (Nat × Nat)
  readOnly : Bool
  deriving DecidableEq, Repr

/-- Reasons a step may fault. The block has no fault of its own: every error of the spec is a status, an event or a
flag, so there is none to name. -/
inductive Fault where
  /-- Raised by no meaning (safe). -/
  | none
  deriving DecidableEq, Repr

/-- Reasons a command may be refused a meaning. -/
inductive Refusal where
  /-- Raised by exec for a command that has no meaning yet (safe). -/
  | notModelled (mnemonic : String)
  deriving DecidableEq, Repr

/-- The state of the LX9484. `out` is what has left the device, in order, and `freeCtr` counts the free values
drawn so far (log entry 5); both are the model's own. -/
structure State where
  pending  : List Instr
  out      : List Out
  freeCtr  : Nat
  time     : TimeSt
  refs     : RefSt
  clk      : ClockSt
  acc      : Settings
  force    : Settings
  sched    : List (Sched Settings)
  rf       : List InputSt
  plan     : PlanSt
  coex     : CoexSt
  pPcie    : Port
  pTw      : Port
  pSvc     : Port
  pTrunk   : Port
  nextId   : Nat
  rings    : CmdRings
  busP     : BusRegs
  busT     : BusRegs
  scratch  : W32
  pcie     : Pcie
  svc      : SvcPort
  tw       : TwPort
  host     : Memory
  power    : PowerSt
  thermal  : ThermalSt
  flash    : FlashSt
  journal  : JournalSt
  rtc      : RtcSt
  diag     : List DiagEntry
  services : List Service
  place    : PlaceSt
  lanes    : List Lane
  carriers : List CarrierSt
  ldpc     : LdpcSt
  map      : MapSt
  alerts   : List Alert
  rds      : List RdsParse
  streams  : List Stream
  units    : List OutUnit
  side     : List SideRec
  outRings : List RingSt
  tags     : TagSt
  archive  : ArchiveSt
  pkts     : List PktSt
  audio    : List AudioSt
  trunk    : TrunkSt
  cal      : CalSt
  jtag     : JtagSt
  deriving DecidableEq, Repr

/-! ### Reset values -/

/-- The default references (Tables 4.4 and 4.5). -/
def defaultRefs : RefParams :=
  let e (c f t : Nat) : RefEntry := ⟨BitVec.ofNat 8 c, BitVec.ofNat 8 f, BitVec.ofNat 8 t, 2#8, 0#8, 0xFFFF#16⟩
  ⟨3600#32, 0#8, [e 1 2 0, e 2 3 0, e 3 4 2, e 4 1 1, e 5 0 4, e 6 0 3, e 7 0 5]⟩

/-- The default survey (Table 9.3, R244). -/
def defaultSurvey : SurveyParams :=
  ⟨1000#32, [⟨1#8, 0#8, 87500#32, 108000#32, 100#32⟩, ⟨1#8, 1#8, 174928#32, 239200#32, 0#32⟩,
    ⟨1#8, 2#8, 474000#32, 858000#32, 8000#32⟩]⟩

/-- The default band of LDPC_POLICY (Table 8.6). -/
def defaultBand : LdpcBand := ⟨12#8, 24#8, 125#16⟩

/-- Every device setting at its default. HOLDOVER's oscillator kind, and CLKOUT's and the ADC clocks' dividers, have no
default in the spec and start at the values of log entry 9. -/
def Settings.default : Settings where
  gen := 0#16
  cmdRing := tableDefaults tbl143
  evMask := [BitVec.allOnes 128, 0#128, 0#128, BitVec.allOnes 128]
  wakeBudget := 500#32
  chain := false
  placement := ⟨10#8, 0#8, 0#8⟩
  survey := defaultSurvey
  follow := tableDefaults tbl97
  links := []
  alertMask := 0x100000001#64
  rings := (List.range 64).map (fun r => tableDefaults (tbl101 r))
  archive := tableDefaults tbl109
  audio := List.replicate 4 (tableDefaults tbl111)
  pkt := List.replicate 4 (tableDefaults tbl1010)
  lockS := ⟨4#16, 4096#16⟩
  lockG := ⟨4#16, 4096#16⟩
  clkout := ⟨0#8, 0#16, 10#32, 0#32⟩
  ppsOut := ⟨0#8, 0#8, 100#16⟩
  adcA := none
  adcB := none
  refs := defaultRefs
  leapHost := []
  leapExpiry := none
  rf := List.replicate 3 ⟨0#8, 0xF0#8, 0#8⟩
  plan := ⟨1#8, 15#8, 0#8⟩
  coex := tableDefaults tbl39
  lane := tableDefaults tbl57
  dab := tableDefaults tbl73
  tv := tableDefaults tbl87
  ldpc := List.replicate 4 defaultBand
  cal := tableDefaults tbl136
  trunk := tableDefaults tbl121
  trunkMask := []
  fir := []
  formats := []

/-- A transport with nothing kept or queued. -/
def Port.reset : Port := ⟨[], [], [], 0#16, 0, 0, 0, 0⟩

/-- The banked registers of a bus after a reset (Table 16.2). -/
def BusRegs.reset : BusRegs := ⟨0#32, 0#32, 0#64, false, 0#32, 0#32, 0#32, 0#32, [], false⟩

/-- A reference that has not qualified. -/
def RefState.reset : RefState := ⟨false, false, false, false, 0, 0⟩

/-- The timebase after a reset (R48, R127, R128). -/
def RefSt.reset : RefSt :=
  ⟨List.replicate 9 RefState.reset, 0, none, .free, 0, 0, [], false, false, 0, 0, 0xFF, none, none, none, [], [], 0, 0,
    none⟩

/-- An RF input after a reset: no attenuation, nothing counted. -/
def InputSt.reset : InputSt := ⟨0, 0, 0, 0, 0, 0, 0, false⟩

/-- The coexistence wires after a reset: nothing asserted (R101, R521). -/
def CoexSt.reset : CoexSt :=
  ⟨false, false, false, false, false, .idle, 0#64, 0#64, false, 0#64, 0#64, false, false, [0#64, 0#64, 0#64],
    [false, false, false], List.replicate 5 0, 0, 0, 0⟩

/-- The settings journal of a blank flash (R470): eight sectors, of which the last two are spare. -/
def JournalSt.reset : JournalSt :=
  ⟨(List.range 8).map (fun i => ⟨decide (6 ≤ i), false, false, 0, 0, 1, []⟩), 0, 0#32, 1,
    ⟨0, 0, 0, true, 0#32, 0#32, 0⟩, [], false⟩

/-- An image slot that holds nothing. -/
def ImgSlot.reset : ImgSlot := ⟨.empty, 0, 0#32, 0, none, none⟩

/-- The backup domain after its own reset (R496, R499), and its interface as a start finds it (R498). -/
def RtcSt.reset : RtcSt :=
  ⟨⟨2000, 1, 1, 0, 0, 0⟩, false, true, false, false, false, true, true, 0x8000#16, ⟨2000, 1, 1, 0, 0, 0⟩,
    List.replicate 32 0#8, false, [], false, none⟩

/-- A signed 16-bit value of the factory body of a calibration block. -/
def factory16 (b off : Nat) : Int :=
  (BitVec.ofNat 16 ((Config.factoryByte b off).toNat + 256 * (Config.factoryByte b (off + 1)).toNat)).toInt

/-- A block header with factory values (R368). -/
def factoryHead (b : Nat) : CalHead := ⟨0, 0, 0#64, (Config.factoryQuality b).1, (Config.factoryQuality b).2⟩

/-- An RF ADC's block with its factory values, and the RETIRED mask of the journal (R368, R373). With a retired slice
there is no spare. -/
def AdcCal.factory (b : Nat) (retired : W32) : AdcCal :=
  let sp := (Config.factoryByte b 1).toNat % 17
  let none := retired != 0#32
  { head := factoryHead b
    mode := if none then 1 else 0
    spare := if none then 0xFF else sp
    retired := retired
    trims := (List.range 4).map (fun p => (List.range 17).map (fun s =>
      let o := 8 + 8 * (17 * p + s); ⟨factory16 b o, factory16 b (o + 2), factory16 b (o + 4)⟩))
    status := (List.range 17).map (fun s => if retired.getLsbD s then 2 else if !none && s == sp then 1 else 0)
    fails := List.replicate 17 0
    target := 0
    estFails := List.replicate 17 0 }

/-- A flatness block with its factory values: `n` steps and `m` lines. -/
def FlatCal.factory (b n m : Nat) : FlatCal :=
  ⟨factoryHead b, (List.range n).map (fun i => factory16 b (2 * i)),
    (List.range m).map (fun i => factory16 b (2 * n + 2 * i))⟩

/-- The calibration blocks after a reset (R368); the trunk taps are those of R379. -/
def CalSt.factory (retiredA retiredB : W32) : CalSt where
  adcA := AdcCal.factory 1 retiredA
  adcB := AdcCal.factory 2 retiredB
  flatA := FlatCal.factory 0x10 31 335
  flatB := FlatCal.factory 0x11 31 335
  flatLf := FlatCal.factory 0x12 11 120
  clocks :=
    let f (i : Nat) := (Config.factoryByte 0x20 i).toNat
    ⟨factoryHead 0x20, f 0, f 1, (List.range 4).map (fun i => f (2 + i)), (List.range 4).map (fun i => f (6 + i)),
      f 12 + 256 * f 13, f 14 + 256 * f 15, f 16 + 256 * f 17⟩
  eq := ⟨factoryHead 0x30, 0x4000 :: List.replicate 31 0, none⟩
  trim :=
    let f (i : Nat) := (Config.factoryByte 0x40 i).toNat
    ⟨factoryHead 0x40, BitVec.ofNat 16 (f 0 + 256 * f 1), (BitVec.ofNat 32 (f 4 + 256 * f 5 + 65536 * f 6 + 16777216 * f 7)).toInt⟩
  startDone := false
  job := none
  lockTicks := 0

/-- A direction of the trunk with no table. -/
def DirSt.reset : DirSt := ⟨0, ⟨0, [], 0#16⟩, ⟨0, [], 0#16⟩, none, false, [], [], 0#32⟩

/-- A SEQ space at its start (R341). -/
def SpaceSt.reset : SpaceSt := ⟨0, [], [], 0, 0⟩

/-- The trunk with its link OFF (Table 12.9). -/
def TrunkSt.reset : TrunkSt where
  state := .off
  fromState := .off
  since := 0#64
  frame := 0
  profTx := 3
  profRx := 3
  a := 0
  d := 0
  e := 0
  heard := false
  answered := false
  lastHeard := 0#64
  snrRep := 0
  snrAge := 8
  mySnr := 31
  ackFrames := 0
  goodAcks := 0
  timeRun := 0
  bursts := 0
  hm := DirSt.reset
  mh := DirSt.reset
  maskGen := 0#16
  mask := []
  pendMask := none
  estimate := 0
  data := SpaceSt.reset
  ctrl := SpaceSt.reset
  toSend := []
  timeSeen := false
  useBursts := false
  bursting := false
  remotes := []
  sent := 0
  retx := 0
  lost := 0
  callsSent := 0
  callsAcc := 0
  callType := 1
  callDue := none
  sleepTicks := none
  firstWin := 0#64
  nextWin := 0#64
  winOpen := false
  winOk := false
  pS := 60
  wMs := 20
  lastE := none
  rhos := []
  doubled := 0
  unitCtrs := []
  listenMs := 0

/-- An audio port that is STOPPED. -/
def AudioSt.reset : AudioSt :=
  ⟨0, none, none, none, false, 0, none, 2, 0, 0, 0#64, [], [], 0, 0, 0, 0, 0, none, 0⟩

/-- The service map with nothing in it (R243). -/
def MapSt.reset : MapSt :=
  ⟨⟨[], [], [], []⟩, ⟨[], [], [], []⟩, 0#32, 0, 0, [], 0, false, false, [], [], 0, 0, [], []⟩

/-- The state right after power-on, before the start of Table 19.6: every register at the value the spec states for
reset, or at the one of log entries 3, 6, 9 and 10. -/
def State.reset : State where
  pending := []
  out := []
  freeCtr := 0
  time := ⟨0#64, 1000000, false, false, none, none, false, none, [], Config.imageLeapExpiry, []⟩
  refs := RefSt.reset
  clk := ⟨⟨false, 0, 0⟩, ⟨false, 0, 0⟩, false, false, none, false⟩
  acc := Settings.default
  force := Settings.default
  sched := []
  rf := List.replicate 3 InputSt.reset
  plan := ⟨0, none, none, none, List.replicate 4 ⟨true, 0, List.replicate 8 0, List.replicate 8 0⟩, none, false⟩
  coex := CoexSt.reset
  pPcie := Port.reset
  pTw := Port.reset
  pSvc := Port.reset
  pTrunk := Port.reset
  nextId := 0
  rings := ⟨0, 0, 0, 0, 0, [], false, false, false, 0, none⟩
  busP := BusRegs.reset
  busT := BusRegs.reset
  scratch := 0#32
  pcie := ⟨false, false, false, false, BitVec.allOnes 64, 0#64, [], 1, 4⟩
  svc := ⟨false⟩
  tw := ⟨0, 0#16, [], 0#32, 0, false, none, none⟩
  host := []
  power := ⟨true, false, false, false, .dormant, .warm, none, 1, none, false, false, false, 0, 0, false, []⟩
  thermal := ⟨0#16, 0#16, 0, 0, 0, 0, 0, 0, 0, 0, 0, false, 0⟩
  flash := ⟨0, [], ImgSlot.reset, ImgSlot.reset, 0, 0#32, 0, 0, none,
    [⟨some Config.otpHash, false⟩, ⟨none, false⟩, ⟨none, false⟩, ⟨none, false⟩], false, []⟩
  journal := JournalSt.reset
  rtc := RtcSt.reset
  diag := []
  services := []
  place := ⟨List.replicate 256 0, 0, [], 10, 0, List.replicate 10 (none, 0), false⟩
  lanes := []
  carriers := []
  ldpc := ⟨[], List.replicate 4 0, List.replicate 4 0, 0, 0, 0, 0⟩
  map := MapSt.reset
  alerts := []
  rds := []
  streams := []
  units := []
  side := []
  outRings := List.replicate 64 ⟨false, false, 0, 0, 0, 0, [], 0, none⟩
  tags := ⟨65535, [], 0, false⟩
  archive := ⟨[], 0, none, false, false, [], []⟩
  pkts := List.replicate 4 ⟨[], none, 0, 0, 0, 0, 0, 0⟩
  audio := List.replicate 4 AudioSt.reset
  trunk := TrunkSt.reset
  cal := CalSt.factory 0#32 0#32
  jtag := ⟨.testLogicReset, [], [], []⟩

end Sys2Proof.Machine
end

