-- ==== Sys2Proof/Machine/Ops.lean ====
section
/-! DEFINITION. The operations that every command shares: device time, effective ticks and settings, interrupts, events,
packets and replies, the reply/event ring, and the acceptance checks of Table 14.6. -/

namespace Sys2Proof.Machine

/-! ### Device time -/

/-- DT in ns (R46). -/
def State.now (s : State) : Nat := s.time.dt.toNat

/-- The index of the tick in progress (R49). -/
def State.tickNow (s : State) : Nat := s.now / 1000000

/-- Time passes within the tick in progress; the next tick boundary is TICK's (log entry 8). -/
def State.advance (s : State) (ns : Nat) : State :=
  let d := min (s.now + ns) (s.time.boundary - 1)
  { s with time := { s.time with dt := BitVec.ofNat 64 (max s.now d) } }

/-- One more, saturating at 32 bits (R519). -/
def sat32 (n : Nat) : Nat := min n 0xFFFFFFFF

/-- The low 32 bits of a tick index (R49). -/
def tick32 (n : Nat) : W32 := BitVec.ofNat 32 n

/-- The value that means "no effective tick" (R23). -/
def noTick : W32 := 0xFFFFFFFF#32

/-- The index of the effective tick of a command accepted now (R23): two ticks on, or three where the low 32 bits would
read "none" (R510). -/
def State.effTickIdx (s : State) : Nat := s.tickNow + (if tick32 (s.tickNow + 2) = noTick then 3 else 2)

/-- How many tick boundaries come up to and with the start of the effective tick of a command accepted now. -/
def State.effTicks (s : State) : Nat := s.effTickIdx + 1 - s.time.boundary / 1000000

/-- The effective tick of a command accepted now, as a reply carries it (R23, R510). -/
def State.effTick (s : State) : W32 := tick32 s.effTickIdx

/-! ### Modes and roles -/

/-- The trunk role in force (Table 12.1 item 1): 0 OFF, 1 MAST, 2 HEAD. -/
def State.role (s : State) : Nat := s.force.trunk.nat 1

/-- Whether the device is in mast role. -/
def State.isMast (s : State) : Bool := s.role == 1

/-- Whether the device is in head role. -/
def State.isHead (s : State) : Bool := s.role == 2

/-- The MODE code of Table 15.3. -/
def Mode.code : Mode → Nat
  | .backup => 0 | .dormant => 1 | .survey => 2 | .serve => 3 | .relay => 4 | .maintain => 5

/-- The SUB_STATE code of Table 15.3. -/
def SubState.code : SubState → Nat
  | .hot => 0 | .warm => 1 | .cool => 2 | .cold => 3

/-- The TIME_STATE code of Table 15.3. -/
def TState.code : TState → Nat
  | .free => 0 | .acquiring => 1 | .locked => 2 | .holdover => 3 | .expired => 4

/-- SUB_STATE as a byte: 0xFF outside DORMANT (Table 15.3). -/
def State.subCode (s : State) : Nat := if s.power.mode = .dormant then s.power.sub.code else 0xFF

/-- Whether a mode or sub-state change is under way (MODE_STATUS TRANSITION, R481). -/
def State.inTransition (s : State) : Bool := match s.power.change with | some c => c.begun | none => false

/-! ### Transports -/

/-- What a transport has of its own. -/
def State.port (s : State) : Transport → Port
  | .pcie => s.pPcie | .twoWire => s.pTw | .service => s.pSvc | .trunk => s.pTrunk

/-- The state with a transport's part replaced. -/
def State.setPort (s : State) (t : Transport) (p : Port) : State :=
  match t with
  | .pcie => { s with pPcie := p } | .twoWire => { s with pTw := p }
  | .service => { s with pSvc := p } | .trunk => { s with pTrunk := p }

/-- The transport of a bus. -/
def busTransport : Bus → Transport
  | .pcie => .pcie | .twoWire => .twoWire

/-- The banked registers of a bus (R424). -/
def State.bus (s : State) : Bus → BusRegs
  | .pcie => s.busP | .twoWire => s.busT

/-- The state with a bus's registers replaced. -/
def State.setBus (s : State) (b : Bus) (r : BusRegs) : State :=
  match b with | .pcie => { s with busP := r } | .twoWire => { s with busT := r }

/-- Something leaves the device. -/
def State.emit (s : State) (o : Out) : State := { s with out := s.out ++ [o] }

/-! ### Interrupts -/

/-- Bit numbers of INT_STATUS. -/
def intMboxReply : Nat := 0
def intEventPending : Nat := 1
def intRingFault : Nat := 4
def intModeChange : Nat := 5
def intTimeState : Nat := 6
def intThermal : Nat := 7
def intBootDone : Nat := 8
def intDtMatch : Nat := 9

/-- The single bit `n` of a register word. -/
def bitW (n : Nat) : W32 := 1#32 <<< n

/-- INT_STATUS as a bus reads it: its stored bits and EVENT_PENDING, which is the state of its event queue (R400). -/
def State.intStatus (s : State) (b : Bus) : W32 :=
  (s.bus b).intStatus ||| (if (s.port (busTransport b)).events.isEmpty then 0#32 else bitW intEventPending)

/-- The enabled interrupt conditions of a bus (R435). -/
def State.intActive (s : State) (b : Bus) : W32 := s.intStatus b &&& (s.bus b).intEnable

/-- An MSI-X message, sent or held as pending (R435, R487). -/
def State.msix (s : State) (v : Nat) : State :=
  let p := s.pcie
  if p.msixOn && !p.funcMask && !p.masked.getLsbD v && !p.d3 then s.emit (.msix v)
  else { s with pcie := { p with pba := p.pba ||| (1#64 <<< v) } }

/-- Pending messages that may now leave do so (R435). -/
def State.releaseMsix (s : State) : State :=
  let p := s.pcie
  if p.msixOn && !p.funcMask && !p.d3 then
    let go := (List.range 64).filter (fun v => p.pba.getLsbD v && !p.masked.getLsbD v)
    { s with out := s.out ++ go.map .msix, pcie := { p with pba := p.pba &&& p.masked } }
  else s

/-- ATTN_N is low (R436). -/
def State.attnLevelLow (s : State) : Bool :=
  !s.pTw.events.isEmpty || s.intActive .twoWire != 0#32

/-- The DT at which an ATTN write triggered now is sent: 2 ms after the one before, or at once (R447). -/
def State.attnDue (s : State) : W64 :=
  match s.tw.lastAttn with
  | some d => if s.now < d.toNat + 2000000 then BitVec.ofNat 64 (d.toNat + 2000000) else s.time.dt
  | none => s.time.dt

/-- The conditions of one bus have changed from `old`, its enabled conditions before: a rise is signalled by MSI-X
vector 0 on PCIe (R435), and by ATTN_N and an ATTN write on the two-wire bus (R436, R447). -/
def State.intEdge (s : State) (b : Bus) (old : W32) : State :=
  let rise := s.intActive b &&& ~~~ old
  match b with
  | .pcie => if rise = 0#32 then s else s.msix 0
  | .twoWire =>
    let low := s.attnLevelLow
    let fell := low && !s.tw.attnLow
    let s1 := if low = s.tw.attnLow then s
      else { s with tw := { s.tw with attnLow := low }, out := s.out ++ [.pin "ATTN_N" (!low)] }
    let trig := (fell || (low && rise != 0#32)) && (s.force.evMask.getD 1 0 != 0)
    if trig && s1.tw.attn.isNone then { s1 with tw := { s1.tw with attn := some ⟨s1.attnDue, 0, 0⟩ } } else s1

/-- Change the stored bits of INT_STATUS of one bus, and signal. -/
def State.setIntWord (s : State) (b : Bus) (f : W32 → W32) : State :=
  let old := s.intActive b
  (s.setBus b { s.bus b with intStatus := f (s.bus b).intStatus }).intEdge b old

/-- Set a bit of INT_STATUS of one bus. -/
def State.setInt (s : State) (b : Bus) (n : Nat) : State := s.setIntWord b (· ||| bitW n)

/-- Set a bit of INT_STATUS in both copies: a condition not tied to a bus (R426). -/
def State.setIntBoth (s : State) (n : Nat) : State := (s.setInt .pcie n).setInt .twoWire n

/-! ### Packets -/

/-- A packet: header, parameters and CRC32 trailer (R385, R386, Table 14.1). -/
def packet (opcode flags seq slot gen eff : Nat) (params : List Byte) : List Byte :=
  let body := le 2 opcode ++ [1#8, BitVec.ofNat 8 flags] ++ le 2 seq ++ le 2 params.length ++ le 2 slot ++ le 2 gen
    ++ le 4 eff ++ params
  body ++ le 4 (crc32 body).toNat

/-- The codes of Table 14.7. -/
def Status.code : Status → Nat
  | .ok => 0x0000 | .okPending => 0x0001 | .badOpcode => 0x0101 | .badLength => 0x0102 | .badParam => 0x0103
  | .badCrc => 0x0104 | .badSlot => 0x0105 | .wrongMode => 0x0201 | .busyRunning => 0x0202 | .noCapacity => 0x0203
  | .notFound => 0x0204 | .locked => 0x0205 | .thermalLimit => 0x0206 | .imageRefused => 0x0301
  | .calRejected => 0x0302 | .nvReadOnly => 0x0303 | .internalFault => 0x0FFF

/-- Whether a status is OK or OK_PENDING (R397). -/
def Status.good : Status → Bool
  | .ok | .okPending => true
  | _ => false

/-- The packet of a reply (Table 14.1, R386). -/
def Reply.packet (r : Reply) : List Byte :=
  Machine.packet r.opcode.toNat 0x80 r.seq.toNat r.status.code r.gen.toNat r.eff.toNat
    (le 8 r.dt.toNat ++ r.params)

/-- The packet of an event (Table 14.1, R386). -/
def Event.packet (e : Event) : List Byte :=
  Machine.packet e.code.toNat 0x80 e.seq.toNat e.slot.toNat e.gen.toNat e.tick.toNat (le 8 e.dt.toNat ++ e.params)

/-! ### The reply/event ring -/

/-- Whether the reply/event ring may be written: enabled, not in fault, and the endpoint in D0 (R392, R487). -/
def State.replyRingOn (s : State) : Bool := s.force.cmdRing.nat 4 == 1 && !s.rings.fault && !s.pcie.d3

/-- The size of the reply/event ring. -/
def State.replySize (s : State) : Nat := s.force.cmdRing.nat 6 1

/-- Bytes of the reply/event ring that may be written (R279, R392). -/
def State.replyFree (s : State) : Nat :=
  let size := s.replySize
  size - (s.rings.replyProducer + size - s.rings.replyConsumer) % size - 64

/-- Both command rings enter the fault state (R391, R392). -/
def State.ringsFault (s : State) : State :=
  ({ s with rings := { s.rings with fault := true, cmdWasOff := false, replyWasOff := false } }).setIntBoth intRingFault

/-- A write of the device into host memory. -/
def State.hostWrite (s : State) (a : Nat) (bs : List Byte) : State :=
  { s with host := Memory.writeN ramDefault s.host a bs }

/-- A 32-bit word of host memory. -/
def State.hostWord (s : State) (a : Nat) : Nat := unle (Memory.readN ramDefault s.host a 4)

/-- The reply/event ring's CONSUMER is read (R280, R392): it must be PRODUCER or the start of a packet not yet
consumed. -/
def State.readReplyConsumer (s : State) : State :=
  if s.replyRingOn then
    let v := s.hostWord (s.force.cmdRing.nat 7 + 32)
    let r := s.rings
    if v = r.replyConsumer then s
    else if v = r.replyProducer then { s with rings := { r with replyConsumer := v, starts := [] } }
    else if v ∈ r.starts then
      { s with rings := { r with replyConsumer := v, starts := r.starts.dropWhile (· != v) } }
    else s.ringsFault
  else s

/-- The reply/event ring is signalled (R281, R392). -/
def State.signalReplyRing (s : State) : State :=
  ({ s with rings := { s.rings with unsignalled := 0, timerUs := none } }).msix 0

/-- A packet is put into the reply/event ring at PRODUCER, after a pad where it does not fit before the end (R279,
R392), and the ring is signalled under its moderation settings (R281). -/
def State.replyRingPut (s : State) (pkt : List Byte) : State :=
  let t := s.force.cmdRing
  let base := t.nat 5
  let size := s.replySize
  let n := roundUp 64 pkt.length
  let s := if s.rings.replyProducer + n > size then
      let r := s.rings
      let s := s.hostWrite (base + r.replyProducer) (le 2 0 ++ [0#8, 0x80#8] ++ zeros 12)
      { s with rings := { r with replyProducer := 0, replyWraps := (r.replyWraps + 1) % 2 ^ 32, starts := r.starts ++ [r.replyProducer] } }
    else s
  let r := s.rings
  let s := s.hostWrite (base + r.replyProducer) pkt
  let p := (r.replyProducer + n) % size
  let w := if p = 0 then (r.replyWraps + 1) % 2 ^ 32 else r.replyWraps
  let s := s.hostWrite (t.nat 7) (le 4 p ++ le 4 w)
  let st := r.starts ++ [r.replyProducer]
  let r : CmdRings := { r with replyProducer := p, replyWraps := w, starts := st, unsignalled := r.unsignalled + 1 }
  let s := { s with rings := r }
  if r.unsignalled ≥ t.nat 8 1 ∨ t.nat 9 = 0 then s.signalReplyRing
  else if r.unsignalled = 1 then { s with rings := { r with timerUs := some (t.nat 9) } } else s

/-- Bytes that a packet takes of the reply/event ring, its pad included (R279). -/
def State.replyNeed (s : State) (pkt : List Byte) : Nat :=
  let n := roundUp 64 pkt.length
  if s.rings.replyProducer + n > s.replySize then s.replySize - s.rings.replyProducer + n else n

/-- A packet goes into the reply/event ring if it fits, CONSUMER being read again where it does not (R280); the answer
says whether it went. -/
def State.replyRingTry (s : State) (pkt : List Byte) : State × Bool :=
  if !s.replyRingOn then (s, false)
  else if s.replyNeed pkt ≤ s.replyFree then (s.replyRingPut pkt, true)
  else
    let s := s.readReplyConsumer
    if s.replyRingOn && decide (s.replyNeed pkt ≤ s.replyFree) then (s.replyRingPut pkt, true) else (s, false)

/-! ### Delivery of replies and events -/

/-- The bank of a bus is released, with the reply in it unless no-reply holds it back (R389, R397). -/
def State.mailboxAnswer (s : State) (b : Bus) (e : OutEntry) (r : Reply) : State :=
  let regs := s.bus b
  let bank := if e.noReply && r.status.good then regs.bank
    else Memory.writeN ramDefault regs.bank 0 r.packet
  (s.setBus b { regs with bank := bank, bankBusy := false }).setInt b intMboxReply

/-- The oldest reply of a transport leaves if it is made and has room; on the service port and the trunk it waits for
READ_PACKET or a frame, unless it need not be sent. The answer says whether another may follow. -/
def State.deliverOne (s : State) (t : Transport) : State × Bool :=
  let p := s.port t
  match p.outbox with
  | [] => (s, false)
  | e :: rest =>
    match e.reply with
    | none => (s, false)
    | some r =>
      let drop := s.setPort t { p with outbox := rest }
      match t with
      | .pcie =>
        if e.viaRing then
          if e.noReply && r.status.good then (drop, true)
          else match s.replyRingTry r.packet with
            | (s', true) => (s'.setPort t { s'.port t with outbox := rest }, true)
            | (s', false) => (s', false)
        else (drop.mailboxAnswer .pcie e r, true)
      | .twoWire => (drop.mailboxAnswer .twoWire e r, true)
      | .service | .trunk => if e.noReply && r.status.good then (drop, true) else (s, false)

/-- Replies of a transport leave in order of acceptance (R402). -/
def State.deliverReplies : Nat → State → Transport → State
  | 0, s, _ => s
  | n + 1, s, t => match s.deliverOne t with
    | (s', true) => deliverReplies n s' t
    | (s', false) => s'

/-- Whether a reply of a transport is made and waits (R400). -/
def Port.replyWaits (p : Port) : Bool := match p.outbox with | e :: _ => e.reply.isSome | [] => false

/-- Events of the PCIe transport go into the reply/event ring while it is enabled and no reply waits (R399, R400). -/
def State.deliverEvents : Nat → State → State
  | 0, s => s
  | n + 1, s =>
    match s.pPcie.events with
    | [] => s
    | e :: rest =>
      if s.pPcie.replyWaits then s
      else match s.replyRingTry e.packet with
        | (s', true) => deliverEvents n { s' with pPcie := { s'.pPcie with events := rest } }
        | (s', false) => s'

/-- SVC_REQ_N follows PENDING (R393). -/
def State.svcPending (s : State) : Bool := s.pSvc.replyWaits || !s.pSvc.events.isEmpty

/-- Everything that can leave a transport does. -/
def State.flush (s : State) (t : Transport) : State :=
  let was := s.svcPending
  let s := s.deliverReplies ((s.port t).outbox.length) t
  match t with
  | .pcie => s.deliverEvents s.pPcie.events.length
  | .service => if s.svcPending = was then s else s.emit (.pin "SVC_REQ_N" (!s.svcPending))
  | _ => s

/-! ### Events -/

/-- The service that a SLOT field names: its slot occupied, with that incarnation (R39). -/
def State.svc? (s : State) (f : W16) : Option Service :=
  s.services.find? (fun v => v.slot == f.toNat % 256 && v.inc == f.toNat / 256)

/-- The SLOT field of a service. -/
def Service.field (v : Service) : W16 := BitVec.ofNat 16 (v.slot + 256 * v.inc)

/-- The service in a slot number. -/
def State.slotSvc? (s : State) (n : Nat) : Option Service := s.services.find? (fun v => v.slot == n)

/-- The state with one service changed. -/
def State.modSvc (s : State) (n : Nat) (f : Service → Service) : State :=
  { s with services := s.services.map (fun v => if v.slot == n then f v else v) }

/-- The generation in force for a slot field, or the device generation (Table 14.1). -/
def State.genInForce (s : State) (slot : W16) : W16 :=
  match s.svc? slot with
  | some v => v.force.gen
  | none => s.acc.gen

/-- The FLAGS bits of Table 10.4 that a rule of this file or another sets. -/
def fImpaired : W32 := bitW 15
def fLast : W32 := bitW 14
def fAlert : W32 := bitW 13
def fDiscontinuity : W32 := bitW 12
def fUnarchived : W32 := bitW 11
def fHoldover : W32 := bitW 10
def fTimeUnlocked : W32 := bitW 9
def fConcealed : W32 := bitW 8
def fSplice : W32 := bitW 7
def fPartial : W32 := bitW 6
def fGap : W32 := bitW 5
def fDegraded : W32 := bitW 4
def fOverload : W32 := bitW 3
def fImpulse : W32 := bitW 2
def fBlanked : W32 := bitW 1
def fUnsettled : W32 := bitW 0

/-- The trust flags of R55 and Table 4.7. -/
def State.trustFlags (s : State) : W32 :=
  match s.refs.tstate with
  | .free | .acquiring => fTimeUnlocked
  | .locked => 0#32
  | .holdover => fHoldover
  | .expired => fTimeUnlocked ||| fHoldover

/-- The stream of a slot field and kind (R68). -/
def State.stream? (s : State) (f : W16) (kind : Nat) : Option Stream :=
  s.streams.find? (fun x => x.slot == f && x.kind == kind)

/-- The state with one stream changed. -/
def State.modStream (s : State) (f : W16) (kind : Nat) (g : Stream → Stream) : State :=
  { s with streams := s.streams.map (fun x => if x.slot == f && x.kind == kind then g x else x) }

/-- A finished unit enters the collector's queue, with the trust flags of the moment at which it is stamped (R55,
R295). -/
def State.pushUnit (s : State) (f : W16) (kind : Nat) (gen : W16) (dt : W64) (spanNs : Nat) (flags : W32)
    (payload : List Byte) : State :=
  { s with units := s.units ++ [⟨f, kind, gen, dt, spanNs, flags ||| s.trustFlags, payload, s.tickNow⟩] }

/-- An event is queued for one transport, whose SEQ advances; the oldest is dropped from a full queue (R399, R400). -/
def State.queueEvent (s : State) (t : Transport) (code slot : W16) (params : List Byte) : State :=
  let p := s.port t
  let ev : Event := ⟨code, p.evSeq, slot, s.genInForce slot, tick32 s.tickNow, s.time.dt, params⟩
  let q := p.events ++ [ev]
  let full := p.events.length ≥ 128
  let p' := { p with events := if full then q.tail else q, evSeq := p.evSeq + 1,
                     evDropped := if full then sat32 (p.evDropped + 1) else p.evDropped }
  match t with
  | .pcie => let old := s.intActive .pcie; ((s.setPort t p').intEdge .pcie old).flush .pcie
  | .twoWire => let old := s.intActive .twoWire; (s.setPort t p').intEdge .twoWire old
  | .service =>
    let was := s.svcPending
    let s' := s.setPort t p'
    if was then s' else s'.emit (.pin "SVC_REQ_N" false)
  | .trunk => s.setPort t p'

/-- The index of a transport in the order of Table 15.3. -/
def transportIdx : Transport → Nat
  | .pcie => 0 | .twoWire => 1 | .service => 2 | .trunk => 3

/-- The code's bit of a transport's event mask (R399); the trunk transport exists in mast role only (Table 15.4). -/
def State.masked (s : State) (t : Transport) (code : W16) : Bool :=
  (s.force.evMask.getD (transportIdx t) 0).getLsbD (code.toNat - 0x8000) && (t != .trunk || s.isMast)

/-- The unit that copies an event into the event-copy stream of the service it names: the packet as PCIe carries it, with
SEQ 0 where it is not queued there (R540). -/
def State.eventCopy (s : State) (code : W16) (slot : W16) (params : List Byte) : State :=
  match s.stream? slot 0x0C with
  | none => s
  | some _ =>
    let seq := if s.masked .pcie code then s.pPcie.evSeq else 0#16
    let ev : Event := ⟨code, seq, slot, s.genInForce slot, tick32 s.tickNow, s.time.dt, params⟩
    s.pushUnit slot 0x0C (s.genInForce slot) s.time.dt 0 0#32 ev.packet

/-- An event is raised: it is copied into the stream of R540 and queued for every transport whose mask includes its
code (R399). -/
def State.raise (s : State) (code : Nat) (slot : W16) (params : List Byte) : State :=
  let c := BitVec.ofNat 16 code
  let s := if slot = 0xFFFF#16 then s else s.eventCopy c slot params
  [Transport.pcie, .twoWire, .service, .trunk].foldl
    (fun s t => if s.masked t c then s.queueEvent t c slot params else s) s

/-- The SLOT field that names no slot. -/
def noSlot : W16 := 0xFFFF#16

/-! ### Settings -/

/-- Whether no further record finds a free page: the current sector is full, and the only erased working sector left is the one
that compaction needs (R474). -/
def JournalSt.noPage (j : JournalSt) : Bool :=
  let x := j.sectors.getD j.current ⟨false, false, false, 0, 0, 1, []⟩
  x.inUse && decide (256 ≤ x.nextPage) && decide ((j.sectors.filter (fun y => !y.spare && !y.retired && !y.inUse)).length ≤ 1)

/-- Whether a change of a stored setting is not persisted: the store is read-only, or it finds no free page while no erase may
start (R413, R475, R478). -/
def State.nvOff (s : State) : Bool := s.journal.readOnly || (decide (1 ≤ s.thermal.level) && s.journal.noPage)

/-- A journal group has a change to be written (R468), unless it will not be persisted. -/
def State.markDirty (s : State) (g : Option Nat) : State :=
  match g with
  | none => s
  | some g =>
    if s.nvOff || s.journal.dirty.any (·.1 == g) then s
    else { s with journal := { s.journal with dirty := s.journal.dirty ++ [(g, 0)] } }

/-- What a command answers: a status, the parameters after the DT, the generation where it is not the one that the
header's slot has after the command, and the effective tick; or nothing yet, where the placement round makes the
reply (R23). -/
inductive Answer where
  | now (status : Status) (params : List Byte) (gen : Option W16) (eff : W32)
  | later
  deriving DecidableEq, Repr

/-- A plain answer with no effective tick. -/
def answer (st : Status) (params : List Byte := []) : Answer := .now st params none noTick

/-- A refusal. -/
def refuse (s : State) (st : Status) : State × Answer := (s, answer st)

/-- A device setting is changed (R62): nothing advances where every value stays as it is; otherwise the device
generation advances, the change takes force at the effective tick, and the journal group `g` is to be written (R468),
or NV_READ_ONLY says that it will not be (R413). -/
def State.commitDev (s : State) (g : Option Nat) (f : Settings → Settings) (params : List Byte := []) : State × Answer :=
  if f s.acc = s.acc then (s, .now .ok params none noTick)
  else
    let a := { f s.acc with gen := s.acc.gen + 1 }
    let s' := ({ s with acc := a, sched := s.sched ++ [(⟨s.effTicks, a⟩ : Sched Settings)] }).markDirty g
    let st := if g.isSome && s.nvOff then Status.nvReadOnly else Status.ok
    (s', .now st params none s.effTick)

/-! ### Acceptance -/

/-- What the Slot column says (R406). -/
inductive SlotUse where
  | none | service | either
  deriving DecidableEq, Repr

/-- The restriction that the Modes column gives beside the modes (R407): head role, the PCIe mailbox, or the two
mailboxes. -/
inductive Restrict where
  | none | head | pcieMailbox | mailboxes
  deriving DecidableEq, Repr

/-- Checks 5 and 6 of Table 14.6 for one opcode: slot use, modes, and restriction. -/
structure Gate where
  opcode : Nat
  slot   : SlotUse
  modes  : List Mode
  extra  : Restrict
  deriving DecidableEq, Repr

/-- "all" in the Modes column (R407). -/
def allModes : List Mode := [.dormant, .survey, .serve, .relay, .maintain]
/-- "all but RELAY" (R407, R408). -/
def notRelay : List Mode := [.dormant, .survey, .serve, .maintain]

/-- A command of no slot that every mode takes. -/
def gateAll (opcode : Nat) : Gate := ⟨opcode, .none, allModes, .none⟩
/-- A command of no slot that every mode but RELAY takes. -/
def gateNotRelay (opcode : Nat) : Gate := ⟨opcode, .none, notRelay, .none⟩

/-! ### Settings of one service -/

/-- A setting of one service is changed (R61): as `commitDev`, with the service's own generation. -/
def State.commitSvc (s : State) (n : Nat) (f : SvcSettings → SvcSettings) (params : List Byte := []) : State × Answer :=
  match s.slotSvc? n with
  | none => (s, answer .badSlot)
  | some v =>
    if f v.acc = v.acc then (s, .now .ok params none noTick)
    else
      let a := { f v.acc with gen := v.acc.gen + 1 }
      (s.modSvc n (fun v => { v with acc := a, sched := v.sched ++ [(⟨s.effTicks, a⟩ : Sched SvcSettings)] }),
        .now .ok params none s.effTick)

/-! ### Free values -/

/-- `n` bytes whose values the spec leaves open: the padding of R285. -/
def freeBytes (from_ n : Nat) : List Byte := (List.range n).map (fun i => BitVec.ofNat 8 (Config.freeValue (from_ + i)))

/-- The next free value of the block, and the state that has drawn it (log entry 5). -/
def State.free (s : State) : State × Nat := ({ s with freeCtr := s.freeCtr + 1 }, Config.freeValue s.freeCtr)

/-! ### Executing one command -/

/-- Whether the interpreter serves host commands: READY is set (R425), with the main rails good. -/
def State.serving (s : State) : Bool := s.power.ready && s.power.railsGood

/-- The commands that the recovery loader serves (R466). -/
def loaderOpcodes : List Nat := [0x0001, 0x0D01, 0x0D02, 0x0D03, 0x0D04, 0x0D05]

/-- Check 5 of Table 14.6 (R39, R406). -/
def State.slotOk (s : State) (u : SlotUse) (f : W16) : Bool :=
  match u with
  | .none => f == noSlot
  | .service => (s.svc? f).isSome
  | .either => f == noSlot || (s.svc? f).isSome

/-- Check 6 of Table 14.6 (R407), and the loader's list. -/
def State.modeOk (s : State) (g : Gate) (h : CmdHdr) : Bool :=
  g.modes.contains s.power.mode && (!s.power.recovery || loaderOpcodes.contains g.opcode) &&
  match g.extra with
  | .none => true
  | .head => s.isHead
  | .pcieMailbox => h.tr == .pcie && !h.viaRing
  | .mailboxes => (h.tr == .pcie && !h.viaRing) || h.tr == .twoWire

/-- The generation that a reply carries: that of the slot the command names, or the device's (Table 14.1, R62). -/
def State.replyGen (s : State) (f : W16) : W16 :=
  match s.svc? f with
  | some v => v.acc.gen
  | none => s.acc.gen

/-- The ACCEPTED and REFUSED counters of DIAG_QUERY. -/
def Port.count (p : Port) (st : Status) : Port :=
  match st with
  | .ok | .okPending | .nvReadOnly => { p with accepted := sat32 (p.accepted + 1) }
  | _ => { p with refused := sat32 (p.refused + 1) }

/-- A reply takes its place in the outbox of its transport and, where it is to be kept, in the duplicate record of its
last 32 packets (R396); then whatever can leave does. -/
def State.post (s : State) (h : CmdHdr) (keep : Bool) (r : Option Reply) : State :=
  let p := s.port h.tr
  let d := if keep then (p.dups ++ [(⟨h.seq, h.trailer, s.nextId, r⟩ : DupEntry)]).drop (p.dups.length + 1 - 32) else p.dups
  let p := { p with dups := d, outbox := p.outbox ++ [⟨s.nextId, h.viaRing, h.noReply, r⟩] }
  let p := match r with | some r => p.count r.status | none => p
  ({ s with nextId := s.nextId + 1 }.setPort h.tr p).flush h.tr

/-- The answer of a command becomes its reply (R53, R386, R395). -/
def State.finish (s : State) (dt : W64) (h : CmdHdr) (opcode : Nat) (a : Answer) : State :=
  match a with
  | .later => s.post h true none
  | .now st params gen eff =>
    s.post h true (some ⟨BitVec.ofNat 16 opcode, h.seq, st, gen.getD (s.replyGen h.slot), eff, dt, params⟩)

/-- The kept entry that a retry equals (R396). -/
def Port.dup? (p : Port) (seq : W16) (trailer : W32) : Option DupEntry :=
  p.dups.find? (fun d => d.seq == seq && d.trailer == trailer)

/-- A retry: the kept reply is sent again, unchanged (R396). -/
def State.resend (s : State) (h : CmdHdr) (d : DupEntry) : State :=
  let p := s.port h.tr
  let p := { p with outbox := p.outbox ++ [⟨d.id, h.viaRing, h.noReply, d.reply⟩], retries := sat32 (p.retries + 1) }
  (s.setPort h.tr p).flush h.tr

/-- Checks 5 and 6, and then the command itself. -/
def State.checked (s : State) (g : Gate) (h : CmdHdr) (body : State → State × Answer) : State × Answer :=
  if !s.slotOk g.slot h.slot then (s, answer .badSlot)
  else if !s.modeOk g h then (s, answer .wrongMode)
  else body s

/-- Whether packets of a transport are taken: of the service port only while the recovery loader runs (R466). -/
def State.serves (s : State) (t : Transport) : Bool := s.serving && (!s.power.recovery || t == .service)

/-- One command packet that passed checks 1 to 4 (R395, R396): while nothing is served it is not taken; a retry is
answered from the record; any other is checked, executed and answered. -/
def State.runCmd (s : State) (g : Gate) (h : CmdHdr) (body : State → State × Answer) : State :=
  if !s.serves h.tr then s
  else
    let s := s.advance h.wait
    match (s.port h.tr).dup? h.seq h.trailer with
    | some d => s.resend h d
    | none =>
      let r := s.checked g h body
      r.1.finish s.time.dt h g.opcode r.2

/-- The reply that a placement round makes for a command that waited for it (R23). -/
def State.complete (s : State) (t : Transport) (id : Nat) (r : Reply) : State :=
  let p := s.port t
  let p : Port := { p with
    outbox := p.outbox.map (fun e => if e.id == id && e.reply.isNone then { e with reply := some r } else e)
    dups := p.dups.map (fun d => if d.id == id && d.reply.isNone then { d with reply := some r } else d) }
  (s.setPort t (p.count r.status)).flush t

end Sys2Proof.Machine
end

