-- ==== Sys2Proof/Machine/System.lean ====
section
/-! DEFINITION. Families 0x00 and 0x01 of the host commands: identity, command rings, event routes, modes, the wake
budget, reset and temperature, and the diagnostic queries of 0x0F. -/

namespace Sys2Proof.Machine

/-- What a command answers in its meaning's next state. -/
abbrev Res := Host.Outcome State Fault Refusal

/-- A settings command of a table (R409 to R411): with no item it reads back what is in force; otherwise the items are
checked and committed by `put`. `pre` are the selector's bytes in the read-back. -/
def State.itemCmd (s : State) (tbl : List ItemSpec) (applies : Nat → Bool) (pre : List Byte) (force acc : ItemTable)
    (items : List Item) (put : ItemTable → State × Answer) : State × Answer :=
  if items.isEmpty then (s, answer .ok (pre ++ readTable tbl force))
  else match applyItems tbl applies acc items with
    | none => refuse s .badParam
    | some t => put t

/-- Whether a condition fails check 7; the command then changes nothing. -/
def State.refuseIf (s : State) (c : Bool) (st : Status) (k : State × Answer) : State × Answer :=
  if c then refuse s st else k

/-- RUNNING_IMAGE: the running slot, 0xFF under the recovery loader (R466). -/
def State.runningImage (s : State) : Nat := if s.power.recovery then 0xFF else s.flash.running

/-- OTP_KEYS of DEVICE_INFO: programmed in bits 3:0, revoked in bits 7:4. -/
def otpBits (ks : List OtpKey) : Nat :=
  (ks.zipIdx.map (fun x => (if x.1.hash.isSome then 2 ^ x.2 else 0) + (if x.1.revoked then 2 ^ (x.2 + 4) else 0))).sum

/-- DEV_ID (Table 16.2). -/
def devId : Nat := 0x94840000 + Config.siliconStep

/-- DEVICE_INFO (Table 15.4, R414, R466). -/
def execDeviceInfo (h : CmdHdr) (s : State) : Res :=
  .next (s.runCmd (gateAll 0x0001) h fun s =>
    (s, answer .ok (le 4 devId ++ le 8 Config.unitId.toNat ++ le 1 s.role ++ le 1 s.runningImage
      ++ le 1 s.power.mode.code ++ [0] ++ le 4 (if s.power.recovery then 0 else s.flash.fwVersion.toNat)
      ++ le 2 (if s.power.recovery then 0 else s.flash.format) ++ le 1 (otpBits s.flash.keys) ++ [0])))

/-- Whether a table of ring settings has a ring enabled that lacks a base, a size or a control block (R390). -/
def cmdRingIncomplete (t : ItemTable) : Bool :=
  let unset (i : Nat) : Bool := t.at i == .notSet
  (t.nat 1 == 1 && (unset 2 || unset 3 || unset 7)) || (t.nat 4 == 1 && (unset 5 || unset 6 || unset 7))

/-- Whether a change of ring settings touches the base, size or control block of an enabled ring (R390). -/
def cmdRingBusy (enC enR : Bool) (old new : ItemTable) : Bool :=
  let ch (i : Nat) : Bool := old.at i != new.at i
  (enC && (ch 2 || ch 3 || ch 7)) || (enR && (ch 5 || ch 6 || ch 7))

/-- CMD_RING_CONFIG (Table 14.3, R390). A ring counts as enabled while it is so in force or by an accepted change. -/
def execCmdRingConfig (h : CmdHdr) (items : List Item) (s : State) : Res :=
  .next (s.runCmd ⟨0x0002, .none, allModes, .pcieMailbox⟩ h fun s =>
    s.itemCmd tbl143 (fun _ => true) [] s.force.cmdRing s.acc.cmdRing items fun t =>
      let en (i : Nat) : Bool := s.acc.cmdRing.nat i == 1 || s.force.cmdRing.nat i == 1
      s.refuseIf (cmdRingIncomplete t) .badParam <|
      s.refuseIf (cmdRingBusy (en 1) (en 4) s.acc.cmdRing t) .busyRunning <|
      s.commitDev none (fun a => { a with cmdRing := t }))

/-- NOP (R414). -/
def execNop (h : CmdHdr) (data : List Byte) (s : State) : Res :=
  .next (s.runCmd (gateAll 0x0003) h fun s => (s, answer .ok data))

/-- EVENT_ROUTE (R399, R409); the masks are stored in the EVENTS group. -/
def execEventRoute (h : CmdHdr) (transport : Byte) (mask : Option (BitVec 128)) (s : State) : Res :=
  .next (s.runCmd (gateAll 0x0004) h fun s =>
    let t := transport.toNat
    s.refuseIf (3 < t || (t == 3 && !s.isMast)) .badParam <|
    match mask with
    | none => (s, answer .ok ([transport, 0, 0, 0] ++ le 16 (s.force.evMask.getD t 0).toNat))
    | some m => s.commitDev (some 5) (fun a => { a with evMask := a.evMask.set t m }))

/-- EVENT_FETCH (R400): up to 8 whole events of the transport's queue, each at a multiple of 4. -/
def execEventFetch (h : CmdHdr) (s : State) : Res :=
  .next (s.runCmd ⟨0x0005, .none, allModes, .mailboxes⟩ h fun s =>
    let p := s.port h.tr
    let go := p.events.take 8
    let params := le 2 go.length ++ [0, 0] ++ go.flatMap (fun e => pad4 e.packet)
    let old := (s.intActive .pcie, s.intActive .twoWire)
    let s := s.setPort h.tr { p with events := p.events.drop 8 }
    let s := match h.tr with
      | .pcie => s.intEdge .pcie old.1
      | .twoWire => s.intEdge .twoWire old.2
      | _ => s
    (s, answer .ok params))

/-! ### Modes -/

/-- The mode of a MODE code that MODE_SET may name. -/
def modeOf : Nat → Option Mode
  | 1 => some .dormant | 2 => some .survey | 3 => some .serve | 4 => some .relay | 5 => some .maintain | _ => none

/-- Whether a mode receives: SURVEY, SERVE and RELAY. -/
def Mode.receives : Mode → Bool
  | .survey | .serve | .relay => true
  | _ => false

/-- The sub-state that a budget selects (Table 19.3, R484). -/
def subForBudget (ms : Nat) : SubState :=
  if 1500 ≤ ms then .cold else if 400 ≤ ms then .cool else if 120 ≤ ms then .warm else .hot

/-- Whether the trunk keeps its modem powered, so that no sub-state deeper than WARM is used (R486). -/
def State.trunkAwake (s : State) : Bool :=
  s.role != 0 && match s.trunk.state with
    | .search | .control | .data | .recovery => true
    | .off | .sleep | .lost => s.trunk.winOpen

/-- The sub-state of DORMANT that the budget in force and the trunk give (R484, R486). -/
def State.subWanted (s : State) : SubState :=
  let b := subForBudget s.force.wakeBudget.toNat
  if s.trunkAwake && decide (SubState.warm.code < b.code) then .warm else b

/-- MODE_SET (R480, R481). -/
def execModeSet (h : CmdHdr) (mode : Byte) (s : State) : Res :=
  .next (s.runCmd (gateAll 0x0101) h fun s =>
    match modeOf mode.toNat with
    | none => refuse s .badParam
    | some m =>
      let before := le 1 s.power.mode.code ++ zeros 3
      s.refuseIf (((m == .survey || m == .serve) && s.isMast) || (m == .relay && !s.isMast)) .wrongMode <|
      s.refuseIf (m.receives && s.power.segFailed) .wrongMode <|
      s.refuseIf s.inTransition .busyRunning <|
      s.refuseIf (m.receives && !s.power.mode.receives && decide (1 ≤ s.thermal.level)) .thermalLimit <|
      if m = s.power.mode then (s, answer .ok before)
      else
        let c : ModeChange := ⟨m, s.subWanted, 0, s.effTicks, false⟩
        ({ s with power := { s.power with change := some c, leftRelay := false } }, .now .ok before none s.effTick))

/-- WAKE_BUDGET (R484). In DORMANT the new sub-state applies from the effective tick. -/
def execWakeBudget (h : CmdHdr) (budgetMs : W32) (s : State) : Res :=
  .next (s.runCmd (gateAll 0x0102) h fun s =>
    let n := budgetMs.toNat
    s.refuseIf (n < 1 || 600000 < n) .badParam <|
    let r := s.commitDev (some 7) (fun a => { a with wakeBudget := budgetMs }) (le 1 (subForBudget n).code ++ zeros 3)
    let t := r.1
    let b := subForBudget n
    let sub := if t.trunkAwake && decide (SubState.warm.code < b.code) then SubState.warm else b
    if t.power.mode = .dormant ∧ t.power.change.isNone ∧ sub ≠ t.power.sub then
      ({ t with power := { t.power with change := some ⟨.dormant, sub, 1, s.effTicks, false⟩ } }, r.2)
    else r)

/-- MODE_QUERY (Table 15.5). POWER_MW is an estimate whose value the spec does not give: a free value (log entry 5). -/
def execModeQuery (h : CmdHdr) (s : State) : Res :=
  .next (s.runCmd (gateAll 0x0103) h fun s =>
    let r := s.free
    (r.1, answer .ok (le 1 s.power.mode.code ++ le 1 s.subCode ++ le 1 s.power.lastReset ++ [0]
      ++ le 4 s.force.wakeBudget.toNat ++ le 4 r.2 ++ le 4 (s.power.uptime / 1000))))

/-- RESET (0x0104): the reset follows the reply by 10 ms. -/
def execReset (h : CmdHdr) (kind : Byte) (confirm : W16) (s : State) : Res :=
  .next (s.runCmd (gateAll 0x0104) h fun s =>
    s.refuseIf (1 < kind.toNat || confirm != 0x9484#16) .badParam <|
    ({ s with power := { s.power with resetIn := some ((s.now + 10999999 - s.time.boundary) / 1000000 + 1), enterMaintain := kind == 1#8 } }, answer .ok))

/-- THERMAL_QUERY (R492). -/
def execThermalQuery (h : CmdHdr) (s : State) : Res :=
  .next (s.runCmd (gateAll 0x0105) h fun s =>
    let t := s.thermal
    (s, answer .ok (le 2 t.temp.toNat ++ le 2 t.tempMax.toNat ++ le 1 t.level ++ zeros 3 ++ le 4 t.warnings
      ++ le 4 t.sheds)))

/-! ### Diagnostics -/

/-- DIAG_QUERY (Table 15.20). -/
def execDiagQuery (h : CmdHdr) (s : State) : Res :=
  .next (s.runCmd (gateAll 0x0F01) h fun s =>
    let one (p : Port) := le 4 p.accepted ++ le 4 p.refused ++ le 4 p.retries ++ le 4 p.evDropped
    (s, answer .ok (one s.pPcie ++ one s.pTw ++ one s.pSvc ++ one s.pTrunk ++ le 1 s.pcie.speed ++ le 1 s.pcie.width
      ++ zeros 2 ++ le 4 s.power.resets)))

/-- How many entries of a paged query fit: those whose bytes stay within `room` (R412). -/
def pageCount (room : Nat) : List (List Byte) → Nat
  | [] => 0
  | e :: es => if e.length ≤ room then 1 + pageCount (room - e.length) es else 0

/-- One page of a paged query: the entries from index `first` on that fit beside `fixed` parameter bytes, and NEXT
(R412). -/
def page (fixed_ first : Nat) (es : List (List Byte)) : List (List Byte) × Nat :=
  let rest := es.drop first
  let n := pageCount (4072 - fixed_) rest
  (rest.take n, if n < rest.length then first + n else 0xFFFF)

/-- DIAG_LOG_READ (Table 15.20, R412). -/
def execDiagLogRead (h : CmdHdr) (first : W16) (s : State) : Res :=
  .next (s.runCmd (gateAll 0x0F02) h fun s =>
    let es := s.diag.map (fun d => le 8 d.dt.toNat ++ le 2 d.code.toNat ++ zeros 2 ++ (d.args ++ zeros 20).take 20)
    let pg := page 16 first.toNat es
    (s, answer .ok (le 2 pg.1.length ++ le 2 pg.2 ++ zeros 4 ++ pg.1.flatten)))

end Sys2Proof.Machine
end

