-- ==== Sys2Proof/Machine/Regs.lean ====
section
/-! DEFINITION. The direct registers (chapter 16): reads with their snapshots, the writes that need no interpreter,
MSI-X, the PCIe power states and PERST_N, and the reading side of the two-wire and service ports. -/

namespace Sys2Proof.Machine

/-- MODE_STATUS (R425): zero until READY, which the recovery loader never sets (R466). -/
def State.modeStatus (s : State) : Nat :=
  if !s.power.ready || s.power.recovery then 0
  else 2 ^ 31 + (if s.journal.readOnly then 2 ^ 30 else 0) + s.power.lastReset * 2 ^ 24
    + s.flash.running % 2 * 2 ^ 20 + s.role % 4 * 2 ^ 18
    + s.refs.tstate.code * 2 ^ 8 + s.subCode % 16 * 2 ^ 4 + (if s.inTransition then 2 ^ 3 else 0) + s.power.mode.code

/-- DT_NOW: zero until the seed is applied (R507). -/
def State.dtNow (s : State) : Nat := if s.time.seeded then s.now else 0

/-- TEMP (Table 16.2). -/
def State.tempReg (s : State) : Nat := s.thermal.level % 4 * 2 ^ 16 + s.thermal.temp.toNat

/-- The snapshot shadow of a bus latches the upper word of a multi-word register (R430). -/
def State.latch (s : State) (b : Bus) (addr hi : Nat) : State :=
  let r := s.bus b
  let v := BitVec.ofNat 32 hi
  if addr = 0x0008 then s.setBus b { r with snapUnit := v }
  else if addr = 0x0040 then s.setBus b { r with snapDt := v }
  else s.setBus b { r with snapMatch := v }

/-- A word of the MSI-X table of BAR0 (Table 16.1): address and data words, and the mask bit of Vector Control. -/
def State.msixWord (s : State) (off : Nat) : Nat :=
  if off % 16 = 12 then (if s.pcie.masked.getLsbD (off / 16) then 1 else 0)
  else unle (Memory.readN ramDefault s.pcie.table off 4)

/-- A read of the word at an address that is a multiple of 4 (Table 16.2, R420, R423, R430). `first` says that the read
begins at byte 0, which is what latches a snapshot (R442). -/
def State.readWord (s : State) (b : Bus) (addr : Nat) (first : Bool) : State × Nat :=
  let r := s.bus b
  let two (v : Nat) : State × Nat := (if first then s.latch b addr (v / 2 ^ 32) else s, v % 2 ^ 32)
  if addr = 0x0000 then (s, devId)
  else if addr = 0x0008 then two Config.unitId.toNat
  else if addr = 0x000C then (s, r.snapUnit.toNat)
  else if addr = 0x0010 then (s, s.modeStatus)
  else if addr = 0x0020 then (s, (s.intStatus b).toNat)
  else if addr = 0x0024 then (s, r.intEnable.toNat)
  else if addr = 0x0040 then two s.dtNow
  else if addr = 0x0044 then (s, r.snapDt.toNat)
  else if addr = 0x0048 then (s, s.dtNow / 1000000 % 2 ^ 32)
  else if addr = 0x0050 then two r.dtMatch.toNat
  else if addr = 0x0054 then (s, r.snapMatch.toNat)
  else if addr = 0x0060 then (s, s.tempReg)
  else if addr = 0x00F0 then (s, s.scratch.toNat)
  else if 0x1000 ≤ addr ∧ addr < 0x2000 then (s, unle (Memory.readN ramDefault r.bank (addr - 0x1000) 4))
  else if b = .pcie ∧ 0x2000 ≤ addr ∧ addr < 0x2400 then (s, s.msixWord (addr - 0x2000))
  else if b = .pcie ∧ addr = 0x3000 then (s, s.pcie.pba.toNat % 2 ^ 32)
  else if b = .pcie ∧ addr = 0x3004 then (s, s.pcie.pba.toNat / 2 ^ 32)
  else (s, 0)

/-- The bits of INT_ENABLE that are RW. -/
def intEnableMask : W32 := 0x3F3#32
/-- The bits of INT_STATUS that are W1C. -/
def intStatusW1c : W32 := 0x3F1#32

/-- A write to INT_STATUS clears the bits written as 1 (R433). -/
def State.writeIntStatus (s : State) (b : Bus) (v : W32) : State :=
  s.setIntWord b (fun w => w &&& ~~~ (v &&& intStatusW1c))

/-- A write to INT_ENABLE (R435, R436). -/
def State.writeIntEnable (s : State) (b : Bus) (v : W32) : State :=
  let old := s.intActive b
  (s.setBus b { s.bus b with intEnable := v &&& intEnableMask }).intEdge b old

/-- An armed match that DT has reached sets DT_MATCH and disarms (R427). -/
def State.fireMatch (s : State) (b : Bus) : State :=
  let r := s.bus b
  if r.matchArmed && decide (r.dtMatch.toNat ≤ s.now) then
    (s.setBus b { r with matchArmed := false }).setInt b intDtMatch
  else s

/-- A commit of DT_MATCH (R427, R430): the upper word with the staged lower word. -/
def State.commitMatch (s : State) (b : Bus) (hi : W32) : State :=
  let r := s.bus b
  let v : W64 := hi ++ r.stage
  (s.setBus b { r with dtMatch := v, matchArmed := v != 0#64 }).fireMatch b

/-- A write of a word that needs no interpreter (Table 16.2, R389, R423, R430). -/
def State.writePlain (s : State) (b : Bus) (addr : Nat) (v : W32) : State :=
  let r := s.bus b
  if addr = 0x0020 then s.writeIntStatus b v
  else if addr = 0x0024 then s.writeIntEnable b v
  else if addr = 0x0050 then s.setBus b { r with stage := v }
  else if addr = 0x0054 then s.commitMatch b v
  else if addr = 0x00F0 then { s with scratch := v }
  else if 0x1000 ≤ addr ∧ addr < 0x2000 then
    if r.bankBusy then s
    else s.setBus b { r with bank := Memory.writeN ramDefault r.bank (addr - 0x1000) (le 4 v.toNat) }
  else if b = .pcie ∧ 0x2000 ≤ addr ∧ addr < 0x2400 then
    let off := addr - 0x2000
    let p := s.pcie
    if off % 16 = 12 then
      let bit : W64 := 1#64 <<< (off / 16)
      ({ s with pcie := { p with masked := if v.getLsbD 0 then p.masked ||| bit else p.masked &&& ~~~ bit } }).releaseMsix
    else { s with pcie := { p with table := Memory.writeN ramDefault p.table off (le 4 v.toNat) } }
  else s

/-- INT_STATUS_WRITE (R433). -/
def execIntStatusWrite (bus : Bus) (value : W32) (s : State) : Res := .next (s.writeIntStatus bus value)

/-- INT_ENABLE_WRITE (R435, R436). -/
def execIntEnableWrite (bus : Bus) (value : W32) (s : State) : Res := .next (s.writeIntEnable bus value)

/-- DT_MATCH_COMMIT: a write of the upper word (R427, R430). -/
def execDtMatchCommit (bus : Bus) (hi : W32) (wait : Nat) (s : State) : Res :=
  .next ((s.advance wait).commitMatch bus hi)

/-- DT_MATCH_EXPIRY: DT reaches an armed value (R427). -/
def execDtMatchExpiry (bus : Bus) (wait : Nat) (s : State) : Res := .next ((s.advance wait).fireMatch bus)

/-- MULTIWORD_SNAPSHOT_READ: a read of a register's lowest word (R430), and of any other word. -/
def execMultiwordSnapshotRead (bus : Bus) (addr : W16) (wait : Nat) (s : State) : Res :=
  let s := s.advance wait
  if addr.toNat % 4 = 0 then
    let r := s.readWord bus addr.toNat true
    .next (r.1.emit (.readData (le 4 r.2)))
  else .next (s.emit (.readData (zeros 4)))

/-- MSIX_UNMASK: MSI-X Enable, the function mask and the vector masks as the host sets them; what was held as pending
leaves (R435). -/
def execMsixUnmask (enable funcMask : Bool) (masked : W64) (s : State) : Res :=
  .next ({ s with pcie := { s.pcie with msixOn := enable, funcMask := funcMask, masked := masked } }).releaseMsix

/-- PCIE_WAKE_N is held low while PME is enabled and an event waits for the PCIe transport (R487). -/
def State.pcieWake (s : State) : Bool := s.pcie.pme && !s.pPcie.events.isEmpty

/-- PCIE_POWER_STATE: D0 or D3hot, and PME (R487). -/
def execPciePowerState (d3 pme : Bool) (s : State) : Res :=
  let was := s.pcieWake
  let s := { s with pcie := { s.pcie with d3 := d3, pme := pme } }
  let s := if s.pcieWake = was then s else s.emit (.pin "PCIE_WAKE_N" (!s.pcieWake))
  .next (if d3 then s else (s.releaseMsix).flush .pcie)

/-- A ring table with its enables cleared: output rings, and both command rings. -/
def Settings.ringsOff (a : Settings) : Settings :=
  { a with rings := a.rings.map (fun t => t.set 0 (.num 0)), cmdRing := (a.cmdRing.set 0 (.num 0)).set 3 (.num 0) }

/-- An output ring that is disabled: its tags are returned and its fault is cleared (R280, R283). -/
def RingSt.off (r : RingSt) : RingSt := { r with on := false, fault := false, recs := [], unsignalled := 0, timerUs := none }

/-- PERST (R487): the endpoint is reset; the rings are disabled, the PCIe copies of the interrupt registers cleared, and
the MSI-X table reset. -/
def execPerst (s : State) : Res :=
  let rings := { s.rings with starts := [], fault := false, unsignalled := 0, timerUs := none }
  let sched := s.sched.map (fun x => { x with value := x.value.ringsOff })
  let s := { s with acc := s.acc.ringsOff, force := s.force.ringsOff, sched := sched, rings := rings,
                    outRings := s.outRings.map RingSt.off }
  let b := { s.busP with intStatus := 0#32, intEnable := 0#32, dtMatch := 0#64, matchArmed := false, stage := 0#32 }
  let p := s.pcie
  .next { s with busP := b, pcie := ⟨false, false, false, false, BitVec.allOnes 64, 0#64, [], p.speed, p.width⟩ }

/-! ### The two-wire port, read side -/

/-- Whether the two-wire port answers an address byte: its own address and direction (R438, R439), with the I/O out of
high impedance. -/
def State.twMine (s : State) (addrByte : Byte) (read : Bool) : Bool :=
  s.power.ioUp && addrByte.toNat == 2 * (0x58 + s.tw.addrBits % 8) + (if read then 1 else 0)

/-- One data byte of a read (R441, R442): a word is fixed at the first byte that is read of it. -/
def State.twReadByte (s : State) (first : Bool) : State × Byte :=
  let p := s.tw.pointer.toNat
  let s := if first || p % 4 = 0 then
      let r := s.readWord .twoWire (p - p % 4) (p % 4 = 0)
      let v := if p < 0x2000 then r.2 else 0
      { r.1 with tw := { r.1.tw with readWord := BitVec.ofNat 32 v } }
    else s
  ({ s with tw := { s.tw with pointer := s.tw.pointer + 1 } }, (le 4 s.tw.readWord.toNat).getD (p % 4) 0)

/-- The data bytes of a read transaction. -/
def State.twReadBytes : Nat → Bool → State → State × List Byte
  | 0, _, s => (s, [])
  | n + 1, first, s =>
    let r := s.twReadByte first
    let q := twReadBytes n false r.1
    (q.1, r.2 :: q.2)

/-- TW_READ_TRANSACTION: `count` bytes up to the one that the controller answers with NACK (R440 to R442). -/
def execTwReadTransaction (addrByte : Byte) (count : Nat) (wait : Nat) (s : State) : Res :=
  let s := s.advance wait
  if s.twMine addrByte true then
    let s := { s with tw := { s.tw with partWord := [] } }
    let r := s.twReadBytes count true
    .next (r.1.emit (.readData r.2))
  else .next s

/-- TW_TIMEOUT: the transaction is abandoned; the pointer keeps its value (R445). -/
def execTwTimeout (s : State) : Res := .next { s with tw := { s.tw with partWord := [] } }

/-- One attempt at an ATTN write ends (R448 to R451). -/
def State.attnAttempt (s : State) (w : AttnWrite) (r : AttnResult) : State :=
  let later (w : AttnWrite) (ns : Nat) : State :=
    { s with tw := { s.tw with attn := some { w with due := BitVec.ofNat 64 (s.now + ns) } } }
  let abandon : State :=
    { s with tw := { s.tw with attn := none }, pTw := { s.pTw with evDropped := sat32 (s.pTw.evDropped + 1) } }
  match r with
  | .sent =>
    let st := (s.intStatus .twoWire).toNat
    ({ s with tw := { s.tw with attn := none, lastAttn := some s.time.dt } }).emit
      (.attnWrite [0x10#8, BitVec.ofNat 8 (2 * (0x58 + s.tw.addrBits % 8)), BitVec.ofNat 8 st, BitVec.ofNat 8 (st / 256)])
  | .arbLost => if 8 ≤ w.arbLost + 1 then abandon else later { w with arbLost := w.arbLost + 1 } 100000
  | .nack => if 3 ≤ w.nacks + 1 then abandon else later { w with nacks := w.nacks + 1 } 10000000

/-- ATTN_WRITE: the first attempt at a triggered write, once it is due (R447, R448). -/
def execAttnWrite (result : AttnResult) (wait : Nat) (s : State) : Res :=
  let s := s.advance wait
  match s.tw.attn with
  | some w => .next (if w.due.toNat ≤ s.now ∧ w.arbLost = 0 ∧ w.nacks = 0 then s.attnAttempt w result else s)
  | none => .next s

/-- ATTN_WRITE_RETRY: an attempt after a lost arbitration or a NACK (R451). -/
def execAttnWriteRetry (result : AttnResult) (wait : Nat) (s : State) : Res :=
  let s := s.advance wait
  match s.tw.attn with
  | some w => .next (if w.due.toNat ≤ s.now ∧ 0 < w.arbLost + w.nacks then s.attnAttempt w result else s)
  | none => .next s

/-! ### The service port, read side -/

/-- The status byte of the service port (R393): the port takes a packet while it is served, since the interpreter takes
each packet before the next arrives. -/
def State.svcStatus (s : State) : Nat :=
  (if s.serving then 1 else 0) + (if s.svcPending then 2 else 0) + (if s.svc.discarded then 4 else 0)

/-- READ_STATUS (R393). -/
def execReadStatus (s : State) : Res :=
  .next (if s.power.ioUp then s.emit (.svcStatus (BitVec.ofNat 8 s.svcStatus)) else s)

/-- READ_PACKET (R393, R400): the oldest waiting reply, or else the oldest event; it is removed when the transaction runs
to its last byte. -/
def execReadPacket (complete : Bool) (s : State) : Res :=
  if !s.power.ioUp then .next s else
  let s := s.emit (.svcStatus (BitVec.ofNat 8 s.svcStatus))
  let p := s.pSvc
  let was := s.svcPending
  let send (pkt : List Byte) (p' : Port) : State :=
    let s := s.emit (.svcBytes (le 2 pkt.length ++ pkt))
    if complete then
      let s := { s with pSvc := p' }
      let s := s.deliverReplies s.pSvc.outbox.length .service
      if s.svcPending = was then s else s.emit (.pin "SVC_REQ_N" (!s.svcPending))
    else s
  match p.outbox, p.events with
  | ⟨_, _, _, some r⟩ :: rest, _ => .next (send r.packet { p with outbox := rest })
  | _, e :: rest => .next (send e.packet { p with events := rest })
  | _, [] => .next (s.emit (.svcBytes (le 2 0)))

end Sys2Proof.Machine
end

