-- ==== Sys2Proof/Machine/Time.lean ====
section
/-! DEFINITION. Device time (chapter 2): the leap-second table, UTC, TIME_SET, TIME_QUERY, the leap table commands,
steps of DT, and the end of its range. -/

namespace Sys2Proof.Machine

/-! ### References in use -/

/-- EV_REF_STATE (R130): `prev` and `new` are given for reasons 1 and 3 and otherwise hold the reference in use. -/
def State.refEvent (s : State) (reason role prev new ref : Nat) : State :=
  s.raise 0x8009 noSlot (le 1 reason ++ le 1 role ++ le 1 prev ++ le 1 new ++ le 1 s.refs.tstate.code ++ le 1 ref
    ++ [0, 0] ++ leInt 8 s.refs.e ++ leInt 8 s.refs.eps)

/-- The reference in use of a role, 0xFF while it has none (R130). -/
def State.inUse (s : State) (role : Nat) : Nat := if role = 0 then s.refs.freqRef else s.refs.timeSrc.getD 0xFF

/-- EV_REF_STATE for a reason that changes no reference. -/
def State.refSay (s : State) (reason role ref : Nat) : State := s.refEvent reason role (s.inUse role) (s.inUse role) ref

/-- TIME_SOURCE (R48): the source in use, the RTC while DT stands on its seed, or 0xFF. -/
def State.timeSourceCode (s : State) : Nat :=
  match s.refs.timeSrc with
  | some c => c
  | none => if s.time.rtcSeed then 8 else 0xFF

/-- The time state changes, which sets INT_STATUS TIME_STATE (Table 16.2). -/
def State.setTState (s : State) (t : TState) : State :=
  if t = s.refs.tstate then s
  else ({ s with refs := { s.refs with tstate := t, outTicks := 0 } }).setIntBoth intTimeState

/-- The time state becomes LOCKED (Table 4.9 reason 4). The calendar is then due for correction (R504). -/
def State.enterLocked (s : State) : State :=
  if s.refs.tstate = .locked then s
  else
    let s := s.setTState .locked
    let s := { s with rtc := { s.rtc with lockedDue := true } }
    s.refSay 4 1 (s.inUse 1)

/-- The lock window W of a time source in ns (Table 4.8). -/
def lockWindow (code : Nat) : Int :=
  if code = 3 ∨ code = 4 then 100 else if code = 5 ∨ code = 6 then 10000 else 2000000

/-! ### The leap-second table -/

/-- The table that the built image carries (R72, R75): five insertions with L = 1 to 5. R75 names the last; the dates of
the first four are PRESUMED from the published list (log entry 4). -/
def builtinLeap : List LeapRow :=
  let e (sec l : Nat) : LeapRow := ⟨BitVec.ofNat 64 (sec * 1000000000), false, BitVec.ofNat 16 l, 0⟩
  [e 189388800 1, e 284083201 2, e 394416002 3, e 489024003 4, e 536544004 5]

/-- A host entry as a row of the table. -/
def leapRow (x : LeapEntry) : LeapRow := ⟨x.dt, x.kind == 1#8, x.l, 1⟩

/-- A row put into a table in ascending order of DT. -/
def insertLeap (r : LeapRow) : List LeapRow → List LeapRow
  | [] => [r]
  | x :: xs => if r.dt.toNat < x.dt.toNat then r :: x :: xs else x :: insertLeap r xs

/-- The rows of the table: host entries before learned ones, and those before the image's (R73). -/
def mergeLeap (host learned image : List LeapRow) : List LeapRow :=
  let add (t rows : List LeapRow) : List LeapRow :=
    rows.foldl (fun t r => if t.any (fun x => x.dt == r.dt) then t else insertLeap r t) t
  add (add (add [] host) learned) image

/-- The leap-second table in force (R72, R73). -/
def State.leapTable (s : State) : List LeapRow :=
  mergeLeap (s.force.leapHost.map leapRow) s.time.learned s.time.image

/-- The expiry of the table (R72). -/
def State.leapExpiry (s : State) : W64 := s.force.leapExpiry.getD s.time.imageExp

/-- When the second of a row ended: a deleted second ends at its own DT (R72, R74). -/
def LeapRow.ends (r : LeapRow) : Nat := r.dt.toNat + (if r.deleted then 0 else 1000000000)

/-- L at a DT: that of the last row whose second has ended (R74). -/
def leapL (t : List LeapRow) (dt : Nat) : Int :=
  t.foldl (fun l r => if r.ends ≤ dt then r.l.toInt else l) 0

/-- Whether a DT lies within an inserted second (R74). -/
def inLeapSecond (t : List LeapRow) (dt : Nat) : Bool :=
  t.any (fun r => !r.deleted && decide (r.dt.toNat ≤ dt) && decide (dt < r.ends))

/-- U: seconds since 2000-01-01T00:00:00 UTC without leap seconds (R74). -/
def State.utcSeconds (s : State) (dt : Nat) : Int := (dt / 1000000000 : Nat) - leapL s.leapTable dt

/-- Whether every row of a table has an L one away from that of the row before, in the row's direction (Table 15.16). -/
def leapStepsOk : Int → List LeapRow → Bool
  | _, [] => true
  | l, r :: rs => r.l.toInt == (if r.deleted then l - 1 else l + 1) && leapStepsOk r.l.toInt rs

/-- Whether entries are whole seconds in ascending order, with a KIND in range (Table 15.16). -/
def leapEntriesOk : List LeapEntry → Bool
  | [] => true
  | [x] => x.dt.toNat % 1000000000 == 0 && decide (x.kind.toNat ≤ 1)
  | x :: y :: r => x.dt.toNat % 1000000000 == 0 && decide (x.kind.toNat ≤ 1) && decide (x.dt.toNat < y.dt.toNat)
      && leapEntriesOk (y :: r)

/-- The host entries after a LEAP_TABLE_SET: those named replace entries of the same DT (R72). -/
def hostLeapAfter (mode : Nat) (old new : List LeapEntry) : List LeapEntry :=
  let keep := if mode = 1 then old.filter (fun x => !new.any (fun y => y.dt == x.dt)) else []
  (keep ++ new).foldl (fun t r =>
    t.takeWhile (fun x => decide (x.dt.toNat < r.dt.toNat)) ++ r :: t.dropWhile (fun x => decide (x.dt.toNat < r.dt.toNat)))
    []

/-- LEAP_TABLE_SET (R72, Table 15.16). -/
def execLeapTableSet (h : CmdHdr) (mode : Byte) (expiry : W64) (entries : List LeapEntry) (s : State) : Res :=
  .next (s.runCmd (gateAll 0x0803) h fun s =>
    s.refuseIf (1 < mode.toNat || 32 < entries.length || !leapEntriesOk entries) .badParam <|
    let host := hostLeapAfter mode.toNat s.acc.leapHost entries
    let tab := mergeLeap (host.map leapRow) s.time.learned s.time.image
    s.refuseIf (!leapStepsOk 0 tab) .badParam <|
    s.refuseIf (decide (32 < tab.length)) .noCapacity <|
    s.commitDev (some 1) (fun a => { a with leapHost := host, leapExpiry := some expiry }))

/-- LEAP_TABLE_QUERY (R72, Table 15.16). -/
def execLeapTableQuery (h : CmdHdr) (s : State) : Res :=
  .next (s.runCmd (gateAll 0x0804) h fun s =>
    let t := s.leapTable
    (s, answer .ok (le 8 s.leapExpiry.toNat ++ le 1 t.length ++ zeros 7 ++ t.flatMap (fun r =>
      leapBytes ⟨r.dt, if r.deleted then 1 else 0, r.l⟩ (BitVec.ofNat 8 r.origin)))))

/-! ### Steps of DT -/

/-- Work in wait applies at the first tick boundary after a step (R60). -/
def State.schedNow (s : State) : State :=
  let one {α : Type} (xs : List (Sched α)) : List (Sched α) := xs.map (fun x => { x with ticksLeft := 1 })
  let a := s.audio.map (fun p => { p with
    armTicks := p.armTicks.map (fun x => (1, x.2)), stopTicks := p.stopTicks.map (fun _ => 1) })
  { s with
    sched := one s.sched
    services := s.services.map (fun v => { v with sched := one v.sched })
    power := { s.power with change := s.power.change.map (fun c => if c.begun then c else { c with ticksLeft := 1 }) }
    rtc := { s.rtc with write := s.rtc.write.map (fun w => { w with ticksLeft := min w.ticksLeft 1 }) }
    trunk := { s.trunk with sleepTicks := s.trunk.sleepTicks.map (fun _ => 1) }
    audio := a }

/-- The error that remains after a step of DT by `d` ns, and the state that it puts the timebase in (R129). -/
def State.stepState (s : State) (d : Int) : State :=
  match s.refs.timeSrc with
  | none => s.setTState .free
  | some c =>
    let s := { s with refs := { s.refs with e := s.refs.e + d } }
    if s.refs.e.natAbs ≤ (lockWindow c).natAbs then s.enterLocked else s.setTState .acquiring

/-- The measurements of the references that are kept as DT move with it. -/
def RefSt.shift (r : RefSt) (d : Int) : RefSt :=
  let mv (x : W64) : W64 := BitVec.ofInt 64 (x.toNat + d)
  { r with lastEdge := r.lastEdge.map mv, ppsTod := r.ppsTod.map (fun x => (x.1, mv x.2)),
           tInd5 := r.tInd5.map (· + d), tInd6 := r.tInd6.map (· + d), tcLast := r.tcLast.map (fun x => (x.1, mv x.2)) }

/-- A stream after a step of DT: its next unit carries DISCONTINUITY, and a statistics unit PARTIAL_INTERVAL (R59,
R60). -/
def Stream.stepped (x : Stream) : Stream :=
  { x with flags := x.flags ||| fDiscontinuity ||| (if x.kind = 7 then fPartial else 0#32) }

/-- DT is set to `dt`, modulo 2^64, as R59 and R60 say: units under way end, streams carry DISCONTINUITY, and the tick in
progress ends at the first whole millisecond at least 0.5 ms on. `before` is the DT before the step. -/
def State.applyStep (s : State) (before : Nat) (dt : Int) : State :=
  let n : W64 := BitVec.ofInt 64 dt
  let d : Int := (n.toNat : Int) - before
  let b := roundUp 1000000 (n.toNat + 500000)
  let s := { s with time := { s.time with dt := n, boundary := b, rtcSeed := false, stepDue := none } }
  let s := { s with streams := s.streams.map Stream.stepped }
  let s := ({ s with refs := s.refs.shift d }).schedNow
  let s := s.raise 0x8008 noSlot (le 8 before ++ le 8 n.toNat)
  let s := s.stepState d
  (s.fireMatch .pcie).fireMatch .twoWire

/-- TIME_STEP (R58, R59): the step that the tick boundary just reached has made due. -/
def execTimeStep (s : State) : Res :=
  match s.time.stepDue with
  | some d => .next (s.applyStep s.now d.toNat)
  | none => .next s

/-- DT_WRAP (R517): DT would pass 2^64 − 1 in the tick in progress. -/
def execDtWrap (s : State) : Res :=
  if 2 ^ 64 ≤ s.time.boundary then .next (s.applyStep (2 ^ 64 - 1) 0) else .next s

/-- TIME_SET (R58, Table 15.16). -/
def execTimeSet (h : CmdHdr) (form arm : Byte) (value : W64) (s : State) : Res :=
  .next (s.runCmd (gateAll 0x0801) h fun s =>
    let t := s.time
    let done (t : TimeSt) : State × Answer := ({ s with time := t }, answer .ok (le 1 (if t.armed then 1 else 0) ++ zeros 7))
    s.refuseIf (2 < form.toNat || 1 < arm.toNat || (form == 0#8 && value.toNat % 1000000000 != 0)) .badParam <|
    if form = 2#8 then s.refuseIf (!t.armed) .notFound (done { t with armed := false })
    else if arm = 1#8 then done { t with armed := true }
    else if form = 0#8 then done { t with atPps := some value }
    else done { t with offset := some (t.offset.getD 0 + value.toInt) })

/-- TIME_QUERY (R48, R74, Table 15.16). -/
def execTimeQuery (h : CmdHdr) (s : State) : Res :=
  .next (s.runCmd (gateAll 0x0802) h fun s =>
    let flags := (if s.leapExpiry.toNat < s.now then 1 else 0) + (if s.time.armed then 2 else 0)
    (s, answer .ok (leInt 2 (leapL s.leapTable s.now) ++ le 1 flags ++ le 1 s.refs.tstate.code ++ le 1 s.timeSourceCode
      ++ le 1 s.refs.freqRef ++ [0, 0] ++ le 8 s.tickNow)))

end Sys2Proof.Machine
end

