-- ==== Sys2Proof/Machine/Rtc.lean ====
section
/-! DEFINITION. The backup domain (chapter 20): calendar, RTC_SET and its commit, alarm, backup bytes, the unlock that
ends a start, and the correction of the calendar from DT. -/

namespace Sys2Proof.Machine

/-! ### The calendar (R500) -/

/-- Gregorian leap years. -/
def leapYear (y : Nat) : Bool := y % 4 == 0 && (y % 100 != 0 || y % 400 == 0)

/-- Days of a year. -/
def yearDays (y : Nat) : Nat := if leapYear y then 366 else 365

/-- Days of a month. -/
def monthDays (y m : Nat) : Nat :=
  if m = 2 then (if leapYear y then 29 else 28) else if m = 4 ∨ m = 6 ∨ m = 9 ∨ m = 11 then 30 else 31

/-- Days from 2000-01-01 to a date. -/
def daysTo (c : RtcCal) : Nat :=
  ((List.range (c.year - 2000)).map (fun i => yearDays (2000 + i))).sum
    + ((List.range (c.month - 1)).map (fun i => monthDays c.year (i + 1))).sum + (c.day - 1)

/-- U of a calendar value: seconds since 2000-01-01T00:00:00, counted without leap seconds (R507). -/
def RtcCal.seconds (c : RtcCal) : Nat := daysTo c * 86400 + c.hour * 3600 + c.minute * 60 + c.second

/-- The year that `n` days after the start of year `y` fall in, and the day of that year. -/
def findYear : Nat → Nat → Nat → Nat × Nat
  | 0, y, n => (y, n)
  | fuel + 1, y, n => if n < yearDays y then (y, n) else findYear fuel (y + 1) (n - yearDays y)

/-- The month that day `n` of a year falls in, from month `m` on, and the day of that month. -/
def findMonth : Nat → Nat → Nat → Nat → Nat × Nat
  | 0, _, m, n => (m, n)
  | fuel + 1, y, m, n => if n < monthDays y m then (m, n) else findMonth fuel y (m + 1) (n - monthDays y m)

/-- The calendar value of U seconds (R500). -/
def RtcCal.ofSeconds (u : Nat) : RtcCal :=
  let y := findYear 200 2000 (u / 86400)
  let m := findMonth 12 y.1 1 y.2
  let t := u % 86400
  ⟨y.1, m.1, m.2 + 1, t / 3600, t / 60 % 60, t % 60⟩

/-- Whether a calendar value of a command lies in the ranges of TIME and DATE (R500). -/
def calendarOk (c : Calendar) : Bool :=
  let y := c.year.toNat
  let m := c.month.toNat
  let d := c.day.toNat
  decide (2000 ≤ y ∧ y ≤ 2199 ∧ 1 ≤ m ∧ m ≤ 12 ∧ 1 ≤ d ∧ d ≤ monthDays y m ∧ c.hour.toNat ≤ 23 ∧ c.minute.toNat ≤ 59 ∧
    c.second.toNat ≤ 59)

/-- The calendar value of a command. -/
def calendarRtc (c : Calendar) : RtcCal :=
  ⟨c.year.toNat, c.month.toNat, c.day.toNat, c.hour.toNat, c.minute.toNat, c.second.toNat⟩

/-- A calendar value as a command carries it, with its byte 7. -/
def RtcCal.bytes (c : RtcCal) (b7 : Byte) : List Byte :=
  calendarBytes ⟨BitVec.ofNat 16 c.year, BitVec.ofNat 8 c.month, BitVec.ofNat 8 c.day, BitVec.ofNat 8 c.hour,
    BitVec.ofNat 8 c.minute, BitVec.ofNat 8 c.second⟩ b7

/-- The last second of the calendar (R500, R516). -/
def calendarEnd : RtcCal := ⟨2199, 12, 31, 23, 59, 59⟩
/-- The first second of the calendar. -/
def calendarStart : RtcCal := ⟨2000, 1, 1, 0, 0, 0⟩

/-! ### Commands -/

/-- The state with the backup domain changed; RTC_INT_N is low while ALARM_FLAG is 1 (R506). -/
def State.setRtc (s : State) (r : RtcSt) : State :=
  let was := s.rtc.alarmFlag
  let s := { s with rtc := r }
  if r.alarmFlag = was then s else s.emit (.pin "RTC_INT_N" (!r.alarmFlag))

/-- The first whole second of DT that begins at or after the effective tick of a command accepted now, as a tick index
(R502). -/
def State.rtcTick (s : State) : Nat := roundUp 1000 s.effTickIdx

/-- RTC_SET (R500, R502): a device setting whose effective tick is that of its whole second. Option 2 with no halt to
release changes nothing (R61). -/
def execRtcSet (h : CmdHdr) (cal : Calendar) (option : Byte) (s : State) : Res :=
  .next (s.runCmd (gateAll 0x0E01) h fun s =>
    s.refuseIf s.rtc.locked .locked <|
    s.refuseIf (2 < option.toNat || (option != 2#8 && !calendarOk cal)) .badParam <|
    if option = 2#8 ∧ s.rtc.halt = false ∧ s.rtc.write = [] then (s, answer .ok)
    else
      let w : RtcWrite := ⟨option.toNat, calendarRtc cal, s.rtcTick - s.tickNow⟩
      ({ s with acc := { s.acc with gen := s.acc.gen + 1 }, rtc := { s.rtc with write := s.rtc.write ++ [w] } },
        .now .ok [] none (tick32 s.rtcTick)))

/-- RTC_QUERY (R499, Table 15.20). -/
def execRtcQuery (h : CmdHdr) (s : State) : Res :=
  .next (s.runCmd (gateAll 0x0E02) h fun s =>
    s.refuseIf s.rtc.locked .locked <|
    let r := s.rtc
    let flags := (if r.halt then 1 else 0) + (if r.osf then 2 else 0) + (if r.wasVbat then 4 else 0)
    (s, answer .ok (r.cal.bytes 0 ++ le 1 flags ++ [0] ++ le 2 r.trim.toNat ++ r.alarm.bytes (if r.alarmEn then 1 else 0))))

/-- Whether an offset and length lie within the backup bytes. -/
def backupOk (offset n : Nat) : Bool := decide (offset ≤ 31 ∧ 1 ≤ n ∧ n ≤ 32 ∧ offset + n ≤ 32)

/-- BACKUP_WRITE (R497, R499). -/
def execBackupWrite (h : CmdHdr) (offset : Byte) (data : List Byte) (s : State) : Res :=
  .next (s.runCmd (gateAll 0x0E03) h fun s =>
    s.refuseIf s.rtc.locked .locked <|
    s.refuseIf (!backupOk offset.toNat data.length) .badParam <|
    let b := s.rtc.backup
    let b := b.take offset.toNat ++ data ++ b.drop (offset.toNat + data.length)
    ({ s with rtc := { s.rtc with backup := b } }, answer .ok))

/-- BACKUP_READ (R499). -/
def execBackupRead (h : CmdHdr) (offset len : Byte) (s : State) : Res :=
  .next (s.runCmd (gateAll 0x0E04) h fun s =>
    s.refuseIf s.rtc.locked .locked <|
    s.refuseIf (!backupOk offset.toNat len.toNat) .badParam <|
    (s, answer .ok (pad4 ((s.rtc.backup.drop offset.toNat).take len.toNat))))

/-- RTC_ALARM (R500, R506): it clears ALARM_FLAG. -/
def execRtcAlarm (h : CmdHdr) (cal : Calendar) (enable : Byte) (s : State) : Res :=
  .next (s.runCmd (gateAll 0x0E05) h fun s =>
    s.refuseIf s.rtc.locked .locked <|
    s.refuseIf (1 < enable.toNat || !calendarOk cal) .badParam <|
    (s.setRtc { s.rtc with alarm := calendarRtc cal, alarmEn := enable == 1#8, alarmFlag := false }, answer .ok))

/-! ### Events -/

/-- One write that has reached its whole second (R502): option 0 and 1 set the calendar and clear OSF (R501). -/
def RtcSt.apply (r : RtcSt) (w : RtcWrite) : RtcSt :=
  if w.option = 2 then { r with halt := false }
  else { r with cal := w.cal, halt := w.option == 1, osf := false }

/-- RTC_WRITE_COMMIT: the writes whose whole second has begun are committed, in order (R497, R502). -/
def execRtcWriteCommit (wait : Nat) (s : State) : Res :=
  let s := s.advance wait
  if s.rtc.locked then .next s
  else
    let due := s.rtc.write.filter (fun w => w.ticksLeft == 0)
    let r := due.foldl RtcSt.apply s.rtc
    .next (s.setRtc { r with write := s.rtc.write.filter (fun w => w.ticksLeft != 0) })

/-- OSCILLATOR_STOPPED (R501). -/
def execOscillatorStopped (s : State) : Res := .next (s.setRtc { s.rtc with osf := true })

/-- BACKUP_DOMAIN_RESET (R496, R499): every register takes its reset value. -/
def execBackupDomainReset (s : State) : Res :=
  let r := s.rtc
  .next (s.setRtc { RtcSt.reset with locked := r.locked, onVbat := r.onVbat, lockedDue := r.lockedDue })

/-- L for a calendar second U (R507): that of the last row of the image's table whose second ended by then. -/
def leapForU (t : List LeapRow) (u : Nat) : Int :=
  t.foldl (fun l r =>
    if (r.dt.toNat / 1000000000 : Nat) - r.l.toInt + (if r.deleted then 0 else 1) ≤ (u : Int) then r.l.toInt else l) 0

/-- The seed of DT at the unlock (R48, R507). -/
def State.seedDt (s : State) : State :=
  let u := s.rtc.cal.seconds
  let dt : Nat := if s.rtc.osf then 0 else (((u : Int) + leapForU s.time.image u) * 1000000000).toNat
  { s with time := { s.time with dt := BitVec.ofNat 64 dt, boundary := dt + 1000000, seeded := true, rtcSeed := !s.rtc.osf } }

/-- EV_MODE (R481). -/
def State.modeEvent (s : State) (old cause : Nat) : State :=
  s.raise 0x8016 noSlot (le 1 old ++ le 1 s.power.mode.code ++ le 1 cause ++ le 1 s.subCode)

/-- READY is set (R425, R490): BOOT_DONE, EV_MODE with cause 2, or 6 after a segment failure, and the events that the start held
back (R476). Under the recovery loader no interpreter accepts doorbells, and MODE_STATUS READY stays 0. -/
def State.setReady (s : State) : State :=
  let evs := s.power.bootEvents
  let s := { s with power := { s.power with ready := true, startPend := false, bootEvents := [] } }
  let s := if s.power.recovery then s
    else ((s.setIntBoth intBootDone).setIntBoth intModeChange).modeEvent 0xFF (if s.power.segFailed then 6 else 2)
  evs.foldl (fun s e => s.raise e.1 noSlot e.2) s

/-- The backup interface unlocks (R498): VBAT_SEEN is copied and cleared, the supply switches back, DT is seeded, and a
start that waited for it ends. -/
def State.unlock (s : State) : State :=
  let s := { s with rtc := { s.rtc with locked := false, onVbat := false, wasVbat := s.rtc.vbatSeen, vbatSeen := false } }
  (s.seedDt).setReady

/-- RTC_SECOND_ROLLOVER (R498, R503, R506, R516). -/
def execRtcSecondRollover (s : State) : Res :=
  let r := s.rtc
  if r.halt then .next s
  else
    let last := r.cal == calendarEnd
    let c := if last then calendarStart else RtcCal.ofSeconds (r.cal.seconds + 1)
    let r := { r with cal := c, osf := r.osf || last, alarmFlag := r.alarmFlag || (r.alarmEn && c == r.alarm) }
    let s := s.setRtc r
    .next (if s.power.startPend && r.locked then s.unlock else s)

/-- RTC_UNLOCK_TIMEOUT: no rollover for 1,100 ms (R498, R507). -/
def execRtcUnlockTimeout (s : State) : Res :=
  .next (if s.power.startPend && s.rtc.locked then s.unlock else s)

/-- RTC_DT_CORRECTION: the calendar is set from DT at a whole second (R504, R516); `diffUs` is how far the two differ. -/
def execRtcDtCorrection (diffUs : Nat) (wait : Nat) (s : State) : Res :=
  let s := s.advance wait
  let u := s.utcSeconds s.now
  let late := match s.rtc.lastSet with
    | some d => decide (d.toNat + 3600000000000 ≤ s.now)
    | none => true
  let due := s.rtc.lockedDue || (decide (100 < diffUs) && late)
  if s.refs.tstate = .locked ∧ s.refs.timeSrc.isSome ∧ s.now % 1000000000 = 0 ∧ due ∧ s.rtc.halt = false ∧
      s.rtc.locked = false ∧ inLeapSecond s.leapTable s.now = false ∧ 0 ≤ u ∧ u.toNat ≤ calendarEnd.seconds then
    .next (s.setRtc { s.rtc with cal := RtcCal.ofSeconds u.toNat, osf := false, lockedDue := false, lastSet := some s.time.dt })
  else .next s

end Sys2Proof.Machine
end

