-- ==== Sys2Proof/Machine/Refs.lean ====
section
/-! DEFINITION. References and time sources (R120 to R130): REF_CONFIG, REF_QUERY, PPS_TOD, the PPS edges, qualification
and loss, holdover, and what a tick does with them. -/

namespace Sys2Proof.Machine

/-! ### Settings -/

/-- Whether Table 4.4 gives a code the frequency role. -/
def freqRole (c : Nat) : Bool := decide (1 ≤ c ∧ c ≤ 4)
/-- Whether Table 4.4 gives a code the time role (R120); the RTC only seeds. -/
def timeRole (c : Nat) : Bool := decide (3 ≤ c ∧ c ≤ 7)

/-- The standard of a key, or of the multiplex that a 0x9 key names (R6). -/
def keyStandard (k : W64) : Nat :=
  let std := k.toNat / 2 ^ 60
  if std = 9 then k.toNat / 2 ^ 56 % 16 else std

/-- The standard that carries the source of codes 5 to 7 (Table 4.4). -/
def sourceStandard (c : Nat) : Nat := if c = 5 then 6 else if c = 6 then 7 else 4

/-- Whether a REF_CONFIG entry is in range (Table 15.16). -/
def State.refEntryOk (s : State) (e : RefEntry) : Bool :=
  let c := e.code.toNat
  decide (1 ≤ c ∧ c ≤ 7 ∧ e.freqPrio.toNat ≤ 6 ∧ e.timePrio.toNat ≤ 6 ∧ 1 ≤ e.qS.toNat ∧ e.qS.toNat ≤ 60)
    && (freqRole c || e.freqPrio == 0#8) && (timeRole c || e.timePrio == 0#8)
    && decide (e.option.toNat ≤ (if c ≤ 2 then 2 else if c = 3 then 1 else 0))
    && (decide (c < 5) || e.prefSlot == 0xFFFF#16 ||
      match s.svc? e.prefSlot with
      | some v => keyStandard v.acc.attrs.key == sourceStandard c
      | none => false)

/-- The entries after a REF_CONFIG: each entry named replaces that of its code (R120). PREF_SLOT is used for codes 5 to 7 only
and is otherwise ignored (Table 15.16, R404). -/
def mergeRefs (old new : List RefEntry) : List RefEntry :=
  old.map (fun o =>
    match new.find? (fun n => n.code == o.code) with
    | some n => if o.code.toNat < 5 then { n with prefSlot := o.prefSlot } else n
    | none => o)

/-- REF_CONFIG (R120, R121, Table 15.16). -/
def execRefConfig (h : CmdHdr) (params : Option RefParams) (s : State) : Res :=
  .next (s.runCmd (gateAll 0x0807) h fun s =>
    match params with
    | none => (s, answer .ok (refParamBytes s.force.refs))
    | some p =>
      let n := p.entries.length
      s.refuseIf (!(decide (60 ≤ p.holdoverS.toNat ∧ p.holdoverS.toNat ≤ 604800 ∧ p.xoKind.toNat ≤ 1 ∧ 1 ≤ n ∧ n ≤ 7)
        && p.entries.all s.refEntryOk && decide ((p.entries.map (·.code)).Nodup))) .badParam <|
      s.commitDev (some 1) (fun a =>
        { a with refs := ⟨p.holdoverS, p.xoKind, mergeRefs a.refs.entries p.entries⟩ }))

/-- The settings of a reference in force. -/
def State.refEntry? (s : State) (c : Nat) : Option RefEntry := s.force.refs.entries.find? (fun e => e.code.toNat == c)

/-- Q of a reference in ticks (R123). -/
def State.refQ (s : State) (c : Nat) : Nat := match s.refEntry? c with | some e => e.qS.toNat * 1000 | none => 0

/-- The priority of a code in a role, 0 for disabled; code 4 counts in mast role only (R121). -/
def State.refPrio (s : State) (time : Bool) (c : Nat) : Nat :=
  match s.refEntry? c with
  | some e => if c = 4 ∧ s.isMast = false then 0 else if time then e.timePrio.toNat else e.freqPrio.toNat
  | none => 0

/-- A reference's state. -/
def State.ref (s : State) (c : Nat) : RefState := s.refs.refs.getD c RefState.reset

/-- The state with one reference changed. -/
def State.modRef (s : State) (c : Nat) (f : RefState → RefState) : State :=
  { s with refs := { s.refs with refs := s.refs.refs.modify c f } }

/-- Whether a reference is qualified in a role. -/
def State.qualified (s : State) (time : Bool) (c : Nat) : Bool := if time then (s.ref c).qualT else (s.ref c).qualF

/-- The highest-ranked qualified reference of a role (R120, R124): lowest priority number, then lowest code. -/
def State.bestRef (s : State) (time : Bool) : Option Nat :=
  let cs := (List.range 8).filter (fun c => s.qualified time c && s.refPrio time c != 0)
  cs.foldl (fun b c => match b with
    | none => some c
    | some d => if s.refPrio time c < s.refPrio time d then some c else some d) none

/-! ### Loss -/

/-- The mean of ε over the last 60 s (R127). -/
def RefSt.meanEps (r : RefSt) : Int := if r.epsHist.isEmpty then r.eps else r.epsHist.sum / (r.epsHist.length : Int)

/-- The frequency reference in use is gone and only XO remains: ε is held (R127). -/
def State.freqLost (s : State) (c : Nat) : State :=
  let s := { s with refs := { s.refs with freqRef := 0, freqHold := true, freqSlew := false, eps := s.refs.meanEps } }
  (s.refEvent 1 0 c 0 0).refSay 5 0 c

/-- The time source in use leaves, with no other qualified: ε is held where XO clocks the device (R127), and Table 4.9
reason 3 says so. -/
def State.dropSource (s : State) (c : Nat) : State :=
  let hold : Bool := s.refs.freqRef == 0 && s.refs.tstate == .locked
  let s' := { s with refs := { s.refs with timeSrc := none, eps := if hold then s.refs.meanEps else s.refs.eps } }
  s'.refEvent 3 1 c 0xFF 0xFF

/-- Holdover begins (Table 4.7). -/
def State.beginHoldover (s : State) (c : Nat) : State :=
  let s1 := s.setTState .holdover
  let s2 := { s1 with refs := { s1.refs with holdTicks := 0, holdRef := c } }
  s2.refSay 5 1 c

/-- The time source in use is gone with no other qualified (Table 4.7). -/
def State.timeLost (s : State) (c : Nat) : State :=
  match s.refs.tstate with
  | .locked => (s.dropSource c).beginHoldover c
  | .acquiring => (s.dropSource c).setTState .free
  | _ => s.dropSource c

/-- A reference is disqualified in the roles named (R123): its criterion starts again, EV_REF_STATE says so where it was
qualified, and where it was in use with no other qualified the role goes into holdover (R127, Table 4.7). -/
def State.disqualify (s : State) (c : Nat) (freq time : Bool) : State :=
  let r := s.ref c
  let s := if freq then s.modRef c (fun r => { r with qualF := false, critF := false, heldF := 0 }) else s
  let s := if time then s.modRef c (fun r => { r with qualT := false, critT := false, heldT := 0 }) else s
  let s := if freq && r.qualF then s.refSay 8 0 c else s
  let s := if time && r.qualT then s.refSay 8 1 c else s
  let s := if freq && s.refs.freqRef == c && c != 0 && (s.bestRef false).isNone then s.freqLost c else s
  if time && s.refs.timeSrc == some c && (s.bestRef true).isNone then s.timeLost c else s

/-- What of a reference's measurements a loss takes with it: the PPS count, the last indications, the last frames. -/
def RefSt.forget (r : RefSt) (c : Nat) : RefSt :=
  if c = 3 then { r with ppsCount := none }
  else if c = 5 then { r with tInd5 := [] }
  else if c = 6 then { r with tInd6 := [] }
  else if c = 7 then { r with tcGood := 0, tcFail := 0, tcLast := none }
  else r

/-- The loss condition of a reference in all its roles (Table 4.6). -/
def State.loseRef (s : State) (c : Nat) : State :=
  ({ s with refs := s.refs.forget c }).disqualify c (freqRole c) (timeRole c)

/-- REFERENCE_LOSS (R123, R127, R128). -/
def execReferenceLoss (code : Nat) (wait : Nat) (s : State) : Res := .next ((s.advance wait).loseRef code)

/-- REFERENCE_QUALIFIED (R123): the criterion has held for Q. -/
def execReferenceQualified (code : Nat) (timeRole_ : Bool) (wait : Nat) (s : State) : Res :=
  let s := s.advance wait
  let r := s.ref code
  let q := s.refQ code
  if timeRole_ then
    if timeRole code && r.critT && !r.qualT && decide (q ≤ r.heldT) then
      .next ((s.modRef code (fun r => { r with qualT := true })).refSay 7 1 code)
    else .next s
  else if freqRole code && r.critF && !r.qualF && decide (q ≤ r.heldF) then
    .next ((s.modRef code (fun r => { r with qualF := true })).refSay 7 0 code)
  else .next s

/-- HOLDOVER_EXPIRY (R128, Table 4.7). -/
def execHoldoverExpiry (wait : Nat) (s : State) : Res :=
  let s := s.advance wait
  if s.refs.tstate = .holdover ∧ s.force.refs.holdoverS.toNat * 1000 ≤ s.refs.holdTicks then
    .next ((s.setTState .expired).refSay 6 1 s.refs.holdRef)
  else .next s

/-! ### PPS_IN -/

/-- PPS_TOD (R122). -/
def execPpsTod (h : CmdHdr) (dt : W64) (s : State) : Res :=
  .next (s.runCmd (gateAll 0x0809) h fun s =>
    s.refuseIf (dt.toNat % 1000000000 != 0) .badParam <|
    ({ s with refs := { s.refs with ppsTod := some (dt, s.time.dt) } }, answer .ok))

/-- A whole second of DT as a label. -/
def wholeSecond (n : Nat) : W64 := BitVec.ofNat 64 ((n + 500000000) / 1000000000 * 1000000000)

/-- The label that the count gives an edge (R122): the next second, or after a loss, while the time state is LOCKED or
HOLDOVER, the second nearest to it. -/
def State.countLabel (s : State) (returning : Bool) : Option W64 :=
  match s.refs.ppsCount with
  | some c => some (c + 1000000000#64)
  | none =>
    if returning && (s.refs.tstate == .locked || s.refs.tstate == .holdover) then some (wholeSecond s.now) else none

/-- An edge takes its label, by a PPS_TOD that waits or by the count (R122). -/
def State.labelEdge (s : State) (returning : Bool) : State :=
  let count := s.countLabel returning
  let s0 := { s with refs := { s.refs with ppsTod := none, ppsCount := count } }
  match s.refs.ppsTod with
  | none => s0
  | some (v, at_) =>
    if s.now < at_.toNat + 100000000 then s0.refSay 0xD 1 3
    else
      let s1 := { s0 with refs := { s0.refs with ppsCount := some v } }
      match count with
      | some c => if c = v then s1 else (s1.refSay 0xC 1 3).disqualify 3 false true
      | none => s1

/-- PPS_EDGE: an active edge of PPS_IN: a step that waits for it (R58), the spacing of Table 4.6, and its label
(R122). -/
def execPpsEdge (wait : Nat) (s : State) : Res :=
  let s := s.advance wait
  let s := match s.time.atPps with
    | some v => ({ s with time := { s.time with atPps := none } }).applyStep s.now v.toNat
    | none => s
  let running := (s.ref 3).critF
  let returning := !running && s.refs.lastEdge.isSome
  let bad := running && match s.refs.lastEdge with
    | some p => decide (1000 < ((s.now : Int) - p.toNat - 1000000000).natAbs)
    | none => false
  let s := if bad then s.loseRef 3 else s
  let s := s.labelEdge (returning || bad)
  let s := { s with refs := { s.refs with lastEdge := some s.time.dt } }
  let lab := s.refs.ppsCount.isSome
  .next (s.modRef 3 (fun r => { r with critF := true, critT := lab, heldT := if lab then r.heldT else 0 }))

/-! ### Physical-layer time (R235) -/

/-- The slot that gives code 5 or 6 its indications (R121): the preferred one, or the placed source of the lowest slot
number. A service is a source while it is placed and its key's standard is the code's. -/
def State.sourceSlot (s : State) (c : Nat) : Option Nat :=
  let fits (v : Service) : Bool :=
    (v.state == .placed || v.state == .migrating || v.state == .following) &&
      keyStandard v.acc.attrs.key == sourceStandard c
  match s.refEntry? c with
  | some e =>
    if e.prefSlot = 0xFFFF#16 then
      (s.services.filter fits).foldl (fun b v => match b with
        | none => some v.slot
        | some n => some (min n v.slot)) none
    else match s.svc? e.prefSlot with
      | some v => if fits v then some v.slot else none
      | none => none
  | none => none

/-- TIME_INDICATION (R123, R235): DT minus the label at the labelled instant joins the last three; an indication that
disagrees with the one before by more than 10 µs is a loss, and three within 1 µs meet the criterion. ATSC 3.0 time to
the millisecond counts as absent. -/
def execTimeIndication (ti : TimeInd) (wait : Nat) (s : State) : Res :=
  let s := s.advance wait
  match s.slotSvc? ti.slot with
  | none => .next s
  | some v =>
    let std := keyStandard v.acc.attrs.key
    let c := if std = 6 then 5 else 6
    if (std ≠ 6 ∧ std ≠ 7) ∨ ti.coarse ∨ s.sourceSlot c ≠ some ti.slot then .next s
    else
      let off : Int := (ti.stamp.toNat : Int) - ti.label.toNat
      let old := if c = 5 then s.refs.tInd5 else s.refs.tInd6
      let far := match old with | x :: _ => decide (10000 < (off - x).natAbs) | [] => false
      let s := if far then s.loseRef c else s
      let new := (off :: (if far then [] else old)).take 3
      let s := { s with refs := if c = 5 then { s.refs with tInd5 := new } else { s.refs with tInd6 := new } }
      let ok := new.length == 3 && new.all (fun x => new.all (fun y => decide ((x - y).natAbs ≤ 1000)))
      .next (s.modRef c (fun r => { r with critT := ok, heldT := if ok then r.heldT else 0 }))

/-! ### The tick -/

/-- One tick more for each criterion that holds (R123). Codes 1 and 2 follow what the tick saw of their edges, and code 4
the trunk. -/
def State.refCount (s : State) (edgeA edgeB trunkTime : Bool) : State :=
  let s := (s.modRef 1 (fun r => { r with critF := edgeA })).modRef 2 (fun r => { r with critF := edgeB })
  let s := s.modRef 4 (fun r => { r with critF := trunkTime, critT := trunkTime })
  let up (r : RefState) : RefState :=
    { r with heldF := if r.critF then r.heldF + 1 else 0, heldT := if r.critT then r.heldT + 1 else 0 }
  { s with refs := { s.refs with refs := s.refs.refs.map up } }

/-- The frequency role at the start of a tick (R124, R127). -/
def State.freqTick (s : State) (eps : Int) (slewDone : Bool) : State :=
  let best := (s.bestRef false).getD 0
  let prev := s.refs.freqRef
  let s := if best = prev then s
    else if best = 0 then s.freqLost prev
    else
      let s := { s with refs := { s.refs with freqRef := best, freqHold := false, freqSlew := true } }
      s.refEvent 1 0 prev best best
  let s := if s.refs.freqSlew && slewDone then
      ({ s with refs := { s.refs with freqSlew := false } }).refSay 2 0 s.refs.freqRef
    else s
  let r := s.refs
  let follows := r.freqRef != 0 || (r.timeSrc.isSome && r.tstate == .locked)
  let e := if follows then eps else r.eps
  { s with refs := { r with eps := e, epsHist := (e :: r.epsHist).take 60000, freqHold := r.freqHold && !follows } }

/-- The error measured against a source in this tick. -/
def errorOf (errors : List (Nat × Int)) (c : Nat) (old : Int) : Int :=
  match errors.find? (fun x => x.1 == c) with | some x => x.2 | none => old

/-- The time role at the start of a tick: the source in use, the error e and the time state (R124, R128, Table 4.7). -/
def State.timeTick (s : State) (errors : List (Nat × Int)) : State :=
  let prev := s.refs.timeSrc
  match s.bestRef true, prev with
  | none, none =>
    if s.refs.tstate = .holdover ∨ s.refs.tstate = .expired then
      { s with refs := { s.refs with holdTicks := s.refs.holdTicks + 1 } }
    else s
  | none, some c => s.timeLost c
  | some c, _ =>
    let same := prev == some c
    let s := { s with refs := { s.refs with timeSrc := some c, e := errorOf errors c s.refs.e },
                      time := { s.time with rtcSeed := false } }
    let inside := decide (s.refs.e.natAbs ≤ (lockWindow c).natAbs)
    let s := if same then s else s.refEvent 3 1 (prev.getD 0xFF) c c
    match s.refs.tstate with
    | .free | .holdover | .expired => if inside then s.enterLocked else s.setTState .acquiring
    | .acquiring => if inside then s.enterLocked else s
    | .locked =>
      if inside then { s with refs := { s.refs with outTicks := 0 } }
      else if !same || decide (10 ≤ s.refs.outTicks + 1) then s.setTState .acquiring
      else { s with refs := { s.refs with outTicks := s.refs.outTicks + 1 } }

/-- The steps that the tick boundary just reached makes due (R58): an offset, or an armed step once a source is in
use. -/
def State.stepTick (s : State) : State :=
  let t := s.time
  let s := match t.offset with
    | some o => { s with time := { s.time with offset := none, stepDue := some (BitVec.ofInt 64 ((s.now : Int) + o)) } }
    | none => s
  if t.armed && s.refs.timeSrc.isSome then
    { s with time := { s.time with armed := false, stepDue := some (BitVec.ofInt 64 ((s.now : Int) - s.refs.e)) } }
  else s

/-! ### REF_QUERY -/

/-- What is left of the qualification time of a reference in ms (R130): the longer of its roles that are not
qualified. -/
def State.refRemain (s : State) (c : Nat) : Nat :=
  let r := s.ref c
  let one (role qual : Bool) (held : Nat) : Nat := if role && !qual then s.refQ c - held else 0
  max (one (freqRole c) r.qualF r.heldF) (one (timeRole c) r.qualT r.heldT)

/-- QUALIFIED of a reference: XO in the frequency role always. -/
def State.refQualBits (s : State) (c : Nat) : Nat :=
  (if c = 0 ∨ (s.ref c).qualF = true then 1 else 0) + (if (s.ref c).qualT then 2 else 0)

/-- REF_QUERY (R130, Table 15.16). -/
def execRefQuery (h : CmdHdr) (s : State) : Res :=
  .next (s.runCmd (gateAll 0x0808) h fun s =>
    let r := s.refs
    let held := if r.tstate = .holdover ∨ r.tstate = .expired then r.holdTicks else 0
    let per := if s.force.refs.xoKind = 1#8 then 1 else 20
    (s, answer .ok (le 1 r.freqRef ++ le 1 (if r.freqHold then 1 else 0) ++ le 1 s.timeSourceCode ++ le 1 r.tstate.code
      ++ le 4 (held / 1000) ++ leInt 8 r.e ++ leInt 8 r.eps ++ le 8 (held * per)
      ++ (List.range 9).flatMap (fun c => le 1 c ++ le 1 (s.refQualBits c) ++ [0, 0] ++ le 4 (s.refRemain c)))))

end Sys2Proof.Machine
end

