-- ==== Sys2Proof/Machine/Rf.lean ====
section
/-! DEFINITION. The RF inputs (R76 to R84, R109) and the coexistence wires (R101 to R107). -/

namespace Sys2Proof.Machine

/-! ### Inputs and gain -/

/-- The state of an input: 0 RFA, 1 RFB, 2 LFIN. -/
def State.input (s : State) (i : Nat) : InputSt := s.rf.getD i InputSt.reset

/-- The state with one input changed. -/
def State.modInput (s : State) (i : Nat) (f : InputSt → InputSt) : State := { s with rf := s.rf.modify i f }

/-- The gain settings of an input. -/
def rfCfg (a : Settings) (i : Nat) : RfCfg := a.rf.getD i ⟨0#8, 0xF0#8, 0#8⟩

/-- RF_CONFIG (R82, Table 15.17). ATTEN counts in MANUAL only. -/
def execRfConfig (h : CmdHdr) (input gainMode target atten : Byte) (s : State) : Res :=
  .next (s.runCmd (gateAll 0x0901) h fun s =>
    let i := input.toNat
    let manual := gainMode == 2#8
    s.refuseIf (decide (2 < i) || decide (2 < gainMode.toNat) || decide (target.toInt < -24) || decide (-10 < target.toInt)
      || (manual && (decide (30 < atten.toNat) || (i == 2 && atten.toNat % 3 != 0)))) .badParam <|
    let old := rfCfg s.acc i
    s.commitDev (some 2) (fun a => { a with rf := a.rf.set i ⟨gainMode, target, if manual then atten else old.atten⟩ }))

/-- RF_QUERY (R84, Table 15.17). -/
def execRfQuery (h : CmdHdr) (input : Byte) (s : State) : Res :=
  .next (s.runCmd (gateAll 0x0902) h fun s =>
    let i := input.toNat
    s.refuseIf (decide (2 < i)) .badParam <|
    let c := rfCfg s.force i
    let x := s.input i
    (s, answer .ok ([input, c.mode, c.target] ++ le 1 x.atten ++ le 4 x.ovlLast ++ le 4 x.ovlTotal ++ le 4 x.ovlTicks
      ++ leInt 2 x.rms ++ leInt 2 x.peak ++ zeros 4)))

/-- COMB_TEST (R109): MAINTAIN only. -/
def execCombTest (h : CmdHdr) (input on : Byte) (s : State) : Res :=
  .next (s.runCmd ⟨0x0908, .none, [.maintain], .none⟩ h fun s =>
    s.refuseIf (decide (2 < input.toNat) || decide (1 < on.toNat)) .badParam <|
    (s.modInput input.toNat (fun x => { x with comb := on == 1#8 }), answer .ok))

/-- Whether the inputs are sampled: in a receiving mode, in MAINTAIN, and in DORMANT HOT (R94). -/
def State.sampling (s : State) : Bool :=
  s.power.mode.receives || s.power.mode == .maintain || (s.power.mode == .dormant && s.power.sub == .hot)

/-- The AUTO decision of one input at the end of a tick (R79 to R81, Table 3.2). -/
def InputSt.agc (x : InputSt) (lf : Bool) (target : Int) (m : InputMeas) : InputSt :=
  let t := target * 100
  let step (n : Int) : Nat := (min 30 (max 0 ((x.atten : Int) + n))).toNat
  if m.allBlanked then x
  else if 0 < m.ovl then { x with atten := step (if lf then 6 else 3), lowTicks := 0 }
  else if t + 300 < m.rms then { x with atten := step (if lf then 3 else 1), lowTicks := 0 }
  else if m.rms < t - 300 ∧ m.peak ≤ -600 then
    if 200 ≤ x.lowTicks + 1 then { x with atten := step (if lf then -3 else -1), lowTicks := 0 }
    else { x with lowTicks := x.lowTicks + 1 }
  else { x with lowTicks := 0 }

/-- The counters of a tick (R84). -/
def InputSt.count (x : InputSt) (m : InputMeas) : InputSt :=
  { x with rms := if m.allBlanked then x.rms else m.rms, peak := if m.allBlanked then x.peak else m.peak,
           ovlLast := m.ovl, ovlTotal := sat32 (x.ovlTotal + m.ovl),
           ovlTicks := if m.ovl = 0 then x.ovlTicks else sat32 (x.ovlTicks + 1) }

/-- One input at a tick boundary: the counters, and the attenuation of the tick that begins (R79, R80, R82). `old` are
the settings of the tick that ended. -/
def State.rfOne (s : State) (old : Settings) (i : Nat) (m : InputMeas) : State :=
  let c := rfCfg s.force i
  let auto := (rfCfg old i).mode == 0#8 && c.mode == 0#8
  s.modInput i (fun x =>
    let x := x.count m
    if c.mode = 2#8 then { x with atten := c.atten.toNat, lowTicks := 0 }
    else if auto then x.agc (i == 2) c.target.toInt m else x)

/-- The gain control of every input at a tick boundary. -/
def State.rfTick (s : State) (old : Settings) (ms : List InputMeas) : State :=
  if s.sampling then (ms.zipIdx.foldl (fun s x => s.rfOne old x.2 x.1) s)
  else
    { s with rf := s.rf.zipIdx.map (fun x =>
        if (rfCfg s.force x.2).mode = 2#8 then { x.1 with atten := (rfCfg s.force x.2).atten.toNat } else x.1) }

/-! ### Coexistence wires -/

/-- Whether the wires are enabled (R101). -/
def State.coexOn (s : State) : Bool := s.force.coex.nat 1 == 1

/-- Whether an input is shared with the partner (Table 3.9 item 2). -/
def State.shared (s : State) (i : Nat) : Bool :=
  let k := s.force.coex.nat 2
  (i == 0 && (k == 0 || k == 2)) || (i == 1 && (k == 1 || k == 2))

/-- Whether the shared inputs are blanked (R102). -/
def State.blanking (s : State) : Bool := s.coex.phase != .idle

/-- The wires in the order of Table 3.8, 1 asserted. -/
def CoexSt.wires (c : CoexSt) : Nat :=
  (if c.reqIn then 1 else 0) + (if c.priIn then 2 else 0) + (if c.gntOut then 4 else 0) + (if c.reqOut then 8 else 0)
    + (if c.gntIn then 16 else 0)

/-- A wire of the device changes; bit `i` of the polarity says active-low (Table 3.9 item 3). -/
def State.wire (s : State) (name : String) (i : Nat) (asserted : Bool) : State :=
  s.emit (.pin name (asserted != (s.force.coex.nat 3).testBit i))

/-- COEX_GNT_OUT. -/
def State.setGntOut (s : State) (b : Bool) : State :=
  if s.coex.gntOut = b then s
  else ({ s with coex := { s.coex with gntOut := b } }).wire "COEX_GNT_OUT" 2 b

/-- COEX_REQ_OUT. -/
def State.setReqOut (s : State) (b : Bool) : State :=
  if s.coex.reqOut = b then s
  else ({ s with coex := { s.coex with reqOut := b } }).wire "COEX_REQ_OUT" 3 b

/-- EV_COEX with its counter (R107, Table 3.13). -/
def State.coexEvent (s : State) (reason : Nat) : State :=
  let s := { s with coex := { s.coex with reasons := s.coex.reasons.modify (reason - 1) (fun n => sat32 (n + 1)) } }
  s.raise 0x8015 noSlot (le 1 reason ++ le 1 s.coex.wires ++ [0, 0])

/-- A phase of the grant sequence ends; while it lasted the shared inputs were BLANKED (R102, R107). -/
def CoexSt.enter (c : CoexSt) (p : CoexPhase) (dt : W64) (extra : Nat := 0) : CoexSt :=
  let spent := if c.phase = .idle then 0 else dt.toNat - c.phaseDt.toNat + extra
  { c with phase := p, phaseDt := dt, blankedNs := c.blankedNs + spent }

/-- A transition of an input wire (Table 3.13 reason 5). -/
def CoexSt.edge (c : CoexSt) (w : Nat) (changed : Bool) (dt : W64) : CoexSt :=
  if changed then { c with lastEdge := c.lastEdge.set w dt, stuckSaid := c.stuckSaid.set w false } else c

/-- COEX_CONFIG (R101, Table 3.9). -/
def execCoexConfig (h : CmdHdr) (items : List Item) (s : State) : Res :=
  .next (s.runCmd (gateAll 0x0906) h fun s =>
    s.itemCmd tbl39 (fun _ => true) [] s.force.coex s.acc.coex items fun t =>
      s.commitDev (some 2) (fun a => { a with coex := t }))

/-- COEX_QUERY (R107, Table 15.17). -/
def execCoexQuery (h : CmdHdr) (s : State) : Res :=
  .next (s.runCmd (gateAll 0x0907) h fun s =>
    let c := s.coex
    let ns := (c.enter c.phase s.time.dt).blankedNs
    (s, answer .ok (le 1 c.wires ++ zeros 3 ++ zeros 8 ++ c.reasons.flatMap (le 4) ++ le 4 c.grants ++ le 4 c.withheld
      ++ le 4 (sat32 (ns / 1000)))))

/-- The wires are disabled: both outputs are deasserted and nothing is blanked (R101). -/
def State.coexOff (s : State) : State :=
  let s := (s.setGntOut false).setReqOut false
  { s with coex := { (s.coex.enter .idle s.time.dt) with reqIn := false, priIn := false, gntIn := false, window := false } }

/-- COEX_REQUEST: COEX_REQ_IN is accepted (R102, R106). `pri` and `gntIn` are the levels of the partner's other
wires. -/
def execCoexRequest (pri gntIn : Bool) (wait : Nat) (s : State) : Res :=
  let s := s.advance wait
  if s.coexOn && !s.coex.reqIn then
    let held := s.coex.window && !pri
    let old := s.coex
    let c : CoexSt := ((old.edge 0 true s.time.dt).edge 1 (old.priIn != pri) s.time.dt).edge 2 (old.gntIn != gntIn) s.time.dt
    let c : CoexSt := c.enter (.waiting held) s.time.dt
    let c : CoexSt := { c with
      reqIn := true, priIn := pri, gntIn := gntIn, reqDt := s.time.dt, limitSaid := false
      withheld := if held then sat32 (c.withheld + 1) else c.withheld}
    let s := { s with coex := c }
    let s := if held then s.coexEvent 2 else s
    .next (if s.coex.window && gntIn then s.coexEvent 4 else s)
  else .next s

/-- COEX_GRANT: GD after acceptance, or after the end of the window that withheld it (R102, R105). -/
def execCoexGrant (wait : Nat) (s : State) : Res :=
  let s := s.advance wait
  if s.coex.phase = .waiting false ∧ s.coex.phaseDt.toNat + s.force.coex.nat 4 * 100 ≤ s.now then
    let c := s.coex.enter .granted s.time.dt
    .next (({ s with coex := { c with grants := sat32 (c.grants + 1) } }).setGntOut true)
  else .next s

/-- COEX_RELEASE: the partner releases COEX_REQ_IN (R102, R103). -/
def execCoexRelease (wait : Nat) (s : State) : Res :=
  let s := s.advance wait
  if s.coex.reqIn then
    let c : CoexSt := (s.coex.edge 0 true s.time.dt).edge 1 s.coex.priIn s.time.dt
    let c : CoexSt := c.enter .tail s.time.dt
    .next (({ s with coex := { c with reqIn := false, priIn := false } }).setGntOut false)
  else .next s

/-- COEX_TAIL_EXPIRY: the switches open after the tail, and BLANKED ends 50 ns later (R102). -/
def execCoexTailExpiry (wait : Nat) (s : State) : Res :=
  let s := s.advance wait
  if s.coex.phase = .tail ∧ s.coex.phaseDt.toNat + s.force.coex.nat 5 * 1000 ≤ s.now then
    .next { s with coex := s.coex.enter .idle s.time.dt 50 }
  else .next s

/-- COEX_GRANT_LIMIT: a grant exceeds the grant limit, said once per grant (R107). -/
def execCoexGrantLimit (wait : Nat) (s : State) : Res :=
  let s := s.advance wait
  if s.coex.phase = .granted ∧ s.coex.limitSaid = false ∧
      s.coex.phaseDt.toNat + s.force.coex.nat 6 * 1000000 < s.now then
    .next (({ s with coex := { s.coex with limitSaid := true } }).coexEvent 1)
  else .next s

/-! ### Protection windows -/

/-- Whether an input is in use: a band lane runs on it. -/
def State.inputUsed (s : State) (i : Nat) : Bool := s.lanes.any (fun l => l.input == i)

/-- The flatness burst that begins in a tick on an input (R376): the burst ticks of RFA are the multiples of T, those of
LFIN and RFB T/3 and 2T/3 later. -/
def State.burstTick (s : State) (i tick : Nat) : Bool :=
  let t := s.force.cal.nat 3 10 * 1000
  let off := if i = 0 then 0 else if i = 2 then (t + 1) / 3 else (2 * t + 1) / 3
  s.force.cal.nat 2 == 1 && s.power.mode.receives && s.inputUsed i && decide ((s.input i).atten ≤ 20)
    && decide (off ≤ tick) && (tick - off) % t == 0

/-- The windows whose start less the lead has come and whose end has not: of the schedule, and of flatness bursts
(R105, R376). -/
def State.windowsDue (s : State) (lead : Nat) : List (Nat × Nat) :=
  let sch := s.force.coex.raw 7
  let start := field sch 0 8
  let len := field sch 8 4 * 100000
  let per := field sch 12 4 * 1000000
  let k := (s.now + lead - start) / per
  let w := start + k * per
  let fits (a b : Nat) : Bool := decide (a ≤ s.now + lead) && decide (s.now < b)
  let sched := if sch.length = 16 ∧ start ≤ s.now + lead then
      ((if k = 0 then [w] else [w, w - per]).filter (fun w => fits w (w + len))).map (fun w => (w, w + len))
    else []
  let bursts := [s.tickNow, s.tickNow + 1].flatMap (fun t =>
    let a := t * 1000000 + 400000
    if [0, 1, 2].any (fun i => s.burstTick i t) && fits a (a + 150000) then [(a, a + 150000)] else [])
  sched ++ bursts

/-- PROTECTION_WINDOW_LEAD: a lead before a window, COEX_REQ_OUT is asserted; windows that overlap merge (R105). -/
def execProtectionWindowLead (wait : Nat) (s : State) : Res :=
  let s := s.advance wait
  let lead := s.force.coex.nat 8 * 1000
  match s.windowsDue lead with
  | [] => .next s
  | w :: ws =>
    if !s.coexOn then .next s
    else
      let e := ws.foldl (fun m x => max m x.2) w.2
      let c := s.coex
      let c : CoexSt := if c.window then { c with windowEnd := BitVec.ofNat 64 (max e c.windowEnd.toNat) }
        else { c with window := true, windowEnd := BitVec.ofNat 64 e, leadDt := s.time.dt, ackSeen := c.gntIn }
      .next (({ s with coex := c }).setReqOut true)

/-- COEX_ACK_TIMEOUT: COEX_GNT_IN has not been asserted within 100 µs of COEX_REQ_OUT (R106). -/
def execCoexAckTimeout (wait : Nat) (s : State) : Res :=
  let s := s.advance wait
  if s.coex.window ∧ s.coex.gntIn = false ∧ s.coex.ackSeen = false ∧ s.coex.leadDt.toNat + 100000 ≤ s.now then
    .next (({ s with coex := { s.coex with ackSeen := true } }).coexEvent 3)
  else .next s

/-- PROTECTION_WINDOW_END: COEX_REQ_OUT is deasserted, and a withheld request waits GD from here (R105, R106). -/
def execProtectionWindowEnd (wait : Nat) (s : State) : Res :=
  let s := s.advance wait
  if s.coex.window ∧ s.coex.windowEnd.toNat ≤ s.now then
    let c : CoexSt := { s.coex with window := false }
    let c : CoexSt := if c.phase = .waiting true then c.enter (.waiting false) s.time.dt else c
    .next (({ s with coex := c }).setReqOut false)
  else .next s

/-- COEX_INPUT_STUCK: an input has stayed asserted for more than 10 s (Table 3.13 reason 5): 0 COEX_REQ_IN,
1 COEX_PRI_IN, 2 COEX_GNT_IN. -/
def execCoexInputStuck (wire : Nat) (wait : Nat) (s : State) : Res :=
  let s := s.advance wait
  let c := s.coex
  let high := if wire = 0 then c.reqIn else if wire = 1 then c.priIn else c.gntIn
  if s.coexOn ∧ high = true ∧ c.stuckSaid.getD wire true = false ∧
      (c.lastEdge.getD wire 0#64).toNat + 10000000000 < s.now then
    .next (({ s with coex := { c with stuckSaid := c.stuckSaid.set wire true } }).coexEvent 5)
  else .next s

end Sys2Proof.Machine
end

