-- ==== Sys2Proof/Machine/TrunkMask.lean ====
section
/-! DEFINITION. Carriers, loading tables and self-protection notches of the trunk (R334, R340, R353 to R355), which the
Tessellator needs before it commits a placement (R43). -/

namespace Sys2Proof.Machine

/-- The carriers of a symbol: n = 80 to 4,000 (Table 12.2). -/
def carrierNs : List Nat := (List.range 3921).map (· + 80)
/-- Continual pilots: n a multiple of 24 (Table 12.2). -/
def isPilot (n : Nat) : Bool := n % 24 == 0
/-- The data carriers in ascending n (Table 12.2). -/
def dataCarriers : List Nat := carrierNs.filter (fun n => !isPilot n)

/-- Information bits per codeword of a rate code (Table 12.6). -/
def rateK (rate : Nat) : Nat := [6480, 8640, 9720, 10800].getD rate 6480

/-- Codewords per frame of a loading table over `n` data symbols: ⌊n × B / 12,960⌋ (R340). -/
def LoadTable.codewords (t : LoadTable) (n : Nat) : Nat := n * t.bits.sum / 12960

/-- The net rate of a table in kbit/s (R355). -/
def LoadTable.netKbps (t : LoadTable) (n : Nat) : Nat := t.codewords n * (rateK t.rate - 48) / 2

/-- Data symbols of the head→mast part in DATA (Table 12.1 item 3, R335). -/
def State.nHm (s : State) : Nat := s.force.trunk.nat 3 6

/-- The active table of a direction. -/
def DirSt.table (d : DirSt) : LoadTable := if d.active = 0 then d.table0 else d.table1

/-- A band of frequencies in units of 1/10,240 Hz. -/
abbrev Span := Int × Int

/-- Whether a carrier lies in a band in use, widened by 0.5 MHz on each side (R353). -/
def inSpan (n : Nat) (b : Span) : Bool :=
  let f : Int := (n * 25000 * uHz : Nat)
  let w : Int := (500000 * uHz : Nat)
  decide (b.1 - w ≤ f) && decide (f ≤ b.2 + w)

/-- The usable band of a running band lane (R131). -/
def State.laneSpan (s : State) (l : Lane) : Span :=
  let half := foU (inputFs s.plan.plan l.input) l.k * 2 / 5
  (l.nco - half, l.nco + half)

/-- The usable bands of the lanes of a cover. -/
def covSpans (plan : Nat) (cov : List (List CovLane)) : List Span :=
  cov.zipIdx.flatMap (fun x => x.1.map (fun l => (l.lo, l.lo + foU (inputFs plan x.2) l.k * 4 / 5)))

/-- A table with every carrier of the bands at b_c = 0 (R354 step 3). -/
def LoadTable.notched (t : LoadTable) (bs : List Span) : LoadTable :=
  { t with bits := List.zipWith (fun n b => if bs.any (inSpan n) then 0 else b) dataCarriers t.bits }

/-- Whether the link is in a state in which lanes wait for a mask (R354). -/
def LinkState.masks : LinkState → Bool
  | .control | .data => true
  | _ => false

/-- The estimate with the carriers of some bands removed, as the head judges a placement (R43, R354 step 1). -/
def State.estimateWith (s : State) (bs : List Span) : Nat :=
  let low := bs.filter (fun b => decide (b.1 ≤ ((100500000 * uHz : Nat) : Int)) && decide (((1500000 * uHz : Nat) : Int) ≤ b.2))
  if s.isHead && s.trunk.state.masks && !low.isEmpty && !s.trunk.mh.table.bits.isEmpty then
    min s.trunk.estimate ((s.trunk.mh.table.notched low).netKbps (40 - s.nHm))
  else s.trunk.estimate

/-- Whether the mask in force sets off every carrier of a band, so that its lane may start (R354 step 4). -/
def State.maskReady (s : State) (b : Span) : Bool :=
  s.role == 0 || !s.trunk.state.masks ||
    (List.zip carrierNs (s.trunk.mask ++ zeros (3921 - s.trunk.mask.length))).all (fun x => !inSpan x.1 b || x.2 == 0xFF#8)

/-- A trunk packet: TYPE, INFO, a reserved field and LEN, then the body (R342). INFO has no stated use and is sent as zero. -/
def trunkPacket (type : Nat) (body : List Byte) : List Byte := le 1 type ++ zeros 3 ++ le 4 body.length ++ body

/-- A packet joins those that wait to be sent. -/
def State.trunkSend (s : State) (rank tag type : Nat) (body : List Byte) : State :=
  { s with trunk := { s.trunk with toSend := s.trunk.toSend ++ [⟨rank, tag, trunkPacket type body⟩] } }

/-- Data symbols of a direction in DATA (R335): head→mast, or mast→head. -/
def State.dirSyms (s : State) (hm : Bool) : Nat := if hm then s.nHm else 40 - s.nHm

/-- Bytes of units that wait for the trunk (R356). -/
def State.trunkQueued (s : State) : Nat := ((s.trunk.toSend.filter (fun p => p.rank == 5)).map (·.bytes.length)).sum

/-- The bytes that the trunk's transmit queue holds: 4 ms of the mast→head net rate while units can cross (R355, R356). -/
def State.trunkQueue (s : State) : Nat :=
  if s.trunk.state = .data then s.trunk.mh.table.netKbps (s.dirSyms false) * 4 / 8 else 0

end Sys2Proof.Machine
end

