-- ==== Sys2Proof/Machine/Costs.lean ====
section
/-! DEFINITION. Capacity (R17), cost vectors (R18 to R20, R219 to R221, R227), loads, and the admission test (R22). A vector
lists the classes of Table 1.7 in order; output and trunk are in kbit/s. -/

namespace Sys2Proof.Machine

/-- A vector of the ten classes of Table 1.7. -/
abbrev Vec := List Nat

/-- The sum of two vectors. -/
def Vec.add (a b : Vec) : Vec := List.zipWith (· + ·) a b
/-- The zero vector. -/
def vec0 : Vec := List.replicate 10 0
/-- A vector of one class. -/
def vec1 (c n : Nat) : Vec := vec0.set c n
/-- The sum of vectors. -/
def vecSum (vs : List Vec) : Vec := vs.foldl Vec.add vec0
/-- Whether a vector fits another, class by class. -/
def Vec.fits (a b : Vec) : Bool := (List.zipWith (fun x y => decide (x ≤ y)) a b).all id

/-- Capacity per class (Table 1.7, R42). -/
def State.capacity (s : State) : Vec := [16, 4, 192, 192, 16, 8, 192, 96, 20000000, s.trunk.estimate]

/-- The reserve of a class at `pct` per cent, whole units rounded up (R17). -/
def reserveOf (c cap pct : Nat) : Nat := if c < 8 then (cap * pct + 99) / 100 else cap * pct / 100

/-- What thermal shedding takes of a class: steps of 10 % of capacity, whole units rounded up (R493). -/
def State.shedOf (s : State) (c cap : Nat) : Nat := if c < 8 then s.thermal.shedSteps * ((cap + 9) / 10) else 0

/-- The admissible amounts under a reserve of `pct` per cent, lowered by shedding (R17, R493). -/
def State.admissible (s : State) (pct : Nat) : Vec :=
  s.capacity.zipIdx.map (fun x => min (x.1 - reserveOf x.2 x.1 pct) (x.1 - s.shedOf x.2 x.1))

/-- The reserve percentage in force. -/
def State.reservePct (s : State) : Nat := s.force.placement.reserve.toNat
/-- The reserve that the holding amounts are taken at (R25). -/
def State.holdingPct (s : State) : Nat := min s.reservePct s.place.fitted

/-! ### Services -/

/-- Whether a state holds costs (Table 1.4). -/
def SvcState.costs : SvcState → Bool
  | .admitted | .placed | .migrating | .following => true
  | _ => false

/-- The attributes in force of a service, with the key of the source that it follows now (R253). -/
def Service.attrs (v : Service) : AttrBlock :=
  if v.follow.curKey = 0#64 then v.force.attrs else { v.force.attrs with key := v.follow.curKey }

/-- A service as if received from the source of a key. -/
def Service.onSource (v : Service) (key : W64) : Service := { v with follow := { v.follow with curKey := key } }

/-- OPTIONS of a service (Table 15.6). -/
def attrBit (a : AttrBlock) (i : Nat) : Bool := a.options.getLsbD i
/-- A hint given (Table 15.6). -/
def hinted (a : AttrBlock) (i : Nat) : Bool := a.hints.getLsbD i
/-- The binding of a kind. -/
def bindingOf (a : AttrBlock) (kind : Nat) : Option Binding := a.bindings.find? (fun b => b.kind.toNat == kind)
/-- Whether a kind is bound. -/
def bound (a : AttrBlock) (kind : Nat) : Bool := (bindingOf a kind).isSome

/-- The LDPC band of a priority (Table 8.5). -/
def ldpcBand (priority : Nat) : Nat := min 3 (priority / 2)

/-- Settings of a band; an extension limit below I is raised to it (R226). -/
def State.ldpcSet (s : State) (b : Nat) : Nat × Nat × Nat :=
  let x := s.force.ldpc.getD b defaultBand
  (x.i.toNat, max x.i.toNat x.iExt.toNat, x.capPct.toNat)

/-- Tiles of 1,012,500 edge-iterations, rounded up. -/
def tilesOf (edges10 : Nat) : Nat := (edges10 + 10124999) / 10125000

/-- The LDPC charge of a PLP at an iteration limit (R19); a DVB-T multiplex has none. -/
def plpTiles (p : Plp) (i : Nat) : Nat :=
  if p.rateNum = 0 then 0 else (45 * p.netKbps * p.rateDen * i + 10125000 * p.rateNum - 1) / (10125000 * p.rateNum)

/-- The PLPs that a key is delivered from a multiplex (Table 8.4): for a DVB-T2 TS the data PLP that carries it and the
common PLP of its group; for ATSC 3.0 a service's PLPs, or the PLP list of TV_CONFIG. -/
def deliveredPlps (key : W64) (plpList : ItemV) (t : TvSignal) : List Plp :=
  if t.std = 0 then []
  else if t.std = 1 then
    match t.plps.find? (fun p => !p.common && p.onid.toNat == key.toNat / 2 ^ 32 % 65536 && p.tsid.toNat == key.toNat / 2 ^ 16 % 65536) with
    | some p => p :: t.plps.filter (fun q => q.common && q.group == p.group)
    | none => []
  else if keyStd key = 9 then
    match plpList with
    | .bytes b => t.plps.filter (fun p => b.any (fun x => x.toNat == p.id))
    | _ => t.plps.take 4
  else t.plps.filter (fun p => p.lls || p.tsid.toNat == key.toNat % 65536)

/-- The PLPs delivered to a service (R220, R237). -/
def Service.plps (v : Service) (rx : Reception) : List Plp :=
  match rx.signal with
  | some t => deliveredPlps v.attrs.key (v.force.tv.at 2) t
  | none => []

/-- The signalled rate of a service's TS, ALP or DAB data in kbit/s (R20); `tsKbps` of a DVB-T2 signal is the regenerated
rate that its engine measured, where that is larger. -/
def Service.sourceKbps (v : Service) (rx : Reception) : Nat :=
  match rx.signal with
  | some t =>
    if t.std = 0 then t.tsKbps
    else
      let net := ((v.plps rx).map (·.netKbps)).sum
      if t.std = 1 then max net t.tsKbps else net
  | none => rx.kbps

/-- The rate of one stream kind in kbit/s, rounded up (R20, Table 1.9). -/
def Service.kindKbps (v : Service) (rx : Reception) (fs : Nat) (kind : Nat) : Nat :=
  match kind with
  | 1 => if attrBit v.attrs 3 || keyStd v.attrs.key == 3 then 1600 else 3200
  | 2 => 400
  | 3 | 4 | 5 => (v.sourceKbps rx * 105 + 99) / 100
  | 6 => 64
  | 7 => 32
  | 8 => (fs * 32 * 102 + 100000 * 2 ^ keyN v.attrs.key - 1) / (100000 * 2 ^ keyN v.attrs.key)
  | 9 => 500
  | 0xA | 0xC => 16
  | _ => 0

/-- Output-to-host cost of a service: its streams with a ring, or waiting for one (R20, R282). -/
def Service.outKbps (v : Service) (rx : Reception) (fs : Nat) : Nat :=
  (v.attrs.bindings.map (fun b => if b.ring = 0xFE#8 then 0 else v.kindKbps rx fs b.kind.toNat)).sum

/-- Trunk cost of a service received at the mast: every stream that crosses; PCM that the head decodes crosses as
compressed audio (R42, R44). -/
def Service.trunkKbps (v : Service) (rx : Reception) (fs : Nat) (headDecode : Bool) : Nat :=
  (v.attrs.bindings.map (fun b =>
    if b.kind = 1#8 ∧ headDecode = true then 400 else v.kindKbps rx fs b.kind.toNat)).sum

/-- The per-service items of the cost vector (R18): a dedicated raw-band lane is one of them. -/
def State.serviceCost (s : State) (v : Service) (rx : Reception) : Vec :=
  let fs := inputFs s.plan.plan rx.input
  let k := v.attrs.key
  let pcm := bound v.attrs 1
  let base : Vec := match keyStd k with
    | 1 => [0, 0, 1, 2, 0, 0, 0, 0, 0, 0]
    | 2 => [0, 0, 1, if attrBit v.attrs 3 then 1 else 2, 0, 0, 0, 0, 0, 0]
    | 3 | 4 => [0, 0, 1, 1, 0, 0, 0, 0, 0, 0]
    | 5 | 6 | 7 => vec1 7 (if pcm then 1 else 0)
    | 8 => if keyN k ≤ 12 then vec1 (if rx.input = 2 then 1 else 0) 1 else vec1 2 1
    | _ => vec0
  let out := vec1 8 (v.outKbps rx fs)
  let tr := if s.isHead then vec1 9 (v.trunkKbps rx fs v.headDecode) else vec0
  (base.add out).add tr

/-- Whether a service is received from a carrier that several share. -/
def Service.onCarrier (v : Service) : Bool := let t := keyRxStd v.attrs.key; t == 5 || t == 6 || t == 7

/-- One carrier in use: its reception, whether a second branch runs, the PLPs delivered to its services with the band of
each, and the slots served. -/
structure CarrierUse where
  rx    : Reception
  std   : Nat
  div   : Bool
  plps  : List (Plp × Nat)
  users : List Nat
  deriving DecidableEq, Repr

/-- The union of the PLPs of services, each in the band of its highest-priority service (R221, R225). -/
def mergePlps (a : List (Plp × Nat)) (ps : List Plp) (band : Nat) : List (Plp × Nat) :=
  ps.foldl (fun a p =>
    if a.any (fun x => x.1.id == p.id) then a.map (fun x => if x.1.id = p.id then (x.1, max x.2 band) else x)
    else a ++ [(p, band)]) a

/-- The carriers that services use (R18). -/
def carrierUses (vs : List (Service × Reception)) : List CarrierUse :=
  vs.foldl (fun cs x =>
    let v := x.1
    let rx := x.2
    if !v.onCarrier then cs
    else
      let band := ldpcBand v.attrs.priority.toNat
      if cs.any (fun c => c.rx.carrier == rx.carrier && c.rx.input == rx.input) then
        cs.map (fun c =>
          if c.rx.carrier == rx.carrier && c.rx.input == rx.input then
            { c with div := c.div || v.diversity, plps := mergePlps c.plps (v.plps rx) band, users := c.users ++ [v.slot] }
          else c)
      else cs ++ [⟨rx, keyRxStd v.attrs.key, v.diversity, mergePlps [] (v.plps rx) band, [v.slot]⟩]) []

/-- The per-carrier items but for the channel lane, which depends on the cover (R18, R19, R219). -/
def State.carrierCost (s : State) (c : CarrierUse) : Vec :=
  let eng := if c.std = 5 then vec1 4 1 else vec1 5 (if c.div then 2 else 1)
  eng.add (vec1 6 ((c.plps.map (fun p => plpTiles p.1 (s.ldpcSet p.2).1)).sum))

/-- The trunk's own LDPC charges (R227): 2 tiles for the control profiles, and the data of the receive direction. -/
def State.trunkBand (s : State) : Nat :=
  if s.isHead then ldpcBand ((s.services.filter (fun v => v.state.costs)).foldl (fun m v => max m v.attrs.priority.toNat) 0)
  else 3

/-- The table that the receive direction of this device uses (R350). -/
def State.rxTable (s : State) : LoadTable :=
  (if s.isHead then s.trunk.mh else s.trunk.hm).table

/-- Data symbols of the part that this device receives. -/
def State.rxSymbols (s : State) : Nat := if s.isHead then 40 - s.nHm else s.nHm

/-- The trunk data charge in tiles (R227): a frame lasts two ticks. -/
def State.trunkCharge (s : State) : Nat :=
  let i := (s.ldpcSet s.trunkBand).1
  tilesOf (45 * (s.rxTable.codewords s.rxSymbols * 12960) * i / 2)

/-- Whether the trunk is enabled. -/
def State.trunkOn (s : State) : Bool := s.role != 0

/-- The trunk's part of the LDPC load. -/
def State.trunkLdpc (s : State) : Nat :=
  if !s.trunkOn then 0 else 2 + (if s.trunk.state = .data then s.trunkCharge else 0)

/-! ### Covers and loads -/

/-- The fixed lanes of pinned services on an input (R31). -/
def State.fixedLanes (s : State) (vs : List (Service × Reception)) (input : Nat) : List (Nat × Int) :=
  let pinned := (vs.filter (fun x => hinted x.1.attrs 5)).map (·.1.slot)
  ((s.lanes.filter (fun l => l.cls != 2 && l.input == input && !l.dedicated && l.users.any (fun u => pinned.contains u))).map
    (fun l => (l.k, l.nco - foU (inputFs s.plan.plan input) l.k * 2 / 5)))

/-- The bands that services put on an input under a plan: one for each carrier, one for each other service, and one for
each second branch. -/
def bandsOn (plan input : Nat) (vs : List (Service × Reception)) : List Band :=
  let fs := inputFs plan input
  let own := vs.filter (fun x => !x.1.onCarrier && x.2.input == input)
  let car := (carrierUses vs).filter (fun c => c.rx.input == input || (c.div && c.rx.input == 1 - input && decide (input < 2)))
  let keyOf (c : CarrierUse) : W64 := BitVec.ofNat 64 (c.std * 2 ^ 60)
  own.map (fun x => bandOf x.1.attrs.key x.2 fs x.1.slot)
    ++ car.map (fun c => { bandOf (keyOf c) c.rx fs 0 with users := c.users })

/-- The covers of the three inputs; none where some band cannot be covered. `keep` says that pinned lanes stay as they
are, which a plan change lifts (R31). -/
def State.covers (s : State) (plan : Nat) (keep : Bool) (vs : List (Service × Reception)) : Option (List (List CovLane)) :=
  let one (i : Nat) : Option (List CovLane) :=
    cover (inputFs plan i) (if keep then s.fixedLanes vs i else []) (bandsOn plan i vs)
  match one 0, one 1, one 2 with
  | some a, some b, some c => some [a, b, c]
  | _, _, _ => none

/-- Whether the PLPs of every multiplex stay within four (R221). -/
def plpsOk (vs : List (Service × Reception)) : Bool := (carrierUses vs).all (fun c => decide (c.plps.length ≤ 4))

/-- Channel lanes of carriers: one for each carrier and branch, but for a television engine that a band lane feeds
directly (R18, R144). -/
def carrierLanes (cs : List CarrierUse) (cov : List (List CovLane)) : Nat :=
  let direct := (cov.flatten.filter CovLane.direct).length
  ((cs.map (fun c => if c.div then 2 else 1)).sum) - direct

/-- The load of services at given receptions under a plan, with the bands of its cover (R18, R21, R22); none where some
band cannot be covered. -/
def State.loadCov (s : State) (plan : Nat) (keep : Bool) (vs : List (Service × Reception)) : Option (Vec × List Span) :=
  match s.covers plan keep vs with
  | none => none
  | some cov =>
    let cs := carrierUses vs
    let shared (l : List CovLane) : Nat := (l.filter (fun x => !x.ded)).length
    let lanes : Vec := [shared (cov.getD 0 []) + shared (cov.getD 1 []), shared (cov.getD 2 []), carrierLanes cs cov,
      0, 0, 0, s.trunkLdpc, 0, 0, 0]
    some (((vecSum (vs.map (fun x => s.serviceCost x.1 x.2))).add (vecSum (cs.map s.carrierCost))).add lanes, covSpans plan cov)

/-- The load of services at given receptions under a plan. -/
def State.load (s : State) (plan : Nat) (keep : Bool) (vs : List (Service × Reception)) : Option Vec :=
  (s.loadCov plan keep vs).map (·.1)

/-- A service with the attributes that it will have: a modification counts in the round that evaluates it (R23). -/
def Service.ahead (v : Service) : Service := { v with force := { v.force with attrs := v.acc.attrs } }

/-- The services that hold costs, where they are received. -/
def State.held (s : State) : List (Service × Reception) :=
  (s.services.filter (fun v => v.state.costs)).map (fun v => (v.ahead, v.rx))

/-- Whether services fit the amounts admissible under a reserve, the trunk judged with the carriers removed that their
lanes notch (R22, R43). -/
def State.fitIn (s : State) (pct : Nat) (vs : List (Service × Reception)) : Bool :=
  plpsOk vs && match s.loadCov s.plan.plan true vs with
    | some (l, bs) =>
      let est := s.estimateWith bs
      l.fits ((s.admissible pct).set 9 (est - reserveOf 9 est pct))
    | none => false

/-- Whether services fit the admissible amounts of the reserve in force (R22, R25). -/
def State.admits (s : State) (vs : List (Service × Reception)) : Bool := s.fitIn s.reservePct vs

/-! ### Spurs and images (R88 to R90) -/

/-- |x − r × round(x / r)| (R88). -/
def fold_ (x r : Nat) : Nat := let m := x % r; min m (r - m)

/-- Fixed interleave spurs of a plan in kHz × 16 (R88): k × fs/16 within 30 to 1,700 MHz. -/
def spurs (plan : Nat) : List Nat :=
  ((List.range 9).drop 1).map (fun k => k * (planFs plan / 16000)) |>.filter (fun f => 30000 ≤ f && f ≤ 1700000)

/-- Interleave images of a carrier in kHz. -/
def interleaveImages (plan f : Nat) : List Nat :=
  ((List.range 16).drop 1).map (fun k => fold_ (f + k * (planFs plan / 16000)) (planFs plan / 1000))

/-- Harmonic images of a carrier in kHz; on LFIN against the LF rate. -/
def harmonicImages (fsKhz f : Nat) : List Nat := [2, 3, 4, 5].map (fun n => fold_ (n * f) fsKhz)

/-- Whether a frequency in kHz hits a band widened by 250 kHz on each side (R89). -/
def hit (b : Band) (khz : Nat) : Bool :=
  let w : Int := (250000 * uHz : Nat)
  let f : Int := (khz * 1000 * uHz : Nat)
  decide (b.lo - w ≤ f) && decide (f ≤ b.hi + w)

/-- Strong carriers of an input: above −30 dBFS (R89). -/
def State.strong (s : State) (input : Nat) : List Nat :=
  (s.lanes.filter (fun l => l.cls != 2 && l.input == input)).flatMap (fun l =>
    (l.carriers.filter (fun c => decide (-3000 < c.dbfs))).map (·.freqKhz))

/-- Whether an ADC is DEGRADED (R374): some slice interpolated. -/
def AdcCal.degraded (a : AdcCal) : Bool := a.status.any (· == 3)

/-- The ADC of an RF input. -/
def State.adcCal (s : State) (i : Nat) : AdcCal := if i = 0 then s.cal.adcA else s.cal.adcB

/-- Whether a band on an input is hit by a frequency that R90 makes unusable under a plan. -/
def State.unusable (s : State) (plan input : Nat) (b : Band) : Bool :=
  decide (input < 2) && (s.adcCal input).degraded &&
    ((spurs plan).any (hit b) || (s.strong input).any (fun f => (interleaveImages plan f).any (hit b)))

/-- The band of a service at a reception under a plan. -/
def svcBand (plan : Nat) (x : Service × Reception) : Band := bandOf x.1.attrs.key x.2 (inputFs plan x.2.input) x.1.slot

/-- Whether a service at a reception is hit by an unusable frequency under a plan. -/
def State.spoiled (s : State) (plan : Nat) (x : Service × Reception) : Bool := s.unusable plan x.2.input (svcBand plan x)

/-! ### The reserve -/

/-- What one more reception of a service takes of the classes, as a migration, splice or probe charges it to the reserve
(R32, Table 9.5). -/
def State.rxCost (s : State) (v : Service) (rx : Reception) : Vec :=
  let own : Vec := (s.serviceCost v rx).set 8 0
  if v.onCarrier then
    (own.add (vec1 0 1)).add ((vec1 2 1).add (if keyRxStd v.attrs.key = 5 then vec1 4 1
      else (vec1 5 1).add (vec1 6 (((v.plps rx).map (fun p => plpTiles p (s.ldpcSet (ldpcBand v.attrs.priority.toNat)).1)).sum))))
  else own.add (vec1 (if rx.input = 2 then 1 else 0) 1)

/-- What a probe takes: a channel lane and an engine (R245). -/
def probeCost (p : ProbeIn) : Vec :=
  (vec1 2 1).add (match p.standard with | 0 => vec1 3 2 | 1 => vec1 4 1 | _ => vec1 5 1)

/-- What a probe is charged: nothing on an ensemble or multiplex that the device already receives (R255). -/
def State.probeCharge (s : State) (p : ProbeIn) : Vec :=
  if s.carriers.any (fun c => c.freqKhz == p.freqKhz && c.input == p.input) then vec0 else probeCost p

/-- What an alert routing takes (R275): an audio decoder tile for a sub-channel of the service's own ensemble, or a channel
lane and FM reception of another station. -/
def routingCost (r : Routing) : Vec := if r.subCh < 64 then vec1 7 1 else (vec1 2 1).add (vec1 3 2)

/-- What migrations, splices, routings and probes use of the reserve (R24, Table 9.5). -/
def State.reserveUsed (s : State) : Vec :=
  let mig := s.services.filterMap (fun v => v.migration.map (fun m => s.rxCost v m.dest))
  let spl := s.services.filterMap (fun v => v.follow.splice.map (fun x => s.rxCost (v.onSource x.target.key) x.dest))
  let rts := s.services.filterMap (fun v => v.follow.routing.map routingCost)
  vecSum (mig ++ spl ++ rts ++ s.map.probes.map s.probeCharge)

/-- The whole load: admitted costs and what is drawn on the reserve. -/
def State.loadNow (s : State) : Vec := (s.load s.plan.plan true s.held).getD vec0

/-- Whether a further use of the reserve fits: within what is free of the reserve, and beside the load in the capacity
that shedding leaves (R24, R25, R493). A class that the use does not touch cannot stop it. -/
def State.reserveFits (s : State) (need : Vec) : Bool :=
  let used := s.reserveUsed
  let total := (s.loadNow.add used).add need
  let free := s.capacity.zipIdx.map (fun x => reserveOf x.2 x.1 s.reservePct - used.getD x.2 0)
  let cap := s.capacity.zipIdx.map (fun x => x.1 - s.shedOf x.2 x.1)
  let ok := List.zipWith (fun n x => n == 0 || decide (n ≤ x)) need free
  let room := List.zipWith (fun n x => n == 0 || decide (x.1 ≤ x.2)) need (total.zip cap)
  ok.all id && room.all id

end Sys2Proof.Machine
end

