-- ==== Sys2Proof/Machine/Services.lean ====
section
/-! DEFINITION. Services as the host sees them (R6 to R16, R35 to R39, R415, R416): the checks of an attribute block, slots
and incarnations, streams, and the commands of family 0x02. The placement round is in Place. -/

namespace Sys2Proof.Machine

/-! ### Checks of an attribute block -/

/-- The stream kinds of a key (R10, Table 1.2). -/
def kindsOf (key : W64) (mono : Bool) : List Nat :=
  match keyStd key with
  | 1 => [1, 6, 7, 8, 9, 0xA, 0xC]
  | 2 => if mono then [1, 7, 8, 9, 0xC] else [1, 6, 7, 8, 9, 0xC]
  | 3 => [1, 7, 8, 9, 0xC]
  | 4 => [6, 7, 8, 9, 0xC]
  | 5 => [1, 2, 5, 6, 7, 0xA, 0xC]
  | 6 => [1, 2, 3, 6, 7, 0xA, 0xC]
  | 7 => [1, 2, 4, 6, 7, 0xA, 0xC]
  | 8 => [7, 8, 9, 0xC]
  | 9 => match keyCarrier key with
    | 6 => [3, 6, 7, 0xC] | 7 => [4, 6, 7, 0xC] | 5 => [5, 6, 7, 0xC] | _ => []
  | _ => []

/-- Whether a key is one that the device finds in the service map (R8). -/
def identityKey (key : W64) : Bool := let t := keyStd key; t == 1 || t == 5 || t == 6 || t == 7 || t == 9

/-- The inputs that a frequency key can be received on (R8). -/
def freqInputs (key : W64) : List Nat :=
  let f := keyFreq key
  match keyStd key with
  | 2 => [0, 1]
  | 3 | 4 => if f < 30000 then [2] else [0, 1]
  | _ => [keyInput key]

/-- Whether a frequency lies in the range of an input in kHz (Table 3.1, R8). -/
def inRange (input f : Nat) : Bool := if input = 2 then 9 ≤ f && f ≤ 30000 else 30000 ≤ f && f ≤ 1700000

/-- The reception of a frequency key on an input. -/
def freqRx (key : W64) (input : Nat) : Reception := ⟨input, keyFreq key, 0#64, none, 0, 0, 0⟩

/-- Plans of the allowed-plan mask (R94, R541). -/
def State.allowedPlans (s : State) : List Nat := (List.range 4).filter (fun p => s.force.plan.mask.getLsbD p)

/-- Whether a frequency key can be covered on some input of it at some rate allowed to it (R541). -/
def State.keyCoverable (s : State) (key : W64) : Bool :=
  (freqInputs key).any (fun i =>
    let plans := if i = 2 then [0] else s.allowedPlans
    plans.any (fun p => coverable (inputFs p i) (bandOf key (freqRx key i) (inputFs p i) 0)))

/-- Whether a key passes R8. -/
def State.keyOk (s : State) (key : W64) : Bool :=
  match keyStd key with
  | 1 | 5 | 6 | 7 => true
  | 9 => let c := keyCarrier key; c == 5 || c == 6 || c == 7
  | 2 | 3 | 4 => (freqInputs key).all (fun i => inRange i (keyFreq key)) && s.keyCoverable key
  | 8 => keyInput key != 3 && decide (5 ≤ keyN key ∧ keyN key ≤ 22) && inRange (keyInput key) (keyFreq key) && s.keyCoverable key
  | _ => false

/-- Whether a binding is in range for a key (R10, R300, R415, Table 15.7). -/
def bindingOk (key : W64) (mono : Bool) (b : Binding) : Bool :=
  let k := b.kind.toNat
  let ring := b.ring.toNat
  let port := b.port.toNat
  let ringOk := ring ≤ 63 || ring == 0xFE || ring == 0xFF
  let portOk := if k = 1 then port ≤ 3 || port == 0xFE || port == 0xFF else if k = 3 then port ≤ 3 || port == 0xFF else port == 0xFF
  let slotOk := if k = 1 ∧ port ≤ 3 then b.portSlot.toNat ≤ 31 else b.portSlot == 0#8
  (kindsOf key mono).contains k && ringOk && portOk && slotOk && !(ring == 0xFE && port == 0xFF)
    && !(b.options.getLsbD 0 && ring == 0xFE)

/-- Whether the hints given are in range (Table 15.6). -/
def hintsOk (a : AttrBlock) : Bool :=
  (!hinted a 0 || decide (a.hintInput.toNat ≤ 1)) && (!hinted a 1 || decide (a.hintRing.toNat ≤ 63))
    && (!hinted a 2 || decide (a.hintAudioPort.toNat ≤ 3 ∧ a.hintAudioSlot.toNat ≤ 31))
    && (!hinted a 3 || decide (a.hintPktPort.toNat ≤ 3))

/-- Whether the follow mode suits the key and the kinds (R252). -/
def followOk (key : W64) (a : AttrBlock) : Bool :=
  let m := a.follow.toNat % 4
  let std := keyStd key
  decide (m ≤ 2) && (m == 0 || std == 1 || std == 5 || std == 6 || std == 7)
    && (m != 2 || a.bindings.all (fun b => [1, 6, 7, 0xA, 0xC].contains b.kind.toNat))

/-- The number of slots of an audio port (Table 11.1). -/
def State.portSlots (s : State) (p : Nat) : Nat := (s.force.audio.getD p []).nat 6 2

/-- Channels of a service's programme (R316): one for AM and FM_MONO. -/
def pcmChannels (a : AttrBlock) : Nat := if attrBit a 3 || keyStd a.key == 3 then 1 else 2

/-- The attribute block with its key cleared and reserved bits zero (R3, R7). -/
def cleanAttrs (a : AttrBlock) : AttrBlock :=
  { a with key := clearKey a.key, options := a.options &&& 0x0F#8, follow := a.follow &&& 0x07#8, hints := a.hints &&& 0x3F#8,
           bindings := a.bindings.map (fun b => { b with options := b.options &&& 1#8 }) }

/-- The BAD_PARAM cases of R415, and of R316. -/
def State.attrsOk (s : State) (a : AttrBlock) : Bool :=
  let mono := attrBit a 3
  let n := a.bindings.length
  s.keyOk a.key && decide (a.priority.toNat ≤ 7) && decide (a.latency.toNat ≤ 2) && decide (1 ≤ n ∧ n ≤ 8)
    && (!mono || keyStd a.key == 2) && hintsOk a && followOk a.key a && a.bindings.all (bindingOk a.key mono)
    && decide ((a.bindings.map (·.kind)).Nodup)
    && a.bindings.all (fun b =>
      b.kind != 1#8 || decide (3 < b.port.toNat) || decide (b.portSlot.toNat + pcmChannels a ≤ s.portSlots b.port.toNat))

/-- Whether an audio port slot is held by a programme, or promised to a service that waits for its round. -/
def State.audioTaken (s : State) (p slot : Nat) (but : Option Nat) : Bool :=
  let a := s.audio.getD p AudioSt.reset
  a.progs.any (fun g => g.portSlot ≤ slot && slot < g.portSlot + g.channels && (some (g.slot.toNat % 256) != but || g.ending))
    || s.services.any (fun v => some v.slot != but && v.acc.attrs.bindings.any (fun b =>
        b.kind == 1#8 && b.port.toNat == p && b.portSlot.toNat ≤ slot && slot < b.portSlot.toNat + pcmChannels v.acc.attrs))

/-- Whether a packet port is bound (R308). -/
def State.pktTaken (s : State) (p : Nat) (but : Option Nat) : Bool :=
  s.streams.any (fun x => x.kind == 3 && x.port == some p && some (x.slot.toNat % 256) != but)
    || s.services.any (fun v => some v.slot != but && v.acc.attrs.bindings.any (fun b => b.kind == 3#8 && b.port.toNat == p))

/-- The BUSY_RUNNING cases of R308 and R316. -/
def State.portsBusy (s : State) (a : AttrBlock) (but : Option Nat) : Bool :=
  a.bindings.any (fun b =>
    let p := b.port.toNat
    (b.kind == 3#8 && decide (p ≤ 3) && s.pktTaken p but)
      || (b.kind == 1#8 && decide (p ≤ 3) &&
        (List.range (pcmChannels a)).any (fun i => s.audioTaken p (b.portSlot.toNat + i) but)))

/-! ### Slots -/

/-- The incarnation after one, which slot 0xFF skips at 0xFF (R35). -/
def nextInc (slot old : Nat) : Nat := let n := (old + 1) % 256; if slot = 255 ∧ n = 255 then 0 else n

/-- Whether a unit of a slot field still holds a tag (R38). -/
def State.tagHeld (s : State) (f : W16) : Bool := s.outRings.any (fun r => r.recs.any (fun x => x.tag.isSome && x.slot == f))

/-- The lowest free slot whose next incarnation no tag blocks, with that incarnation (R35, R38). -/
def State.freeSlot (s : State) : Option (Nat × Nat) :=
  ((List.range 256).find? (fun n => (s.slotSvc? n).isNone
      && !s.tagHeld (BitVec.ofNat 16 (n + 256 * nextInc n (s.place.incs.getD n 0))))).map
    (fun n => (n, nextInc n (s.place.incs.getD n 0)))

/-- The incarnation of a slot is used (R36). -/
def State.useInc (s : State) (v : Service) : State :=
  { s with place := { s.place with incs := s.place.incs.set v.slot v.inc } }

/-- The next of the order counters. -/
def State.nextOrder (s : State) : State × Nat :=
  ({ s with place := { s.place with order := s.place.order + 1 } }, s.place.order)

/-- Following with nothing known. -/
def FollowSt.reset : FollowSt := ⟨[], 0#64, 0, 0, none, none, none, 0, 0⟩
/-- An analogue engine with nothing received. -/
def AnalogueSt.reset : AnalogueSt := ⟨false, false, false, none, none, 0, 0, List.replicate 4 0, 0, 0, 0, 0, 0, 0, List.replicate 6 0⟩

/-- A reception that is not set yet. -/
def Reception.none_ : Reception := ⟨0, 0, 0#64, none, 0, 0, 0⟩

/-- The concealment limit G of Table 6.1: 1 to 8, or 1 to 2 under LATENCY LOW. -/
def gInRange (a : AttrBlock) (t : ItemTable) : Bool := decide (t.nat 10 ≤ (if a.latency = 0#8 then 2 else 8))

/-- G at its default for the LATENCY (R164). -/
def gDefault (a : AttrBlock) (t : ItemTable) : ItemTable := t.set 9 (.num (if a.latency = 0#8 then 1 else 4))

/-- The settings of a new service: its attributes, and every item at its default; only alert type 0x00 is routed,
for at most 600 s (R274). -/
def newSettings (a : AttrBlock) : SvcSettings :=
  ⟨0#16, a, tableDefaults tbl57, gDefault a (tableDefaults tbl61), tableDefaults tbl73, tableDefaults tbl87, 1#64, 600#32⟩

/-- The hints refused whatever the placement: the diversity hint applies to television only (R30). -/
def hintsBarred (a : AttrBlock) : Nat := if hinted a 4 && !(keyRxStd a.key == 6 || keyRxStd a.key == 7) then 16 else 0

/-- A service as SERVICE_ADD makes it. -/
def newService (slot inc : Nat) (st : SvcState) (fresh : Bool) (order : Nat) (a : AttrBlock) (dt : W64) : Service where
  slot := slot
  inc := inc
  state := st
  reason := 0
  stateDt := dt
  fresh := fresh
  hintRefused := hintsBarred a
  honoured := 0
  addOrder := order
  admitOrder := 0
  parkOrder := 0
  acc := newSettings a
  force := newSettings a
  sched := []
  prevGen := 0#16
  genSince := 0#64
  rx := Reception.none_
  diversity := false
  headDecode := false
  removedKinds := []
  migration := none
  follow := FollowSt.reset
  analogue := AnalogueSt.reset
  values := []
  base := []
  statFrom := 0#64

/-! ### States and streams -/

/-- The codes of Table 1.4. -/
def SvcState.code : SvcState → Nat
  | .requested => 0 | .awaiting => 1 | .admitted => 2 | .placed => 3 | .migrating => 4 | .parked => 5 | .following => 6
  | .removed => 7

/-- EV_SERVICE_STATE (R14). -/
def State.serviceEvent (s : State) (v : Service) (old new : SvcState) (reason : Nat) : State :=
  s.raise 0x8004 v.field (le 1 old.code ++ le 1 new.code ++ le 1 reason ++ zeros 5 ++ le 8 v.acc.attrs.key.toNat)

/-- A service enters a state, without an event. -/
def State.enterState (s : State) (n : Nat) (st : SvcState) (reason : Nat) : State :=
  s.modSvc n (fun v => { v with state := st, reason := reason, stateDt := s.time.dt })

/-- A service moves between states with its event (R14). -/
def State.moveState (s : State) (n : Nat) (st : SvcState) (reason : Nat) : State :=
  match s.slotSvc? n with
  | none => s
  | some v => (s.enterState n st reason).serviceEvent v v.state st reason

/-- Every stream of a slot field gets FLAGS for its next unit. -/
def State.flagStreams (s : State) (f : W16) (flags : W32) : State :=
  { s with streams := s.streams.map (fun x => if x.slot == f then { x with flags := x.flags ||| flags } else x) }

/-- Every stream of a slot field that carries units tied to the reception; side kinds keep on. -/
def State.gapStreams (s : State) (f : W16) : State := s.flagStreams f fGap

/-- Whether a unit of a stream waits in the collector's queue (R37). -/
def State.unitWaits (s : State) (f : W16) (kind : Nat) : Bool := s.units.any (fun u => u.slot == f && u.kind == kind)

/-- The flags of the last unit that waits for a stream are changed. -/
def flagLastUnit (f : W16) (kind : Nat) (flags : W32) : List OutUnit → List OutUnit
  | [] => []
  | u :: us =>
    if u.slot == f && u.kind == kind && !us.any (fun x => x.slot == f && x.kind == kind) then
      { u with flags := u.flags ||| flags } :: us
    else u :: flagLastUnit f kind flags us

/-- A stream ends: its last unit carries LAST_OF_INCARNATION, or an empty unit does (R37). -/
def State.endStream (s : State) (f : W16) (kind : Nat) : State :=
  match s.stream? f kind with
  | none => s
  | some _ =>
    let s := if s.unitWaits f kind then { s with units := flagLastUnit f kind fLast s.units }
      else s.pushUnit f kind (s.genInForce f) s.time.dt 0 fLast []
    s.modStream f kind (fun x => { x with lastPending := true })

/-- Every stream of a service ends, and its programmes leave their ports with their last unit (R37, R316). -/
def State.endStreams (s : State) (f : W16) : State :=
  let kinds := (s.streams.filter (fun x => x.slot == f)).map (·.kind)
  let s := kinds.foldl (fun s k => s.endStream f k) s
  { s with audio := s.audio.map (fun a => { a with progs := a.progs.map (fun g => if g.slot == f then { g with ending := true } else g) }) }

/-- The enabled ring with the lowest accounting load, the lower index first (R282). -/
def State.ringLoad (s : State) (r : Nat) : Nat :=
  (s.streams.map (fun x =>
    if x.ring = some r then
      match s.svc? x.slot with
      | some v => v.kindKbps v.rx (inputFs s.plan.plan v.rx.input) x.kind
      | none => 0
    else 0)).sum

/-- The ring that AUTO gives a stream now (R282). -/
def State.autoRing (s : State) : Option Nat :=
  let on := s.outRings.zipIdx.filter (fun x => x.1.on)
  (on.foldl (fun b x => match b with
    | none => some (x.2, s.ringLoad x.2)
    | some y => let l := s.ringLoad x.2; if l < y.2 then some (x.2, l) else b) none).map (·.1)

/-- Whether the ring hint can be honoured: an AUTO binding, and the ring enabled (R30). -/
def State.ringHintOk (s : State) (a : AttrBlock) : Bool :=
  a.bindings.any (fun b => b.ring == 0xFF#8) && (match s.outRings[a.hintRing.toNat]? with | some r => r.on | none => false)

/-- A stream as a binding opens it. `pkt` is the packet port of a hint. -/
def State.openStream (s : State) (v : Service) (i : Nat) (b : Binding) : State :=
  let k := b.kind.toNat
  if (s.stream? v.field k).isSome then s
  else
    let a := v.acc.attrs
    let auto := b.ring == 0xFF#8
    let ring : Option Nat :=
      if b.ring.toNat ≤ 63 then some b.ring.toNat
      else if auto then (if hinted a 1 && v.honoured.testBit 1 then some a.hintRing.toNat else s.autoRing)
      else none
    let port : Option Nat :=
      if k = 3 then (if b.port.toNat ≤ 3 then some b.port.toNat else if v.honoured.testBit 3 then some a.hintPktPort.toNat else none)
      else none
    let x : Stream := ⟨v.field, k, a.priority.toNat, ring, auto && ring.isNone, port, 0, b.options.getLsbD 0, i, 0, 0, 0#32,
      false, 0#64, 0, 0, none, none, 0, 0, false⟩
    { s with streams := s.streams ++ [x] }

/-- The streams of a service that is admitted, and the archive-index stream of a slot with an archived binding, on the
ring of the first of them (R307). -/
def State.openStreams (s : State) (n : Nat) : State :=
  match s.slotSvc? n with
  | none => s
  | some v =>
    let bs := v.acc.attrs.bindings
    let s := bs.zipIdx.foldl (fun s x => s.openStream v x.2 x.1) s
    match bs.find? (fun b => b.options.getLsbD 0) with
    | none => s
    | some b =>
      if (s.stream? v.field 0xB).isSome then s
      else
        let ring := match s.stream? v.field b.kind.toNat with | some x => x.ring | none => none
        let x : Stream := ⟨v.field, 0xB, v.acc.attrs.priority.toNat, ring, ring.isNone, none, 0, false, 8, 0, 0, 0#32, false,
          0#64, 0, 0, none, none, 0, 0, false⟩
        { s with streams := s.streams ++ [x] }

/-- A service stops being received: its migration, splice and routing are abandoned, its lanes and engines released
(R29). -/
def Service.released (v : Service) : Service :=
  { v with migration := none, headDecode := false, diversity := false
           follow := { v.follow with splice := none, routing := none, cands := [], failMs := 0, curKey := 0#64 } }

/-- A service leaves the lanes that it used. -/
def State.leaveLanes (s : State) (n : Nat) : State :=
  let out := s.lanes.map (fun l => { l with users := l.users.filter (· != n), joining := l.joining.filter (· != n) })
  { s with lanes := out.filter (fun l => !(l.users.isEmpty && l.joining.isEmpty)) }

/-- A service is parked (R16, R26, R28, R29). -/
def State.park (s : State) (n : Nat) (reason : Nat) : State :=
  let r := s.nextOrder
  let s := r.1.moveState n .parked reason
  (s.modSvc n (fun v => { v.released with parkOrder := r.2 })).leaveLanes n

/-! ### Commands -/

/-- The layout that SERVICE_ADD and SERVICE_MODIFY answer with (Table 15.8). -/
def addReply (slot inc : Nat) (st : SvcState) (refused : Nat) (key : W64) : List Byte :=
  le 1 slot ++ le 1 inc ++ le 1 st.code ++ [0] ++ le 2 refused ++ [0, 0] ++ le 8 key.toNat

/-- An RDS or DAB key with its ECC cleared (R242). -/
def noEcc (k : W64) : W64 := k &&& ~~~ (0xFF#64 <<< 40)

/-- The standards whose keys carry an ECC (Table 1.1). -/
def hasEcc (k : W64) : Bool := keyRxStd k == 1 || keyRxStd k == 5

/-- The ECC of a key. -/
def keyEcc (k : W64) : Nat := k.toNat / 2 ^ 40 % 256

/-- Whether a key names a map entry: equal, or with ECC 0x00 and equal but for the ECC (R242). -/
def namesKey (k e : W64) : Bool := k == e || (hasEcc k && keyEcc k == 0 && noEcc k == noEcc e)

/-- The entry that a key names: of several the one with the highest LEVEL (R242). -/
def findEntry (es : List MapEntry) (key : W64) : Option MapEntry :=
  es.foldl (fun b e => if namesKey key e.key then (match b with
    | none => some e
    | some x => if x.level.toInt < e.level.toInt then some e else b) else b) none

/-- The published entry of a key (R246). -/
def State.mapEntry (s : State) (key : W64) : Option MapEntry := findEntry s.map.published.entries key
/-- The shadow entry of a key. -/
def State.shadowEntry (s : State) (key : W64) : Option MapEntry := findEntry s.map.shadow.entries key

/-- A service takes a slot, and the round that is to place it makes the reply (R13, R23, R35). -/
def State.takeSlot (s : State) (h : CmdHdr) (a : AttrBlock) (slot inc : Nat) : State × Answer :=
  let r := s.nextOrder
  let v := newService slot inc .requested true r.2 a s.time.dt
  let p : PendSvc := ⟨s.nextId, h.tr, h.seq, false, v.field, a, 0#16, s.time.dt⟩
  ({ r.1 with services := r.1.services ++ [v], place := { r.1.place with pending := r.1.place.pending ++ [p] } }, .later)

/-- A service waits for discovery: the reply is OK_PENDING, with no effective tick (R23, Table 1.5). -/
def State.awaitSlot (s : State) (a : AttrBlock) (slot inc : Nat) : State × Answer :=
  let r := s.nextOrder
  let v := newService slot inc .awaiting false r.2 a s.time.dt
  (({ r.1 with services := r.1.services ++ [v] }).useInc v,
    .now .okPending (addReply slot inc .awaiting (hintsBarred a) a.key) (some 0#16) noTick)

/-- SERVICE_ADD (R6 to R11, R35 to R38, R415, Table 1.5). -/
def execServiceAdd (h : CmdHdr) (attrs : AttrBlock) (s : State) : Res :=
  .next (s.runCmd (gateNotRelay 0x0201) h fun s =>
    let a := cleanAttrs attrs
    s.refuseIf (!s.attrsOk a) .badParam <|
    match s.services.find? (fun v => v.acc.attrs.key == a.key) with
    | some v => (s, .now .busyRunning (addReply v.slot v.inc v.state v.hintRefused a.key) (some v.acc.gen) noTick)
    | none =>
      s.refuseIf (s.portsBusy a none) .busyRunning <|
      match s.freeSlot with
      | none => refuse s .noCapacity
      | some (slot, inc) =>
        if !identityKey a.key || (s.mapEntry a.key).isSome then s.takeSlot h a slot inc
        else if (s.shadowEntry a.key).isSome || attrBit a 2 then s.awaitSlot a slot inc
        else refuse s .notFound)

/-- SERVICE_REMOVE (R37): the slot is free at once, with no round to wait for. The removal joins the next round
(R23). -/
def execServiceRemove (h : CmdHdr) (s : State) : Res :=
  .next (s.runCmd ⟨0x0202, .service, notRelay, .none⟩ h fun s =>
    match s.svc? h.slot with
    | none => refuse s .badSlot
    | some v =>
      let g := v.acc.gen
      let s1 := (s.endStreams h.slot).leaveLanes v.slot
      let pend := s1.place.pending.map (fun p => if p.slot == h.slot then { p with gen := g } else p)
      let s2 := { s1 with services := s1.services.filter (fun x => x.slot != v.slot), place := { s1.place with pending := pend } }
      (if v.state = .requested then s2.useInc v else s2, .now .ok [] (some g) s.effTick))

/-- Whether a modification touches the ring or port of a kind already bound, or binds a kind removed before (R416). -/
def Service.bindBusy (v : Service) (a : AttrBlock) : Bool :=
  let old := v.acc.attrs.bindings
  a.bindings.any (fun b =>
    v.removedKinds.contains b.kind.toNat ||
      old.any (fun o => o.kind == b.kind && (o.ring != b.ring || o.port != b.port || o.portSlot != b.portSlot)))

/-- SERVICE_MODIFY (R12, R416): the round evaluates it. -/
def execServiceModify (h : CmdHdr) (attrs : AttrBlock) (s : State) : Res :=
  .next (s.runCmd ⟨0x0203, .service, notRelay, .none⟩ h fun s =>
    match s.svc? h.slot with
    | none => refuse s .badSlot
    | some v =>
      let a := cleanAttrs attrs
      s.refuseIf (a.key != v.acc.attrs.key || !s.attrsOk a) .badParam <|
      s.refuseIf (v.bindBusy a || s.portsBusy { a with bindings := a.bindings.filter (fun b =>
        !v.acc.attrs.bindings.any (fun o => o.kind == b.kind)) } (some v.slot)) .busyRunning <|
      let p : PendSvc := ⟨s.nextId, h.tr, h.seq, true, h.slot, a, v.acc.gen, s.time.dt⟩
      ({ s with place := { s.place with pending := s.place.pending ++ [p] } }, .later))

/-- SERVICE_QUERY (R13, R18, Table 15.8). -/
def execServiceQuery (h : CmdHdr) (key : Option W64) (s : State) : Res :=
  .next (s.runCmd ⟨0x0204, .either, notRelay, .none⟩ h fun s =>
    let v? := match key with
      | some k => s.services.find? (fun v => v.acc.attrs.key == clearKey k)
      | none => s.svc? h.slot
    match v? with
    | none => refuse s .notFound
    | some v =>
      let cost := s.serviceCost v (if v.rx.freqKhz = 0 then freqRx v.attrs.key ((freqInputs v.attrs.key).headD 0) else v.rx)
      (s, answer .ok (le 1 v.slot ++ le 1 v.inc ++ le 1 v.state.code ++ le 1 v.reason ++ le 2 v.hintRefused ++ [0, 0]
        ++ le 8 v.stateDt.toNat ++ attrBytes v.force.attrs ++ cost.flatMap (le 4))))

/-- PLACEMENT_POLICY (R24, Table 15.8). -/
def execPlacementPolicy (h : CmdHdr) (params : Option PlacementParams) (s : State) : Res :=
  .next (s.runCmd (gateNotRelay 0x0205) h fun s =>
    match params with
    | none => let p := s.force.placement; (s, answer .ok [p.reserve, p.preempt, p.headReception, 0])
    | some p =>
      s.refuseIf (!decide (5 ≤ p.reserve.toNat ∧ p.reserve.toNat ≤ 25 ∧ p.preempt.toNat ≤ 1 ∧ p.headReception.toNat ≤ 1))
        .badParam <|
      s.commitDev (some 3) (fun a => { a with placement := p }))

/-- PLACEMENT_QUERY (R17, R41, Table 15.8). -/
def execPlacementQuery (h : CmdHdr) (s : State) : Res :=
  .next (s.runCmd (gateAll 0x0206) h fun s =>
    let p := s.force.placement
    let load := s.loadNow
    let used := s.reserveUsed
    let rows := s.capacity.zipIdx.flatMap (fun x =>
      le 4 x.1 ++ le 4 (reserveOf x.2 x.1 s.reservePct) ++ le 4 (load.getD x.2 0) ++ le 4 (used.getD x.2 0))
    (s, answer .ok ([p.reserve, p.preempt, p.headReception, 0] ++ le 4 s.place.overruns ++ rows)))

end Sys2Proof.Machine
end

