-- ==== Sys2Proof/Machine/Lanes.lean ====
section
/-! DEFINITION. Lanes (chapter 5): their banks, latency and settling, how the Tessellator lays them out after a
placement round, and the commands of lanes and FIR banks. -/

namespace Sys2Proof.Machine

/-- num / den rounded to the nearest integer, a tie to the even one (R135, R159). -/
def roundEven (num : Int) (den : Nat) : Int :=
  let q := num / (den : Int)
  let r := 2 * (num % (den : Int))
  if r < (den : Int) then q else if (den : Int) < r then q + 1 else if q % 2 = 0 then q else q + 1

/-! ### FIR banks -/

/-- A FIR bank as it stands: phase (0 linear, 1 minimum) and coefficients (R140). -/
structure Bank where
  phase  : Nat
  coeffs : List Int
  deriving DecidableEq, Repr

/-- Whether a bank is built in (R141): class 0 band, 1 channel. -/
def builtinBank (cls bank : Nat) : Bool := if cls = 0 then bank < 2 else bank < 4

/-- Phase and tap count of the built-in banks (Table 5.4). -/
def builtinShape (cls bank : Nat) : Nat × Nat :=
  match cls, bank with
  | 0, 0 => (0, 31) | 0, _ => (1, 20)
  | _, 0 => (0, 31) | _, 1 => (0, 95) | _, 2 => (1, 48) | _, _ => (1, 20)

/-- A bank's contents; a linear-phase built-in bank is symmetric. Its coefficients are a unit's own (log entry 21). -/
def State.bank? (s : State) (cls bank : Nat) : Option Bank :=
  if builtinBank cls bank then
    let p := builtinShape cls bank
    let idx (i : Nat) : Nat := if p.1 = 0 then min i (p.2 - 1 - i) else i
    some ⟨p.1, (List.range p.2).map (fun i => ((Config.builtinCoeff cls bank (idx i)).setWidth 18).toInt)⟩
  else
    (s.acc.fir.find? (fun b => b.cls == cls && b.bank == bank)).map (fun b => ⟨b.phase, b.coeffs.map (·.toInt)⟩)

/-- Taps of a bank. -/
def State.bankTaps (s : State) (cls bank : Nat) : Nat :=
  if builtinBank cls bank then (builtinShape cls bank).2 else match s.bank? cls bank with
    | some b => b.coeffs.length
    | none => 0

/-- The group delay at 0 Hz in 0.001 output samples (Table 5.4, R145). -/
def State.bankDelay (s : State) (cls bank : Nat) : Nat :=
  if builtinBank cls bank then
    match cls, bank with
    | 0, 0 => 15000 | 0, _ => 1800
    | _, 0 => 15000 | _, 1 => 47000 | _, 2 => 8300 | _, _ => 1800
  else match s.bank? cls bank with
    | none => 0
    | some b =>
      if b.phase = 0 then (b.coeffs.length - 1) * 500
      else
        let sum := b.coeffs.foldl (· + ·) 0
        let mom := b.coeffs.zipIdx.foldl (fun a x => a + (x.2 : Int) * x.1) 0
        (roundEven (1000 * mom) sum.toNat).toNat

/-- The class of the bank that a lane runs. -/
def Lane.bankClass (l : Lane) : Nat := if l.cls = 2 then 1 else 0

/-! ### Set-up -/

/-- The settings that apply to a lane: the service's own for a channel lane or a dedicated band lane, else the device's
(R146). A lane of several services of one carrier takes those of the lowest slot (log entry 22). -/
def State.laneItems (s : State) (own : Bool) (users : List Nat) : ItemTable :=
  if own then match users with
    | u :: us => match s.slotSvc? (us.foldl min u) with
      | some v => v.force.lane
      | none => s.force.lane
    | [] => s.force.lane
  else s.force.lane

/-- The settings of a lane. -/
def State.itemsOf (s : State) (l : Lane) : ItemTable := s.laneItems (l.cls == 2 || l.dedicated) (l.users ++ l.joining)

/-- The lanes that count for a service (R151): the last before its engine, or the delivered lane of a raw band. -/
def State.lastLanes (s : State) (n : Nat) : List Lane :=
  let mine := s.lanes.filter (fun l => l.users.contains n)
  let chans := mine.filter (fun l => l.cls == 2)
  if chans.isEmpty then mine else chans

/-- Length of the rank filter, 0 off (Table 5.7 item 2). -/
def rankLen (t : ItemTable) : Nat := [0, 3, 5, 7, 9].getD (t.nat 2 2) 5

/-- The bank that Table 5.6 and R146 give a channel lane of a service, or a dedicated band lane. -/
def bankFor (v : Service) (dedicated : Bool) : Option Nat :=
  match v.force.lane.at 1 with
  | .num n => some n.toNat
  | .word 1 => none
  | _ =>
    if dedicated then some 0
    else match keyStd v.attrs.key with
      | 1 | 2 => some (if v.attrs.latency = 0#8 then 2 else 1)
      | 3 => some (if v.attrs.latency = 0#8 then 3 else 0)
      | _ => some 0

/-- The bank of a lane for its users. -/
def State.laneBank (s : State) (own dedicated : Bool) (users : List Nat) : Option Nat :=
  if !own then some 0 else match users with
    | u :: us => match s.slotSvc? (us.foldl min u) with
      | some v => bankFor v dedicated
      | none => some 0
    | [] => some 0

/-- U after a stage of T taps and decimation q (R156). -/
def settleStage (u t q : Nat) : Nat := (u + t - 1 + q - 1) / q

/-- The leading unsettled outputs of a lane whose input has U of them (R156, R157): CIC, HB1, HB2, FIR, rank filter. -/
def settleCount (channel : Bool) (k u taps rank : Nat) : Nat :=
  let d := 2 ^ (k - 2)
  let u := if !channel || 3 ≤ k then settleStage u (6 * (d - 1) + 1) d else u
  let u := if !channel || 2 ≤ k then settleStage u 15 2 else u
  let u := settleStage u 51 2
  let u := if taps = 0 then u else settleStage u taps 1
  if rank = 0 then u else settleStage u rank 1

/-- The latency τ of a lane in 0.1 ns (R154), rounded to the nearest: `kIn` is the decimation of its input from the
converter at `fs`. -/
def laneLatency (cls fs kIn k delay rank : Nat) : Nat :=
  let d := 2 ^ (k - 2)
  let cic := if cls != 2 || 3 ≤ k then 3 * (d - 1) * 2 ^ kIn * 4000 else 0
  let out := 2 ^ (kIn + k)
  let hb1 := if cls != 2 || 2 ≤ k then 7000 * out else 0
  let hb2 := 50000 * out
  let fir := 4 * delay * out
  let rk := if rank = 0 then 0 else 2000 * (rank - 1) * out
  let tp := if cls = 0 then 400 else if cls = 1 then 2000 else 500
  (roundEven ((cic + hb1 + hb2 + fir + rk : Nat) * 10000000000 : Int) (4000 * fs)).toNat + tp

/-! ### What the cover asks for -/

/-- A branch of a service as the cover lays it out: the band lane's input, k and NCO, whether it is dedicated, and the
channel lane's m and NCO, where one runs. -/
structure Branch where
  input : Nat
  k     : Nat
  nco   : Int
  ded   : Bool
  chan  : Option (Nat × Int)
  users : List Nat
  deriving DecidableEq, Repr

/-- The services that hold costs, each where it is to be: a migrating one, or one that splices, at its
destination. -/
def State.heldNext (s : State) : List (Service × Reception) :=
  (s.services.filter (fun v => v.state.costs)).map (fun v => match v.migration, v.follow.splice with
    | some m, _ => (v.ahead, m.dest)
    | none, some x => (v.ahead.onSource x.target.key, x.dest)
    | none, none => (v.ahead, v.rx))

/-- The key of the source that a slot is to be received from. -/
def State.slotKey (s : State) (n : Nat) : W64 :=
  match s.slotSvc? n with
  | some v => match v.follow.splice with | some x => x.target.key | none => v.attrs.key
  | none => 0#64

/-- The branches that one lane of a cover feeds (R143, R144). -/
def State.branchesOf (s : State) (input : Nat) (l : CovLane) : List Branch :=
  let fs := inputFs s.plan.plan input
  l.bands.map (fun b =>
    let key := s.slotKey (b.users.headD 0)
    let t := totalT key input
    let std := keyRxStd key
    let direct := l.ded || (l.own && t == l.k && (std == 5 || std == 6 || std == 7))
    ⟨input, l.k, l.centre2 fs / 2, l.ded,
      if direct then none else some (t - l.k, (b.lo + b.hi) / 2 - l.centre2 fs / 2), b.users⟩)

/-- Every branch of a cover. -/
def State.branches (s : State) (cov : List (List CovLane)) : List Branch :=
  cov.zipIdx.flatMap (fun x => x.1.flatMap (s.branchesOf x.2))

/-- The class of the band lanes of an input. -/
def bandClass (input : Nat) : Nat := if input = 2 then 1 else 0

/-- Whether a band lane is the one of a branch. -/
def Branch.isBand (b : Branch) (l : Lane) : Bool :=
  l.cls == bandClass b.input && l.input == b.input && l.k == b.k && l.nco == b.nco && l.dedicated == b.ded

/-- Whether a channel lane is the one of a branch over the band lane `p`. -/
def Branch.isChan (b : Branch) (p : Nat) (l : Lane) : Bool :=
  l.cls == 2 && l.input == b.input && l.parent == p && b.chan == some (l.k, l.nco)
    && (l.users ++ l.joining).any (fun u => b.users.contains u)

/-- The band lane of a branch, where it runs. -/
def State.bandLane? (s : State) (b : Branch) : Option Lane := s.lanes.find? b.isBand

/-- The lanes that a branch already has, and whether all that it asks for run with the user on them. -/
def State.onBranch (s : State) (n : Nat) (b : Branch) : Bool :=
  match s.bandLane? b with
  | none => false
  | some l => (l.users ++ l.joining).contains n &&
    (b.chan.isNone || s.lanes.any (fun c => b.isChan l.index c && (c.users ++ c.joining).contains n))

/-- The lowest lane of a class that does not run (R160). -/
def State.freeLane (s : State) (cls : Nat) : Option Nat :=
  (List.range (if cls = 0 then 16 else if cls = 1 then 4 else 192)).find? (fun i =>
    !s.lanes.any (fun l => l.cls == cls && l.index == i))

/-- A lane at its start (R135, R156). -/
def State.newLane (s : State) (cls index input k parent : Nat) (nco : Int) (own ded : Bool) (users : List Nat)
    (kIn u : Nat) : Lane :=
  let fs := inputFs s.plan.plan input
  let bank := s.laneBank own ded users
  let taps := match bank with | some b => s.bankTaps (if cls = 2 then 1 else 0) b | none => 0
  { cls := cls
    index := index
    input := input
    k := k
    parent := parent
    bank := bank
    nco := nco
    w := roundEven (nco * 2 ^ 40 * 2 ^ kIn) (uHz * fs)
    unsettled := settleCount (cls == 2) k u taps (rankLen (s.laneItems own users))
    firSat := 0
    impaired := 0
    rawSat := 0
    markedNs := 0
    carriers := []
    users := []
    joining := []
    dedicated := ded
    startDt := s.time.dt }

/-- A user is put on a lane, or joins it as a migration does. -/
def Lane.put (l : Lane) (n : Nat) (join : Bool) : Lane :=
  if (l.users ++ l.joining).contains n then l
  else if join then { l with joining := l.joining ++ [n] } else { l with users := l.users ++ [n] }

/-- A user is put on the band lane of a branch, which starts where it does not run; none where no lane is free, or where
its band waits for a mask (R354). A lane that starts beside a restart of its converter's lanes has the unsettled input of R157. -/
def State.takeBand (s : State) (n : Nat) (join : Bool) (b : Branch) : Option (State × Lane) :=
  match s.bandLane? b with
  | some l => some ({ s with lanes := s.lanes.map (fun x => if b.isBand x then x.put n join else x) }, l)
  | none =>
    let half := foU (inputFs s.plan.plan b.input) b.k * 2 / 5
    if !s.maskReady (b.nco - half, b.nco + half) then none else (s.freeLane (bandClass b.input)).map (fun i =>
      let l := s.newLane (bandClass b.input) i b.input b.k 0 b.nco b.ded b.ded b.users 0 0
      ({ s with lanes := s.lanes ++ [l.put n join] }, l))

/-- A user is put on the lanes of a branch (R143). -/
def State.takeBranch (s : State) (n : Nat) (join : Bool) (b : Branch) : State :=
  match s.takeBand n join b with
  | none => s
  | some (s, l) =>
    match b.chan with
    | none => s
    | some (m, nco) =>
      if s.lanes.any (b.isChan l.index) then
        { s with lanes := s.lanes.map (fun x => if b.isChan l.index x then x.put n join else x) }
      else match s.freeLane 2 with
        | none => s
        | some i =>
          let u := if l.startDt = s.time.dt then l.unsettled else 0
          let c := s.newLane 2 i b.input m l.index nco true false b.users b.k u
          { s with lanes := s.lanes ++ [c.put n join] }

/-- Whether a service stands on exactly the lanes that the cover gives it. -/
def State.laneOk (s : State) (n : Nat) (bs : List Branch) : Bool :=
  let mine := bs.filter (fun b => b.users.contains n)
  let chans := (mine.filter (fun b => b.chan.isSome)).length
  mine.all (s.onBranch n) &&
    decide ((s.lanes.filter (fun l => l.users.contains n)).length = mine.length + chans)

/-- Whether a service's migration stands on the lanes of its destination. -/
def State.joinOk (s : State) (n : Nat) (bs : List Branch) : Bool := (bs.filter (fun b => b.users.contains n)).all (s.onBranch n)

/-- A migration starts: its cost is drawn on the reserve and its lanes start with the next tick (R32, Table 1.11). -/
def State.startMigration (s : State) (n : Nat) (dest : Reception) (toHead : Bool) : State :=
  let s := s.moveState n .migrating 0x09
  s.modSvc n (fun v => { v with migration := some ⟨dest, toHead, s.time.dt, false, false⟩ })

/-- The lanes of one service as a tick begins (R31, R133): an ADMITTED one is reassigned at once, and a MIGRATING or
FOLLOWING one joins the lanes of its destination. -/
def State.layOne (s : State) (bs : List Branch) (n : Nat) : State :=
  let mine := bs.filter (fun b => b.users.contains n)
  match s.slotSvc? n with
  | none => s
  | some v =>
    match v.state with
    | .admitted =>
      if s.laneOk n bs then s
      else
        let had := s.lanes.any (fun l => l.users.contains n)
        let s1 := mine.foldl (fun s b => s.takeBranch n false b) (s.leaveLanes n)
        if had then s1.gapStreams v.field else s1
    | .migrating | .following => if s.joinOk n bs then s else mine.foldl (fun s b => s.takeBranch n true b) s
    | _ => s

/-- A PLACED service that the cover puts on other lanes moves by a migration, when the reserve allows it and it is not
pinned (R25, R31, R133). -/
def State.moveOne (s : State) (bs : List Branch) (n : Nat) : State :=
  match s.slotSvc? n with
  | none => s
  | some v =>
    if v.state != .placed || s.laneOk n bs || hinted v.attrs 5 || !s.reserveFits (s.rxCost v v.rx) then s
    else s.startMigration n v.rx v.headDecode

/-- The migrations of a placement round that the cover asks for (R23 step 7). -/
def State.moveLanes (s : State) : State :=
  match s.covers s.plan.plan true s.heldNext with
  | none => s
  | some cov =>
    let bs := s.branches cov
    ((s.services.filter (fun v => v.state == .placed)).map (·.slot)).foldl (fun s n => s.moveOne bs n) s

/-- The lanes as a tick begins, laid out as the round before decided (R23): each service that holds costs in turn; a lane
with no user stops. -/
def State.layLanes (s : State) : State :=
  match s.covers s.plan.plan true s.heldNext with
  | none => s
  | some cov =>
    let bs := s.branches cov
    let s1 := ((s.services.filter (fun v => v.state.costs)).map (·.slot)).foldl (fun s n => s.layOne bs n) s
    { s1 with lanes := s1.lanes.filter (fun l => !(l.users.isEmpty && l.joining.isEmpty)) }

/-- Every RF lane, or every lane of the inputs named, restarts at once under the plan in force (R97): pinned lanes are
laid out anew (R31). -/
def State.restartLanes (s : State) (inputs : List Nat) : State :=
  match s.covers s.plan.plan false s.held with
  | none => { s with lanes := s.lanes.filter (fun l => !inputs.contains l.input) }
  | some cov =>
    let bs := (s.branches cov).filter (fun b => inputs.contains b.input)
    let s0 : State := { s with lanes := s.lanes.filter (fun l => !inputs.contains l.input) }
    bs.foldl (fun s b => b.users.foldl (fun s u => s.takeBranch u false b) s) s0

/-- A migration's lanes become the service's, and those that it leaves stop where no other user stands on them
(Table 1.11 step 5). -/
def State.settleLanes (s : State) (n : Nat) : State :=
  let ls := s.lanes.map (fun l =>
    if l.joining.contains n then { l with joining := l.joining.filter (· != n), users := l.users ++ [n] } else l)
  let stay (l : Lane) : Bool := !s.lanes.any (fun x => x.cls == l.cls && x.index == l.index && x.users.contains n && !x.joining.contains n)
  let ls := ls.map (fun l => if l.users.contains n && !stay l then { l with users := l.users.filter (· != n) } else l)
  { s with lanes := ls.filter (fun l => !(l.users.isEmpty && l.joining.isEmpty)) }

/-- A migration's lanes are given up (R29, R33). -/
def State.dropJoining (s : State) (n : Nat) : State :=
  let ls := s.lanes.map (fun l => { l with joining := l.joining.filter (· != n) })
  { s with lanes := ls.filter (fun l => !(l.users.isEmpty && l.joining.isEmpty)) }

/-! ### Commands -/

/-- Whether a service's settings name a host bank (R145). -/
def namesBank (t : SvcSettings) (cls bank : Nat) : Bool :=
  let band := keyStd t.attrs.key == 8 && decide (keyN t.attrs.key ≤ 12)
  t.lane.at 1 == .num bank && (if cls = 0 then band else !band)

/-- The settings in force or pending that name a bank. -/
def State.bankUsers (s : State) (cls bank : Nat) : Nat :=
  (s.services.filter (fun v => namesBank v.force cls bank || v.sched.any (fun c => namesBank c.value cls bank))).length

/-- Whether a coefficient is an 18-bit value (R140). -/
def coeffOk (c : W32) : Bool := decide (-131072 ≤ c.toInt ∧ c.toInt ≤ 131071)

/-- FIR_BANK_LOAD (R145). The bank holds the new coefficients from acceptance. -/
def execFirBankLoad (h : CmdHdr) (cls bank phase : Byte) (coeffs : List W32) (s : State) : Res :=
  .next (s.runCmd (gateNotRelay 0x0A01) h fun s =>
    let c := cls.toNat
    let b := bank.toNat
    let sum := coeffs.foldl (fun a x => a + x.toInt) (0 : Int)
    s.refuseIf (1 < c || 7 < b || builtinBank c b || 1 < phase.toNat || coeffs.isEmpty || decide (128 < coeffs.length)
      || !coeffs.all coeffOk || (phase == 0#8 && coeffs != coeffs.reverse) || decide (sum < 32768 ∨ 131072 < sum)) .badParam <|
    s.refuseIf (decide (0 < s.bankUsers c b)) .busyRunning <|
    let put (l : List FirBank) : List FirBank :=
      l.filter (fun x => !(x.cls == c && x.bank == b)) ++ [⟨c, b, phase.toNat, coeffs⟩]
    s.commitDev none (fun a => { a with fir := put a.fir }))

/-- FIR_BANK_QUERY (R160). -/
def execFirBankQuery (h : CmdHdr) (cls bank : Byte) (s : State) : Res :=
  .next (s.runCmd (gateAll 0x0A02) h fun s =>
    let c := cls.toNat
    let b := bank.toNat
    s.refuseIf (1 < c || 7 < b) .badParam <|
    match s.bank? c b with
    | none => (s, answer .ok ([cls, bank, 0, 0] ++ le 2 (s.bankUsers c b) ++ zeros 10))
    | some k =>
      (s, answer .ok ([cls, bank] ++ le 1 k.phase ++ le 1 k.coeffs.length ++ le 2 (s.bankUsers c b) ++ zeros 2
        ++ leInt 4 (k.coeffs.foldl (· + ·) 0) ++ le 4 (s.bankDelay c b) ++ k.coeffs.flatMap (leInt 4))))

/-- The decimation of a lane's input from the converter: k of the band lane below a channel lane. -/
def State.inputDec (s : State) (l : Lane) : Nat :=
  if l.cls != 2 then 0 else match s.lanes.find? (fun p => p.cls == bandClass l.input && p.index == l.parent) with
    | some p => p.k
    | none => 0

/-- The LANE entry of LANE_QUERY. -/
def State.laneEntry (s : State) (l : Lane) : List Byte :=
  let t := s.itemsOf l
  let delay := match l.bank with | some b => s.bankDelay l.bankClass b | none => 0
  let tau := laneLatency l.cls (inputFs s.plan.plan l.input) (s.inputDec l) l.k delay (rankLen t)
  le 1 l.cls ++ le 1 l.index ++ le 1 l.input ++ le 1 l.k ++ le 1 (l.bank.getD 0xFF) ++ le 1 (rankLen t) ++ le 2 (t.nat 3 16)
    ++ leInt 8 (roundEven (1000 * l.nco) uHz) ++ leInt 8 l.w ++ le 4 tau ++ le 4 l.unsettled ++ le 4 l.firSat
    ++ le 4 l.impaired ++ le 4 l.rawSat ++ le 4 l.markedNs

/-- The strong carriers that follow a band lane's entry. -/
def carrierEntries (l : Lane) : List Byte :=
  let cs := l.carriers.take 16
  le 2 cs.length ++ zeros 2 ++ cs.flatMap (fun c => le 4 c.freqKhz ++ leInt 2 c.level ++ le 2 c.bins)

/-- LANE_QUERY (R160, R412). -/
def execLaneQuery (h : CmdHdr) (first : W16) (s : State) : Res :=
  .next (s.runCmd ⟨0x0A03, .either, allModes, .none⟩ h fun s =>
    let es := match s.svc? h.slot with
      | some v => (s.lanes.filter (fun l => (l.users ++ l.joining).contains v.slot)).map s.laneEntry
      | none => (s.lanes.filter (fun l => l.cls != 2)).map (fun l => s.laneEntry l ++ carrierEntries l)
    let pg := page 16 first.toNat es
    (s, answer .ok (le 2 pg.1.length ++ le 2 pg.2 ++ zeros 4 ++ pg.1.flatten)))

/-- Whether the FIR bank of a table of lane settings suits a service (R146). -/
def State.bankItemOk (s : State) (key : W64) (t : ItemTable) : Bool :=
  match t.at 1 with
  | .num b =>
    let c := if keyN key ≤ 12 then 0 else 1
    keyStd key == 8 && !builtinBank c b.toNat && (s.bank? c b.toNat).isSome
  | .word 1 => keyStd key == 8
  | _ => true

/-- LANE_CONFIG (R146, R409 to R411). -/
def execLaneConfig (h : CmdHdr) (items : List Item) (s : State) : Res :=
  .next (s.runCmd ⟨0x0A04, .either, notRelay, .none⟩ h fun s =>
    match s.svc? h.slot with
    | none =>
      if items.isEmpty then (s, answer .ok (itemsBytes ((encodeItems 1 tbl57 s.force.lane).filter (fun i => i.item != 1#8))))
      else s.itemCmd tbl57 (fun i => i != 1) [] s.force.lane s.acc.lane items fun t => s.commitDev none (fun a => { a with lane := t })
    | some v =>
      s.itemCmd tbl57 (fun _ => true) [] v.force.lane v.acc.lane items fun t =>
        s.refuseIf (!s.bankItemOk v.acc.attrs.key t) .badParam <|
        s.commitSvc v.slot (fun a => { a with lane := t }))

end Sys2Proof.Machine
end

