-- ==== Sys2Proof/Machine/Plans.lean ====
section
/-! DEFINITION. How the Tessellator ranks the sampling plans (R88 to R92). -/

namespace Sys2Proof.Machine

/-- Whether an RF input can receive: PLL-S locked (R119), and its ADC not stopped by a fifth failed slice (R518). -/
def State.inputBarred (s : State) (i : Nat) : Bool :=
  decide (i < 2) && (s.place.rfLost || decide (5 ≤ (s.adcCal i).status.count 3))

/-- Whether a plan is eligible (R91). A plan change lays pinned lanes out anew (R31). -/
def State.eligible (s : State) (plan : Nat) : Bool :=
  s.force.plan.mask.getLsbD plan && plsOk && !s.held.any (s.spoiled plan)
where
  plsOk : Bool := match s.loadCov plan (plan == s.plan.plan) s.held with
    | some (l, bs) =>
      let est := s.estimateWith bs
      l.fits ((s.admissible s.holdingPct).set 9 (est - reserveOf 9 est s.holdingPct))
    | none => false

/-- Whether a fixed interleave spur of a plan hits a service on an RF input (R88, R92). -/
def spurHit (plan : Nat) (x : Service × Reception) : Bool :=
  decide (x.2.input < 2) && (spurs plan).any (hit (svcBand plan x))

/-- Whether an image of a strong carrier hits a service (R88, R89, R92); LFIN has the harmonic family only. -/
def State.imageHit (s : State) (plan : Nat) (x : Service × Reception) : Bool :=
  let b := svcBand plan x
  let fsKhz := inputFs plan x.2.input / 1000
  (s.strong x.2.input).any (fun f =>
    (harmonicImages fsKhz f).any (hit b) || (decide (x.2.input < 2) && (interleaveImages plan f).any (hit b)))

/-- Hits by priority, index n for priority n. -/
def hitsOf (p : Service × Reception → Bool) (vs : List (Service × Reception)) : List Nat :=
  (List.range 8).map (fun n => (vs.filter (fun x => x.1.attrs.priority.toNat == n && p x)).length)

/-- The entry of one plan, without its position. -/
def State.planEntry (s : State) (plan : Nat) : PlanRank :=
  ⟨s.eligible plan, 0, hitsOf (spurHit plan) s.held, hitsOf (s.imageHit plan) s.held⟩

/-- Hits compared from priority 7 down: whether the first has fewer, the second, or neither. -/
def cmpHits (a b : List Nat) : Ordering := compareLex' (a.reverse.zip b.reverse)
where
  compareLex' : List (Nat × Nat) → Ordering
    | [] => .eq
    | (x, y) :: r => if x < y then .lt else if y < x then .gt else compareLex' r

/-- Whether plan `a` ranks before plan `b` (R92, R94): eligible plans first, then the four criteria. -/
def rankBefore (cur : Nat) (es : List PlanRank) (a b : Nat) : Bool :=
  let z : PlanRank := ⟨false, 0, [], []⟩
  let x := es.getD a z
  let y := es.getD b z
  if x.eligible != y.eligible then x.eligible
  else match cmpHits x.spurHits y.spurHits with
    | .lt => true
    | .gt => false
    | .eq => match cmpHits x.imageHits y.imageHits with
      | .lt => true
      | .gt => false
      | .eq => if a == cur then true else if b == cur then false else decide (planFs a ≤ planFs b)

/-- The plans in rank order. -/
def rankOrder (cur : Nat) (es : List PlanRank) : List Nat := (List.range 4).mergeSort (rankBefore cur es)

/-- The ranking of the four plans (R92, R94). -/
def State.ranking (s : State) : List PlanRank :=
  let es := (List.range 4).map s.planEntry
  let order := rankOrder s.plan.plan es
  es.zipIdx.map (fun x => { x.1 with position := order.idxOf x.2 + 1 })

/-- Whether a change of plan, neither deferred nor forbidden, could free a service of unusable frequencies, so that it is
not parked meanwhile (R90, R96). -/
def State.planHelps (s : State) (x : Service × Reception) : Bool :=
  s.force.plan.policy != 0#8 && s.plan.deferEnd.isNone &&
    (List.range 4).any (fun p => p != s.plan.plan && s.force.plan.mask.getLsbD p && s.spoiled s.plan.plan x
      && !s.spoiled p x && !s.inputBarred x.2.input && coverable (inputFs p x.2.input) (svcBand p x))

end Sys2Proof.Machine
end

