-- ==== Sys2Proof/Machine/Place.lean ====
section
/-! DEFINITION. The Tessellator's placement round (R15, R16, R22 to R34, R42 to R45): where a service is received, admission and
pre-emption, hints, losses of capacity, and the replies that a round makes. -/

namespace Sys2Proof.Machine

/-! ### Where a service can be received -/

/-- The whole-multiplex key of an entry's carrier; none for FM. -/
def MapEntry_carrier (e : MapEntry) : W64 :=
  match keyStd e.key with
  | 9 => e.key
  | 5 | 6 | 7 => e.carrier
  | _ => 0#64

/-- The reception of a map entry on an input. -/
def entryRx (e : MapEntry) (i : Nat) : Reception :=
  ⟨i, e.freqKhz.toNat, MapEntry_carrier e, e.signal, e.kbps, e.audio.toNat, e.pcmRate⟩

/-- The receptions of a key: those of its map entry, or of its frequency (R8). -/
def State.receptions (s : State) (key : W64) : List Reception :=
  if identityKey key then match s.mapEntry key with
    | some e => ((List.range 3).filter (fun i => e.inputs.getLsbD i)).map (entryRx e)
    | none => []
  else (freqInputs key).map (freqRx key)

/-- Whether a reception may be used under the plan in force: its input receives, its band can be covered, and no
unusable frequency hits it (R90, R518, R541). -/
def State.rxOk (s : State) (v : Service) (rx : Reception) : Bool :=
  let b := svcBand s.plan.plan (v, rx)
  !s.inputBarred rx.input && coverable (inputFs s.plan.plan rx.input) b && !s.spoiled s.plan.plan (v, rx)

/-- The receptions to try, that of a carrier already received coming first. -/
def State.candidates (s : State) (v : Service) (others : List (Service × Reception)) : List Reception :=
  let rs := (s.receptions v.ahead.attrs.key).filter (s.rxOk v.ahead)
  let shared (r : Reception) : Bool :=
    r.carrier != 0#64 && others.any (fun x => x.2.carrier == r.carrier && x.2.input == r.input)
  rs.filter shared ++ rs.filter (fun r => !shared r)

/-! ### Audio ports for AUTO bindings (R316, R317) -/

/-- Whether a slot of a port is free for a service. -/
def State.audioFree (s : State) (p slot chans : Nat) (n : Nat) : Bool :=
  decide (slot + chans ≤ s.portSlots p) && (List.range chans).all (fun i => !s.audioTaken p (slot + i) (some n))

/-- The lowest free slots of a port for a programme. -/
def State.audioSlot (s : State) (p chans n : Nat) : Option Nat :=
  (List.range (s.portSlots p)).find? (fun i => s.audioFree p i chans n)

/-- How many slots of a port are free. -/
def State.freeCount (s : State) (p n : Nat) : Nat :=
  ((List.range (s.portSlots p)).filter (fun i => !s.audioTaken p i (some n))).length

/-- Whether a port's pilot comes from the same carrier at the same decoded rate (R317 rule 1). -/
def State.pilotMatches (s : State) (p : Nat) (rx : Reception) : Bool :=
  match (s.audio.getD p AudioSt.reset).pilot with
  | none => false
  | some f => match s.svc? f with
    | some v => rx.carrier != 0#64 && v.rx.carrier == rx.carrier && v.rx.pcmRate == rx.pcmRate
    | none => false

/-- The port and slot that AUTO gives a programme (R317). -/
def State.autoAudio (s : State) (v : Service) (rx : Reception) : Option (Nat × Nat) :=
  let n := v.slot
  let chans := pcmChannels v.acc.attrs
  let ok := (List.range 4).filter (fun p => (s.audioSlot p chans n).isSome)
  let r1 := ok.find? (fun p => s.pilotMatches p rx)
  let r2 := ok.find? (fun p => (s.audio.getD p AudioSt.reset).pilot.isNone)
  let most := ok.foldl (fun b p => match b with
    | none => some p
    | some q => if s.freeCount q n < s.freeCount p n then some p else b) none
  let pick := match r1, r2 with
    | some p, _ => some p
    | none, some p => some p
    | none, none => most
  pick.bind (fun p => (s.audioSlot p chans n).map (fun i => (p, i)))

/-- The programme of a service on a port. -/
def State.progOf (s : State) (f : W16) : Option (Nat × Prog) :=
  s.audio.zipIdx.findSome? (fun x => (x.1.progs.find? (fun g => g.slot == f)).map (fun g => (x.2, g)))

/-! ### Choosing a placement -/

/-- A placement: reception, diversity, hints honoured and refused, and the audio port and slot of an AUTO binding. -/
structure Placement where
  rx       : Reception
  div      : Bool
  honoured : Nat
  refused  : Nat
  audio    : Option (Nat × Nat)
  deriving DecidableEq, Repr

/-- The lane that a cover gives a slot on each input. -/
def laneOf (cov : List (List CovLane)) (n : Nat) : List (Option (Nat × Int)) :=
  cov.map (fun ls => (ls.find? (fun l => l.bands.any (fun b => b.users.contains n))).map (fun l => (l.k, l.lo)))

/-- Whether two placements of a service leave every other service on the same lane (R30). -/
def State.sameOthers (s : State) (others a b : List (Service × Reception)) : Bool :=
  match s.covers s.plan.plan true a, s.covers s.plan.plan true b with
  | some x, some y => others.all (fun o => laneOf x o.1.slot == laneOf y o.1.slot)
  | _, _ => false

/-- A service placed with the others. -/
def withRx (v : Service) (others : List (Service × Reception)) (div : Bool) (rx : Reception) : List (Service × Reception) :=
  others ++ [({ v.ahead with diversity := div }, rx)]

/-- Whether the audio binding of a service asks for AUTO. -/
def audioAuto (a : AttrBlock) : Bool := a.bindings.any (fun b => b.kind == 1#8 && b.port == 0xFE#8)

/-- The audio port hint, where it can be honoured (R30). -/
def State.audioHint (s : State) (v : Service) : Option (Nat × Nat) :=
  let a := v.acc.attrs
  if hinted a 2 && audioAuto a && s.audioFree a.hintAudioPort.toNat a.hintAudioSlot.toNat (pcmChannels a) v.slot then
    some (a.hintAudioPort.toNat, a.hintAudioSlot.toNat)
  else none

/-- Whether the packet port hint can be honoured: a TS binding without a port, and the port free (R30, R308). -/
def State.pktHint (s : State) (v : Service) : Bool :=
  let a := v.acc.attrs
  a.bindings.any (fun b => b.kind == 3#8 && b.port == 0xFF#8) && !s.pktTaken a.hintPktPort.toNat (some v.slot)

/-- The mask of the hints in a list. -/
def maskOf (bs : List (Nat × Bool)) : Nat := (bs.map (fun x => if x.2 then 2 ^ x.1 else 0)).sum

/-- Where a service is to be received beside the others, and its hints; none where it does not fit (R22, R30, R317). -/
def State.choose (s : State) (v : Service) (others : List (Service × Reception)) : Option Placement :=
  let a := v.acc.attrs
  let cands := s.candidates v others
  match cands.find? (fun rx => s.admits (withRx v others false rx)) with
  | none => none
  | some base =>
    let plain := withRx v others false base
    let better (div : Bool) (rx : Reception) : Bool :=
      s.admits (withRx v others div rx) && s.sameOthers others plain (withRx v others div rx)
    let hintRx := if hinted a 0 then cands.find? (fun rx => rx.input == a.hintInput.toNat) else none
    let rx := match hintRx with
      | some r => if r.input == base.input || better false r then r else base
      | none => base
    let std := keyRxStd a.key
    let div := hinted a 4 && (std == 6 || std == 7) && decide (rx.input < 2)
      && cands.any (fun r => r.input == 1 - rx.input) && better true rx
    let held := s.progOf v.field
    let auto := match s.audioHint v with
      | some p => some p
      | none => s.autoAudio v rx
    if audioAuto a && held.isNone && auto.isNone then none
    else
      let ok := [(0, hinted a 0 && rx.input == a.hintInput.toNat), (1, hinted a 1 && s.ringHintOk a),
        (2, hinted a 2 && (match held with
          | some g => g.1 == a.hintAudioPort.toNat && g.2.portSlot == a.hintAudioSlot.toNat
          | none => (s.audioHint v).isSome)),
        (3, hinted a 3 && s.pktHint v), (4, div), (5, hinted a 5)]
      some ⟨rx, div, maskOf ok, maskOf (ok.map (fun x => (x.1, hinted a x.1 && !x.2))),
        if audioAuto a && held.isNone then auto else none⟩

/-- Victim order (R26): lowest priority first, then latest admission first. -/
def victimOrder (vs : List Service) : List Service :=
  vs.mergeSort (fun a b =>
    decide (a.acc.attrs.priority.toNat < b.acc.attrs.priority.toNat) ||
      (a.acc.attrs.priority == b.acc.attrs.priority && decide (b.admitOrder ≤ a.admitOrder)))

/-- The others without some slots. -/
def without (others : List (Service × Reception)) (ns : List Nat) : List (Service × Reception) :=
  others.filter (fun x => !ns.contains x.1.slot)

/-- Victims added one at a time until the service fits (R26). -/
def State.growVictims (s : State) (v : Service) (others : List (Service × Reception)) : List Nat → List Nat → Option (List Nat)
  | _, [] => none
  | got, c :: cs =>
    let got := got ++ [c]
    if (s.choose v (without others got)).isSome then some got else s.growVictims v others got cs

/-- The victims of a pre-emption, less those that are not needed (R26). -/
def State.victims (s : State) (v : Service) (others : List (Service × Reception)) : Option (List Nat) :=
  let p := v.acc.attrs.priority.toNat
  let cs := victimOrder ((others.map (·.1)).filter (fun x => decide (x.acc.attrs.priority.toNat < p) && attrBit x.acc.attrs 0))
  (s.growVictims v others [] (cs.map (·.slot))).map (fun got =>
    got.foldl (fun keep c =>
      let less := keep.filter (· != c)
      if (s.choose v (without others less)).isSome then less else keep) got)

/-- The services that hold costs, but one. -/
def State.heldBut (s : State) (n : Nat) : List (Service × Reception) := without s.held [n]

/-! ### Admission -/

/-- A programme takes its slots on an audio port (R316). -/
def State.addProg (s : State) (p : Nat) (f : W16) (slot chans : Nat) : State :=
  { s with audio := s.audio.modify p (fun a => { a with progs := a.progs ++ [⟨f, slot, chans, 0, 0, false, false, false⟩] }) }

/-- The programme of a service that is admitted, on the port its binding names or AUTO chose. -/
def State.bindAudio (s : State) (v : Service) (auto : Option (Nat × Nat)) : State :=
  if (s.progOf v.field).isSome then s
  else
    let chans := pcmChannels v.acc.attrs
    match v.acc.attrs.bindings.find? (fun b => b.kind == 1#8) with
    | none => s
    | some b =>
      if b.port.toNat ≤ 3 then s.addProg b.port.toNat v.field b.portSlot.toNat chans
      else match auto with
        | some (p, i) => s.addProg p v.field i chans
        | none => s

/-- EV_SERVICE_STATE for a hint no longer honoured: the state stays as it is (R31). -/
def State.hintLost (s : State) (n : Nat) : State :=
  match s.slotSvc? n with
  | some v => s.serviceEvent v v.state v.state 0x0D
  | none => s

/-- A service takes a placement: ADMITTED, with its streams and programme; a service placed again goes on with
GAP_BEFORE (R27). A hint honoured before and not now is reported (R31). -/
def State.takeIn (s : State) (n : Nat) (pl : Placement) (reason : Nat) (ev : Bool) : State :=
  match s.slotSvc? n with
  | none => s
  | some v =>
    let o := s.nextOrder
    let dropped := v.state == .parked && v.honoured &&& pl.refused != 0
    let s := if ev then o.1.moveState n .admitted reason else o.1.enterState n .admitted reason
    let s := s.modSvc n (fun v => { v with rx := pl.rx, diversity := pl.div, honoured := pl.honoured, hintRefused := pl.refused,
                                           admitOrder := o.2 })
    let s := ((s.gapStreams v.field).useInc v).openStreams n
    let s := s.bindAudio v pl.audio
    if dropped then s.hintLost n else s

/-- A service is tried, with pre-emption where that is enabled (R22, R26, R27); the answer says whether it was admitted. -/
def State.tryAdmit (s : State) (n : Nat) (reason : Nat) (ev : Bool) : State × Bool :=
  match s.slotSvc? n with
  | none => (s, false)
  | some v =>
    let others := s.heldBut n
    match s.choose v others with
    | some pl => (s.takeIn n pl reason ev, true)
    | none =>
      if s.force.placement.preempt = 0#8 then (s, false)
      else match s.victims v others with
        | none => (s, false)
        | some vs =>
          let s := vs.foldl (fun s m => s.park m 0x03) s
          match s.choose v (s.heldBut n) with
          | some pl => (s.takeIn n pl reason ev, true)
          | none => (s, false)

/-- The slot of a service is freed (R36). -/
def State.freeSlotOf (s : State) (n : Nat) : State := { s with services := s.services.filter (fun v => v.slot != n) }

/-! ### Replies of the round (R23) -/

/-- The effective tick that a round's replies carry: the tick after the round (R23, R510). -/
def State.roundEff (s : State) : W32 :=
  let t := tick32 (s.tickNow + 1)
  if t = noTick then 0#32 else t

/-- A waiting command's reply. -/
def State.roundReply (s : State) (p : PendSvc) (st : Status) (gen : W16) (eff : W32) (params : List Byte) : State :=
  s.complete p.tr p.id ⟨if p.modify then 0x0203#16 else 0x0201#16, p.seq, st, gen, eff, p.dt, params⟩

/-- The reply that gives a service as it now stands. -/
def State.replySvc (s : State) (p : PendSvc) (n : Nat) : State :=
  match s.slotSvc? n with
  | none => s
  | some v => s.roundReply p .ok v.acc.gen s.roundEff (addReply v.slot v.inc v.state v.hintRefused v.acc.attrs.key)

/-- A new SERVICE_ADD in its round (Table 1.5, R15). One removed meanwhile answers as REMOVED (log entry 23). -/
def State.roundAdd (s : State) (serve : Bool) (p : PendSvc) : State :=
  match s.svc? p.slot with
  | none => s.roundReply p .ok p.gen s.roundEff (addReply (p.slot.toNat % 256) (p.slot.toNat / 256) .removed 0 p.attrs.key)
  | some v =>
    let n := v.slot
    let parked (s : State) (reason : Nat) : State :=
      let o := s.nextOrder
      ((o.1.enterState n .parked reason).modSvc n (fun v => { v with parkOrder := o.2 })).useInc v
    if !serve then (parked s 0x06).replySvc p n
    else match s.tryAdmit n 0x00 false with
      | (s', true) => s'.replySvc p n
      | (s', false) =>
        if attrBit v.acc.attrs 1 then (parked s' 0x0E).replySvc p n
        else (s'.freeSlotOf n).roundReply p .noCapacity s'.acc.gen noTick []

/-- A service made REQUESTED by map publication (Table 1.5, R36). -/
def State.roundFound (s : State) (serve : Bool) (n : Nat) : State :=
  match s.slotSvc? n with
  | none => s
  | some v =>
    let parked (s : State) (reason : Nat) : State :=
      let o := s.nextOrder
      (o.1.moveState n .parked reason).modSvc n (fun v => { v with parkOrder := o.2 })
    if !serve then parked s 0x06
    else match s.tryAdmit n 0x01 true with
      | (s', true) => s'
      | (s', false) =>
        if attrBit v.acc.attrs 1 then parked s' 0x0E
        else (s'.serviceEvent v v.state .removed 0x0E).freeSlotOf n

/-! ### Modifications -/

/-- The hints that a modification changes. -/
def changedHints (old new : AttrBlock) : Nat :=
  maskOf ((List.range 5).map (fun i => (i, hinted new i && (!hinted old i ||
    (match i with
      | 0 => old.hintInput != new.hintInput
      | 1 => old.hintRing != new.hintRing
      | 2 => old.hintAudioPort != new.hintAudioPort || old.hintAudioSlot != new.hintAudioSlot
      | 3 => old.hintPktPort != new.hintPktPort
      | _ => false)))))

/-- Whether a hint that no migration serves agrees with where a service's streams already go. -/
def State.hintStands (s : State) (v : Service) (a : AttrBlock) (i : Nat) : Bool :=
  match i with
  | 1 => a.bindings.any (fun b => b.ring == 0xFF#8 &&
      (match s.stream? v.field b.kind.toNat with | some x => x.ring == some a.hintRing.toNat | none => false))
  | 2 => (match s.progOf v.field with | some g => g.1 == a.hintAudioPort.toNat && g.2.portSlot == a.hintAudioSlot.toNat | none => false)
  | _ => (match s.stream? v.field 3 with | some x => x.port == some a.hintPktPort.toNat | none => false)

/-- The hints of a modified service that holds costs (R31): a new input or diversity is honoured by a migration, or at once
while ADMITTED; a pinned service stays. -/
def State.modHints (s : State) (n : Nat) (old : Service) : State :=
  match s.slotSvc? n with
  | none => s
  | some v =>
    let a := v.acc.attrs
    let pinned := old.honoured.testBit 5 && hinted a 5
    let free := (v.state == .placed && !pinned) || v.state == .admitted
    let pl := if free then s.choose v (s.heldBut n) else none
    let rx := match pl with | some p => p.rx | none => v.rx
    let div := match pl with | some p => p.div | none => v.diversity && hinted a 4
    let ok : List (Nat × Bool) := [(0, hinted a 0 && rx.input == a.hintInput.toNat), (1, hinted a 1 && s.hintStands v a 1),
      (2, hinted a 2 && s.hintStands v a 2), (3, hinted a 3 && s.hintStands v a 3), (4, hinted a 4 && div), (5, hinted a 5)]
    let changed := changedHints old.acc.attrs a
    let keep (i : Nat) : Bool := hinted a i && !changed.testBit i && old.honoured.testBit i
    let ok := ok.map (fun x => (x.1, x.2 || keep x.1))
    let s := s.modSvc n (fun v => { v with honoured := maskOf ok, hintRefused := maskOf (ok.map (fun x => (x.1, hinted a x.1 && !x.2))) })
    let want := changed.testBit 0 || changed.testBit 4
    if !want || (rx == v.rx && div == v.diversity) then s
    else if v.state == .admitted then s.modSvc n (fun v => { v with rx := rx, diversity := div })
    else (s.modSvc n (fun v => { v with diversity := div })).startMigration n rx v.headDecode

/-- A modification in its round (R12, R31, R416). -/
def State.roundModify (s : State) (p : PendSvc) : State :=
  match s.svc? p.slot with
  | none => s.roundReply p .badSlot p.gen noTick []
  | some v =>
    let n := v.slot
    if p.attrs = v.acc.attrs then s.roundReply p .ok v.acc.gen noTick (addReply v.slot v.inc v.state v.hintRefused v.acc.attrs.key)
    else
      let g := if gInRange p.attrs v.acc.analogue then v.acc.analogue else gDefault p.attrs v.acc.analogue
      let acc := { v.acc with attrs := p.attrs, analogue := g, gen := v.acc.gen + 1 }
      let v' : Service := { v with
        acc := acc
        removedKinds := v.removedKinds ++
          (v.acc.attrs.bindings.map (·.kind.toNat)).filter (fun k => !bound p.attrs k) }
      let others := s.heldBut n
      let grows := !s.admits (others ++ [(v'.ahead, v.rx)]) && s.serviceCost v'.ahead v.rx != s.serviceCost v.ahead v.rx
      if v.state.costs && grows then s.roundReply p .noCapacity v.acc.gen noTick []
      else
        let s := s.modSvc n (fun _ => { v' with sched := v'.sched ++ [⟨1, acc⟩] })
        let s := if v.state.costs then s.modHints n v else s.modSvc n (fun v => { v with hintRefused := hintsBarred p.attrs })
        s.replySvc p n

/-! ### Losses of capacity -/

/-- A service whose reception can no longer be used moves to another input; where none serves, and no plan
that may come does, it is parked (R28, R90, R96, R119, R518). -/
def State.rescue (s : State) (n : Nat) : State :=
  match s.slotSvc? n with
  | none => s
  | some v =>
    if !v.state.costs || s.rxOk v.ahead v.rx then s
    else match v.migration with
      | some m => if s.rxOk v.ahead m.dest then s else s.park n 0x04
      | none => match s.choose v (s.heldBut n) with
        | none => if s.planHelps (v.ahead, v.rx) then s else s.park n 0x04
        | some pl =>
          let lost := v.honoured &&& pl.refused != 0
          let s := s.modSvc n (fun v => { v with honoured := pl.honoured })
          let s := if v.state == .placed && s.reserveFits (s.rxCost v pl.rx) then s.startMigration n pl.rx v.headDecode
            else if v.state == .admitted then s.modSvc n (fun v => { v with rx := pl.rx, diversity := pl.div })
            else s.park n 0x04
          if lost then s.hintLost n else s

/-- Whether a programme's decoding can move between mast and head (R44): PCM of a DAB or television source. -/
def Service.decodable (v : Service) : Bool := v.acc.attrs.bindings.any (fun b => b.kind == 1#8) && (let t := keyStd v.acc.attrs.key; t == 5 || t == 6 || t == 7)

/-- The services as they stand once the moves of decoding under way are done (R44). -/
def State.heldMoved (s : State) : List (Service × Reception) :=
  s.held.map (fun x => match x.1.migration with
    | some m => ({ x.1 with headDecode := m.toHead }, x.2)
    | none => x)

/-- The trunk load, and its admissible amount at a reserve. -/
def State.trunkOver (s : State) (pct : Nat) (vs : List (Service × Reception)) : Bool :=
  match s.load s.plan.plan true vs with
  | some l => decide ((s.admissible pct).getD 9 0 < l.getD 9 0)
  | none => false

/-- Decoding moves from mast to head in ascending priority while the trunk's class does not hold its load (R44). -/
def State.moveToHead : Nat → State → State
  | 0, s => s
  | k + 1, s =>
    if !s.isHead || !s.trunkOver s.holdingPct s.heldMoved then s
    else
      let can := s.services.filter (fun v => v.state == .placed && v.decodable && !v.headDecode && s.reserveFits (vec1 7 1))
      match (victimOrder can).head? with
      | none => s
      | some v => moveToHead k (s.startMigration v.slot v.rx true)

/-- Decoding moves back to the mast in descending priority while the trunk stays within 70 % (R44). -/
def State.moveToMast (s : State) : State :=
  if !s.isHead then s
  else
    let can := (victimOrder (s.services.filter (fun v => v.state == .placed && v.headDecode))).reverse
    match can.head? with
    | none => s
    | some v =>
      let vs := s.heldMoved.map (fun x => if x.1.slot = v.slot then ({ x.1 with headDecode := false }, x.2) else x)
      match s.load s.plan.plan true vs with
      | none => s
      | some l =>
        if l.getD 9 0 * 10 ≤ (s.admissible s.reservePct).getD 9 0 * 7 && s.reserveFits (vec1 7 1) then
          s.startMigration v.slot v.rx false
        else s

/-- Services are parked in victim order until the load fits the holding amounts (R25, R28). -/
def State.parkLoad : Nat → State → State
  | 0, s => s
  | k + 1, s =>
    let vs := s.heldMoved
    if vs.isEmpty || s.fitIn s.holdingPct vs then s
    else match (victimOrder (vs.map (·.1))).head? with
      | none => s
      | some v => parkLoad k (s.park v.slot 0x04)

/-- Losses of capacity (R23 step 3). -/
def State.losses (s : State) : State :=
  let s := ((s.services.filter (fun v => v.state.costs)).map (·.slot)).foldl (fun s n => s.rescue n) s
  let s := s.moveToHead 256
  s.parkLoad 256

/-- The reserve under which the load last fitted (R25). -/
def State.noteFit (s : State) : State :=
  if s.admits s.held then { s with place := { s.place with fitted := s.reservePct } } else s

/-! ### The round -/

/-- The services in REQUESTED that discovery brought there, in the order of their SERVICE_ADD (R23 step 4). -/
def State.foundOrder (s : State) : List Nat :=
  ((s.services.filter (fun v => v.state == .requested && !v.fresh)).mergeSort (fun a b => decide (a.addOrder ≤ b.addOrder))).map (·.slot)

/-- The parked services in the order of R27. -/
def State.parkedOrder (s : State) : List Nat :=
  ((s.services.filter (fun v => v.state == .parked)).mergeSort (fun a b =>
    decide (b.acc.attrs.priority.toNat < a.acc.attrs.priority.toNat) ||
      (a.acc.attrs.priority == b.acc.attrs.priority && decide (a.parkOrder ≤ b.parkOrder)))).map (·.slot)

/-- One placement round (R23). Removals were made when their commands were accepted (R37). -/
def State.placementRound (s : State) : State :=
  let serve := s.power.mode == .serve
  let ps := s.place.pending
  let s : State := { s with place := { s.place with pending := [] } }
  let s := (ps.filter (·.modify)).foldl State.roundModify s
  let s := s.losses
  let s := s.foundOrder.foldl (fun s n => s.roundFound serve n) s
  let s := if serve then s.parkedOrder.foldl (fun s n => (s.tryAdmit n 0x05 true).1) s else s
  let s := (ps.filter (fun p => !p.modify)).foldl (fun s p => s.roundAdd serve p) s
  let s := if serve then s.moveLanes.moveToMast else s
  s.noteFit

/-! ### Migration events -/

/-- A change waits for a zero crossing of each channel of a programme (R328). -/
def State.zcAdd (s : State) (p : Nat) (g : Prog) (k : ZcKind) : State :=
  let cs := (List.range g.channels).map (fun i => (⟨g.portSlot + i, k, s.time.dt⟩ : ZcChange))
  { s with audio := s.audio.modify p (fun a => { a with changes := a.changes ++ cs }) }

/-- A change of a service's programme where it plays on a port. -/
def State.zcSwitch (s : State) (v : Service) (k : ZcKind) : State :=
  match s.progOf v.field with
  | some (p, g) => if g.playing then s.zcAdd p g k else s
  | none => s

/-- MIGRATION_SWITCH (Table 1.11 step 4): the new placement, settled, delivers; its first unit carries SPLICE (R32). -/
def execMigrationSwitch (slot : Nat) (wait : Nat) (s : State) : Res :=
  .next <|
    match s.slotSvc? slot with
    | none => s
    | some v =>
      match v.migration with
      | none => s
      | some m =>
        if !m.settled || m.switched then s
        else
          let s := ((s.advance wait).flagStreams v.field fSplice).zcSwitch v .migration
          s.modSvc slot (fun v => { v with rx := m.dest, headDecode := m.toHead, migration := some { m with switched := true } })

/-- MIGRATION_RELEASE (Table 1.11 step 5): in the tick after the switch the old placement is released. -/
def execMigrationRelease (slot : Nat) (s : State) : Res :=
  .next <|
    match s.slotSvc? slot with
    | none => s
    | some v =>
      match v.migration with
      | none => s
      | some m =>
        if !m.switched then s
        else ((s.settleLanes slot).modSvc slot (fun v => { v with migration := none })).moveState slot .placed 0x09

/-- A migration is given up: the old placement stays, and a hint that it was to honour is not (R31, R33, R100). -/
def State.abandonMigration (s : State) (n : Nat) : State :=
  match s.slotSvc? n with
  | none => s
  | some v =>
    let a := v.acc.attrs
    let off0 := hinted a 0 && v.rx.input != a.hintInput.toNat
    let hon := if off0 then v.honoured &&& (0xFFFF - 1) else v.honoured
    ((s.dropJoining n).modSvc n (fun v => { v with migration := none, honoured := hon })).moveState n .placed 0x0A

/-- MIGRATION_ABANDON (R33): not settled within 2 s of step 2, which is one tick after the start. -/
def execMigrationAbandon (slot : Nat) (wait : Nat) (s : State) : Res :=
  .next <|
    match s.slotSvc? slot with
    | none => s
    | some v =>
      match v.migration with
      | none => s
      | some m =>
        let s' := s.advance wait
        if m.settled || decide (s'.now < m.started.toNat + 2001000000) then s else s'.abandonMigration slot

end Sys2Proof.Machine
end

