-- ==== Sys2Proof/Machine/Clocks.lean ====
section
/-! DEFINITION. The choice and change of the sampling plan (R87, R93 to R100), the synthesisers (R111 to R119), and the clock
commands. -/

namespace Sys2Proof.Machine

/-! ### Proposals (R93 to R95) -/

/-- EV_PLAN_PENDING (R95). -/
def State.planEvent (s : State) (proposed reason changeTick : Nat) : State :=
  s.raise 0x8002 noSlot (le 1 s.plan.plan ++ le 1 proposed ++ le 1 reason ++ zeros 5 ++ le 8 changeTick)

/-- A standing proposal ends; one that was announced is withdrawn (R93 to R95). -/
def State.dropProposal (s : State) : State :=
  match s.plan.proposal with
  | none => s
  | some p =>
    let s1 : State := { s with plan := { s.plan with proposal := none } }
    if p.announced then s1.planEvent s1.plan.plan p.reason 0 else s1

/-- The plan to propose and why (R93, R95): 0 ineligible, 1 spur hits, 2 image hits, 3 host command. -/
def State.wanted (s : State) (rank : List PlanRank) : Option (Nat × Nat) :=
  let cur := s.plan.plan
  let z : PlanRank := ⟨false, 0, [], []⟩
  let c := rank.getD cur z
  match (List.range 4).find? (fun p => (rank.getD p z).position == 1 && (rank.getD p z).eligible) with
  | none => none
  | some b =>
    let recent := match s.plan.lastChange with
      | some d => decide (s.now < d.toNat + 60000000000)
      | none => false
    if b = cur then none
    else if !c.eligible then some (b, if s.plan.hostMade then 3 else 0)
    else if recent then none
    else some (b, if c.spurHits = (rank.getD b z).spurHits then 2 else 1)

/-- The first tick that begins at least 1 s after now (R95). -/
def State.noticeTick (s : State) : Nat := (s.now + 1000000000 + 999999) / 1000000

/-- The plans are ranked, and a proposal is made, kept, replaced or withdrawn (R93 to R95). -/
def State.planRound (s : State) : State :=
  let rank := s.ranking
  let s : State := { s with plan := { s.plan with rank := rank } }
  if s.force.plan.policy = 0#8 || s.plan.deferEnd.isSome then s
  else match s.wanted rank with
    | none => s.dropProposal
    | some (b, r) =>
      if s.force.plan.policy = 1#8 then
        let same := match s.plan.proposal with | some p => p.plan == b && p.changeTick != 0 | none => false
        if same then s
        else ({ s with plan := { s.plan with proposal := some ⟨b, r, s.noticeTick, true⟩ } }).planEvent b r s.noticeTick
      else match s.plan.proposal with
        | some p => if p.plan = b then s else { s with plan := { s.plan with proposal := some ⟨b, r, s.tickNow + 1, false⟩ } }
        | none => { s with plan := { s.plan with proposal := some ⟨b, r, s.tickNow + 1, false⟩ } }

/-- Ranking takes part in the rounds of SERVE and RELAY (R93). -/
def State.planTick (s : State) : State :=
  if s.power.mode == .serve || s.power.mode == .relay then s.planRound else s

/-- The device leaves SERVE or RELAY: proposal and deferral end (R93). -/
def State.planLeave (s : State) : State :=
  let s1 := s.dropProposal
  { s1 with plan := { s1.plan with deferEnd := none } }

/-- PLAN_POLICY (R94, Table 15.17). PLAN counts under FIXED only. -/
def execPlanPolicy (h : CmdHdr) (params : Option PlanPolicyParams) (s : State) : Res :=
  .next (s.runCmd (gateNotRelay 0x0903) h fun s =>
    match params with
    | none => let p := s.force.plan; (s, answer .ok [p.policy, p.mask, p.plan, 0])
    | some p =>
      let m := p.mask &&& 0x0F#8
      let fixed := p.policy == 0#8
      s.refuseIf (decide (2 < p.policy.toNat) || m == 0#8 || (fixed && (decide (3 < p.plan.toNat) || !m.getLsbD p.plan.toNat))) .badParam <|
      s.commitDev (some 2) (fun a => { a with plan := ⟨p.policy, m, if fixed then p.plan else a.plan.plan⟩ }))

/-- PLAN_DEFER (R95), which acts at once. -/
def execPlanDefer (h : CmdHdr) (seconds : W16) (s : State) : Res :=
  .next (s.runCmd (gateNotRelay 0x0904) h fun s =>
    s.refuseIf (decide (600 < seconds.toNat)) .badParam <|
    s.refuseIf (s.plan.proposal.isNone && s.plan.deferEnd.isNone) .notFound <|
    if seconds = 0#16 then
      if s.plan.deferEnd.isNone then (s, answer .ok (le 8 0))
      else (({ s with plan := { s.plan with deferEnd := none } } : State).planTick, answer .ok (le 8 0))
    else
      let e := s.time.dt + BitVec.ofNat 64 (seconds.toNat * 1000000000)
      let prop := s.plan.proposal.map (fun p => { p with changeTick := 0 })
      ({ s with plan := { s.plan with deferEnd := some e, proposal := prop } }, answer .ok (le 8 e.toNat)))

/-- PLAN_DEFERRAL_END (R95): the plans are ranked again. -/
def execPlanDeferralEnd (wait : Nat) (s : State) : Res :=
  .next <|
    let s1 := s.advance wait
    match s.plan.deferEnd with
    | none => s
    | some e => if s1.now < e.toNat then s else ({ s1 with plan := { s1.plan with deferEnd := none } } : State).planTick

/-- PLAN_QUERY (R92, R94, Table 15.17). -/
def execPlanQuery (h : CmdHdr) (s : State) : Res :=
  .next (s.runCmd (gateAll 0x0905) h fun s =>
    let p := s.plan
    let prop := match p.proposal with | some x => (x.plan, x.reason, x.changeTick) | none => (0xFF, 0, 0)
    let rows := s.ranking.flatMap (fun r =>
      le 1 (if r.eligible then 1 else 0) ++ le 1 r.position ++ zeros 6 ++ r.spurHits.flatMap (fun n => le 1 (min n 255))
        ++ r.imageHits.flatMap (fun n => le 1 (min n 255)))
    (s, answer .ok (le 1 p.plan ++ le 1 prop.1 ++ le 1 prop.2.1 ++ [s.force.plan.policy, s.force.plan.mask] ++ zeros 3
      ++ le 8 prop.2.2 ++ le 8 (match p.deferEnd with | some e => e.toNat | none => 0) ++ rows)))

/-! ### Interruptions of RF sampling (R97 to R100, R117 to R119) -/

/-- A television or DAB engine that lost its lane's samples acquires again (R97, R193, R217), a DAB engine among the modes
allowed now (R205). -/
def Engine.restart (e : Engine) (dt : W64) (modes : Nat) : Engine :=
  match e with
  | .dab d => .dab { d with synced := false, modes := modes, notInMci := false, lostAt := some dt }
  | .tv t => .tv { t with synced := false, lostAt := some dt }

/-- A splice in preparation is abandoned and the service stays on its source (R100, R269). -/
def State.abandonSplice (s : State) (n : Nat) : State :=
  ((s.dropJoining n).modSvc n (fun v => { v with follow := { v.follow with splice := none } })).moveState n .placed 0x0C

/-- Migrations and splices on RF are abandoned (R100). -/
def State.abandonRf (s : State) : State :=
  s.services.foldl (fun s v =>
    if v.state == .migrating && (v.rx.input < 2 || (match v.migration with | some m => decide (m.dest.input < 2) | none => false)) then
      s.abandonMigration v.slot
    else if v.state == .following && v.rx.input < 2 then s.abandonSplice v.slot
    else s) s

/-- The streams of services received on RF carry the marks of R98 from the resumption on. -/
def State.markRf (s : State) (resume : W64) : State :=
  { s with streams := s.streams.map (fun x => match s.svc? x.slot with
      | some v => if v.rx.input < 2 then { x with resume := some resume } else x
      | none => x) }

/-- RF sampling stops; engines and lanes on RF start again at the resumption under the plan in force (R97, R98, R100). -/
def State.interruptRf (s : State) (durNs : Nat) : State :=
  let s := s.abandonRf
  let s := s.markRf (BitVec.ofNat 64 (s.now + durNs))
  let cs := s.carriers.map (fun c => if c.input < 2 then { c with engine := c.engine.restart s.time.dt (s.force.dab.nat 1) } else c)
  ({ s with carriers := cs }).restartLanes [0, 1]

/-- What a PLL-S run leaves (R118, R119): lock with the band found, or, after a third failure, the ADC clocks off and the
RF services lost. -/
def State.lockS (s : State) (lock : LockRun) : State :=
  let s := if lock.failures = 0 then s else s.refSay 0x0A 0 0xFF
  if lock.failures < 3 then
    let c : ClockSt := { s.clk with pllS := { s.clk.pllS with locked := true, band := lock.band }, adcOn := true, retry := false }
    { s with clk := c, place := { s.place with rfLost := false } }
  else
    let c : ClockSt := { s.clk with pllS := { s.clk.pllS with locked := false }, adcOn := false, retry := true }
    { s with clk := c, place := { s.place with rfLost := true } }

/-- EV_PLAN_CHANGED (R97). -/
def State.planChanged (s : State) (old : Nat) (stop resume : W64) : State :=
  s.raise 0x8003 noSlot (le 1 old ++ le 1 s.plan.plan ++ zeros 6 ++ le 8 stop.toNat ++ le 8 resume.toNat)

/-- The plan that a change is due to at the start of this tick: one forced by PLAN_POLICY, or a proposal at its change
tick (R94, R95). -/
def State.planDue (s : State) : Option Nat :=
  match s.plan.forced, s.plan.proposal with
  | some p, _ => some p
  | none, some p => if p.changeTick != 0 && decide (p.changeTick ≤ s.tickNow) && s.plan.deferEnd.isNone then some p.plan else none
  | none, none => none

/-- A plan comes into force. -/
def State.setPlan (s : State) (p : Nat) : State :=
  { s with plan := { s.plan with plan := p, proposal := none, deferEnd := none, lastChange := some s.time.dt, forced := none,
                                 hostMade := false } }

/-- PLAN_CHANGE (Table 3.7, Table 4.3). The step is whole: its events carry the DT of step 1, and RESUME_DT says when
sampling resumed (log entry 24). -/
def execPlanChange (lock : LockRun) (s : State) : Res :=
  .next <|
    match s.planDue with
    | none => s
    | some p =>
      let old := s.plan.plan
      let stop := s.time.dt
      let s := (s.abandonRf.setPlan p).lockS lock
      let s := s.interruptRf lock.durNs
      if lock.failures < 3 then s.planChanged old stop (BitVec.ofNat 64 (s.now + lock.durNs))
      else { s with clk := { s.clk with stopped := some (old, stop) } }

/-- PLL_S_LOCK_LOST (R117): the recalibration runs with the plan in force. -/
def execPllSLockLost (lock : LockRun) (wait : Nat) (s : State) : Res :=
  .next <|
    if !s.clk.pllS.locked || !s.clk.adcOn then s
    else
      let s := s.advance wait
      let c : ClockSt := { s.clk with pllS := { s.clk.pllS with locked := false, losses := sat32 (s.clk.pllS.losses + 1) }, stopped := none }
      let s := ({ s with clk := c } : State).lockS lock
      let s := s.interruptRf lock.durNs
      if lock.failures < 3 then s.refSay 0x09 0 0xFF else s

/-- PLL_S_RETRY (R119): the whole sequence again, 1 s after the last. -/
def execPllSRetry (lock : LockRun) (wait : Nat) (s : State) : Res :=
  .next <|
    if !s.clk.retry then s
    else
      let s := (s.advance wait).lockS lock
      if 3 ≤ lock.failures then s
      else
        let s := s.interruptRf lock.durNs
        match s.clk.stopped with
        | some (old, stop) =>
          ({ s with clk := { s.clk with stopped := none } } : State).planChanged old stop (BitVec.ofNat 64 (s.now + lock.durNs))
        | none => s.refSay 0x09 0 0xFF

/-- A PLAN_POLICY takes force (R94): proposal and deferral end, and under FIXED another plan comes into force, at once where
PLL-S does not run. -/
def State.planForce (s : State) (old : PlanPolicyParams) : State :=
  let new := s.force.plan
  if old = new then s
  else
    let s := s.planLeave
    let gone := old.mask.getLsbD s.plan.plan && !new.mask.getLsbD s.plan.plan
    let s : State := { s with plan := { s.plan with hostMade := gone || (s.plan.hostMade && !new.mask.getLsbD s.plan.plan) } }
    if new.policy != 0#8 || new.plan.toNat = s.plan.plan then { s with plan := { s.plan with forced := none } }
    else if s.sampling then { s with plan := { s.plan with forced := some new.plan.toNat } }
    else
      let was := s.plan.plan
      (s.setPlan new.plan.toNat).planChanged was s.time.dt s.time.dt

/-! ### Clock commands -/

/-- Whether the fields of a CLOCK_CONFIG are in range (Table 15.15). -/
def clockBodyOk : ClockBody → Bool
  | .lock _ w n => decide (1 ≤ w.toNat ∧ w.toNat ≤ 40 ∧ 64 ≤ n.toNat)
  | .clkout e dl d _ => decide (e.toNat ≤ 1 ∧ dl.toNat ≤ 4095 ∧ 10 ≤ d.toNat ∧ d.toNat ≤ 1024)
  | .ppsOut e q m => decide (e.toNat ≤ 1 ∧ q.toNat ≤ 1 ∧ 1 ≤ m.toNat ∧ m.toNat ≤ 500)
  | .adc _ d dl => decide (1 ≤ d.toNat ∧ d.toNat ≤ 16 ∧ dl.toNat ≤ 2047)
  | .other _ _ => false

/-- The settings after a CLOCK_CONFIG. -/
def clockBodyPut (b : ClockBody) (a : Settings) : Settings :=
  match b with
  | .lock g w n => if g then { a with lockG := ⟨w, n⟩ } else { a with lockS := ⟨w, n⟩ }
  | .clkout e dl d m => { a with clkout := ⟨e, dl, d, m⟩ }
  | .ppsOut e q m => { a with ppsOut := ⟨e, q, m⟩ }
  | .adc b d dl => if b then { a with adcB := some ⟨d, dl⟩ } else { a with adcA := some ⟨d, dl⟩ }
  | .other _ _ => a

/-- Whether a target is an ADC clock, which is set in MAINTAIN only and not stored. -/
def clockBodyAdc : ClockBody → Bool
  | .adc _ _ _ => true
  | _ => false

/-- CLOCK_CONFIG (R112 to R115, R407, Table 15.15). -/
def execClockConfig (h : CmdHdr) (body : ClockBody) (s : State) : Res :=
  .next (s.runCmd ⟨0x0805, .none, if clockBodyAdc body then [.maintain] else allModes, .none⟩ h fun s =>
    s.refuseIf (!clockBodyOk body) .badParam <|
    s.commitDev (if clockBodyAdc body then none else some 1) (clockBodyPut body))

/-- The sample rate of an audio port in 0.1 kHz (Table 11.1 item 2). -/
def portRate (t : ItemTable) : Nat := [320, 441, 480, 960].getD (t.nat 2 2) 480
/-- The MCLK ratio of an audio port (Table 11.1 item 3). -/
def portRatio (t : ItemTable) : Nat := [128, 256, 512, 1024].getD (t.nat 3 1) 256
/-- Whether a port is MASTER. -/
def portMaster (t : ItemTable) : Bool := t.nat 1 == 0

/-- D and M of an MCLK in VCO periods of 2,457.6 MHz, steered by y in 0.001 ppm (R113, R323). -/
def mclkDivider (t : ItemTable) (y : Int) : Nat × Nat :=
  let f := portRatio t * portRate t * 100
  let num := 2457600000 * 1000000000
  let den := f * (1000000000 + y).toNat
  (num / den, num % den * 2 ^ 32 / den)

/-- The delay of the trunk clock at the mast: what whole samples leave of the advance, in steps of 1/64 VCO period
(R336). -/
def State.trunkDelay (s : State) : Nat :=
  if s.isMast then ((s.trunk.a * 1572864 / 100000) % 768).toNat else 0

/-- CLOCK_QUERY (R130, Table 4.1, Table 15.16). -/
def execClockQuery (h : CmdHdr) (s : State) : Res :=
  .next (s.runCmd (gateAll 0x0806) h fun s =>
    let c := s.clk
    let f := s.force
    let pll (p : PllSt) (l : LockCfg) : List Byte := le 1 (if p.locked then 1 else 0) ++ le 1 p.band ++ le 2 l.window.toNat ++ le 4 p.losses
    let row (en : Bool) (delay d m : Nat) : List Byte := le 1 (if en then 1 else 0) ++ [0] ++ le 2 delay ++ le 4 d ++ le 4 m ++ zeros 4
    let adc (x : Option AdcClkCfg) (delay : Nat) : List Byte := match x with
      | some a => if s.power.mode == .maintain then row c.adcOn a.delay.toNat a.divider.toNat 0 else row c.adcOn delay 2 0
      | none => row c.adcOn delay 2 0
    let tdm := (List.range 4).flatMap (fun i =>
      let t := f.audio.getD i []
      let a := s.audio.getD i AudioSt.reset
      let on := portMaster t || (t.nat 4 == 1 && a.state != 0)
      let dm := mclkDivider t (if portMaster t then a.y else 0)
      row on 0 dm.1 dm.2)
    (s, answer .ok (pll c.pllS f.lockS ++ pll c.pllG f.lockG ++ le 2 f.lockS.n.toNat ++ le 2 f.lockG.n.toNat ++ zeros 4
      ++ adc f.adcA 0 ++ adc f.adcB s.cal.clocks.delayB ++ row true 0 2 0 ++ row s.trunkOn s.trunkDelay 12 0
      ++ row s.sampling s.cal.clocks.delayLf 20 0 ++ tdm ++ row (f.clkout.enable == 1#8) f.clkout.delay.toNat f.clkout.d.toNat f.clkout.m.toNat)))

end Sys2Proof.Machine
end

