-- ==== Sys2Proof/Machine/Side.lean ====
section
/-! DEFINITION. What the engines share (chapters 6 to 8): side-data records (R241), the marks of an engine's streams, the
carriers in reception, and item lists that belong to a slot. -/

namespace Sys2Proof.Machine

/-! ### Streams -/

/-- A side-data record of a service whose side-data stream is open (R241). -/
def State.sideRec (s : State) (f : W16) (stamp : W64) (type : Nat) (check : Bool) (body : List Byte) : State :=
  if (s.stream? f 6).isSome then { s with side := s.side ++ [⟨f, stamp, type, check, body⟩] } else s

/-- The next unit of every stream of the kinds named carries GAP_BEFORE. -/
def State.gapKinds (s : State) (f : W16) (kinds : List Nat) : State :=
  kinds.foldl (fun s k => s.modStream f k (fun x => { x with flags := x.flags ||| fGap })) s

/-- The stream kinds that an engine's content makes: those that a loss of reception interrupts. -/
def engineKinds : List Nat := [1, 2, 3, 4, 5]

/-- The PCM of a service carries UNSETTLED again: for two Layer II or television frames, or two DAB+ superframes (R207,
R238). -/
def State.unsettlePcm (s : State) (v : Service) : State :=
  let plus := keyStd v.attrs.key == 5 && v.rx.audio == 2
  s.modStream v.field 1 (fun x => { x with settleNs := if plus then 240000000 else 0, settleUnits := if plus then 0 else 2 })

/-- The first unit after a change of an engine's output carries GAP_BEFORE, and PCM is to settle again. -/
def State.interrupted (s : State) (v : Service) : State := (s.gapKinds v.field engineKinds).unsettlePcm v

/-- An ITEM entry of Table 10.8. -/
def StatItem_bytes (x : StatItem) : List Byte := le 1 x.table ++ le 1 x.row ++ le 1 x.sub ++ le 1 x.value.length ++ x.value

/-! ### Carriers -/

/-- The services that hold costs and are received from a carrier. -/
def State.carrierSvcs (s : State) (carrier : W64) : List Service :=
  s.services.filter (fun v => v.state.costs && v.rx.carrier == carrier)

/-- The receptions that a service's engines run on, with the standard of each: where it is received, where it migrates to,
and the target of a splice. -/
def Service.receptions (v : Service) : List (Nat × Reception) :=
  let std := keyRxStd v.attrs.key
  let mig := match v.migration with | some m => [(std, m.dest)] | none => []
  let spl := match v.follow.splice with | some x => [(keyRxStd x.target.key, x.dest)] | none => []
  if !v.state.costs then [] else ((std, v.rx) :: (mig ++ spl)).filter (fun r => r.2.carrier != 0#64)

/-- The signalling of a multiplex before any is received. -/
def TvSignal_none (std : Nat) : TvSignal := ⟨std, 8, 0#64, 0, [], false, []⟩

/-- An engine that begins to acquire (Tables 7.2 and 8.3). -/
def State.newEngine (s : State) (std : Nat) (rx : Reception) (div : Bool) : Engine :=
  if std = 5 then
    .dab ⟨false, s.force.dab.nat 1, false, 0, 0#16, 0, [], [], none, [], s.time.dt, none, none, 0, 0, 0, 0⟩
  else
    .tv ⟨false, false, rx.signal.getD (TvSignal_none (if std = 7 then 2 else 0)), if div then 2 else 1, 0, s.time.dt, none, 0, 0⟩

/-- Whether a carrier's engine serves a reception. -/
def CarrierSt.serves (c : CarrierSt) (r : Reception) : Bool := c.key == r.carrier && c.input == r.input && c.freqKhz == r.freqKhz

/-- A branch is added to a running engine or withdrawn (R219). -/
def CarrierSt.branch (c : CarrierSt) (div : Bool) : CarrierSt :=
  match c.engine with
  | .tv t => { c with engine := .tv { t with branches := if div then 2 else 1, branchLost := if div then t.branchLost else 0 } }
  | .dab _ => c

/-- One service's engines are placed. -/
def State.layEngines (s : State) (v : Service) : State :=
  v.receptions.foldl (fun s x =>
    let r := x.2
    if s.carriers.any (fun c => c.serves r) then s
    else { s with carriers := s.carriers ++ [⟨r.carrier, r.freqKhz, r.input, s.newEngine x.1 r v.diversity, none⟩] }) s

/-- The engines as a tick begins: one for each carrier that a service is received from, with a second branch where one of
its services is in diversity (R188, R211, R219). -/
def State.layCarriers (s : State) : State :=
  let want := (s.services.flatMap (·.receptions)).map (·.2)
  let s : State := { s with carriers := s.carriers.filter (fun c => want.any c.serves) }
  let s := s.services.foldl (fun s v => s.layEngines v) s
  { s with carriers := s.carriers.map (fun c =>
      c.branch (s.services.any (fun v => v.diversity && v.receptions.any (fun x => c.serves x.2)))) }

/-- The first carrier state of a key that meets a condition, changed. -/
def modFirst (key : W64) (p : CarrierSt → Bool) (f : CarrierSt → CarrierSt) : List CarrierSt → List CarrierSt
  | [] => []
  | c :: cs => if c.key == key && p c then f c :: cs else c :: modFirst key p f cs

/-- The DAB engine of a carrier that meets a condition. -/
def State.dab? (s : State) (key : W64) (p : DabEngine → Bool) : Option DabEngine :=
  s.carriers.findSome? (fun c => match c.engine with
    | .dab d => if c.key == key && p d then some d else none
    | .tv _ => none)

/-- The television engine of a carrier that meets a condition. -/
def State.tv? (s : State) (key : W64) (p : TvEngine → Bool) : Option TvEngine :=
  s.carriers.findSome? (fun c => match c.engine with
    | .tv d => if c.key == key && p d then some d else none
    | .dab _ => none)

/-- The first DAB engine of a carrier that meets a condition is replaced. -/
def State.setDab (s : State) (key : W64) (p : DabEngine → Bool) (d : DabEngine) : State :=
  { s with carriers := modFirst key (fun c => match c.engine with | .dab x => p x | .tv _ => false)
              (fun c => { c with engine := .dab d }) s.carriers }

/-- The first television engine of a carrier that meets a condition is replaced. -/
def State.setTv (s : State) (key : W64) (p : TvEngine → Bool) (d : TvEngine) : State :=
  { s with carriers := modFirst key (fun c => match c.engine with | .tv x => p x | .dab _ => false)
              (fun c => { c with engine := .tv d }) s.carriers }

/-- The engine that a service is received on. -/
def State.engineOf (s : State) (v : Service) : Option Engine :=
  (s.carriers.find? (fun c => c.serves v.rx)).map (·.engine)

/-- DT is at least `ns` after a moment. -/
def State.elapsed (s : State) (since : W64) (ns : Nat) : Bool := decide (since.toNat + ns ≤ s.now)

/-! ### Item lists of a slot -/

/-- A settings command whose items each have a scope (R409 to R411): reading back gives the items that apply. -/
def State.scopedCmd (s : State) (tbl : List ItemSpec) (applies : Nat → Bool) (force acc : ItemTable) (items : List Item)
    (put : ItemTable → State × Answer) : State × Answer :=
  if items.isEmpty then
    (s, answer .ok (itemsBytes ((encodeItems 1 tbl force).filter (fun i => applies i.item.toNat))))
  else s.itemCmd tbl applies [] force acc items put

end Sys2Proof.Machine
end

