-- ==== Sys2Proof/Machine/Carriers.lean ====
section
/-! DEFINITION. DAB and television engines (chapters 7 and 8): acquisition, loss, reconfiguration, and their settings and
queries. What FIBs and sections say is in Parse. -/

namespace Sys2Proof.Machine

/-! ### DAB -/

/-- The MCI hold time (Table 7.3). -/
def State.mciHoldNs (s : State) : Nat := s.force.dab.nat 2 10 * 1000000000

/-- Whether a mode I to IV is in an allowed-mode mask (R191). -/
def dabModeIn (mask mode : Nat) : Bool := decide (1 ≤ mode ∧ mode ≤ 4) && mask.testBit (mode - 1)

/-- The component that a DAB key names (R6, R196). -/
def DabEngine.comp? (d : DabEngine) (key : W64) : Option DabComp :=
  d.comps.find? (fun c => c.sid.toNat == key.toNat % 2 ^ 32 && c.scids == key.toNat / 2 ^ 48 % 16)

/-- The sub-channel that the MCI gives for a DAB key (R196). -/
def DabEngine.subCh? (d : DabEngine) (key : W64) : Option SubCh :=
  (d.comp? key).bind (fun c => d.subChs.find? (fun x => x.id == c.subCh))

/-- A DAB engine without the MCI that it held. -/
def DabEngine.forget (d : DabEngine) : DabEngine := { d with eid := 0#16, subChs := [], comps := [], nextMci := none, support := [] }

/-- DAB_SYNCHRONISED (R191, R193): step 3 of Table 7.2 in a mode that the acquisition allows. The MCI of a lost ensemble
stays for the hold time. -/
def execDabSynchronised (carrier : W64) (mode : Nat) (wait : Nat) (s : State) : Res :=
  .next <|
    let p (d : DabEngine) : Bool := !d.synced && dabModeIn d.modes mode
    match s.dab? carrier p with
    | none => s
    | some d =>
      let s := s.advance wait
      let gone := match d.lostAt with | some t => s.elapsed t s.mciHoldNs | none => false
      let d1 := if gone then d.forget else d
      let s1 := s.setDab carrier p { d1 with synced := true, txMode := mode, step4 := some s.time.dt, notInMci := false, lostAt := none }
      (s1.carrierSvcs carrier).foldl State.unsettlePcm s1

/-- DAB_SYNC_LOSS (R193): the engine acquires again among the modes allowed now; every stream is interrupted. -/
def execDabSyncLoss (carrier : W64) (wait : Nat) (s : State) : Res :=
  .next <|
    let p (d : DabEngine) : Bool := d.synced
    match s.dab? carrier p with
    | none => s
    | some d =>
      let s := s.advance wait
      let d1 : DabEngine := { d with
        synced := false
        modes := s.force.dab.nat 1 15
        notInMci := false
        lostAt := some s.time.dt
        losses := sat32 (d.losses + 1) }
      let s1 := s.setDab carrier p d1
      (s1.carrierSvcs carrier).foldl State.interrupted s1

/-- DAB_SEARCH_TIMEOUT (R192): 10 s after step 4 the engine reports NOT_IN_MCI for a service that the MCI has not
described; without step 3 it goes on reporting SEARCHING. -/
def execDabSearchTimeout (carrier : W64) (wait : Nat) (s : State) : Res :=
  .next <|
    let s1 := s.advance wait
    let p (d : DabEngine) : Bool := d.synced && (match d.step4 with | some t => s1.elapsed t 10000000000 | none => false)
    match s.dab? carrier p with
    | none => s
    | some d => s1.setDab carrier p { d with notInMci := true }

/-- Whether a reconfiguration restarts a sub-channel: anything but its start address changed (R195). -/
def subRestarts (old new : Option SubCh) : Bool :=
  match old, new with
  | some a, some b => a.id != b.id || a.size != b.size || a.protection != b.protection
  | some _, none => true
  | none, _ => false

/-- A service's streams after a reconfiguration (R195). -/
def State.dabReconfigured (old new : DabEngine) (s : State) (v : Service) : State :=
  if keyStd v.attrs.key = 9 then
    if old.subChs.any (fun a => subRestarts (some a) (new.subChs.find? (fun b => b.id == a.id))) then s.gapKinds v.field [5] else s
  else if subRestarts (old.subCh? v.attrs.key) (new.subCh? v.attrs.key) then s.interrupted v
  else s

/-- DAB_RECONFIGURATION (R195): at the CIF count that FIG 0/0 gave, the next MCI comes into force. -/
def execDabReconfiguration (carrier : W64) (cif : Nat) (wait : Nat) (s : State) : Res :=
  .next <|
    let p (d : DabEngine) : Bool := d.synced && (match d.nextMci with | some (c, _) => c == cif | none => false)
    match s.dab? carrier p with
    | none => s
    | some d =>
      match d.nextMci with
      | none => s
      | some (c, subs, comps) =>
        let d1 : DabEngine := { d with
          cif := c
          subChs := if subs.isEmpty then d.subChs else subs
          comps := if comps.isEmpty then d.comps else comps
          nextMci := none
          reconfigs := sat32 (d.reconfigs + 1) }
        let s1 := (s.advance wait).setDab carrier p d1
        (s1.carrierSvcs carrier).foldl (State.dabReconfigured d d1) s1

/-- Whether a DAB item applies (Table 7.3); items 1 and 2 are the device's. -/
def dabApplies (a : AttrBlock) (i : Nat) : Bool :=
  let dab := keyRxStd a.key == 5
  match i with
  | 3 | 4 => dab && bound a 1
  | 5 => dab && bound a 6
  | 6 => keyStd a.key == 5
  | _ => false

/-- DAB_CONFIG (R205, Table 7.3). -/
def execDabConfig (h : CmdHdr) (items : List Item) (s : State) : Res :=
  .next (s.runCmd ⟨0x0A09, .either, notRelay, .none⟩ h fun s =>
    match s.svc? h.slot with
    | none => s.scopedCmd tbl73 (fun i => decide (i ≤ 2)) s.force.dab s.acc.dab items fun t => s.commitDev none (fun a => { a with dab := t })
    | some v =>
      s.scopedCmd tbl73 (dabApplies v.acc.attrs) v.force.dab v.acc.dab items fun t => s.commitSvc v.slot (fun a => { a with dab := t }))

/-- The engine values of a service's table over the last tick (R187, R208, R239). -/
def Service.tableValues (v : Service) (table : Nat) : List StatItem := v.values.filter (fun x => x.table == table)

/-- DAB_QUERY (R192, R208). -/
def execDabQuery (h : CmdHdr) (s : State) : Res :=
  .next (s.runCmd ⟨0x0A0A, .service, allModes, .none⟩ h fun s =>
    match s.svc? h.slot with
    | none => refuse s .badSlot
    | some v =>
      s.refuseIf (keyRxStd v.acc.attrs.key != 5) .badParam <|
      let items := v.tableValues 0x75
      let tail := le 2 items.length ++ items.flatMap StatItem_bytes
      match s.engineOf v with
      | some (.dab d) =>
        let missing := keyStd v.acc.attrs.key == 5 && (d.subCh? v.acc.attrs.key).isNone
        let st := if !d.synced then 0 else if d.notInMci && missing then 1 else 2
        (s, answer .ok (le 1 st ++ le 1 d.txMode ++ le 2 d.eid.toNat ++ le 2 d.cif ++ tail))
      | _ => (s, answer .ok (zeros 6 ++ tail)))

/-! ### Television -/

/-- The hold time of TV_CONFIG (Table 8.7). -/
def State.tvHoldNs (s : State) : Nat := s.force.tv.nat 1 10 * 1000000000

/-- The part of the signalling that SIG carries (Table 10.7 type 0x07): TPS, L1-pre or L1-basic. -/
def sigPart (std : Nat) : Nat := if std = 2 then 3 else std

/-- The side-data record of a multiplex's signalling (Table 10.7). -/
def sigBody (t : TvSignal) : List Byte := le 1 t.std ++ le 1 (sigPart t.std) ++ zeros 2 ++ t.sig

/-- The signalling reaches the services of a multiplex: what they are charged (R19, R218), and their side data. -/
def State.signalled (s : State) (carrier : W64) (t : TvSignal) : State :=
  let vs := s.carrierSvcs carrier
  let s := vs.foldl (fun s v => s.modSvc v.slot (fun v => { v with rx := { v.rx with signal := some t } })) s
  vs.foldl (fun s v => s.sideRec v.field s.time.dt 7 true (sigBody t)) s

/-- TV_SYNCHRONISED (R215, R217, R219): step 3 of Table 8.3, a return within the hold time, or the return of a branch,
which sets no mark. -/
def execTvSynchronised (carrier : W64) (t : TvSignal) (wait : Nat) (s : State) : Res :=
  .next <|
    let p (d : TvEngine) : Bool := !d.synced
    match s.tv? carrier p with
    | some d =>
      let s := (s.advance wait).setTv carrier p { d with synced := true, unsupported := t.unsupported, signal := t, branchLost := 0, lostAt := none }
      (s.carrierSvcs carrier).foldl State.unsettlePcm (s.signalled carrier t)
    | none =>
      let q (d : TvEngine) : Bool := d.branchLost != 0
      match s.tv? carrier q with
      | some d => (s.advance wait).setTv carrier q { d with branchLost := 0 }
      | none => s

/-- TV_SYNC_LOSS (R217, R219, R224): in diversity a first branch is lost without a gap; otherwise the engine acquires
again. -/
def execTvSyncLoss (carrier : W64) (wait : Nat) (s : State) : Res :=
  .next <|
    let p (d : TvEngine) : Bool := d.synced
    match s.tv? carrier p with
    | none => s
    | some d =>
      let s := s.advance wait
      if d.branchLost + 1 < d.branches then s.setTv carrier p { d with branchLost := d.branchLost + 1 }
      else
        let d1 : TvEngine := { d with synced := false, branchLost := 0, lostAt := some s.time.dt, losses := sat32 (d.losses + 1) }
        let s1 := s.setTv carrier p d1
        (s1.carrierSvcs carrier).foldl State.interrupted s1

/-- TV_SEARCH_TIMEOUT (R215): the engine keeps searching, and goes on reporting SEARCHING. -/
def execTvSearchTimeout (carrier : W64) (wait : Nat) (s : State) : Res :=
  .next <| if (s.tv? carrier (fun d => !d.synced)).isSome then s.advance wait else s

/-- Whether a PLP's layout, modulation, code or interleaving changed (R218). -/
def plpRestarts (a b : Plp) : Bool :=
  a.netKbps != b.netKbps || a.rateNum != b.rateNum || a.rateDen != b.rateDen || a.bits != b.bits || a.spanNs != b.spanNs
    || a.group != b.group || a.common != b.common

/-- A service's streams after a reconfiguration of its multiplex: interrupted where a PLP delivered to it restarts. -/
def State.tvReconfigured (t : TvSignal) (s : State) (v : Service) : State :=
  if (v.plps v.rx).any (fun p => match t.plps.find? (fun q => q.id == p.id) with | some q => plpRestarts p q | none => true) then
    s.interrupted v
  else s

/-- TV_RECONFIGURATION (R214, R218): the new signalling applies from the frame that it names. -/
def execTvReconfiguration (carrier : W64) (t : TvSignal) (wait : Nat) (s : State) : Res :=
  .next <|
    let p (d : TvEngine) : Bool := d.synced
    match s.tv? carrier p with
    | none => s
    | some d =>
      let s := (s.advance wait).setTv carrier p { d with signal := t, unsupported := t.unsupported, reconfigs := sat32 (d.reconfigs + 1) }
      ((s.carrierSvcs carrier).foldl (State.tvReconfigured t) s).signalled carrier t

/-- Whether a television item applies (R236, Table 8.7); item 1 is the device's. -/
def tvApplies (a : AttrBlock) (i : Nat) : Bool :=
  let std := keyStd a.key
  let tv := std == 6 || std == 7
  match i with
  | 2 => std == 9 && keyCarrier a.key == 7
  | 3 => tv && (bound a 1 || bound a 2)
  | 4 | 5 => tv && bound a 1
  | 6 => std == 9 && keyCarrier a.key == 6
  | 7 => std == 6 || (std == 9 && keyCarrier a.key == 6)
  | _ => false

/-- A change of the audio component makes PCM settle again from its effective tick (R238). -/
def State.tvChanged (s : State) (v : Service) (t : ItemTable) : State :=
  if t.at 3 != v.force.tv.at 3 then s.unsettlePcm v else s

/-- TV_CONFIG (R236, Table 8.7). -/
def execTvConfig (h : CmdHdr) (items : List Item) (s : State) : Res :=
  .next (s.runCmd ⟨0x0A0B, .either, notRelay, .none⟩ h fun s =>
    match s.svc? h.slot with
    | none => s.scopedCmd tbl87 (fun i => i == 1) s.force.tv s.acc.tv items fun t => s.commitDev none (fun a => { a with tv := t })
    | some v =>
      s.scopedCmd tbl87 (tvApplies v.acc.attrs) v.force.tv v.acc.tv items fun t => s.commitSvc v.slot (fun a => { a with tv := t }))

/-- Whether a service's selected audio component cannot be decoded to PCM (R233). -/
def Service.notDecodable (v : Service) : Bool := bound v.attrs 1 && v.rx.audio == 3

/-- The four PLP_ID bytes of TV_QUERY. -/
def plpIds (ps : List Plp) : List Byte :=
  (ps.take 4).map (fun p => BitVec.ofNat 8 p.id) ++ List.replicate (4 - (ps.take 4).length) 0xFF#8

/-- TV_QUERY (R214, R215, R233, R239). Signalling is reported while it is held (R217). -/
def execTvQuery (h : CmdHdr) (s : State) : Res :=
  .next (s.runCmd ⟨0x0A0C, .service, allModes, .none⟩ h fun s =>
    match s.svc? h.slot with
    | none => refuse s .badSlot
    | some v =>
      let std := keyRxStd v.acc.attrs.key
      s.refuseIf (std != 6 && std != 7) .badParam <|
      let items := v.tableValues 0x89
      let vals := items.flatMap StatItem_bytes
      match s.engineOf v with
      | some (.tv d) =>
        let st := if !d.synced then 0 else if d.unsupported then 2 else if v.notDecodable then 3 else 1
        let held := match d.lostAt with | some t => !s.elapsed t s.tvHoldNs | none => true
        let sig := if held then d.signal.sig else []
        let ps := v.plps v.rx
        (s, answer .ok (le 1 st ++ le 1 d.signal.std ++ le 1 d.signal.bandwidth ++ le 1 (min 4 ps.length) ++ plpIds ps
          ++ le 2 items.length ++ le 2 sig.length ++ pad4 sig ++ vals))
      | _ => (s, answer .ok (le 1 0 ++ le 1 (if std = 7 then 2 else 0) ++ zeros 2 ++ plpIds [] ++ le 2 items.length ++ zeros 2 ++ vals)))

end Sys2Proof.Machine
end

