-- ==== Sys2Proof/Machine/Analogue.lean ====
section
/-! DEFINITION. FM, AM and keyed time-code reception (chapter 6): engine settings, the pilot, RDS and SYNC states, and
time-code formats and frames. What RDS groups say is in Parse. -/

namespace Sys2Proof.Machine

/-! ### Settings -/

/-- Whether a service is FM with a stereo and an RDS decoder (R163). -/
def fmStereo (a : AttrBlock) : Bool := keyStd a.key == 1 || (keyStd a.key == 2 && !attrBit a 3)

/-- Whether an item of Table 6.1 applies to a service. -/
def analogueApplies (a : AttrBlock) (i : Nat) : Bool :=
  let std := keyStd a.key
  match i with
  | 1 | 5 => std == 1 || std == 2
  | 2 | 3 | 4 | 6 => fmStereo a
  | 7 | 8 => std == 3
  | 9 | 10 => std == 1 || std == 2 || std == 3
  | 11 | 12 => std == 4
  | _ => false

/-- The cross-item conditions of Table 6.1. -/
def analogueOk (a : AttrBlock) (t : ItemTable) : Bool := decide (t.nat 4 + 6 ≤ t.nat 3) && gInRange a t

/-- ANALOGUE_CONFIG (R164). -/
def execAnalogueConfig (h : CmdHdr) (items : List Item) (s : State) : Res :=
  .next (s.runCmd ⟨0x0A05, .service, notRelay, .none⟩ h fun s =>
    match s.svc? h.slot with
    | none => refuse s .badSlot
    | some v =>
      s.scopedCmd tbl61 (analogueApplies v.acc.attrs) v.force.analogue v.acc.analogue items fun t =>
        s.refuseIf (!analogueOk v.acc.attrs t) .badParam <|
        s.commitSvc v.slot (fun a => { a with analogue := t }))

/-- The engine latency of FM and AM PCM in 0.1 ms (Table 6.3). -/
def pcmLatency (a : AttrBlock) (t : ItemTable) : Nat :=
  let am := keyStd a.key == 3
  if a.latency = 0#8 then (if am then 6 else 4) else (if am then 25 else 15) + 10 * t.nat 10

/-- The settings of a service as they change in force: PCM whose latency falls has a gap (R164). -/
def State.analogueChanged (s : State) (v : Service) (new : SvcSettings) : State :=
  let std := keyStd v.attrs.key
  if (std == 1 || std == 2 || std == 3) && decide (pcmLatency new.attrs new.analogue < pcmLatency v.force.attrs v.force.analogue) then
    s.gapKinds v.field [1]
  else s

/-- The blend factor of the last tick (Table 6.9 row 7). -/
def Service.blend (v : Service) : Nat :=
  match v.values.find? (fun x => x.table == 0x69 && x.row == 7) with | some x => unle (x.value.take 2) | none => 0

/-- ANALOGUE_QUERY (R187). -/
def execAnalogueQuery (h : CmdHdr) (s : State) : Res :=
  .next (s.runCmd ⟨0x0A06, .service, allModes, .none⟩ h fun s =>
    match s.svc? h.slot with
    | none => refuse s .badSlot
    | some v =>
      let std := keyStd v.acc.attrs.key
      s.refuseIf (std == 0 || decide (4 < std)) .badParam <|
      let a := v.analogue
      let items := v.tableValues 0x69
      let st := (if a.pilot then 1 else 0) + (if a.rdsSync then 2 else 0) + (if a.syncLock then 4 else 0)
      (s, answer .ok (le 1 st ++ le 1 (a.tcReason.getD 0xFF) ++ le 2 v.blend ++ le 2 items.length ++ zeros 2
        ++ le 8 (match a.tcLabel with | some d => d.toNat | none => 0) ++ items.flatMap StatItem_bytes)))

/-! ### States of the engines -/

/-- The analogue engine of a service that holds costs and meets a condition, changed. -/
def State.modAnalogue (s : State) (slot wait : Nat) (p : Service → Bool) (f : AnalogueSt → AnalogueSt) : State :=
  match s.slotSvc? slot with
  | none => s
  | some v =>
    if v.state.costs && p v then (s.advance wait).modSvc slot (fun v => { v with analogue := f v.analogue }) else s

/-- RDS_SYNCHRONISATION (R171). -/
def execRdsSynchronisation (slot : Nat) (wait : Nat) (s : State) : Res :=
  .next (s.modAnalogue slot wait (fun v => fmStereo v.attrs && !v.analogue.rdsSync) (fun a => { a with rdsSync := true }))

/-- RDS_SYNC_LOSS (R171): the loss is counted. -/
def execRdsSyncLoss (slot : Nat) (wait : Nat) (s : State) : Res :=
  .next (s.modAnalogue slot wait (fun v => v.analogue.rdsSync)
    (fun a => { a with rdsSync := false, rdsLosses := sat32 (a.rdsLosses + 1) }))

/-- PILOT_STATE_CHANGE (R167): under Stereo AUTO. -/
def execPilotStateChange (slot : Nat) (present : Bool) (wait : Nat) (s : State) : Res :=
  .next (s.modAnalogue slot wait (fun v => fmStereo v.attrs && v.force.analogue.nat 2 == 0) (fun a => { a with pilot := present }))

/-- AM_SYNC_LOCK (R174, R180): with lock, PCM is settled. -/
def execAmSyncLock (slot : Nat) (locked : Bool) (wait : Nat) (s : State) : Res :=
  .next <|
    let p (v : Service) : Bool := keyStd v.attrs.key == 3 && v.force.analogue.nat 7 1 != 0 && v.analogue.syncLock != locked
    let s1 := s.modAnalogue slot wait p (fun a => { a with syncLock := locked })
    match s.slotSvc? slot with
    | some v => if v.state.costs && p v && locked then s1.modStream v.field 1 (fun x => { x with settleNs := 0 }) else s1
    | none => s1

/-! ### Time-code formats -/

/-- A class of a built-in format. -/
def tcClass (lo hi : W16) (m : Byte) : TcClass := ⟨lo, hi, m⟩
/-- A field of a built-in format. -/
def tcField (kind first len coding : Byte) : TcField := ⟨kind, first, len, coding, 0#8, 0xFF#8⟩
/-- A parity check of a built-in format. -/
def tcParity (kind first len check : Byte) : TcField := ⟨kind, first, len, 0#8, 0#8, check⟩

/-- Built-in format 0 (Table 6.8). -/
def format0 : TcFormat where
  format := 0#8
  version := 1#8
  symbols := 60#8
  symbolPeriod := 1000#16
  keying := 0#8
  thresholdPct := 50#8
  nClasses := 4#8
  frameMarkPos := 59#8
  labelRef := 0#8
  timeScale := 0#8
  stdOffsetMin := 0#16
  baseYear := 2000#16
  class0 := tcClass 70#16 150#16 0#8
  class1 := tcClass 170#16 300#16 1#8
  class2 := tcClass 400#16 600#16 2#8
  class3 := tcClass 0#16 0#16 3#8
  fields :=
    [tcField 1 1 7 0, tcField 2 10 6 0, tcField 3 20 6 0, tcField 4 26 5 0, tcField 5 31 8 0, tcField 6 40 3 2,
     tcField 8 44 1 0, tcParity 0x10 1 7 8, tcParity 0x10 10 6 16, tcParity 0x10 20 19 39]

/-- Built-in format 1 (Table 6.8). -/
def format1 : TcFormat where
  format := 1#8
  version := 1#8
  symbols := 60#8
  symbolPeriod := 1000#16
  keying := 1#8
  thresholdPct := 50#8
  nClasses := 4#8
  frameMarkPos := 0#8
  labelRef := 1#8
  timeScale := 0#8
  stdOffsetMin := 0#16
  baseYear := 2000#16
  class0 := tcClass 150#16 250#16 0#8
  class1 := tcClass 420#16 580#16 1#8
  class2 := tcClass 720#16 880#16 2#8
  class3 := tcClass 0#16 0#16 3#8
  fields :=
    [tcField 1 2 7 1, tcField 2 12 6 1, tcField 3 21 6 1, tcField 4 30 5 1, tcField 5 40 8 1, tcField 8 52 1 0,
     tcParity 0x11 2 46 50]

/-- A time-code format: built in, or loaded and in force (R184). -/
def State.format? (s : State) (n : Nat) : Option TcFormat :=
  match n with
  | 0 => some format0
  | 1 => some format1
  | _ => s.force.formats.find? (fun f => f.format.toNat == n)

/-- The classes that a format uses. -/
def tcClasses (f : TcFormat) : List TcClass := [f.class0, f.class1, f.class2, f.class3].take f.nClasses.toNat

/-- Whether a field entry is a parity check (Table 6.6). -/
def tcIsParity (x : TcField) : Bool := x.kind == 0x10#8 || x.kind == 0x11#8

/-- The symbols that an entry covers. -/
def tcSymbols (x : TcField) : List Nat := (List.range x.length.toNat).map (· + x.first.toNat)

/-- Whether the width ranges of two classes overlap. -/
def tcOverlap (a b : TcClass) : Bool := decide (a.minMs.toNat ≤ b.maxMs.toNat ∧ b.minMs.toNat ≤ a.maxMs.toNat)

/-- The header values of Table 6.4 that R185 checks. -/
def tcHeaderOk (f : TcFormat) : Bool :=
  let n := f.fields.length
  let off := f.stdOffsetMin.toInt
  let rest := ([f.class0, f.class1, f.class2, f.class3].drop f.nClasses.toNat).all (· == ⟨0#16, 0#16, 0#8⟩)
  decide (2 ≤ f.format.toNat ∧ f.format.toNat ≤ 7 ∧ f.version = 1#8 ∧ 10 ≤ f.symbols.toNat ∧ f.symbols.toNat ≤ 120)
    && decide (100 ≤ f.symbolPeriod.toNat ∧ f.symbolPeriod.toNat ≤ 2000 ∧ f.keying.toNat ≤ 1)
    && decide (20 ≤ f.thresholdPct.toNat ∧ f.thresholdPct.toNat ≤ 80 ∧ 2 ≤ f.nClasses.toNat ∧ f.nClasses.toNat ≤ 4)
    && decide (1 ≤ n ∧ n ≤ 24 ∧ f.frameMarkPos.toNat < f.symbols.toNat ∧ f.labelRef.toNat ≤ 1 ∧ f.timeScale.toNat ≤ 1)
    && (f.timeScale == 0#8 || decide (-720 ≤ off ∧ off ≤ 840))
    && decide (2000 ≤ f.baseYear.toNat ∧ f.baseYear.toNat ≤ 2100) && rest

/-- The classes (R185): ranges in order and within the period, none overlapping, and one frame marker. -/
def tcClassesOk (f : TcFormat) : Bool :=
  let cs := tcClasses f
  cs.all (fun c => decide (c.minMs.toNat ≤ c.maxMs.toNat ∧ c.maxMs.toNat ≤ f.symbolPeriod.toNat ∧ c.meaning.toNat ≤ 3))
    && decide ((cs.filter (fun c => c.meaning == 3#8)).length = 1)
    && cs.zipIdx.all (fun x => cs.zipIdx.all (fun y => x.2 == y.2 || !tcOverlap x.1 y.1))

/-- One field entry (Tables 6.5 and 6.6, R185). -/
def tcFieldOk (f : TcFormat) (x : TcField) : Bool :=
  let par := tcIsParity x
  let here (i : Nat) : Bool := decide (i < f.symbols.toNat) && i != f.frameMarkPos.toNat
  (par || decide (1 ≤ x.kind.toNat ∧ x.kind.toNat ≤ 9)) && decide (1 ≤ x.length.toNat) && (tcSymbols x).all here
    && (if par then here x.checkSymbol.toNat && !(tcSymbols x).contains x.checkSymbol.toNat
        else decide (x.length.toNat ≤ 16 ∧ x.coding.toNat ≤ 3) && x.checkSymbol == 0xFF#8)

/-- Whether a load passes R185. -/
def tcFormatOk (f : TcFormat) : Bool :=
  tcHeaderOk f && tcClassesOk f && f.fields.all (tcFieldOk f)
    && decide (((f.fields.filter (fun x => !tcIsParity x)).flatMap tcSymbols).Nodup)
    && [1, 2, 3, 4, 5].all (fun k => f.fields.any (fun x => x.kind.toNat == k))

/-- Whether a service's setting in force or pending names a format (R184). -/
def Service.namesFormat (v : Service) (n : Nat) : Bool :=
  (v.force :: v.acc :: v.sched.map (·.value)).any (fun t => keyStd t.attrs.key == 4 && t.analogue.nat 11 == n)

/-- TIMECODE_FORMAT_LOAD (R184, R185). -/
def execTimecodeFormatLoad (h : CmdHdr) (fmt : TcFormat) (s : State) : Res :=
  .next (s.runCmd (gateNotRelay 0x0A07) h fun s =>
    s.refuseIf (!tcFormatOk fmt) .badParam <|
    s.refuseIf (s.services.any (fun v => v.namesFormat fmt.format.toNat)) .busyRunning <|
    s.commitDev none (fun a => { a with formats := a.formats.filter (fun f => f.format != fmt.format) ++ [fmt] }))

/-- TIMECODE_FORMAT_QUERY (R184). -/
def execTimecodeFormatQuery (h : CmdHdr) (format : Byte) (s : State) : Res :=
  .next (s.runCmd (gateAll 0x0A08) h fun s =>
    s.refuseIf (decide (7 < format.toNat)) .badParam <|
    match s.format? format.toNat with
    | none => refuse s .notFound
    | some f => (s, answer .ok (formatBytes f)))

/-! ### Time-code frames -/

/-- The class of a width: its index, or none (R181). -/
def tcClassify (f : TcFormat) (w : Nat) : Option Nat :=
  (tcClasses f).findIdx? (fun c => decide (c.minMs.toNat ≤ w ∧ w ≤ c.maxMs.toNat))

/-- The meaning of a symbol (Table 6.4). -/
def tcMeaning (f : TcFormat) (cls : Option Nat) : Nat :=
  match cls with
  | none => 0xFF
  | some i => match (tcClasses f)[i]? with | some c => c.meaning.toNat | none => 0xFF

/-- The weight sequence (Table 6.5): BCD up to 800, or binary. -/
def tcWeight (coding i : Nat) : Nat := if coding < 2 then [1, 2, 4, 8, 10, 20, 40, 80, 100, 200, 400, 800].getD i 0 else 2 ^ i

/-- The value of one entry from the meanings of the symbols: those of bit 1 add their weight. -/
def tcEntryValue (ms : List Nat) (x : TcField) : Nat :=
  let c := x.coding.toNat
  let one (j : Nat) : Nat :=
    let i := if c % 2 = 0 then j else x.length.toNat - 1 - j
    if ms.getD (x.first.toNat + j) 0 = 1 then tcWeight c (x.weightStart.toNat + i) else 0
  ((List.range x.length.toNat).map one).sum

/-- The value of a kind: entries of it add together (Table 6.6). -/
def tcValue (f : TcFormat) (ms : List Nat) (kind : Nat) : Nat :=
  ((f.fields.filter (fun x => x.kind.toNat == kind)).map (tcEntryValue ms)).sum

/-- Whether a format has a kind. -/
def tcHas (f : TcFormat) (kind : Nat) : Bool := f.fields.any (fun x => x.kind.toNat == kind)

/-- Whether a parity check holds: symbols of bit 1 in its range and its check symbol (R182). -/
def tcParityOk (ms : List Nat) (x : TcField) : Bool :=
  let n := ((tcSymbols x ++ [x.checkSymbol.toNat]).filter (fun i => ms.getD i 0 == 1)).length
  if x.kind = 0x10#8 then n % 2 == 0 else n % 2 == 1

/-- The calendar of a frame, with the full year. -/
def tcCal (f : TcFormat) (ms : List Nat) : RtcCal :=
  ⟨f.baseYear.toNat + tcValue f ms 5, tcValue f ms 4, tcValue f ms 3, tcValue f ms 2, tcValue f ms 1, 0⟩

/-- Weekday of a date, 1 Monday to 7 Sunday; 2000-01-01 was a Saturday. -/
def weekdayOf (c : RtcCal) : Nat := (daysTo c + 5) % 7 + 1

/-- Whether every field lies in its range (Table 6.6). -/
def tcRangeOk (f : TcFormat) (ms : List Nat) : Bool :=
  let c := tcCal f ms
  let flag (k : Nat) : Bool := decide (tcValue f ms k ≤ 1)
  decide (c.minute ≤ 59 ∧ c.hour ≤ 23 ∧ 1 ≤ c.month ∧ c.month ≤ 12 ∧ tcValue f ms 5 ≤ 99)
    && decide (1 ≤ c.day ∧ c.day ≤ monthDays c.year c.month)
    && (!tcHas f 6 || tcValue f ms 6 == weekdayOf c) && flag 7 && flag 8 && flag 9

/-- The result of a frame: Table 6.7, the first that applies in the order of its codes. -/
def tcReasonOf (f : TcFormat) (x : TcFrameIn) (ms : List Nat) : Nat :=
  let fs := f.fields.filter (fun y => !tcIsParity y)
  if ms.any (· == 0xFF) then 1
  else if ms.length ≠ f.symbols.toNat ∨ ms.getD f.frameMarkPos.toNat 0 ≠ 3 then 2
  else if (fs.flatMap tcSymbols).any (fun i => decide (1 < ms.getD i 0)) then 3
  else if !(f.fields.filter tcIsParity).all (tcParityOk ms) then 4
  else if !tcRangeOk f ms then 5
  else if x.gap then 6
  else 0

/-- The label of a decoded frame as DT (R183). -/
def State.tcLabelDt (s : State) (f : TcFormat) (ms : List Nat) : W64 :=
  let local_ : Int := if f.timeScale = 1#8 then f.stdOffsetMin.toInt * 60 + (if tcValue f ms 7 = 1 then 3600 else 0) else 0
  let u := ((tcCal f ms).seconds : Int) - local_
  BitVec.ofInt 64 ((u + leapForU s.leapTable u.toNat) * 1000000000)

/-- Two bytes a symbol would not align: CLASS and WIDTH_MS of each symbol (Table 10.7 type 0x06). -/
def tcSymbolBytes (cls : Option Nat) (w : Nat) : List Byte := le 1 (cls.getD 0xFF) ++ le 2 w

/-- The side-data record of a frame (R182, Table 10.7). -/
def tcBody (f : TcFormat) (x : TcFrameIn) (ms : List Nat) (reason : Nat) (label : W64) : List Byte :=
  let c := tcCal f ms
  let flags := tcValue f ms 7 % 2 + 2 * (tcValue f ms 8 % 2) + 4 * (tcValue f ms 9 % 2)
  let syms := x.widths.flatMap (fun w => tcSymbolBytes (tcClassify f w) w)
  le 1 x.widths.length ++ le 1 reason ++ zeros 2 ++ pad4 syms ++ le 1 c.minute ++ le 1 c.hour ++ le 1 c.day ++ le 1 c.month
    ++ le 2 c.year ++ le 1 (tcValue f ms 6) ++ le 1 flags ++ le 8 (if reason = 0 then label.toNat else 0) ++ le 8 x.stamp.toNat

/-- A frame that failed to decode, as the LF time code sees it: the third in a row is a loss (Table 4.6). -/
def State.tcFailed (s : State) : State :=
  let n := s.refs.tcFail + 1
  let s := { s with refs := { s.refs with tcFail := n, tcGood := 0 } }
  if 3 ≤ n then s.loseRef 7 else s.modRef 7 (fun r => { r with critT := false, heldT := 0 })

/-- A decoded frame as the LF time code sees it: it agrees with the last decoded one when its label follows by the frames
between; a disagreement is a loss; two in a row that agree meet the criterion (R183, Table 4.6). -/
def State.tcDecoded (s : State) (frameNs : Nat) (label stamp : W64) : State :=
  let r := s.refs
  let far := match r.tcLast with
    | some (l, _) => l.toNat + (r.tcFail + 1) * frameNs != label.toNat
    | none => false
  let s := if far then s.loseRef 7 else s
  let good := if far then 1 else s.refs.tcGood + 1
  let s := { s with refs := { s.refs with tcGood := good, tcFail := 0, tcLast := some (label, stamp) } }
  s.modRef 7 (fun x => { x with critT := decide (2 ≤ good), heldT := if 2 ≤ good ∧ x.critT = false then frameNs / 1000000 else x.heldT })

/-- The time indication that a frame gives where its service is the source of code 7; one that announces a leap second is
not used (R183). -/
def State.tcIndicate (s : State) (slot : Nat) (f : TcFormat) (ms : List Nat) (reason : Nat) (label stamp : W64) : State :=
  if s.sourceSlot 7 != some slot then s
  else if reason != 0 then s.tcFailed
  else if tcValue f ms 8 = 1 then { s with refs := { s.refs with tcLast := some (label, stamp), tcFail := 0 } }
  else s.tcDecoded (f.symbols.toNat * f.symbolPeriod.toNat * 1000000) label stamp

/-- The counts of Table 6.9 for a frame. -/
def AnalogueSt.countFrame (a : AnalogueSt) (cls : List (Option Nat)) (reason : Nat) (label : W64) : AnalogueSt :=
  { a with
    tcReason := some reason
    tcLabel := if reason = 0 then some label else a.tcLabel
    symOk := sat32 (a.symOk + (cls.filter Option.isSome).length)
    symBad := sat32 (a.symBad + (cls.filter Option.isNone).length)
    tcGood := if reason = 0 then sat32 (a.tcGood + 1) else a.tcGood
    tcBad := if reason = 0 then a.tcBad else a.tcBad.modify (reason - 1) (fun n => sat32 (n + 1)) }

/-- TIMECODE_FRAME (R182, R183): one record per frame, decoded or not, and its time indication. -/
def execTimecodeFrame (slot : Nat) (f : TcFrameIn) (wait : Nat) (s : State) : Res :=
  .next <|
    match s.slotSvc? slot with
    | none => s
    | some v =>
      match s.format? (v.force.analogue.nat 11) with
      | none => s
      | some fmt =>
        if !v.state.costs || keyStd v.attrs.key != 4 then s
        else
          let cls := f.widths.map (tcClassify fmt)
          let ms := cls.map (tcMeaning fmt)
          let reason := tcReasonOf fmt f ms
          let s := s.advance wait
          let label := s.tcLabelDt fmt ms
          let s := s.modSvc slot (fun v => { v with analogue := v.analogue.countFrame cls reason label })
          let s := s.sideRec v.field f.stamp 6 (reason == 0) (tcBody fmt f ms reason label)
          s.tcIndicate slot fmt ms reason label f.stamp

end Sys2Proof.Machine
end

