-- ==== Sys2Proof/Machine/Pilot.lean ====
section
/-! DEFINITION. The pilot of an audio port and the paths of its programmes (R322, R324, R325). -/

namespace Sys2Proof.Machine

/-- The settings of an audio port in force. -/
def State.audioSet (s : State) (p : Nat) : ItemTable := s.force.audio.getD p []
/-- An audio port at run time. -/
def State.audioPort (s : State) (p : Nat) : AudioSt := s.audio.getD p AudioSt.reset
/-- The state with one audio port changed. -/
def State.modAudio (s : State) (p : Nat) (f : AudioSt → AudioSt) : State := { s with audio := s.audio.modify p f }

/-- Whether a service comes from a DAB ensemble or a television multiplex. -/
def Service.digital (v : Service) : Bool := [5, 6, 7].contains (keyRxStd v.attrs.key)

/-- The transmitter clock offset r − 1 of a service's carrier in 0.001 ppm, where it has been measured (R189, R212). -/
def State.clockRatio (s : State) (v : Service) : Option Int := (s.carriers.find? (fun c => c.serves v.rx)).bind (·.ratio)

/-- Whether a programme can be the pilot of a port (R322). -/
def State.pilotOk (s : State) (p : Nat) (v : Service) : Bool :=
  v.digital && v.state.costs && v.rx.pcmRate == portRate (s.audioSet p) &&
  match s.clockRatio v with
  | some r => decide (r.natAbs ≤ 400000)
  | none => false

/-- The services with a programme on a port that can be its pilot. -/
def State.pilotCands (s : State) (p : Nat) : List Service :=
  (s.audioPort p).progs.filterMap (fun g => if g.ending then none else (s.svc? g.slot).filter (s.pilotOk p))

/-- Whether one eligible programme comes before another (R322). -/
def pilotBefore (vs : List Service) (a b : Service) : Bool :=
  let n (v : Service) : Nat := (vs.filter (fun w => w.rx.carrier == v.rx.carrier)).length
  if n a != n b then decide (n b < n a)
  else if a.acc.attrs.priority != b.acc.attrs.priority then decide (b.acc.attrs.priority.toNat < a.acc.attrs.priority.toNat)
  else decide (a.slot ≤ b.slot)

/-- The pilot of a port and PILOT_REASON: the one named by the host, the present one while it stays eligible, or the first of
the eligible ones (R322). -/
def State.choosePilot (s : State) (p : Nat) : Option W16 × Nat :=
  let vs := s.pilotCands p
  match (s.audioSet p).at 15 with
  | .num n =>
    let f := BitVec.ofInt 16 n
    if vs.any (fun v => v.field == f) then (some f, 0) else (none, 1)
  | _ =>
    match vs.find? (fun v => some v.field == (s.audioPort p).pilot) with
    | some v => (some v.field, 0)
    | none => match vs.mergeSort (pilotBefore vs) with
      | v :: _ => (some v.field, 0)
      | [] => (none, 2)

/-- The path of a programme (Table 11.3): 0 port clock, 1 direct, 2 converter. -/
def State.pathOf (s : State) (p : Nat) (v : Service) : Nat :=
  if !v.digital then 0
  else if !portMaster (s.audioSet p) then 2
  else match (s.audioPort p).pilot.bind s.svc? with
    | some w => if w.rx.carrier == v.rx.carrier && w.rx.pcmRate == v.rx.pcmRate then 1 else 2
    | none => 2

/-- Whether a kind of change is a change of path. -/
def ZcKind.isPath : ZcKind → Bool
  | .path _ => true
  | _ => false

/-- A programme takes the path that Table 11.3 gives it: at once while it does not play, else at a zero crossing of each of its
channels (R325, R328). -/
def State.repath (s : State) (p : Nat) (g : Prog) : State :=
  match s.svc? g.slot with
  | none => s
  | some v =>
    let w := s.pathOf p v
    let set := s.modAudio p (fun a => { a with progs := a.progs.map (fun x => if x.slot == g.slot then { x with path := w } else x) })
    let mine (c : ZcChange) : Bool := c.kind.isPath && decide (g.portSlot ≤ c.channel ∧ c.channel < g.portSlot + g.channels)
    if !g.playing then set
    else if (s.audioPort p).changes.any (fun c => mine c && c.kind == .path w) then s
    else
      let s := s.modAudio p (fun a => { a with changes := a.changes.filter (fun c => !mine c) })
      if w = g.path then s else s.zcAdd p g (.path w)

/-- A port's pilot is chosen, and its programmes take their paths (R322, R325). -/
def State.repilot (s : State) (p : Nat) : State :=
  let c := s.choosePilot p
  let s := s.modAudio p (fun a => { a with pilot := c.1, pilotWhy := c.2 })
  (s.audioPort p).progs.foldl (fun s g => s.repath p g) s

/-- Every port is piloted anew: at a tick, and at a splice (R325). -/
def State.repilotAll (s : State) : State := (List.range 4).foldl State.repilot s

end Sys2Proof.Machine
end

