-- ==== Sys2Proof/Machine/Follow.lean ====
section
/-! DEFINITION. Following: candidates, the output delay, splices, and their commands (R251 to R271). -/

namespace Sys2Proof.Machine

/-! ### Attributes -/

/-- MODE of FOLLOW: 0 OFF, 1 SAME, 2 LINKED (R251). -/
def followMode (a : AttrBlock) : Nat := a.follow.toNat % 4
/-- RETURN of FOLLOW (R251). -/
def followReturn (a : AttrBlock) : Bool := a.follow.getLsbD 2

/-- The standard family of a key (R251). -/
def family (k : W64) : Nat := let t := keyRxStd k; if t = 2 then 1 else t

/-- Whether a service is followed (R251, R252). -/
def Service.followed (v : Service) : Bool :=
  followMode v.force.attrs != 0 && [1, 5, 6, 7].contains (keyStd v.force.attrs.key)

/-- The service's own key. -/
def Service.ownKey (v : Service) : W64 := v.force.attrs.key

/-- Whether two keys name one service (R242). -/
def sameKey (a b : W64) : Bool := namesKey a b || namesKey b a

/-! ### Candidates (R253) -/

/-- The frequencies that signalling lists for a key. -/
def MapCopy.listed (m : MapCopy) (k : W64) : List Nat :=
  match m.lists.find? (fun x => x.1 == k) with | some x => x.2 | none => []

/-- The members of the link set that a key belongs to, in preference order: a host set, or a learned one (R261, R262). -/
def MapCopy.linkOf (m : MapCopy) (k : W64) : Option (List W64) :=
  match m.links.find? (fun x => x.keys.any (sameKey k)) with
  | some x => some x.keys
  | none => (m.learned.find? (fun x => x.keys.any (sameKey k))).map (·.keys)

/-- The frequencies of an entry. -/
def entryFreqs (e : MapEntry) : List Nat := e.freqKhz.toNat :: e.freqs.map (·.toNat)

/-- The frequencies of a key in the published tables: of its entry, listed for it, and listed for its carrier. -/
def State.keyFreqs (s : State) (key : W64) : List Nat :=
  if keyStd key = 2 then [keyFreq key]
  else
    let m := s.map.published
    let e := findEntry m.entries key
    let own := match e with | some e => entryFreqs e | none => []
    let car := match e.map MapEntry_carrier with
      | some c => if c = 0#64 then [] else m.listed c ++ (match findEntry m.entries c with | some x => entryFreqs x | none => [])
      | none => []
    ((own ++ m.listed key ++ car).filter (· != 0)).eraseDups

/-- The input on which a candidate is to be received: the service's present one where it serves, or the lowest that
does. -/
def State.candInput (s : State) (v : Service) (key : W64) (f : Nat) : Nat :=
  let ins := match s.mapEntry key with
    | some e => (List.range 3).filter (fun i => e.inputs.getLsbD i)
    | none => if keyStd key = 1 then [0, 1] else freqInputs key
  let ins := ins.filter (fun i => inRange i f)
  if ins.contains v.rx.input then v.rx.input else ins.headD v.rx.input

/-- A candidate as it is known, or one not yet probed. -/
def State.candOf (s : State) (v : Service) (key : W64) (f : Nat) : Candidate :=
  match v.follow.cands.find? (fun c => c.key == key && c.freqKhz == f) with
  | some c => c
  | none =>
    let off := (v.follow.cands.find? (fun c => c.key == key && c.offset.isSome))
    ⟨key, f, s.candInput v key f, .unknown, 0, 0#64, 0#64, off.bind (·.offset), (off.map (·.offsetAt)).getD 0#64⟩

/-- The current source as a candidate. -/
def State.currentCand (s : State) (v : Service) : Candidate :=
  { s.candOf v v.attrs.key v.rx.freqKhz with input := v.rx.input }

/-- Whether a candidate is the current source. -/
def Service.isCurrent (v : Service) (c : Candidate) : Bool := c.key == v.attrs.key && c.freqKhz == v.rx.freqKhz

/-- The link-set members that a service considers, in member order (R251, R253). -/
def State.members (s : State) (v : Service) : List W64 :=
  if followMode v.force.attrs != 2 then []
  else
    let ks := ((s.map.published.linkOf v.ownKey).getD []).filter (fun k => !sameKey k v.ownKey)
    if v.force.attrs.latency = 0#8 then ks.filter (fun k => family k == family v.ownKey) else ks

/-- Later copies of a candidate are left out. -/
def dedupCands : List Candidate → List Candidate → List Candidate
  | acc, [] => acc
  | acc, c :: cs =>
    dedupCands (if acc.any (fun x => x.key == c.key && x.freqKhz == c.freqKhz) then acc else acc ++ [c]) cs

/-- The candidate list of a service (R253). -/
def State.candList (s : State) (v : Service) : List Candidate :=
  let own := ((s.keyFreqs v.ownKey).map (s.candOf v v.ownKey)).mergeSort (fun a b => decide (b.margin ≤ a.margin))
  let mem := (s.members v).flatMap (fun k => (s.keyFreqs k).map (s.candOf v k))
  (dedupCands [] (s.currentCand v :: own ++ mem)).take 16

/-- Where a candidate is received. -/
def State.candRx (s : State) (c : Candidate) : Reception :=
  match s.mapEntry c.key with
  | some e => { entryRx e c.input with freqKhz := c.freqKhz }
  | none => ⟨c.input, c.freqKhz, 0#64, none, 0, 0, 0⟩

/-! ### The output delay (R263, R264, R266) -/

/-- The latency of the path of an FM source in 0.1 ns: its band lane under the cover, and its channel lane (R154). -/
def State.fmPath (s : State) (v : Service) (rx : Reception) : Nat :=
  let t := totalT v.attrs.key rx.input
  let fs := inputFs s.plan.plan rx.input
  match s.covers s.plan.plan true (s.heldBut v.slot ++ [(v, rx)]) with
  | none => 0
  | some cov =>
    match (laneOf cov v.slot).getD rx.input none with
    | none => 0
    | some (k, _) =>
      let delay := match bankFor v false with | some b => s.bankDelay 1 b | none => 0
      laneLatency (bandClass rx.input) fs 0 k (s.bankDelay 0 0) (rankLen s.force.lane)
        + laneLatency 2 fs k (t - k) delay (rankLen v.force.lane)

/-- The length of an audio frame of a television service in ns: 1,152 samples of Layer II, 2,048 of HE-AAC v2. PRESUMED from
ISO/IEC 13818-3 and 14496-3 (log entry 25). -/
def tvFrameNs (rx : Reception) : Nat :=
  (if rx.audio = 1 then 1152 else 2048) * 10000000 / (if rx.pcmRate = 0 then 480 else rx.pcmRate)

/-- The bound after DT for the PCM of a source in ns (R263): FM by its path, DAB by Table 7.4, television by Table 8.8. -/
def State.pcmBound (s : State) (v : Service) (rx : Reception) : Nat :=
  match keyRxStd v.attrs.key with
  | 5 => if rx.audio = 1 then (if rx.pcmRate = 240 then 426000000 else 402000000) else 500000000
  | 6 | 7 =>
    let dvbt := match rx.signal with | some t => t.std == 0 | none => false
    let d := ((v.plps rx).map (·.spanNs)).foldl max 0
    (if dvbt then 12000000 else 2 * d + 20000000) + 2 * tvFrameNs rx + 20000000
  | _ => (110000000 + s.fmPath v rx + 1000000 * pcmLatency v.attrs v.force.analogue + 9) / 10

/-- The latency λ of a candidate in ns, rounded up to 1 µs (R263). -/
def State.candLatency (s : State) (v : Service) (c : Candidate) : Int :=
  c.offset.getD 0 + ((s.pcmBound (v.onSource c.key) (s.candRx c) + 999) / 1000 * 1000 : Nat)

/-- M: 100 ms across families, else the follow margin, which LATENCY LOW bounds (R264, Table 9.7). -/
def State.followMargin (s : State) (v : Service) : Nat :=
  let m := s.force.follow.nat 13 20
  if (v.follow.cands.map (fun c => family c.key)).eraseDups.length > 1 then 100000000
  else (if v.force.attrs.latency = 0#8 then min m 5 else m) * 1000000

/-- The largest λ of a service's candidates. -/
def State.maxLatency (s : State) (v : Service) : Int := (v.follow.cands.map (s.candLatency v)).foldl max 0

/-- The delay that the candidates ask for (R264). -/
def State.delayWanted (s : State) (v : Service) : Nat := (s.maxLatency v + s.followMargin v).toNat

/-- The delay of a service is raised (R266): at once while no settled PCM has been released, else at the programme's next
zero crossing on its port; without a port, at once with CONCEALED after the hold. -/
def State.raiseDelay (s : State) (v : Service) : State :=
  let d := s.delayWanted v
  if s.maxLatency v ≤ (v.follow.delay : Int) - 50000000 ∨ d ≤ max v.follow.delay v.follow.pendDelay then s
  else
    let s1 := s.modSvc v.slot (fun v => { v with follow := { v.follow with pendDelay := d } })
    let now (s : State) : State := s.modSvc v.slot (fun v => { v with follow := { v.follow with delay := d } })
    if v.state = .admitted then now s1
    else match s.progOf v.field with
      | some (p, g) => if g.playing then s1.zcAdd p g (.raise d) else now s1
      | none => (now s1).modStream v.field 1 (fun x => { x with flags := x.flags ||| fConcealed })

/-- A followed service as it is admitted: its candidates and its delay (R253, R264, R266). -/
def State.followStart (s : State) (n : Nat) : State :=
  match s.slotSvc? n with
  | none => s
  | some v =>
    if !v.followed then s
    else
      let v := { v with follow := { v.follow with cands := s.candList v } }
      let d := s.delayWanted v
      s.modSvc n (fun x => { x with follow := { v.follow with delay := d, pendDelay := d } })

/-- The candidates of every followed service are drawn anew from the published tables, and the delays follow (R253, R266).
A splice under way keeps its target (R271). -/
def State.followRebuild (s : State) : State :=
  ((s.services.filter (fun v => v.state.costs && v.followed)).map (·.slot)).foldl (fun s n =>
    match s.slotSvc? n with
    | none => s
    | some v =>
      let v := { v with follow := { v.follow with cands := s.candList v } }
      (s.modSvc n (fun x => { x with follow := v.follow })).raiseDelay v) s

/-- Whether a service that is admitted with MODE LINKED still has a member to probe for the first time (R265). -/
def State.memberWait (s : State) (v : Service) : Bool :=
  v.state == .admitted && followMode v.force.attrs == 2 && !s.elapsed v.stateDt 30000000000
    && (s.members v).any (fun k => (v.follow.cands.any (fun c => c.key == k))
      && !v.follow.cands.any (fun c => c.key == k && c.state != .unknown))

/-- ENGINE_SETTLED (R180, R207, R238): an ADMITTED service has every stream settled and becomes PLACED; the new placement
of a migrating one is settled (Table 1.11 step 3). A followed service waits for the first probe of its members (R265). -/
def execEngineSettled (slot : Nat) (wait : Nat) (s : State) : Res :=
  .next <|
    match s.slotSvc? slot with
    | none => s
    | some v =>
      match v.state, v.migration with
      | .admitted, _ => if (s.advance wait).memberWait v then s else (s.advance wait).moveState slot .placed 0x02
      | .migrating, some m => (s.advance wait).modSvc slot (fun v => { v with migration := some { m with settled := true } })
      | _, _ => s

/-! ### Evaluation (R258, R259) -/

/-- The reserve that probes hold can be taken by a user above them (R256): discovery first, then candidate probes that are
not for a failure switch. -/
def State.yieldProbes (s : State) (need : Vec) : State :=
  if s.reserveFits need then s
  else
    let drop (p : ProbeIn → Bool) : State := { s with map := { s.map with probes := s.map.probes.filter p } }
    let a := drop (fun p => p.forSlot.isSome)
    if a.reserveFits need then a
    else
      let b := drop (fun p => p.forSlot.isSome && p.urgent)
      if b.reserveFits need then b else s

/-- Whether a candidate can be a target (R259): its costs fit with the current ones removed, and the reserve holds its
placement. -/
def State.targetOk (s : State) (v : Service) (c : Candidate) : Bool :=
  let rx := s.candRx c
  let w := v.ahead.onSource c.key
  s.rxOk w rx && s.admits (s.heldBut v.slot ++ [(w, rx)]) && (s.yieldProbes (s.rxCost w rx)).reserveFits (s.rxCost w rx)

/-- Whether one candidate comes before another (R258): higher margin, member order, current family, lower frequency. -/
def State.candBefore (s : State) (v : Service) (a b : Candidate) : Bool :=
  let rank (c : Candidate) : Nat := if sameKey c.key v.ownKey then 0 else (s.members v).idxOf c.key + 1
  let fam (c : Candidate) : Nat := if family c.key = family v.attrs.key then 0 else 1
  if a.margin != b.margin then decide (b.margin < a.margin)
  else if rank a != rank b then decide (rank a < rank b)
  else if fam a != fam b then decide (fam a < fam b)
  else decide (a.freqKhz ≤ b.freqKhz)

/-- The best target among candidates that meet a condition. -/
def State.bestTarget (s : State) (v : Service) (p : Candidate → Bool) : Option Candidate :=
  let cs := v.follow.cands.filter (fun c => c.state == .valid && !v.isCurrent c && p c)
  (cs.mergeSort (s.candBefore v)).find? (s.targetOk v)

/-- Whether the home source, the service's own key at its best frequency, is the current one (R251). -/
def State.atHome (s : State) (v : Service) : Bool :=
  v.follow.curKey == 0#64 && (match s.mapEntry v.ownKey with | some e => e.freqKhz.toNat == v.rx.freqKhz | none => true)

/-- Whether a candidate is the home source. -/
def State.isHome (s : State) (v : Service) (c : Candidate) : Bool :=
  sameKey c.key v.ownKey && (match s.mapEntry v.ownKey with | some e => e.freqKhz.toNat == c.freqKhz | none => false)

/-- A splice starts: its placement is drawn on the reserve (R258, R267). -/
def State.startSplice (s : State) (v : Service) (cause : Nat) (c : Candidate) : State :=
  let rx := s.candRx c
  let s := (s.yieldProbes (s.rxCost (v.ahead.onSource c.key) rx)).moveState v.slot .following 0x0B
  s.modSvc v.slot (fun v => { v with follow := { v.follow with splice := some ⟨cause, c, rx, s.time.dt, false⟩ } })

/-- Whether the current source fails (R258 item 1). -/
def State.failing (s : State) (v : Service) (lost : Bool) : Bool := lost || decide (s.force.follow.nat 2 500 ≤ v.follow.failMs)

/-- One followed service in PLACED (R258). -/
def State.followEval (s : State) (v : Service) (lost : Bool) : State :=
  let f := s.force.follow
  let held := match v.follow.lastSplice with | some d => !s.elapsed d (f.nat 5 10 * 1000000000) | none => false
  let quiet := held || v.follow.routing.isSome
  let ret := followReturn v.force.attrs && !s.atHome v && !quiet
  if s.failing v lost then
    match s.bestTarget v (fun c => decide (f.int 3 * 10 ≤ c.margin)) with
    | some c => s.startSplice v 0 c
    | none => s
  else
    match (if ret then s.bestTarget v (fun c => s.isHome v c && decide (f.int 4 * 10 ≤ c.margin)) else none) with
    | some c => s.startSplice v 1 c
    | none =>
      match (if quiet then none else s.bestTarget v (fun c => decide (v.follow.margin + f.int 1 * 10 ≤ c.margin))) with
      | some c => s.startSplice v 2 c
      | none => s

/-- The current margin of a service as a tick measured it: 1 ms more below 0 dB, or none (R258). -/
def FollowSt.measure (f : FollowSt) (m : SourceMeas) : FollowSt :=
  { f with margin := m.margin, failMs := if m.margin < 0 then f.failMs + 1 else 0 }

/-- A splice in preparation as its sources fail (R271): that of the new one abandons it, that of the old one makes it a
FAILURE splice. -/
def State.spliceEval (s : State) (v : Service) (x : Splice) (m : SourceMeas) : State :=
  if m.targetLost then s.abandonSplice v.slot
  else if x.cause != 0 && s.failing v m.lost then
    s.modSvc v.slot (fun v => { v with follow := { v.follow with splice := some { x with cause := 0 } } })
  else s

/-- Following at the start of a tick (R258). -/
def State.followTick (s : State) (ms : List SourceMeas) : State :=
  ms.foldl (fun s m =>
    match s.slotSvc? m.slot with
    | none => s
    | some v =>
      if !(v.followed && v.state.costs) then s
      else
        let v := { v with follow := v.follow.measure m }
        let cs := v.follow.cands.map (fun c =>
          if v.isCurrent c then { c with state := .valid, margin := m.margin, measured := s.time.dt } else c)
        let v := { v with follow := { v.follow with cands := cs } }
        let s := s.modSvc m.slot (fun x => { x with follow := v.follow })
        match v.state, v.follow.splice with
        | .placed, _ => s.followEval v m.lost
        | .following, some x => s.spliceEval v x m
        | _, _ => s) s

/-! ### Splices (R267 to R270) -/

/-- P of a candidate. -/
def candOffset (v : Service) (key : W64) : Int :=
  match v.follow.cands.find? (fun c => c.key == key && c.offset.isSome) with | some c => c.offset.getD 0 | none => 0

/-- Whether P of a key is known, and was measured within the last 600 s; the home source's always is (Table 9.8). -/
def State.offsetFresh (s : State) (v : Service) (key : W64) : Bool :=
  sameKey key v.ownKey || v.follow.cands.any (fun c => c.key == key && c.offset.isSome && !s.elapsed c.offsetAt 600000000000)

/-- Whether alignment gives a splice a method that it may switch by (Table 9.8, R259, R269). -/
def State.alignOk (s : State) (v : Service) (x : Splice) (m : SpliceIn) : Bool :=
  let digital := family x.target.key != 1
  let settled := x.cause == 0 || s.elapsed x.started 1000000000
  settled && match m.method with
  | 0 => digital && sameKey x.target.key v.attrs.key
  | 1 => decide (500 ≤ m.peak)
  | 2 => x.cause == 0 && x.fallback && s.offsetFresh v x.target.key && s.offsetFresh v v.attrs.key
  | 3 => x.cause == 0 && x.fallback
  | _ => false

/-- Δ of a splice (Table 9.8): measured, from the stored offsets, or none. -/
def spliceDelta (v : Service) (x : Splice) (m : SpliceIn) : Int :=
  match m.method with
  | 0 | 1 => m.delta
  | 2 => candOffset v x.target.key - candOffset v v.attrs.key
  | _ => 0

/-- EV_FOLLOW_SWITCH (R270, Table 15.21). -/
def State.switchEvent (s : State) (v : Service) (x : Splice) (m : SpliceIn) (delta : Int) (d : Nat) : State :=
  s.raise 0x8005 v.field (le 1 x.cause ++ le 1 m.method ++ le 2 (if m.method = 1 then m.peak else 0) ++ zeros 4
    ++ le 8 v.attrs.key.toNat ++ le 8 x.target.key.toNat ++ le 4 v.rx.freqKhz ++ le 4 x.target.freqKhz ++ leInt 8 delta
    ++ le 8 d)

/-- A measured offset of a candidate's key. -/
def FollowSt.setOffset (f : FollowSt) (key : W64) (p : Int) (dt : W64) : FollowSt :=
  { f with cands := f.cands.map (fun c => if c.key == key then { c with offset := some p, offsetAt := dt } else c) }

/-- The marks of a switch (R267, R270): SPLICE on every stream, DISCONTINUITY too under method 4, and a statistics interval
that ends early. -/
def State.markSwitch (s : State) (v : Service) (method : Nat) : State :=
  let s := s.flagStreams v.field (if method = 3 then fSplice ||| fDiscontinuity else fSplice)
  s.modStream v.field 7 (fun x => { x with flags := x.flags ||| fPartial })

/-- A splice switches to its target (R267, R270). -/
def State.switchSplice (s : State) (v : Service) (x : Splice) (m : SpliceIn) : State :=
  let delta := spliceDelta v x m
  let own := sameKey x.target.key v.ownKey
  let pNew := candOffset v v.attrs.key + delta
  let f := if m.method < 2 && !own then v.follow.setOffset x.target.key pNew s.time.dt else v.follow
  let s := s.modSvc v.slot (fun v => { v with follow := f })
  let s := s.raiseDelay { v with follow := f }
  let d := match s.slotSvc? v.slot with | some w => max w.follow.delay w.follow.pendDelay | none => 0
  let s := (s.markSwitch v m.method).switchEvent v x m delta d
  let s := s.modSvc v.slot (fun w => { w with
    rx := x.dest, diversity := false
    follow := { w.follow with splice := none, lastSplice := some s.time.dt, failMs := 0, margin := x.target.margin
                              curKey := if own then 0#64 else x.target.key } })
  let s := ((s.zcSwitch v .splice).settleLanes v.slot).moveState v.slot .placed 0x0C
  match s.slotSvc? v.slot with
  | some w => s.modSvc v.slot (fun x => { x with follow := { w.follow with cands := s.candList w } })
  | none => s

/-- SPLICE_SWITCH (R268 to R270): the content is aligned. A BETTER or RETURN splice whose target did not keep its lead is
abandoned (R259). -/
def execSpliceSwitch (slot : Nat) (m : SpliceIn) (wait : Nat) (s : State) : Res :=
  .next <|
    match s.slotSvc? slot with
    | none => s
    | some v =>
      match v.follow.splice with
      | none => s
      | some x =>
        let s1 := s.advance wait
        if !s1.alignOk v x m then s
        else if x.cause != 0 && !m.held then s1.abandonSplice slot
        else (s1.switchSplice v x m).repilotAll

/-- SPLICE_TIMEOUT (R269): no accepted peak within the splice timeout abandons a BETTER or RETURN splice; after 2 s a FAILURE
splice falls back to method 3 or 4. -/
def execSpliceTimeout (slot : Nat) (wait : Nat) (s : State) : Res :=
  .next <|
    match s.slotSvc? slot with
    | none => s
    | some v =>
      match v.follow.splice with
      | none => s
      | some x =>
        let s1 := s.advance wait
        if x.cause = 0 then
          if s1.elapsed x.started 2000000000 then
            s1.modSvc slot (fun v => { v with follow := { v.follow with splice := some { x with fallback := true } } })
          else s
        else if s1.elapsed x.started (s.force.follow.nat 12 10 * 1000000000) then s1.abandonSplice slot else s

/-! ### Commands -/

/-- FOLLOW_POLICY (R260, Table 9.7). -/
def execFollowPolicy (h : CmdHdr) (items : List Item) (s : State) : Res :=
  .next (s.runCmd (gateNotRelay 0x0401) h fun s =>
    s.itemCmd tbl97 (fun _ => true) [] s.force.follow s.acc.follow items fun t =>
      s.commitDev (some 3) (fun a => { a with follow := t }))

/-- The code of a candidate's state. -/
def CandState.code : CandState → Nat
  | .unknown => 0 | .valid => 1 | .invalid => 2 | .absent => 3

/-- A CAND entry of FOLLOW_QUERY. -/
def State.candEntry (s : State) (c : Candidate) : List Byte :=
  le 8 c.key.toNat ++ le 4 c.freqKhz ++ le 1 c.input ++ le 1 c.state.code ++ leInt 2 c.margin
    ++ le 4 (sat32 (if c.measured = 0#64 then 0xFFFFFFFF else (s.now - c.measured.toNat) / 1000000)) ++ zeros 4
    ++ leInt 8 (c.offset.getD 0)

/-- FOLLOW_QUERY (R254, Table 15.11). -/
def execFollowQuery (h : CmdHdr) (s : State) : Res :=
  .next (s.runCmd ⟨0x0404, .either, notRelay, .none⟩ h fun s =>
    match s.svc? h.slot with
    | none => (s, answer .ok (readTable tbl97 s.force.follow))
    | some v =>
      let f := v.follow
      let sp := if f.splice.isSome then 1 else if f.routing.isSome then 2 else 0
      (s, answer .ok (le 1 (followMode v.force.attrs) ++ [if followReturn v.force.attrs then 1 else 0] ++ le 1 f.cands.length
        ++ le 1 sp ++ zeros 4 ++ le 8 (if v.followed then f.delay else 0) ++ f.cands.flatMap s.candEntry)))

end Sys2Proof.Machine
end

