-- ==== Sys2Proof/Machine/Map.lean ====
section
/-! DEFINITION. The service map: discovery, publication, probes and link sets (R243 to R250, R255, R261, R262). -/

namespace Sys2Proof.Machine

/-! ### Entries -/

/-- A map entry with its frequency words (Table 9.2). -/
def mapEntryBytes (e : MapEntry) : List Byte :=
  let fs := e.freqs.take 16
  let name := e.name.take 24
  le 8 e.key.toNat ++ le 8 e.carrier.toNat ++ le 4 e.freqKhz.toNat ++ [e.inputs, e.flags] ++ le 2 e.level.toNat
    ++ le 2 e.margin.toNat ++ le 1 fs.length ++ [e.linkSet] ++ le 4 e.lastSeen.toNat ++ [e.pty, e.svcType]
    ++ le 2 e.announce.toNat ++ [e.audio] ++ le 1 name.length ++ zeros 2 ++ name ++ zeros (24 - name.length)
    ++ fs.flatMap (fun f => le 4 f.toNat)

/-- The low 32 bits of whole seconds of DT (Table 9.2). -/
def State.seenNow (s : State) : W32 := BitVec.ofNat 32 (s.now / 1000000000)

/-- A count kept under a key. -/
def setCount (k : W64) (n : Nat) (xs : List (W64 × Nat)) : List (W64 × Nat) := xs.filter (fun x => x.1 != k) ++ [(k, n)]

/-- The count kept under a key. -/
def getCount (k : W64) (xs : List (W64 × Nat)) : Option Nat := (xs.find? (fun x => x.1 == k)).map (·.2)

/-- An entry put in ascending order of key. -/
def insertEntry (e : MapEntry) : List MapEntry → List MapEntry
  | [] => [e]
  | x :: xs => if e.key.toNat < x.key.toNat then e :: x :: xs else x :: insertEntry e xs

/-- The 16 frequency words of an entry after more are learned; its own frequency is not among them. -/
def mergeFreqs (own : W32) (a b : List W32) : List W32 := ((a ++ b).filter (fun f => f != own && f != 0#32)).eraseDups.take 16

/-- What a new observation leaves of an old entry (R242, R245): the strongest observation's frequency, LEVEL and MARGIN; what
the new one does not give stays. -/
def mergeEntry (old new : MapEntry) : MapEntry :=
  let strong := new.freqKhz == old.freqKhz || decide (old.level.toInt ≤ new.level.toInt)
  let top := if strong then new else old
  { new with
    carrier := top.carrier, freqKhz := top.freqKhz, level := top.level, margin := top.margin
    inputs := old.inputs ||| new.inputs
    flags := new.flags ||| (old.flags &&& 0x0D#8)
    freqs := mergeFreqs top.freqKhz (new.freqKhz :: new.freqs) (old.freqKhz :: old.freqs)
    linkSet := old.linkSet
    pty := if new.pty = 0xFF#8 then old.pty else new.pty
    announce := new.announce ||| old.announce
    audio := if new.audio = 0#8 then old.audio else new.audio
    name := if new.name.isEmpty then old.name else new.name
    signal := if new.signal.isSome then new.signal else old.signal
    kbps := if new.kbps = 0 then old.kbps else new.kbps
    pcmRate := if new.pcmRate = 0 then old.pcmRate else new.pcmRate }

/-- An observation of a key renews LAST_SEEN (R248). -/
def State.observe (s : State) (k : W64) : State :=
  { s with map := { s.map with seenAt := setCount k s.map.active s.map.seenAt, absent := s.map.absent.filter (fun x => x.1 != k) } }

/-- The shadow entries changed. -/
def State.setShadow (s : State) (es : List MapEntry) : State :=
  { s with map := { s.map with shadow := { s.map.shadow with entries := es } } }

/-- An observation enters the shadow (R242, R243, R249): the entry of its key, or of its key with another ECC where one of the
two has none, is updated; a new one is added while there is room, and its refusal counted once per pass. -/
def State.upsert (s : State) (e : MapEntry) : State :=
  let e := { e with key := clearKey e.key, lastSeen := s.seenNow, linkSet := 0xFF#8 }
  let es := s.map.shadow.entries
  match es.find? (fun x => sameKey x.key e.key) with
  | some old =>
    let m := mergeEntry old e
    let m := if keyEcc e.key = 0 && hasEcc e.key then { m with key := old.key } else m
    (s.setShadow (insertEntry m (es.filter (fun x => x.key != old.key)))).observe m.key
  | none =>
    if es.length < 4096 then (s.setShadow (insertEntry e es)).observe e.key
    else if s.map.refusedKeys.contains e.key then s
    else { s with map := { s.map with refused := sat32 (s.map.refused + 1), refusedIval := s.map.refusedIval + 1,
                                      refusedKeys := s.map.refusedKeys ++ [e.key] } }

/-- A shadow entry that exists is changed, as an observation of its key. -/
def State.touch (s : State) (key : W64) (f : MapEntry → MapEntry) : State :=
  match s.map.shadow.entries.find? (fun x => sameKey x.key key) with
  | none => s
  | some old =>
    let es := s.map.shadow.entries.map (fun x => if x.key == old.key then { f x with lastSeen := s.seenNow } else x)
    (s.setShadow es).observe old.key

/-- The frequencies that signalling lists for a key join the shadow. -/
def State.listFreqs (s : State) (key : W64) (fs : List Nat) : State :=
  let m := s.map.shadow
  let l := m.lists.filter (fun x => x.1 != key) ++ [(key, (m.listed key ++ fs).eraseDups)]
  if fs.isEmpty then s else { s with map := { s.map with shadow := { m with lists := l } } }

/-! ### Link sets in the map (R261, R262) -/

/-- The shadow with the host's link sets as accepted, and learned sets without the keys and indices that those hold; every
entry names its set. -/
def State.relink (s : State) : State :=
  let m := s.map.shadow
  let host := s.acc.links
  let used (k : W64) : Bool := host.any (fun x => x.keys.any (sameKey k))
  let ls := (m.learned.map (fun x => { x with keys := x.keys.filter (fun k => !used k) })).filter (fun x =>
    decide (2 ≤ x.keys.length) && !host.any (fun y => y.index == x.index))
  let one (e : MapEntry) : MapEntry :=
    match host.find? (fun x => x.keys.any (sameKey e.key)) with
    | some x => { e with linkSet := BitVec.ofNat 8 x.index, flags := e.flags &&& 0xFE#8 }
    | none => match ls.find? (fun x => x.keys.any (sameKey e.key)) with
      | some x => { e with linkSet := BitVec.ofNat 8 x.index, flags := e.flags ||| 1#8 }
      | none => { e with linkSet := 0xFF#8, flags := e.flags &&& 0xFE#8 }
  { s with map := { s.map with shadow := { m with links := host, learned := ls, entries := m.entries.map one } } }

/-- Learned sets that FIG 0/6 has not named for the absence limit are removed (R262). -/
def State.dropLearned (s : State) : State :=
  let m := s.map.shadow
  { s with map := { s.map with shadow := { m with learned := m.learned.filter (fun x => !s.elapsed x.seen 60000000000) } } }

/-! ### Publication (R247) -/

/-- Whether an entry of a copy is the same service as a key. -/
def hasKey (es : List MapEntry) (k : W64) : Option MapEntry := es.find? (fun x => sameKey x.key k)

/-- A service whose awaited key has appeared becomes REQUESTED; one whose key has gone waits for discovery (Table 1.5). -/
def State.publishOne (s : State) (n : Nat) : State :=
  match s.slotSvc? n with
  | none => s
  | some v =>
    let key := v.acc.attrs.key
    let there := (s.mapEntry key).isSome
    if !identityKey key then s
    else match v.state with
    | .awaiting => if there then s.moveState n .requested 0x07 else s
    | .requested => s
    | _ =>
      if there then s
      else (((s.moveState n .awaiting 0x08).modSvc n (fun v => { v.released with fresh := false })).leaveLanes n).gapStreams v.field

/-- A carrier whose key got its ECC keeps its engine and its services (R242). -/
def State.recarrier (s : State) : State :=
  let es := s.map.published.entries
  let re (k : W64) : W64 := if k == 0#64 || es.any (fun e => e.key == k) then k
    else match es.find? (fun e => sameKey e.key k) with | some e => e.key | none => k
  let rx (r : Reception) : Reception := { r with carrier := re r.carrier }
  let svc (v : Service) : Service := { v with
    rx := rx v.rx
    migration := v.migration.map (fun m => { m with dest := rx m.dest })
    follow := { v.follow with splice := v.follow.splice.map (fun x => { x with dest := rx x.dest }) } }
  { s with
    carriers := s.carriers.map (fun c => { c with key := re c.key })
    services := s.services.map svc
    alerts := s.alerts.map (fun a => { a with carrier := re a.carrier }) }

/-- The shadow becomes the published copy, and the new shadow starts as its equal (R247). Discovery's failed points stay. -/
def State.publish (s : State) : State :=
  let old := s.map.published
  let new := s.map.shadow
  let added := (new.entries.filter (fun e => (hasKey old.entries e.key).isNone)).length
  let removed := (old.entries.filter (fun e => (hasKey new.entries e.key).isNone)).length
  let changed := (new.entries.filter (fun e => match hasKey old.entries e.key with | some x => x != e | none => false)).length
  let gen := s.map.gen + 1
  let done := s.map.passDone
  let refused := s.map.refusedIval
  let s : State := { s with map := { s.map with published := new, gen := gen, refusedIval := 0, due := false, passDone := false } }
  let s := s.raise 0x8006 noSlot (le 4 gen.toNat ++ le 2 new.entries.length ++ le 2 added ++ le 2 removed ++ le 2 changed
    ++ le 4 refused ++ [if done then 1 else 0] ++ zeros 3)
  ((s.services.map (·.slot)).foldl State.publishOne s.recarrier).followRebuild

/-- Whether the boundary that DT comes to ends a publication interval, which a whole multiple of the interval does (log entry
26), or a pass or LINKSET_SET asks for a publication. -/
def State.publishDue (s : State) : Bool :=
  s.map.due || (s.time.boundary / 1000000) % max 1 s.force.survey.interval.toNat == 0

/-- MAP_PUBLICATION (R247, R262): at the tick boundary that comes next, ahead of its tick's work, where the shadow differs from
the published copy or entries were refused (R514). The mast keeps no map (R243). -/
def execMapPublication (s : State) : Res :=
  .next <|
    if !s.power.ready || s.isMast || !s.publishDue then s
    else
      let r := s.dropLearned.relink
      if r.map.shadow = r.map.published ∧ r.map.refusedIval = 0 then s
      else
        let r : State := { r with time := { r.time with dt := BitVec.ofNat 64 (max r.now r.time.boundary) } }
        r.publish

/-! ### Expiry (R248) -/

/-- Whether an entry is held by an occupied slot or named in a link set. -/
def State.keyHeld (s : State) (k : W64) : Bool :=
  s.services.any (fun v => sameKey k v.acc.attrs.key || sameKey k v.attrs.key)
    || s.map.shadow.links.any (fun x => x.keys.any (sameKey k)) || s.map.shadow.learned.any (fun x => x.keys.any (sameKey k))
    || s.acc.links.any (fun x => x.keys.any (sameKey k))

/-- Whether an entry has reached its absence limit or its age limit, each counted in ticks spent in SURVEY, SERVE and
RELAY. -/
def State.expired (s : State) (k : W64) : Bool :=
  let absent := match getCount k s.map.absent with | some n => decide (60000 ≤ n) | none => false
  let old := match getCount k s.map.seenAt with | some n => decide (n + 3600000 ≤ s.map.active) | none => false
  absent || (old && !s.keyHeld k)

/-- MAP_ENTRY_EXPIRY (R248). -/
def execMapEntryExpiry (key : W64) (s : State) : Res :=
  .next <|
    if !s.expired key then s
    else
      let s := s.setShadow (s.map.shadow.entries.filter (fun e => e.key != key))
      { s with map := { s.map with absent := s.map.absent.filter (fun x => x.1 != key), seenAt := s.map.seenAt.filter (fun x => x.1 != key) } }

/-- Whether the signalling of an entry's carrier can be read: its engine is synchronised. -/
def State.carrierSynced (s : State) (carrier : W64) : Bool :=
  s.carriers.any (fun c => c.key == carrier && (match c.engine with | .dab d => d.synced | .tv t => t.synced))

/-- The limits of R248 count one tick more, in SURVEY, SERVE and RELAY. An absence counts while its carrier is
synchronised. -/
def State.mapTick (s : State) : State :=
  if !s.power.mode.receives then s
  else
    let one (x : W64 × Nat) : W64 × Nat :=
      match s.map.shadow.entries.find? (fun e => e.key == x.1) with
      | some e => if s.carrierSynced (MapEntry_carrier e) then (x.1, x.2 + 1) else x
      | none => x
    { s with map := { s.map with active := s.map.active + 1, absent := s.map.absent.map one } }

/-- The services that a carrier's signalling names, and those that it omits: an omitted one starts to count (R248). -/
def State.carrierLists (s : State) (carrier : W64) (keys : List W64) : State :=
  let es := s.map.shadow.entries.filter (fun e => e.carrier == carrier)
  let gone := (es.filter (fun e => !keys.any (sameKey e.key))).map (·.key)
  let abs := s.map.absent.filter (fun x => !keys.any (sameKey x.1))
  let new := (gone.filter (fun k => (getCount k abs).isNone)).map (fun k => (k, 0))
  { s with map := { s.map with absent := abs ++ new } }

/-! ### Commands -/

/-- Whether a survey range is in order (R244, Table 15.10): within its inputs, and with a step everywhere but for DAB, whose
step is 0. -/
def surveyRangeOk (r : SurveyRange) : Bool :=
  decide (r.standard.toNat ≤ 3 ∧ 1 ≤ r.inputs.toNat ∧ r.inputs.toNat ≤ 7 ∧ r.startKhz.toNat ≤ r.stopKhz.toNat)
    && (List.range 3).all (fun i => !r.inputs.getLsbD i || (inRange i r.startKhz.toNat && inRange i r.stopKhz.toNat))
    && ((r.standard == 1#8) == (r.stepKhz == 0#32))

/-- The parameters of SURVEY_CONFIG as bytes. -/
def surveyParamBytes (p : SurveyParams) : List Byte :=
  le 4 p.interval.toNat ++ le 1 p.ranges.length ++ zeros 3 ++ p.ranges.flatMap (fun r =>
    [r.inputs, r.standard, 0, 0] ++ le 4 r.startKhz.toNat ++ le 4 r.stopKhz.toNat ++ le 4 r.stepKhz.toNat)

/-- SURVEY_CONFIG (R244, Table 15.10). -/
def execSurveyConfig (h : CmdHdr) (params : Option SurveyParams) (s : State) : Res :=
  .next (s.runCmd (gateNotRelay 0x0301) h fun s =>
    match params with
    | none => (s, answer .ok (surveyParamBytes s.force.survey))
    | some p =>
      s.refuseIf (!(decide (100 ≤ p.interval.toNat ∧ p.interval.toNat ≤ 60000 ∧ p.ranges.length ≤ 16) && p.ranges.all surveyRangeOk))
        .badParam <|
      s.commitDev (some 3) (fun a => { a with survey := p }))

/-- MAP_QUERY (R250, Table 15.10). -/
def execMapQuery (h : CmdHdr) (s : State) : Res :=
  .next (s.runCmd (gateNotRelay 0x0302) h fun s =>
    (s, answer .ok (le 4 s.map.gen.toNat ++ le 2 s.map.published.entries.length ++ zeros 2 ++ le 4 s.map.refused
      ++ le 4 s.map.passes ++ surveyParamBytes s.force.survey)))

/-- MAP_READ (R250, R412, Table 15.10). -/
def execMapRead (h : CmdHdr) (byKey : Byte) (first : W16) (key : W64) (s : State) : Res :=
  .next (s.runCmd (gateNotRelay 0x0303) h fun s =>
    if byKey = 1#8 then
      match s.mapEntry (clearKey key) with
      | none => refuse s .notFound
      | some e => (s, answer .ok (le 4 s.map.gen.toNat ++ le 2 1 ++ le 2 0xFFFF ++ mapEntryBytes e))
    else if byKey = 0#8 then
      let pg := page 16 first.toNat (s.map.published.entries.map mapEntryBytes)
      (s, answer .ok (le 4 s.map.gen.toNat ++ le 2 pg.1.length ++ le 2 pg.2 ++ pg.1.flatten))
    else refuse s .badParam)

/-- Whether a key can be a member of a link set (R252). -/
def linkKeyOk (k : W64) : Bool := [1, 2, 5, 6, 7].contains (keyStd k)

/-- LINKSET_SET (R247, R261, Table 15.11). -/
def execLinksetSet (h : CmdHdr) (index : Byte) (keys : List W64) (s : State) : Res :=
  .next (s.runCmd (gateNotRelay 0x0402) h fun s =>
    let ks := keys.map clearKey
    let others := s.acc.links.filter (fun x => x.index != index.toNat)
    s.refuseIf (!(decide (index.toNat ≤ 63 ∧ ks.length ≤ 8) && ks.all linkKeyOk && decide ks.Nodup)) .badParam <|
    s.refuseIf (others.any (fun x => x.keys.any (fun k => ks.contains k))) .busyRunning <|
    let s1 : State := { s with map := { s.map with due := true } }
    s1.commitDev (some 3) (fun a =>
      { a with links := if ks.isEmpty then a.links.filter (fun x => x.index != index.toNat)
                        else a.links.filter (fun x => x.index < index.toNat) ++ [⟨index.toNat, ks⟩]
                          ++ a.links.filter (fun x => x.index > index.toNat) }))

/-- P of a link-set member, as some followed service has measured it. -/
def State.memberOffset (s : State) (k : W64) : Int :=
  match s.services.findSome? (fun v => (v.follow.cands.find? (fun c => c.key == k && c.offset.isSome)).bind (·.offset)) with
  | some p => p
  | none => -(2 ^ 63)

/-- LINKSET_QUERY (R261, R262, Table 15.11). -/
def execLinksetQuery (h : CmdHdr) (index : Byte) (s : State) : Res :=
  .next (s.runCmd (gateNotRelay 0x0403) h fun s =>
    let i := index.toNat
    let r : Nat × List W64 := match s.force.links.find? (fun x => x.index == i) with
      | some x => (1, x.keys)
      | none => match s.map.published.learned.find? (fun x => x.index == i) with
        | some x => (2, x.keys)
        | none => (0, [])
    s.refuseIf (decide (63 < i)) .badParam
      (s, answer .ok ([index] ++ le 1 r.1 ++ le 1 r.2.length ++ [0] ++ le 4 s.map.learnRefused
        ++ r.2.flatMap (fun k => le 8 k.toNat ++ leInt 8 (s.memberOffset k)))))

/-! ### Probes (R245, R255, R256) -/

/-- Whether a candidate is held out (R254). -/
def State.heldOut (s : State) (c : Candidate) : Bool :=
  c.state == .invalid && !s.elapsed c.heldOut (s.force.follow.nat 8 300 * 1000000000)

/-- The candidate that a probe is for: its service is followed and received, and the candidate is not held out. -/
def State.probeCand (s : State) (slot : Nat) (key : W64) (f : Nat) : Option (Service × Candidate) :=
  match s.slotSvc? slot with
  | none => none
  | some v =>
    if !(v.followed && v.state.costs) then none
    else (v.follow.cands.find? (fun c => c.key == key && c.freqKhz == f && !s.heldOut c)).map (fun c => (v, c))

/-- Whether a point lies in a survey range of its standard on its input. -/
def State.surveyed (s : State) (p : ProbeIn) : Bool :=
  s.force.survey.ranges.any (fun r => r.standard.toNat == p.standard && r.inputs.getLsbD p.input
    && decide (r.startKhz.toNat ≤ p.freqKhz ∧ p.freqKhz ≤ r.stopKhz.toNat)
    && (r.stepKhz == 0#32 || (p.freqKhz - r.startKhz.toNat) % r.stepKhz.toNat == 0))

/-- Whether a probe may start (R245, R254 to R256): for a candidate, within the concurrent limit and the reserve; for
discovery, on a surveyed point that has not failed in this pass, out of every class in SURVEY and out of the reserve in SERVE
and RELAY. -/
def State.probeOk (s : State) (p : ProbeIn) : Bool :=
  let cost := s.probeCharge p
  match p.forSlot with
  | some (slot, key) =>
    (s.probeCand slot key p.freqKhz).isSome && s.reserveFits cost
      && decide ((s.map.probes.filter (fun x => x.forSlot.isSome)).length < s.force.follow.nat 7 4)
  | none =>
    s.surveyed p && !s.map.failedPoints.contains (p.freqKhz, p.input) &&
      match s.power.mode with
      | .survey => ((s.loadNow.add s.reserveUsed).add cost).fits s.capacity
      | .serve | .relay => s.reserveFits cost
      | _ => false

/-- PROBE_START (R245, R255). A candidate's probe takes the place of discovery's where it needs to (R256). -/
def execProbeStart (p : ProbeIn) (wait : Nat) (s : State) : Res :=
  .next <|
    let s1 := s.advance wait
    let s1 := if p.forSlot.isSome then s1.yieldProbes (s1.probeCharge p) else s1
    if s1.power.mode.receives && !s1.inputBarred p.input && s1.probeOk p then
      { s1 with map := { s1.map with probes := s1.map.probes ++ [p] } }
    else s

/-- What a probe found of a candidate (R254): the identity it read is the candidate's, another, or none. -/
def candFound (c : Candidate) (p : ProbeOut) (dt : W64) : Candidate :=
  if p.detected && p.entries.any (fun e => sameKey c.key e.key) then
    { c with state := .valid, margin := p.margin, measured := dt }
  else if p.detected && !p.entries.isEmpty then { c with state := .invalid, measured := dt, heldOut := dt }
  else { c with state := .absent, measured := dt }

/-- A candidate after its probe; a measured programme offset may raise the delay (R254, R263, R266). -/
def State.probeFor (s : State) (slot : Nat) (key : W64) (p : ProbeOut) : State :=
  match s.slotSvc? slot with
  | none => s
  | some v =>
    let upd (c : Candidate) : Candidate :=
      if c.key == key && c.freqKhz == p.freqKhz && c.input == p.input then candFound c p s.time.dt else c
    let f := { v.follow with cands := v.follow.cands.map upd }
    let f := match p.offset with
      | some d => if p.detected && !sameKey key v.ownKey then f.setOffset key d s.time.dt else f
      | none => f
    (s.modSvc slot (fun v => { v with follow := f })).raiseDelay { v with follow := f }

/-- The end of a discovery pass (R245, R247, R249). -/
def State.endPass (s : State) : State :=
  { s with map := { s.map with passes := sat32 (s.map.passes + 1), passDone := true, due := true, refusedKeys := [], failedPoints := [] } }

/-- PROBE_END (R245, R249, R254): what the probe read enters the shadow; a point without identity is not probed again in this
pass. A candidate that is the source in use is measured as a source, not here. -/
def execProbeEnd (p : ProbeOut) (wait : Nat) (s : State) : Res :=
  .next <|
    let mine (x : ProbeIn) : Bool := x.standard == p.standard && x.freqKhz == p.freqKhz && x.input == p.input && x.forSlot == p.forSlot
    if !(s.map.probes.any mine) then s
    else
      let s := s.advance wait
      let s : State := { s with map := { s.map with probes := s.map.probes.filter (fun x => !mine x) } }
      let s := if s.isMast then s else (if p.detected then p.entries else []).foldl State.upsert s
      let s := match p.forSlot with
        | some (slot, key) => s.probeFor slot key p
        | none => if p.detected && !p.entries.isEmpty then s
          else { s with map := { s.map with failedPoints := s.map.failedPoints ++ [(p.freqKhz, p.input)] } }
      if p.passEnd && p.forSlot.isNone then s.endPass else s

end Sys2Proof.Machine
end

