-- ==== Sys2Proof/Machine/Alerts.lean ====
section
/-! DEFINITION. Alerts: their start, update and end, their units and events, and the routing of announcements (R272 to
R276). -/

namespace Sys2Proof.Machine

/-- The key under which alerts of a reception are kept: the multiplex, or for FM the key 0x2 of its frequency. -/
def alertCarrier (rx : Reception) : W64 :=
  if rx.carrier = 0#64 then BitVec.ofNat 64 (2 * 2 ^ 60 + rx.freqKhz) else rx.carrier

/-- Whether a service belongs to a cluster by its FIG 0/18 (R275). -/
def State.inCluster (s : State) (v : Service) (cluster : Nat) : Bool :=
  match s.dab? v.rx.carrier (fun _ => true) with
  | none => false
  | some d => d.support.any (fun x => x.1.toNat == v.attrs.key.toNat % 2 ^ 32 && x.2.2.any (fun c => c.toNat == cluster))

/-- Whether an alert concerns a service (R273, R275): the service is received from the alert's carrier, and on DAB belongs to
its cluster, except for an alarm, or is the whole ensemble. -/
def State.concerns (s : State) (a : Alert) (v : Service) : Bool :=
  v.state.costs && alertCarrier v.rx == a.carrier &&
    (keyRxStd v.attrs.key != 5 || a.type == 0 || keyStd v.attrs.key == 9 || s.inCluster v a.cluster)

/-- The payload of an alert unit (Table 10.5): state 0 start, 1 update, 2 end. -/
def alertPayload (a : Alert) (state : Nat) (sig : List Byte) : List Byte :=
  le 1 a.type ++ le 1 state ++ le 1 a.cluster ++ le 1 a.subCh ++ le 8 a.key.toNat ++ le 4 a.freqKhz ++ le 2 sig.length
    ++ zeros 2 ++ sig

/-- The units and the event of an alert's change (R273, R274). -/
def State.sayAlert (s : State) (a : Alert) (state : Nat) (stamp : W64) (sig : List Byte) : State :=
  let vs := s.services.filter (s.concerns a)
  let s := vs.foldl (fun s v => if (s.stream? v.field 0xA).isSome then
      s.pushUnit v.field 0xA v.force.gen stamp 0 0#32 (alertPayload a state sig) else s) s
  let slot := match vs.mergeSort (fun x y => decide (x.slot ≤ y.slot)) with | v :: _ => v.field | [] => noSlot
  if state != 1 && s.force.alertMask.getLsbD a.type then
    s.raise 0x8007 slot (le 1 a.type ++ le 1 state ++ le 1 a.cluster ++ le 1 a.subCh ++ le 4 a.freqKhz ++ le 8 a.key.toNat)
  else s

/-! ### Routing (R275, R276) -/

/-- A routing switches in or out: at the programme's next zero crossing on its port, else at once; its first unit carries
SPLICE (R275). -/
def State.routeSwitch (s : State) (v : Service) : State :=
  match s.progOf v.field with
  | some (p, g) => if g.playing then s.zcAdd p g .alert else s.modStream v.field 1 (fun x => { x with flags := x.flags ||| fSplice })
  | none => s.modStream v.field 1 (fun x => { x with flags := x.flags ||| fSplice })

/-- Whether a service's programme plays on a port, so that a switch waits for its zero crossing. -/
def State.onPort (s : State) (v : Service) : Bool := match s.progOf v.field with | some (_, g) => g.playing | none => false

/-- A routing ends, and delivery returns to the service's own source. -/
def State.endRouting (s : State) (n : Nat) : State :=
  match s.slotSvc? n with
  | none => s
  | some v =>
    match v.follow.routing with
    | none => s
    | some r =>
      let s := s.modSvc n (fun v => { v with follow := { v.follow with routing := none } })
      if r.pending then s else s.routeSwitch v

/-- The programme that an alert routes into a service (R275): a sub-channel of its own ensemble, or the station of the EON
signalling on a frequency listed for it. -/
def State.routeOf (s : State) (v : Service) (a : Alert) : Option Routing :=
  if a.type > 0xA then none
  else if keyRxStd v.attrs.key = 5 then
    let own := match s.dab? v.rx.carrier (fun _ => true) with
      | some d => (d.subCh? v.attrs.key).map (·.id)
      | none => none
    if a.subCh < 64 && own != some a.subCh then some ⟨a.type, a.key, a.subCh, 0, s.time.dt, true⟩ else none
  else if keyStd a.key = 1 && !sameKey a.key v.attrs.key then
    match s.keyFreqs a.key with
    | f :: _ => some ⟨a.type, a.key, 0xFF, f, s.time.dt, true⟩
    | [] => none
  else none

/-- A routing starts (R275). -/
def State.startRouting (s : State) (v : Service) (r : Routing) : State :=
  let s := s.yieldProbes (routingCost r)
  let s := s.modSvc v.slot (fun v => { v with follow := { v.follow with routing := some { r with pending := s.onPort v } } })
  s.routeSwitch v

/-- An alert that a service can no longer route. -/
def State.spend (s : State) (a : Alert) (n : Nat) : State :=
  { s with alerts := s.alerts.map (fun x => if x == a then { x with spent := x.spent ++ [n] } else x) }

/-- An alert is routed into one service where its mask, the splice under way, another routing and the reserve let it be
(R274 to R276). Without reserve it is not routed. -/
def State.tryRoute (s : State) (a : Alert) (n : Nat) : State :=
  match s.slotSvc? n with
  | none => s
  | some v =>
    if !(s.concerns a v && bound v.attrs 1 && v.force.alertMask.getLsbD a.type) || a.spent.contains n then s
    else match s.routeOf v a with
      | none => s
      | some r =>
        let held := match v.follow.routing with
          | some x => x.type == 0 || a.type != 0
          | none => false
        if held || (a.type != 0 && v.follow.splice.isSome) then s
        else
          let s := if v.follow.splice.isSome then s.abandonSplice n else s
          let s := if v.follow.routing.isSome then s.endRouting n else s
          if (s.yieldProbes (routingCost r)).reserveFits (routingCost r) then
            match s.slotSvc? n with | some w => s.startRouting w r | none => s
          else s.spend a n

/-- Every alert that is active and not routed is tried in every service, alarms first, then in order of start. -/
def State.routeAll (s : State) : State :=
  let as := s.alerts.filter (fun a => a.type == 0) ++ s.alerts.filter (fun a => a.type != 0)
  as.foldl (fun s a => (s.services.map (·.slot)).foldl (fun s n => s.tryRoute a n) s) s

/-- Whether the alert that a routing plays is still active. -/
def State.routeStands (s : State) (v : Service) (r : Routing) : Bool :=
  s.alerts.any (fun a => a.type == r.type && a.key == r.key && (r.subCh ≥ 64 || a.subCh == r.subCh) && !a.spent.contains v.slot)
    && (r.subCh ≥ 64 || s.carrierSynced v.rx.carrier)

/-- Routings whose alert has ended, or whose source is lost, end (R275). -/
def State.endRoutes (s : State) : State :=
  s.services.foldl (fun s v => match v.follow.routing with
    | some r => if s.routeStands v r then s else s.endRouting v.slot
    | none => s) s

/-! ### Start, update, end (R272) -/

/-- Whether two alerts are one. -/
def sameAlert (a b : Alert) : Bool :=
  a.type == b.type && a.carrier == b.carrier && a.key == b.key && a.cluster == b.cluster && a.id == b.id

/-- An alert is signalled: it starts, or where it is active its signalling is renewed, and a change of it is an update. -/
def State.alertOn (s : State) (a : Alert) (stamp : W64) (sig : List Byte) : State :=
  match s.alerts.find? (sameAlert a) with
  | some old =>
    let new := { a with spent := old.spent, seen := s.time.dt }
    let s := { s with alerts := s.alerts.map (fun x => if sameAlert a x then new else x) }
    if old.subCh != a.subCh || old.freqKhz != a.freqKhz || old.expiry != a.expiry then s.sayAlert new 1 stamp sig else s
  | none =>
    let new := { a with spent := [], seen := s.time.dt }
    let s := ({ s with alerts := s.alerts ++ [new] }).sayAlert new 0 stamp sig
    (s.services.map (·.slot)).foldl (fun s n => s.tryRoute new n) s

/-- Alerts end. -/
def State.alertOff (s : State) (p : Alert → Bool) (stamp : W64) (sig : List Byte) : State :=
  let ended := s.alerts.filter p
  let s := { s with alerts := s.alerts.filter (fun a => !p a) }
  (ended.foldl (fun s a => s.sayAlert a 2 stamp sig) s).endRoutes

/-- Whether an alert has timed out (Table 9.9): a DAB cluster absent for 2 s, an EON station (`id` 1) for 30 s, an AEA past
its expiry. -/
def State.alertTimedOut (s : State) (a : Alert) : Bool :=
  if a.type = 0x20 then decide (a.expiry.toNat ≤ s.now)
  else if keyStd a.carrier = 9 then s.elapsed a.seen 2000000000
  else a.id = 1#32 && s.elapsed a.seen 30000000000

/-- ALERT_TIMEOUT (R272, R275): alerts that have timed out end, and a routing of the slot that has reached its limit. -/
def execAlertTimeout (slot : Nat) (wait : Nat) (s : State) : Res :=
  .next <|
    let s1 := s.advance wait
    let s2 := s1.alertOff s1.alertTimedOut s1.time.dt []
    match s2.slotSvc? slot with
    | none => s2
    | some v =>
      match v.follow.routing with
      | none => s2
      | some r =>
        if s2.elapsed r.since (v.force.alertLimit.toNat * 1000000000) then
          let used := s2.alerts.map (fun a => if a.type == r.type && a.key == r.key then { a with spent := a.spent ++ [slot] } else a)
          ({ s2 with alerts := used }).endRouting slot
        else s2

/-- Whether a carrier is received or probed. -/
def State.hears (s : State) (carrier : W64) : Bool :=
  s.services.any (fun v => v.state.costs && alertCarrier v.rx == carrier)
    || s.carriers.any (fun c => c.key == carrier)
    || s.map.probes.any (fun p => BitVec.ofNat 64 (2 * 2 ^ 60 + p.freqKhz) == carrier)

/-- Alerts at a tick: those of carriers no longer received are dropped without an end (log entry 27), and routings follow. -/
def State.alertTick (s : State) : State :=
  (({ s with alerts := s.alerts.filter (fun a => s.hears a.carrier) }).endRoutes).routeAll

/-- Whether a PCM unit of a service belongs to an active alert of the source that delivers it (R273): the service itself
announces, or an announcement is routed. -/
def State.alertNow (s : State) (v : Service) : Bool :=
  let routed := match v.follow.routing with | some r => !r.pending | none => false
  let sub := match s.dab? v.rx.carrier (fun _ => true) with
    | some d => (d.subCh? v.attrs.key).map (·.id)
    | none => none
  routed || s.alerts.any (fun a => a.carrier == alertCarrier v.rx &&
    (if keyRxStd v.attrs.key = 5 then sub == some a.subCh else a.type == 0x20 || a.id == 0#32))

/-- ALERT_CONFIG (R274, Table 15.11). -/
def execAlertConfig (h : CmdHdr) (params : Option AlertParams) (s : State) : Res :=
  .next (s.runCmd ⟨0x0405, .either, notRelay, .none⟩ h fun s =>
    match s.svc? h.slot, params with
    | none, none => (s, answer .ok (le 8 s.force.alertMask.toNat ++ le 4 0))
    | none, some p => s.commitDev (some 3) (fun a => { a with alertMask := p.mask })
    | some v, none => (s, answer .ok (le 8 v.force.alertMask.toNat ++ le 4 v.force.alertLimit.toNat))
    | some v, some p =>
      s.refuseIf (!bound v.acc.attrs 1 || decide (2048 ≤ p.mask.toNat ∨ p.limitS.toNat < 10 ∨ 3600 < p.limitS.toNat)) .badParam <|
      s.commitSvc v.slot (fun a => { a with alertMask := p.mask, alertLimit := p.limitS }))

end Sys2Proof.Machine
end

