-- ==== Sys2Proof/Machine/Parse.lean ====
section
/-! DEFINITION. What the parsers read of RDS groups, FIBs, sections and LLS tables (Table 9.1, R240 to R243, R262, R272, R73).
The positions of the RDS items within a group are those of IEC 62106, PRESUMED (log entry 28). ALERT_CAPABLE marks entries
with a source of Table 9.9: RDS, DAB with announcement support, ATSC 3.0 (log entry 29). -/

namespace Sys2Proof.Machine

/-! ### Names and keys -/

/-- Whether a byte continues a UTF-8 character. -/
def utf8Cont (b : Byte) : Bool := b.toNat / 64 == 2

/-- A name cut to 24 bytes at a character boundary (Table 9.2). -/
def cutName (bs : List Byte) : List Byte :=
  if bs.length ≤ 24 then bs
  else
    let n := (List.range 24).foldl (fun n i => if utf8Cont (bs.getD (24 - i) 0) && n == 24 - i then 23 - i else n) 24
    bs.take n

/-- Key 0x1 of a PI (Table 1.1). -/
def rdsKey (ecc pi : Nat) : W64 := BitVec.ofNat 64 (1 * 2 ^ 60 + ecc * 2 ^ 40 + pi)
/-- Key 0x2 of a frequency. -/
def fmKey (khz : Nat) : W64 := BitVec.ofNat 64 (2 * 2 ^ 60 + khz)
/-- Key 0x5 of a component. -/
def dabKey (ecc sid scids : Nat) : W64 := BitVec.ofNat 64 (5 * 2 ^ 60 + scids * 2 ^ 48 + ecc * 2 ^ 40 + sid)
/-- Key 0x6 of a service. -/
def dvbKey (onid tsid sid : Nat) : W64 := BitVec.ofNat 64 (6 * 2 ^ 60 + onid * 2 ^ 32 + tsid * 2 ^ 16 + sid)
/-- Key 0x9 of a DVB multiplex. -/
def dvbMux (onid tsid : Nat) : W64 := BitVec.ofNat 64 (0x96 * 2 ^ 56 + onid * 2 ^ 32 + tsid * 2 ^ 16)
/-- Key 0x7 of a service. -/
def atscKey (bsid sid : Nat) : W64 := BitVec.ofNat 64 (7 * 2 ^ 60 + bsid * 2 ^ 16 + sid)

/-- An entry of which only the key, the carrier and where it is received are known. -/
def blankEntry (key carrier : W64) (khz input : Nat) (level margin : W16) : MapEntry :=
  ⟨key, carrier, BitVec.ofNat 32 khz, BitVec.ofNat 8 (2 ^ input), 0#8, level, margin, [], 0xFF#8, 0#32, 0xFF#8, 0#8, 0#16, 0#8,
    [], none, 0, 0⟩

/-- LEVEL and MARGIN for an entry that a parser adds: those of the entry of its carrier, or free values, since the spec gives
a parsed item neither (log entry 5). -/
def State.parsedLevel (s : State) (carrier : W64) : State × W16 × W16 :=
  match hasKey s.map.shadow.entries carrier with
  | some e => (s, e.level, e.margin)
  | none =>
    let a := s.free
    let b := a.1.free
    (b.1, BitVec.ofNat 16 a.2, BitVec.ofNat 16 b.2)

/-- A parsed service enters the shadow: an entry that is there is changed, another is added. The mast keeps no map (R243). -/
def State.parsed (s : State) (key carrier : W64) (khz input : Nat) (f : MapEntry → MapEntry) : State :=
  if s.isMast then s
  else match hasKey s.map.shadow.entries key with
    | some _ => s.touch key f
    | none =>
      let (s, level, margin) := s.parsedLevel carrier
      s.upsert (f (blankEntry key carrier khz input level margin))

/-- A key of the shadow gets its ECC (R242): entry, counts and lists; nothing where an entry of the full key is there. -/
def State.rekey (s : State) (old new : W64) : State :=
  let m := s.map.shadow
  match m.entries.find? (fun e => e.key == old) with
  | none => s
  | some e =>
    if old == new || m.entries.any (fun x => x.key == new) then s
    else
      let re (k : W64) : W64 := if k == old then new else k
      let es := (insertEntry { e with key := new } (m.entries.filter (fun x => x.key != old))).map (fun x => { x with carrier := re x.carrier })
      let map := { s.map with
        shadow := { m with entries := es, lists := m.lists.map (fun x => (re x.1, x.2)) }
        seenAt := s.map.seenAt.map (fun x => (re x.1, x.2))
        absent := s.map.absent.map (fun x => (re x.1, x.2)) }
      { s with map := map }

/-! ### RDS -/

/-- The parser's memory of a slot. -/
def State.rdsOf (s : State) (slot : Nat) : RdsParse :=
  match s.rds.find? (fun r => r.slot == slot) with
  | some r => r
  | none => ⟨slot, 0, List.replicate 8 0x20#8, [], 0xFF, 0, false, 0, false⟩

/-- The parser's memory of a slot replaced. -/
def State.setRds (s : State) (r : RdsParse) : State :=
  { s with rds := s.rds.filter (fun x => x.slot != r.slot) ++ [r] }

/-- A character of PS; those outside ASCII read as spaces (log entry 28). -/
def psChar (n : Nat) : Byte := if 0x20 ≤ n ∧ n < 0x7F then BitVec.ofNat 8 n else 0x20#8

/-- Two characters put at segment `i` of a PS name. -/
def psPut (ps : List Byte) (i : Nat) (w : W16) : List Byte :=
  (ps.set (2 * i) (psChar (w.toNat / 256))).set (2 * i + 1) (psChar (w.toNat % 256))

/-- A PS name without the spaces at its end. -/
def psTrim (ps : List Byte) : List Byte := (ps.reverse.dropWhile (· == 0x20#8)).reverse

/-- The frequencies in kHz of a pair of AF codes: 1 to 204 are 87.6 MHz and up; 250 makes the next one LF or MF. -/
def afPair (w : W16) : List Nat :=
  let a := w.toNat / 256
  let b := w.toNat % 256
  let one (n : Nat) : List Nat := if 1 ≤ n ∧ n ≤ 204 then [87500 + 100 * n] else []
  one a ++ (if a = 250 then [] else one b)

/-- The bits of block B. -/
structure RdsB where
  group : Nat
  verB  : Bool
  tp    : Bool
  pty   : Nat
  low   : Nat
  deriving DecidableEq, Repr

/-- Block B taken apart. -/
def rdsB (b : W16) : RdsB := ⟨b.toNat / 4096, b.getLsbD 11, b.getLsbD 10, b.toNat / 32 % 32, b.toNat % 32⟩

/-- A decoded RDS group (R172, Table 6.2): its four data words, the confidence of each block, whether the third block
had offset C′, the blocks of offset E, and the DT of block A's first bit. -/
structure RdsGroup where
  a     : W16
  b     : W16
  c     : W16
  d     : W16
  conf  : List Nat
  cPrime : Bool
  eBlocks : Nat
  stamp : W64
  deriving DecidableEq, Repr

/-- The remainder of a block by the generator of IEC 62106, x^10 + x^8 + x^7 + x^5 + x^4 + x^3 + 1 (log entry 28). -/
def rdsRem (w : BitVec 26) : Nat :=
  (List.range 26).foldl (fun r i =>
    let r := r * 2 + (w.getMsbD i).toNat
    if 1024 ≤ r then r ^^^ 0x5B9 else r) 0

/-- Table 6.2: a word against the offset it should have, within the correction limit. -/
def rdsCorrect (offset limit : Nat) (w : BitVec 26) : Nat × BitVec 26 :=
  let y := rdsRem w ^^^ offset
  let one := if 1 ≤ limit then (List.range 26).find? (fun i => rdsRem (1#26 <<< i) == y) else none
  let two := if 2 ≤ limit then (List.range 25).find? (fun i => rdsRem (3#26 <<< i) == y) else none
  if y = 0 then (0, w)
  else match one, two with
    | some i, _ => (1, w ^^^ 1#26 <<< i)
    | none, some i => (2, w ^^^ 3#26 <<< i)
    | none, none => (3, 0#26)

/-- A block (R170): both values of each erased bit are tried, and more than two erased bits give confidence 3. -/
def rdsBlock (offset limit : Nat) (x : BitVec 26 × BitVec 26) : Nat × BitVec 26 :=
  let es := (List.range 26).filter (fun i => x.2.getLsbD i)
  if 2 < es.length then (3, 0#26)
  else
    let ws := es.foldl (fun ws i => ws.flatMap (fun w => [w, w ^^^ 1#26 <<< i])) [x.1 &&& ~~~x.2]
    (ws.map (rdsCorrect offset limit)).foldl (fun a b => if b.1 < a.1 then b else a) (3, 0#26)

/-- A group at a correction limit (R170, R171): the third block has the offset C or C′, whichever fits better. -/
def rdsDecode (limit : Nat) (x : RdsGroupIn) : RdsGroup :=
  let block (i offset : Nat) := rdsBlock offset limit (x.blocks.getD i (0#26, BitVec.allOnes 26))
  let word (b : Nat × BitVec 26) : W16 := b.2.extractLsb' 10 16
  let a := block 0 0x0FC
  let b := block 1 0x198
  let c := block 2 0x168
  let c' := block 2 0x350
  let d := block 3 0x1B4
  let p := decide (c'.1 < c.1)
  let c := if p then c' else c
  ⟨word a, word b, word c, word d, [a.1, b.1, c.1, d.1], p, x.eBlocks, x.stamp⟩

/-- The signalling of an alert in RDS: the four data words as received. -/
def rdsSig (g : RdsGroup) : List Byte := le 2 g.a.toNat ++ le 2 g.b.toNat ++ le 2 g.c.toNat ++ le 2 g.d.toNat

/-- Whether a block may be parsed: confidence 0 or 1 (R240). -/
def rdsGood (g : RdsGroup) (i : Nat) : Bool := decide (g.conf.getD i 3 ≤ 1)

/-- PTY and TA of a 0A or 0B group: the runs of R272. -/
def RdsParse.run (r : RdsParse) (x : RdsB) : RdsParse :=
  let ta := decide (16 ≤ x.low)
  { r with
    ptyRun := if (r.pty == 31) == (x.pty == 31) then r.ptyRun + 1 else 1
    pty := x.pty
    taRun := if r.ta == ta then r.taRun + 1 else 1
    ta := ta
    tp := x.tp }

/-- The alert of a station's own signalling. -/
def ownAlert (type : Nat) (key : W64) (khz : Nat) : Alert := ⟨type, fmKey khz, key, 0xFF, 0xFF, khz, 0#32, 0#64, 0#64, []⟩

/-- The alerts that PTY 31 and TA give (R272). -/
def State.rdsAlerts (s : State) (r : RdsParse) (key : W64) (khz : Nat) (g : RdsGroup) : State :=
  let sig := rdsSig g
  let mine (t : Nat) (a : Alert) : Bool := a.type == t && a.carrier == fmKey khz && a.id == 0#32
  let s := if r.ptyRun < 2 then s
    else if r.pty = 31 then s.alertOn (ownAlert 0 key khz) g.stamp sig else s.alertOff (mine 0) g.stamp sig
  if r.taRun < 2 then s
  else if r.ta then (if r.tp then s.alertOn (ownAlert 1 key khz) g.stamp sig else s)
  else s.alertOff (mine 1) g.stamp sig

/-- Group 0A or 0B: TP, TA, PTY, PS, and AF in 0A. -/
def State.rdsGroup0 (s : State) (v : Service) (x : RdsB) (g : RdsGroup) : State :=
  let r := (s.rdsOf v.slot).run x
  let r := if rdsGood g 3 then { r with ps := psPut r.ps (x.low % 4) g.d } else r
  let key := rdsKey r.ecc g.a.toNat
  let khz := v.rx.freqKhz
  let s := s.setRds r
  let s := s.parsed key (fmKey khz) khz v.rx.input (fun e => { e with
    name := psTrim r.ps, pty := BitVec.ofNat 8 x.pty
    flags := (e.flags &&& 0xD9#8) ||| (if x.tp then 0x0C#8 else 0x08#8) ||| 0x10#8 })
  let s := if !x.verB && rdsGood g 2 && !s.isMast then s.listFreqs key (afPair g.c) else s
  s.rdsAlerts r key khz g

/-- Group 1A, variant 0: ECC (R242). -/
def State.rdsGroup1 (s : State) (v : Service) (x : RdsB) (g : RdsGroup) : State :=
  if x.verB || !rdsGood g 2 || g.c.toNat / 4096 % 8 != 0 then s
  else
    let ecc := g.c.toNat % 256
    let s := s.setRds { s.rdsOf v.slot with ecc := ecc }
    if s.isMast then s else s.rekey (rdsKey 0 g.a.toNat) (rdsKey ecc g.a.toNat)

/-- Group 14A: PI(ON) with PS(ON), AF(ON), mapped frequencies, PTY(ON) and TP(ON) of another network. -/
def State.rdsGroup14A (s : State) (v : Service) (x : RdsB) (g : RdsGroup) : State :=
  let r := s.rdsOf v.slot
  let pi := g.d
  let key := rdsKey 0 pi.toNat
  let var := x.low % 16
  let old := match r.eonPs.find? (fun y => y.1 == pi) with | some y => y.2 | none => List.replicate 8 0x20#8
  let ps := if var < 4 then psPut old var g.c else old
  let s := s.setRds { r with eonPs := r.eonPs.filter (fun y => y.1 != pi) ++ [(pi, ps)] }
  let fs := if var = 4 then afPair g.c
    else if 5 ≤ var ∧ var ≤ 8 ∧ afPair (BitVec.ofNat 16 (g.c.toNat / 256 * 256)) = [v.rx.freqKhz] then
      afPair (BitVec.ofNat 16 (g.c.toNat % 256)) else []
  let change (e : MapEntry) : MapEntry := { e with
    name := if psTrim ps = [] then e.name else psTrim ps
    pty := if var = 13 then BitVec.ofNat 8 (g.c.toNat / 2048) else e.pty
    flags := (e.flags &&& 0xFB#8) ||| (if 16 ≤ x.low then 4#8 else 0#8) }
  if s.isMast then s
  else
    let s := match hasKey s.map.shadow.entries key, fs with
      | some e, _ => s.touch e.key change
      | none, f :: _ => s.parsed key (fmKey f) f v.rx.input (fun e => { change e with flags := (change e).flags ||| 0x20#8 })
      | none, [] => s
    match hasKey s.map.shadow.entries key with
    | some e => s.listFreqs e.key fs
    | none => s.listFreqs key fs

/-- Group 14B: TA(ON) of another network (R272). -/
def State.rdsGroup14B (s : State) (v : Service) (x : RdsB) (g : RdsGroup) : State :=
  let key := match hasKey s.map.published.entries (rdsKey 0 g.d.toNat) with | some e => e.key | none => rdsKey 0 g.d.toNat
  let khz := (s.keyFreqs key).headD 0
  let a : Alert := ⟨1, fmKey v.rx.freqKhz, key, 0xFF, 0xFF, khz, 1#32, 0#64, 0#64, []⟩
  if x.low / 8 % 2 = 1 then s.alertOn a g.stamp (rdsSig g)
  else s.alertOff (fun b => b.type == 1 && b.carrier == a.carrier && sameKey b.key key && b.id == 1#32) g.stamp (rdsSig g)

/-- A group whose blocks A and B may be parsed (R240). -/
def State.rdsParse (s : State) (v : Service) (g : RdsGroup) : State :=
  let x := rdsB g.b
  if !(rdsGood g 0 && rdsGood g 1) then s
  else match x.group with
    | 0 => s.rdsGroup0 v x g
    | 1 => s.rdsGroup1 v x g
    | 14 => if !rdsGood g 3 then s else if x.verB then s.rdsGroup14B v x g else if rdsGood g 2 then s.rdsGroup14A v x g else s
    | _ => s

/-- The body of an RDS record (Table 10.7). -/
def rdsBody (g : RdsGroup) : List Byte :=
  rdsSig g ++ (List.range 4).flatMap (fun i => le 1 (g.conf.getD i 3)) ++ [if g.cPrime then 1 else 0] ++ zeros 3

/-- The counts of Table 6.9 for a group. -/
def AnalogueSt.countGroup (a : AnalogueSt) (g : RdsGroup) (heard : Bool) : AnalogueSt :=
  { a with
    conf := a.conf.zipIdx.map (fun x => sat32 (x.1 + ((List.range 4).filter (fun i => g.conf.getD i 3 == x.2)).length))
    groups := if heard then sat32 (a.groups + 1) else a.groups
    eBlocks := sat32 (a.eBlocks + g.eBlocks) }

/-- RDS_GROUP (R172, R240 to R243, R272): while synchronised, a group with a block of a confidence other than 3 is delivered;
its record passed its check where every block has confidence 0 or 1. -/
def execRdsGroup (slot : Nat) (x : RdsGroupIn) (wait : Nat) (s : State) : Res :=
  .next <|
    match s.slotSvc? slot with
    | none => s
    | some v =>
      if !(v.state.costs && fmStereo v.attrs && v.analogue.rdsSync) then s
      else
        let g := rdsDecode (v.force.analogue.nat 6 2) x
        let heard := (List.range 4).any (fun i => g.conf.getD i 3 != 3)
        let s := (s.advance wait).modSvc slot (fun v => { v with analogue := v.analogue.countGroup g heard })
        if !heard then s
        else (s.sideRec v.field g.stamp 1 ((List.range 4).all (rdsGood g)) (rdsBody g)).rdsParse v g

/-! ### DAB -/

/-- Sub-channels with new ones in the place of those of the same identifier. -/
def mergeSubs (old new : List SubCh) : List SubCh := old.filter (fun a => !new.any (fun b => b.id == a.id)) ++ new
/-- Components with new ones in the place of those of the same SId and SCIdS. -/
def mergeComps (old new : List DabComp) : List DabComp :=
  old.filter (fun a => !new.any (fun b => b.sid == a.sid && b.scids == a.scids)) ++ new

/-- The engine's own copy of the MCI (R194, R195). -/
def DabEngine.fig (d : DabEngine) (x : FigItem) : DabEngine :=
  match x with
  | .fig00 eid cif change =>
    let d := { d with eid := eid, cif := cif }
    match change with
    | none => d
    | some c => { d with nextMci := some (c, match d.nextMci with | some (_, a, b) => (a, b) | none => ([], [])) }
  | .mci true subs comps =>
    { d with nextMci := some (match d.nextMci with
      | some (c, a, b) => (c, mergeSubs a subs, mergeComps b comps)
      | none => (d.cif, subs, comps)) }
  | .mci false subs comps =>
    { d with subChs := mergeSubs d.subChs subs, comps := mergeComps d.comps comps }
  | .fig018 sid flags clusters =>
    { d with support := d.support.filter (fun y => y.1 != sid) ++ [(sid, flags, clusters)] }
  | _ => d

/-- The components that the MCI gives enter the shadow, and those it omits count as absent (R243, R248). -/
def State.dabServices (s : State) (c : CarrierSt) (d : DabEngine) : State :=
  if d.comps.isEmpty || s.isMast then s
  else
    let ecc := keyEcc c.key
    let one (s : State) (x : DabComp) : State :=
      let sub := d.subChs.find? (fun y => y.id == x.subCh)
      s.parsed (dabKey ecc x.sid.toNat x.scids) c.key c.freqKhz c.input (fun e => { e with
        carrier := c.key, kbps := match sub with | some y => y.kbps | none => e.kbps
        flags := (e.flags &&& 0xDF#8) ||| (if x.packet then 0#8 else 0x10#8) })
    let s := s.parsed c.key 0#64 c.freqKhz c.input id
    (d.comps.foldl one s).carrierLists c.key (d.comps.map (fun x => dabKey ecc x.sid.toNat x.scids))

/-- Every entry of an ensemble gets the ECC of FIG 0/9 (R242). -/
def State.dabEcc (s : State) (c : CarrierSt) (ecc : Nat) : State :=
  let full (k : W64) : W64 := BitVec.ofNat 64 (k.toNat + ecc * 2 ^ 40)
  let keys := (s.map.shadow.entries.filter (fun e => (sameKey e.carrier c.key || sameKey e.key c.key) && keyEcc e.key == 0 && hasEcc e.key)).map (·.key)
  keys.foldl (fun s k => s.rekey k (full k)) s

/-- The highest index that no set holds (R262). -/
def State.freeLink (s : State) : Option Nat :=
  ((List.range 64).reverse).find? (fun i => !s.acc.links.any (fun x => x.index == i) && !s.map.shadow.learned.any (fun x => x.index == i))

/-- FIG 0/6: a hard link learned, renewed or ended (R262). -/
def State.learnLink (s : State) (active : Bool) (keys : List W64) : State :=
  let m := s.map.shadow
  let ks := ((keys.map clearKey).filter (fun k => (keyStd k == 1 || keyStd k == 5)
    && !s.acc.links.any (fun x => x.keys.any (sameKey k)))).eraseDups.take 8
  let mine (x : LearnedSet) : Bool := x.keys.any (fun k => ks.any (sameKey k))
  let set (l : List LearnedSet) : State := { s with map := { s.map with shadow := { m with learned := l } } }
  if s.isMast || s.force.follow.nat 14 1 = 0 || ks.length < 2 then s
  else if !active then set (m.learned.filter (fun x => !mine x))
  else if m.learned.any mine then
    set (m.learned.map (fun x => if mine x then { x with keys := ks, seen := s.time.dt } else x))
  else match s.freeLink with
    | some i => set (m.learned ++ [⟨i, ks, s.time.dt⟩])
    | none => { s with map := { s.map with learnRefused := sat32 (s.map.learnRefused + 1) } }

/-- FIG 0/19: the alerts of a cluster (R272). The originating key is that of a service on the announcing sub-channel, or the
ensemble's. -/
def State.fig019 (s : State) (c : CarrierSt) (cluster : Nat) (asw : W16) (subCh : Nat) (stamp : W64) : State :=
  let d := s.dab? c.key (fun _ => true)
  let key := match d.bind (fun d => d.comps.find? (fun x => x.subCh == subCh)) with
    | some x => dabKey (keyEcc c.key) x.sid.toNat x.scids
    | none => c.key
  let sig := le 1 cluster ++ le 2 asw.toNat ++ le 1 subCh
  (List.range 11).foldl (fun s n =>
    let mine (a : Alert) : Bool := a.type == n && a.carrier == c.key && a.cluster == cluster
    if asw.getLsbD n then
      let key := match s.alerts.find? mine with | some a => a.key | none => key
      s.alertOn ⟨n, c.key, key, cluster, subCh, c.freqKhz, 0#32, 0#64, 0#64, []⟩ stamp sig
    else s.alertOff mine stamp sig) s

/-- The shadow keys of an ensemble's entries with an SId. -/
def State.dabKeys (s : State) (c : CarrierSt) (sid : W32) : List W64 :=
  (s.map.shadow.entries.filter (fun e => keyStd e.key == 5 && sameKey e.carrier c.key && e.key.toNat % 2 ^ 32 == sid.toNat)).map (·.key)

/-- The entries of an SId are changed. -/
def State.dabTouch (s : State) (c : CarrierSt) (sid : W32) (f : MapEntry → MapEntry) : State :=
  if s.isMast then s else (s.dabKeys c sid).foldl (fun s k => s.touch k f) s

/-- An item of a FIB in the parsers (Table 9.1). -/
def State.figParse (c : CarrierSt) (stamp : W64) (s : State) (x : FigItem) : State :=
  match x with
  | .fig00 _ _ _ => s
  | .mci next _ _ => if next then s else match s.dab? c.key (fun _ => true) with
    | some d => s.dabServices c d
    | none => s
  | .fig06 active keys => s.learnLink active keys
  | .fig09 ecc => if s.isMast then s else s.dabEcc c ecc.toNat
  | .fig017 sid pty => s.dabTouch c sid (fun e => { e with pty := pty })
  | .fig018 sid support _ => s.dabTouch c sid (fun e => { e with
      announce := support
      flags := if support = 0#16 then e.flags &&& 0xF7#8 else e.flags ||| 8#8 })
  | .fig019 cluster asw subCh => s.fig019 c cluster.toNat asw subCh stamp
  | .fig021 key freqs => if s.isMast then s else s.listFreqs (clearKey key) freqs
  | .fig024 sid ensembles =>
    let fs := ensembles.flatMap (fun k => match hasKey s.map.shadow.entries (clearKey k) with | some e => entryFreqs e | none => [])
    if s.isMast then s else (s.dabKeys c sid).foldl (fun s k => s.listFreqs k fs) s
  | .label sid name =>
    let s := s.dabTouch c sid (fun e => { e with name := cutName name })
    if !s.isMast && sid.toNat == c.key.toNat % 2 ^ 16 && (s.dabKeys c sid).isEmpty then
      s.touch c.key (fun e => { e with name := cutName name }) else s

/-- FIB_RECEIVED (R194, R240, R241): a bad one is counted; a good one goes to the engine, to the side data of the ensemble's
services, and to the parsers. -/
def execFibReceived (f : FibIn) (wait : Nat) (s : State) : Res :=
  .next <|
    let p (d : DabEngine) : Bool := d.synced
    match s.dab? f.carrier p, s.carriers.find? (fun c => c.key == f.carrier && (match c.engine with | .dab d => d.synced | .tv _ => false)) with
    | some d, some c =>
      let s := s.advance wait
      if !f.good then s.setDab f.carrier p { d with fibBad := sat32 (d.fibBad + 1) }
      else
        let d1 := f.items.foldl DabEngine.fig { d with fibGood := sat32 (d.fibGood + 1) }
        let s := s.setDab f.carrier p d1
        let s := (s.carrierSvcs f.carrier).foldl (fun s v => s.sideRec v.field f.stamp 2 true ((f.raw ++ zeros 32).take 32)) s
        f.items.foldl (State.figParse c f.stamp) s
    | _, _ => s

/-! ### Television -/

/-- Whether a section or table belongs to a service's side data (R241). -/
def sectionFor (v : Service) (x : SectionIn) : Bool :=
  keyStd v.attrs.key == 9 || keyStd v.attrs.key == 7 || decide (0x10 ≤ x.id ∧ x.id ≤ 0x14)
    || (match x.item with | .pmt sid => sid.toNat == v.attrs.key.toNat % 2 ^ 16 | _ => false)

/-- The side-data record of a section or LLS table (Table 10.7). -/
def sectionRec (atsc : Bool) (x : SectionIn) : Nat × List Byte :=
  if atsc then (5, le 1 x.id ++ zeros 3 ++ x.raw) else (4, le 2 x.id ++ zeros 2 ++ x.raw)

/-- The services of an SDT or an SLT. `other` marks those of another multiplex, which are added only where a frequency is
listed for it. -/
def State.siServices (s : State) (c : CarrierSt) (carrier : W64) (other : Bool) (keyOf : Nat → W64) (xs : List SiService) : State :=
  let khz := if other then (match s.map.shadow.listed carrier with
      | f :: _ => some f
      | [] => (hasKey s.map.shadow.entries carrier).map (·.freqKhz.toNat)) else some c.freqKhz
  let signal := match s.tv? c.key (fun _ => true) with | some t => if other then none else some t.signal | none => none
  let one (s : State) (x : SiService) : State :=
    let key := keyOf x.sid.toNat
    let base (e : MapEntry) : MapEntry := { e with
      carrier := carrier, name := cutName x.name, svcType := x.svcType
      audio := if x.audio = 0#8 then e.audio else x.audio
      signal := if signal.isSome then signal else e.signal
      flags := (e.flags &&& 0xCD#8) ||| (if keyStd key = 7 then 8#8 else 0#8) ||| (if x.scrambled then 2#8 else 0#8) ||| (if x.audio = 1#8 || x.audio = 2#8 then 0x10#8 else 0#8) }
    match hasKey s.map.shadow.entries key, khz with
    | some _, _ => if other then s.touch key (fun e => { base e with flags := (base e).flags ||| (e.flags &&& 0x20#8) }) else s.touch key base
    | none, some f => s.parsed key carrier f c.input (fun e => if other then { base e with flags := (base e).flags ||| 0x20#8 } else base e)
    | none, none => s
  if s.isMast then s else xs.foldl one s

/-- A learned leap second (R73, R515): the host's entry of the same DT stays, and a conflict is reported; a full table stores
nothing. -/
def State.learnLeap (s : State) (dt : W64) (deleted : Bool) (l : W16) : State :=
  match s.force.leapHost.find? (fun x => x.dt == dt) with
  | some x => if x.l == l && ((x.kind == 1#8) == deleted) then s else s.refSay 0x0B 1 6
  | none =>
    let row : LeapRow := ⟨dt, deleted, l, 2⟩
    let known := s.leapTable.any (fun x => x.dt == dt)
    if known then
      { s with time := { s.time with learned := s.time.learned.map (fun x => if x.dt == dt then row else x) } }
    else if s.leapTable.length < 32 then { s with time := { s.time with learned := insertLeap row s.time.learned } }
    else s

/-- An item of a section or table in the parsers (Table 9.1). -/
def State.secParse (s : State) (c : CarrierSt) (x : SectionIn) : State :=
  match x.item with
  | .pat | .pmt _ | .other => s
  | .nit onid tsid freqs =>
    if s.isMast then s else (s.touch (dvbMux onid.toNat tsid.toNat) id).listFreqs (dvbMux onid.toNat tsid.toNat) freqs
  | .sdt other onid tsid xs =>
    let mux := dvbMux onid.toNat tsid.toNat
    let s := if other || s.isMast then s else s.parsed mux 0#64 c.freqKhz c.input id
    let s := s.siServices c mux other (dvbKey onid.toNat tsid.toNat) xs
    if other || s.isMast then s else s.carrierLists mux (xs.map (fun y => dvbKey onid.toNat tsid.toNat y.sid.toNat))
  | .slt bsid xs =>
    let s := if s.isMast then s else s.parsed c.key 0#64 c.freqKhz c.input id
    let s := s.siServices c c.key false (atscKey bsid.toNat) xs
    if s.isMast then s else s.carrierLists c.key (xs.map (fun y => atscKey bsid.toNat y.sid.toNat))
  | .systemTime leap l => match leap with | some (dt, del) => s.learnLeap dt del l | none => s
  | .aeat id cancel expiry =>
    if cancel then s.alertOff (fun a => a.type == 0x20 && a.carrier == c.key && a.id == id) x.stamp x.raw
    else s.alertOn ⟨0x20, c.key, c.key, 0xFF, 0xFF, c.freqKhz, id, expiry, 0#64, []⟩ x.stamp x.raw

/-- SECTION_RECEIVED (R240, R241, R73): the record says whether the CRC held; only a good one is parsed. -/
def execSectionReceived (x : SectionIn) (wait : Nat) (s : State) : Res :=
  .next <|
    match s.tv? x.carrier (fun t => t.synced), s.carriers.find? (fun c => c.key == x.carrier && (match c.engine with | .tv t => t.synced | .dab _ => false)) with
    | some t, some c =>
      let s := s.advance wait
      let r := sectionRec (t.signal.std == 2) x
      let s := ((s.carrierSvcs x.carrier).filter (fun v => sectionFor v x)).foldl (fun s v => s.sideRec v.field x.stamp r.1 x.good r.2) s
      if x.good then s.secParse c x else s
    | _, _ => s

end Sys2Proof.Machine
end

