-- ==== Sys2Proof/Machine/Output.lean ====
section
/-! DEFINITION. Output rings, records, tags, the collector, the archive, packet ports and the units that the block makes
itself (chapter 10). -/

namespace Sys2Proof.Machine

/-! ### Rings (R277 to R283) -/

/-- A ring at run time. -/
def State.ring (s : State) (r : Nat) : RingSt := s.outRings.getD r ⟨false, false, 0, 0, 0, 0, [], 0, none⟩
/-- The settings of a ring in force. -/
def State.ringSet (s : State) (r : Nat) : ItemTable := s.force.rings.getD r []
/-- The state with one ring changed. -/
def State.modRing (s : State) (r : Nat) (f : RingSt → RingSt) : State := { s with outRings := s.outRings.modify r f }

/-- Whether a ring may be written: enabled and not in fault. -/
def RingSt.live (x : RingSt) : Bool := x.on && !x.fault

/-- A ring's CONSUMER is read (R280): PRODUCER, or the start of a record not yet consumed; the tags below it return (R293). Any
other value puts the ring in its fault state. -/
def State.readConsumer (s : State) (r : Nat) : State :=
  let x := s.ring r
  if !x.live then s
  else
    let v := s.hostWord ((s.ringSet r).nat 4 + 32)
    if v = x.consumer then s
    else if v = x.producer then s.modRing r (fun x => { x with consumer := v, recs := [] })
    else if x.recs.any (fun y => y.start == v) then
      s.modRing r (fun x => { x with consumer := v, recs := x.recs.dropWhile (fun y => y.start != v) })
    else (s.modRing r (fun x => { x with fault := true })).setIntBoth intRingFault

/-- Every enabled ring's CONSUMER is read at the start of a tick (R280). -/
def State.readConsumers (s : State) : State := (List.range 64).foldl State.readConsumer s

/-- A ring is signalled (R281). -/
def State.signalRing (s : State) (r : Nat) : State :=
  (s.modRing r (fun x => { x with unsignalled := 0, timerUs := none })).msix ((s.ringSet r).nat 5 1)

/-- Bytes of a ring that may be written: 64 always stay free (R279). -/
def State.ringFree (s : State) (r : Nat) : Nat :=
  let x := s.ring r
  let size := (s.ringSet r).nat 3 1
  size - (x.producer + size - x.consumer) % size - 64

/-- Bytes that a record takes of a ring, with its pad (R279). -/
def State.ringNeed (s : State) (r len : Nat) : Nat :=
  let x := s.ring r
  let size := (s.ringSet r).nat 3 1
  let n := roundUp 64 (48 + len)
  if x.producer + n > size then size - x.producer + n else n

/-- The settings of the rings take force (R277, R283): a ring that is enabled starts empty; one that is disabled has its
PRODUCER written a last time and returns every tag. -/
def State.ringForce (s : State) (old : Settings) : State :=
  (List.range 64).foldl (fun s r =>
    let was := (old.rings.getD r []).nat 1 == 1
    let is := (s.ringSet r).nat 1 == 1
    if is && !was then s.modRing r (fun _ => ⟨true, false, 0, 0, 0, 0, [], 0, none⟩)
    else if was && !is then
      let x := s.ring r
      let s := s.hostWrite ((old.rings.getD r []).nat 4) (le 4 x.producer ++ le 4 x.wraps)
      s.modRing r (fun x => { x with on := false, fault := false, recs := [], unsignalled := 0, timerUs := none })
    else s) s

/-- Streams that wait for a ring get one in the first tick in which a ring is enabled (R282). -/
def State.ringAuto (s : State) : State :=
  (s.streams.filter (·.autoRing)).foldl (fun s x =>
    match s.autoRing with
    | none => s
    | some r => s.modStream x.slot x.kind (fun y => { y with ring := some r, autoRing := false })) s

/-- Whether a ring setting that must be set is not (R277). -/
def ringIncomplete (t : ItemTable) : Bool :=
  t.nat 1 == 1 && (t.at 2 == .notSet || t.at 3 == .notSet || t.at 4 == .notSet)

/-- RING_CONFIG (R277, Table 10.1). A ring counts as enabled while it is so in force or by an accepted change. -/
def execRingConfig (h : CmdHdr) (ring : Byte) (items : List Item) (s : State) : Res :=
  .next (s.runCmd (gateNotRelay 0x0501) h fun s =>
    let r := ring.toNat
    s.refuseIf (decide (63 < r)) .badParam <|
    let acc := s.acc.rings.getD r []
    s.itemCmd (tbl101 r) (fun _ => true) [ring, 0, 0, 0] (s.ringSet r) acc items fun t =>
      let en := acc.nat 1 == 1 || (s.ringSet r).nat 1 == 1
      s.refuseIf (ringIncomplete t) .badParam <|
      s.refuseIf (en && [2, 3, 4].any (fun i => acc.at i != t.at i)) .busyRunning <|
      s.commitDev none (fun a => { a with rings := a.rings.set r t }))

/-- The tags that a ring's records hold. -/
def RingSt.tags (x : RingSt) : List Nat := x.recs.filterMap (·.tag)

/-- RING_QUERY (R280, Table 15.12). -/
def execRingQuery (h : CmdHdr) (ring : Byte) (s : State) : Res :=
  .next (s.runCmd (gateNotRelay 0x0502) h fun s =>
    let r := ring.toNat
    let x := s.ring r
    s.refuseIf (decide (63 < r)) .badParam
      (s, answer .ok ([ring] ++ le 1 (if !x.on then 0 else if x.fault then 2 else 1)
        ++ le 2 (s.streams.filter (fun y => y.ring == some r)).length ++ le 4 x.producer ++ le 4 x.consumer ++ le 4 x.wraps
        ++ le 8 x.records ++ le 4 x.tags.length ++ le 4 (s.ringLoad r))))

/-- RING_MODERATION_TIMER (R281, R392): the moderation time has passed since the first record not yet signalled. Ring 64 is
the reply/event ring. -/
def execRingModerationTimer (ring : Nat) (wait : Nat) (s : State) : Res :=
  .next <|
    if ring = 64 then (if s.rings.timerUs.isSome then (s.advance wait).signalReplyRing else s)
    else if (s.ring ring).timerUs.isSome then (s.advance wait).signalRing ring else s

/-! ### Tags (R291 to R294) -/

/-- Every tag that a record holds. -/
def State.heldTags (s : State) : List Nat := s.outRings.flatMap RingSt.tags

/-- The next tag after the last one issued that is not held. -/
def State.nextTag (s : State) : Option Nat :=
  let held := s.heldTags
  ((List.range 65536).map (fun i => (s.tags.last + 1 + i) % 65536)).find? (fun t => !held.contains t)

/-- The generation that a tag's next issue carries (R292). -/
def State.tagGen (s : State) (t : Nat) : Nat :=
  match s.tags.gens.find? (fun x => x.1 == t) with | some x => (x.2 + 1) % 16 | none => 1

/-- A tag is issued (R292). -/
def State.issueTag (s : State) (t : Nat) : State :=
  { s with tags := { s.tags with last := t, gens := (t, s.tagGen t) :: s.tags.gens.filter (fun x => x.1 != t) } }

/-- The ring whose records hold the tag issued longest ago (R294, log entry 30); 0xFF for none. -/
def State.oldestRing (s : State) : Nat :=
  let ages := s.outRings.zipIdx.flatMap (fun x => x.1.tags.map (fun t => ((s.tags.last + 65536 - t) % 65536, x.2)))
  match ages with
  | [] => 0xFF
  | a :: as => (as.foldl (fun b x => if b.1 < x.1 then x else b) a).2

/-- OUTPUT_QUERY (R294, R298, Table 15.12). -/
def execOutputQuery (h : CmdHdr) (first : W16) (s : State) : Res :=
  .next (s.runCmd (gateNotRelay 0x0506) h fun s =>
    let es := s.streams.map (fun x => le 2 x.slot.toNat ++ le 1 x.kind ++ le 1 (x.ring.getD 0xFE) ++ le 4 x.seq ++ le 4 x.drops ++ zeros 4)
    let pg := page 24 first.toNat es
    (s, answer .ok (le 4 s.heldTags.length ++ le 1 s.oldestRing ++ [0] ++ le 2 pg.1.length ++ le 4 s.tags.waitTicks
      ++ le 2 pg.2 ++ zeros 2 ++ pg.1.flatten)))

/-! ### The archive (R300 to R307, R513) -/

/-- The space not yet assigned. -/
def ArchiveSt.unassigned (a : ArchiveSt) : Nat := (a.extents.map (·.remaining)).sum

/-- The low-water mark in bytes. -/
def State.lowMark (s : State) : Nat := s.force.archive.nat 2 1024 * 1048576

/-- EV_ARCHIVE_LOW where the space has fallen below the mark (R305). -/
def State.archiveLow (s : State) : State :=
  let a := s.archive
  if a.lowSaid || s.lowMark ≤ a.unassigned then s
  else ({ s with archive := { a with lowSaid := true } }).raise 0x800E noSlot (le 8 a.unassigned ++ le 2 a.extents.length ++ zeros 2)

/-- A chunk from the next free space (R302, R304); none without an extent. An extent wholly assigned is released (R301). -/
def ArchiveSt.assign (a : ArchiveSt) (size : Nat) : Option (ArchiveSt × Chunk) :=
  match a.extents with
  | [] => none
  | e :: es =>
    let n := min size e.remaining
    let back := match a.lastChunk with | some l => decide (e.start < l) | none => false
    let ep := if back then (a.epoch + 1) % 4096 else a.epoch
    let left := if e.remaining = n then es else ⟨e.start + n, e.remaining - n⟩ :: es
    some ({ a with extents := left, epoch := ep, lastChunk := some e.start }, ⟨e.start, n, 0, ep⟩)

/-- Chunks that carry the epoch just entered from 4,096 advances earlier are left (R513). -/
def State.retireChunks (s : State) (old new : Nat) : State :=
  if old = new then s
  else { s with streams := s.streams.map (fun x => match x.chunk with
    | some c => if c.epoch = new then { x with chunk := none } else x
    | none => x) }

/-- New chunks until one holds `n` bytes: a chunk smaller than that is left unused (R302). -/
def State.newChunk (s : State) (n : Nat) : Nat → State × Option Chunk
  | 0 => (s, none)
  | fuel + 1 =>
    match s.archive.assign (s.force.archive.nat 1 4 * 1048576) with
    | none => (s, none)
    | some (a, c) =>
      let s1 := (({ s with archive := a }).retireChunks s.archive.epoch a.epoch).archiveLow
      if n ≤ c.size then (s1, some c) else s1.newChunk n fuel

/-- The place of `n` archived bytes of a stream (R302 to R306), or none, of which EV_ARCHIVE_FULL is raised once. -/
def State.archivePlace (s : State) (x : Stream) (n : Nat) : State × Option Chunk :=
  let fits := match x.chunk with | some c => if c.used + n ≤ c.size then some c else none | none => none
  let r := match fits with
    | some c => (s, some c)
    | none => s.newChunk n 4096
  match r with
  | (s1, some c) => (s1.modStream x.slot x.kind (fun y => { y with chunk := some { c with used := c.used + n } }), some c)
  | (s1, none) =>
    if s1.archive.fullSaid then (s1, none)
    else (({ s1 with archive := { s1.archive with fullSaid := true } }).raise 0x800F x.slot (le 1 x.kind ++ zeros 3), none)

/-- ARCHIVE_CONFIG (R300, Table 10.9). Flush acts as the command is accepted (log entry 32). -/
def execArchiveConfig (h : CmdHdr) (items : List Item) (s : State) : Res :=
  .next (s.runCmd (gateNotRelay 0x0503) h fun s =>
    s.itemCmd tbl109 (fun _ => true) [] s.force.archive s.acc.archive items fun t =>
      let r := s.commitDev none (fun a => { a with archive := t.take 2 ++ [ItemV.num 0] })
      if items.any (fun i => i.item == 3#8) then
        (({ r.1 with archive := { r.1.archive with extents := [] } }).archiveLow, r.2)
      else r)

/-- Whether extents are in order (R301): whole MiB, not empty, within 2^52, and none overlapping another. -/
def extentsOk (held : List HeldExtent) : List Extent → Bool
  | [] => true
  | e :: es =>
    let a := e.start.toNat
    let n := e.length.toNat
    decide (a % 1048576 = 0 ∧ n % 1048576 = 0 ∧ 0 < n ∧ a + n ≤ 2 ^ 52)
      && held.all (fun x => decide (a + n ≤ x.start ∨ x.start + x.remaining ≤ a)) && extentsOk (held ++ [⟨a, n⟩]) es

/-- ARCHIVE_EXTENT_ADD (R301, R305, R306). -/
def execArchiveExtentAdd (h : CmdHdr) (extents : List Extent) (s : State) : Res :=
  .next (s.runCmd (gateNotRelay 0x0504) h fun s =>
    let a := s.archive
    let new := a.extents ++ extents.map (fun e => (⟨e.start.toNat, e.length.toNat⟩ : HeldExtent))
    s.refuseIf (extents.isEmpty || decide (254 < extents.length) || !extentsOk a.extents extents) .badParam <|
    s.refuseIf (decide (4096 < new.length)) .noCapacity <|
    let a1 := { a with extents := new, fullSaid := false }
    let a1 := if s.lowMark < a1.unassigned then { a1 with lowSaid := false } else a1
    ({ s with archive := a1 }, answer .ok (le 4 a1.extents.length ++ zeros 4 ++ le 8 a1.unassigned)))

/-- ARCHIVE_QUERY (R307, R412, Table 15.12). -/
def execArchiveQuery (h : CmdHdr) (what : Byte) (first : W16) (s : State) : Res :=
  .next (s.runCmd (gateNotRelay 0x0505) h fun s =>
    let a := s.archive
    let es := if what = 0#8 then a.extents.map (fun e => le 8 e.start ++ le 8 e.remaining)
      else s.streams.filterMap (fun x => x.chunk.map (fun c =>
        le 2 x.slot.toNat ++ le 1 x.kind ++ [0] ++ le 2 c.epoch ++ zeros 2 ++ le 8 c.start ++ le 4 c.used ++ zeros 4))
    let pg := page 24 first.toNat es
    s.refuseIf (decide (1 < what.toNat)) .badParam
      (s, answer .ok (le 2 a.epoch ++ le 2 a.extents.length ++ le 2 pg.1.length ++ le 2 pg.2 ++ le 8 a.unassigned ++ pg.1.flatten)))

/-! ### Records (R284 to R288) -/

/-- SPAN (R287). -/
def spanField (ns : Nat) : Nat := if ns < 2 ^ 31 then ns else 2 ^ 31 + min ((ns + 500) / 1000) (2 ^ 31 - 1)

/-- A record header with its CRC32 field as given (Table 10.3). -/
def recordHeader (tag gen kind : Nat) (slot sgen : W16) (dt : W64) (tick : W32) (seq : Nat) (flags : W32) (len : Nat)
    (archive : Nat) (span crc : Nat) : List Byte :=
  le 2 tag ++ le 1 (gen + 16) ++ le 1 kind ++ le 2 slot.toNat ++ le 2 sgen.toNat ++ le 8 dt.toNat ++ le 4 tick.toNat
    ++ le 4 seq ++ le 4 flags.toNat ++ le 4 len ++ le 8 archive ++ le 4 span ++ le 4 crc

/-- ARCHIVE of a unit that is not archived (Table 10.3). -/
def noArchive : Nat := 2 ^ 64 - 1

/-- A whole record, without its padding (R285). -/
def recordBytes (tag gen : Nat) (u : OutUnit) (seq : Nat) (tick : W32) (archive : Nat) : List Byte :=
  let hd (crc : Nat) := recordHeader tag gen u.kind u.slot u.gen u.dt tick seq u.flags u.payload.length archive (spanField u.spanNs) crc
  hd (crc32 (hd 0 ++ u.payload)).toNat ++ u.payload

/-- A pad record's header: STREAM_KIND 0 and LENGTH, and zeros (R279). -/
def padHeader (room : Nat) : List Byte := zeros 28 ++ le 4 (room - 48) ++ zeros 16

/-- A record goes to PRODUCER, after a pad where it does not fit before the end (R279, R280); the padding after it has no
defined values (R285, log entry 5). -/
def State.ringPut (s : State) (r : Nat) (tag : Nat) (slot : W16) (bytes : List Byte) : State :=
  let t := s.ringSet r
  let base := t.nat 2
  let size := t.nat 3 1
  let n := roundUp 64 bytes.length
  let s := if (s.ring r).producer + n > size then
      let p := (s.ring r).producer
      (s.hostWrite (base + p) (padHeader (size - p))).modRing r (fun x => { x with
        producer := 0, wraps := (x.wraps + 1) % 2 ^ 32, recs := x.recs ++ [⟨p, none, 0#16⟩] })
    else s
  let p := (s.ring r).producer
  let pad := n - bytes.length
  let s := s.hostWrite (base + p) (bytes ++ freeBytes s.freeCtr pad)
  let s := { s with freeCtr := s.freeCtr + pad }
  let q := (p + n) % size
  let s := s.modRing r (fun x => { x with
    producer := q, wraps := if q = 0 then (x.wraps + 1) % 2 ^ 32 else x.wraps, records := (x.records + 1) % 2 ^ 64
    recs := x.recs ++ [⟨p, some tag, slot⟩], unsignalled := x.unsignalled + 1 })
  let x := s.ring r
  let s := s.hostWrite (t.nat 4) (le 4 x.producer ++ le 4 x.wraps)
  if t.nat 6 32 ≤ x.unsignalled ∨ t.nat 7 250 = 0 then s.signalRing r
  else if x.unsignalled = 1 then s.modRing r (fun x => { x with timerUs := some (t.nat 7 250) }) else s

/-- Whether a record of `len` payload bytes fits a ring, its CONSUMER being read again where it does not (R280). -/
def State.ringRoom (s : State) (r len : Nat) : State × Bool :=
  if !(s.ring r).live then (s, false)
  else if s.ringNeed r len ≤ s.ringFree r then (s, true)
  else
    let s := s.readConsumer r
    (s, (s.ring r).live && decide (s.ringNeed r len ≤ s.ringFree r))

/-! ### Packet ports (R308 to R312) -/

/-- The settings of a packet port. -/
def State.pktSet (s : State) (p : Nat) : ItemTable := s.force.pkt.getD p []

/-- The packet identifier of a TS packet. -/
def tsPid (b : List Byte) : Nat := (b.getD 1 0).toNat % 32 * 256 + (b.getD 2 0).toNat

/-- Whether the PID filter of a port passes a packet (R310). -/
def pidPass (t : ItemTable) (b : List Byte) : Bool :=
  match t.at 8 with
  | .bytes l => (List.range (l.length / 2)).any (fun i => field l (2 * i) 2 == tsPid b)
  | _ => true

/-- The TS packets of a unit, of 188 bytes each. -/
def tsPackets : Nat → List Byte → List (List Byte)
  | 0, _ => []
  | n + 1, bs => if bs.length < 188 then [] else bs.take 188 :: tsPackets n (bs.drop 188)

/-- Packets of a unit reach a port (R310 to R312): with pacing OFF, those that have waited more than 2 ticks are dropped. A
disabled port takes none. -/
def State.toPkt (s : State) (p : Nat) (u : OutUnit) : State :=
  let t := s.pktSet p
  if t.nat 1 = 0 then s
  else
    let new := (tsPackets (u.payload.length / 188) u.payload).filter (pidPass t)
    let new := new.zipIdx.map (fun x => (⟨x.1, u.dt, s.time.dt, x.2 == 0 && u.flags &&& fGap != 0#32⟩ : TsPacket))
    let old := (s.pkts.getD p ⟨[], none, 0, 0, 0, 0, 0, 0⟩).queue
    let keep := if t.nat 5 = 0 then old.filter (fun x => !s.elapsed x.ready 2000000) else old
    { s with pkts := s.pkts.modify p (fun x => { x with
        queue := keep ++ new, dropped := sat32 (x.dropped + (old.length - keep.length)) }) }

/-- PKT_PORT_CONFIG (R308, Table 10.10): mean clock at most 135 MHz. -/
def execPktPortConfig (h : CmdHdr) (port : Byte) (items : List Item) (s : State) : Res :=
  .next (s.runCmd (gateNotRelay 0x0701) h fun s =>
    let p := port.toNat
    s.refuseIf (decide (3 < p)) .badParam <|
    let acc := s.acc.pkt.getD p []
    s.itemCmd tbl1010 (fun _ => true) [port, 0, 0, 0] (s.pktSet p) acc items fun t =>
      let d := field (t.raw 2) 0 4 * 2 ^ 32 + field (t.raw 2) 4 4
      s.refuseIf (decide (135000000 * d < 1228800000 * 2 ^ 32)) .badParam <|
      s.commitDev none (fun a => { a with pkt := a.pkt.set p t }))

/-- The stream that a packet port is bound to. -/
def State.pktStream (s : State) (p : Nat) : Option Stream := s.streams.find? (fun x => x.port == some p)

/-- PKT_PORT_QUERY (R308, Table 15.13): the settings follow from PKT_PORT_CONFIG's read-back. RATE_KBPS counts the packets of the
last whole second of DT (log entry 33). -/
def execPktPortQuery (h : CmdHdr) (port : Byte) (s : State) : Res :=
  .next (s.runCmd (gateNotRelay 0x0702) h fun s =>
    let p := port.toNat
    let x := s.pkts.getD p ⟨[], none, 0, 0, 0, 0, 0, 0⟩
    s.refuseIf (decide (3 < p)) .badParam
      (s, answer .ok ([port] ++ le 1 ((s.pktSet p).nat 1) ++ zeros 2
        ++ le 2 (match s.pktStream p with | some y => y.slot.toNat | none => 0xFFFF) ++ zeros 2 ++ le 4 x.rate ++ le 4 x.sent
        ++ le 4 x.dropped ++ le 4 x.late)))

/-- The rate R of a paced port in units of 10^-6 bit/s (R312): the setting, or the signalled TS rate scaled by the ratio of
R212. -/
def State.pktRate (s : State) (p : Nat) : Nat :=
  match (s.pktSet p).at 6 with
  | .num k => k.toNat * 1000000000
  | _ =>
    match (s.pktStream p).bind (fun x => s.svc? x.slot) with
    | none => 0
    | some v =>
      let r := ((s.carriers.find? (fun c => c.serves v.rx)).bind (·.ratio)).getD 0
      (v.sourceKbps v.rx) * (1000000000 + r).toNat

/-- The start time in ns of the packet at the head of a paced port (R312). -/
def PktSt.startAt (x : PktSt) (k : TsPacket) (delayMs rate : Nat) : Nat :=
  match x.t0, k.restart with
  | some t, false => t + x.i * 1504 * 1000000000000000 / max 1 rate
  | _, _ => k.dt.toNat + delayMs * 1000000

/-- PKT_PORT_PACKET (R311, R312): the next packet leaves; under PACED not before its start time, and counted late where it was not
ready by then. -/
def execPktPortPacket (port : Nat) (wait : Nat) (s : State) : Res :=
  .next <|
    let t := s.pktSet port
    match s.pkts[port]? with
    | none => s
    | some x =>
      match x.queue with
      | [] => s
      | k :: rest =>
        if t.nat 1 = 0 || s.power.mode == .dormant || s.power.mode == .maintain then s
        else
          let s1 := s.advance wait
          let paced := t.nat 5 = 1
          let start := x.startAt k (t.nat 7 1000) (s.pktRate port)
          if paced && decide (s1.now < start) then s
          else
            let new := k.restart || x.t0.isNone
            let x1 : PktSt := { x with
              queue := rest
              t0 := if new then some (k.dt.toNat + t.nat 7 1000 * 1000000) else x.t0
              i := if new then 1 else x.i + 1
              sent := sat32 (x.sent + 1)
              count := x.count + 1
              late := if paced && decide (start < k.ready.toNat) then sat32 (x.late + 1) else x.late }
            ({ s1 with pkts := s1.pkts.set port x1 }).emit (.tsPacket port k.bytes)

/-- The packet ports at a tick: at a whole second the rate is that of the second before; a change of settings or a disabled port
starts its schedule anew. -/
def State.pktTick (s : State) : State :=
  let whole := s.tickNow % 1000 == 0
  { s with pkts := s.pkts.zipIdx.map (fun y =>
      let x := y.1
      let x := if (s.pktSet y.2).nat 1 = 0 then { x with queue := [], t0 := none } else x
      if whole then { x with rate := x.count * 1504 / 1000, count := 0 } else x) }

/-! ### Completion (R295) -/

/-- An entry padded to a multiple of 4 bytes (R289). -/
def entry4 (bs : List Byte) : List Byte := pad4 bs

/-- One side-data entry (Table 10.5). -/
def sideEntry (type : Nat) (check : Bool) (off : Nat) (body : List Byte) : List Byte :=
  entry4 (le 1 type ++ [if check then 1 else 0] ++ le 2 body.length ++ le 4 off ++ body)

/-- The stream kind that a content belongs to. -/
def Content_kind : Content → Nat
  | .pcm .. => 1 | .compressed .. => 2 | .ts .. => 3 | .alp .. => 4 | .dab .. => 5 | .side .. => 6 | .iq .. => 8

/-- The payload of a content (Table 10.5); side data are laid out with the records that wait. -/
def contentBytes (c : Content) : List Byte :=
  match c with
  | .pcm ch rate clock xs =>
    le 1 ch ++ le 1 rate ++ le 1 clock ++ [0] ++ le 4 (xs.length / max 1 ch) ++ xs.flatMap (fun x => leInt 4 x.toInt)
  | .compressed coding params aus =>
    le 1 coding ++ [0] ++ le 2 aus.length ++ le 4 params.toNat
      ++ aus.flatMap (fun x => le 4 (x.2.2.length % 2 ^ 24 + (if x.1 then 2 ^ 30 else 0) + (if x.2.1 then 2 ^ 31 else 0)))
      ++ aus.flatMap (fun x => x.2.2)
  | .ts _ ps => ps.flatMap (fun p => (p.2 ++ zeros 188).take 188)
  | .alp ps => ps.flatMap (fun p => entry4 (le 1 p.1 ++ [0] ++ le 2 p.2.length ++ p.2))
  | .dab es => es.flatMap (fun e => entry4 (le 1 e.1 ++ le 1 e.2.1 ++ le 2 e.2.2.1 ++ le 2 e.2.2.2.length ++ zeros 2 ++ e.2.2.2))
  | .side _ => []
  | .iq input n centre ps =>
    le 1 input ++ le 1 n ++ zeros 2 ++ le 4 centre.toNat ++ le 4 ps.length ++ zeros 4
      ++ ps.flatMap (fun p => leInt 2 p.1 ++ leInt 2 p.2)

/-- The side data of a tick (R241, Table 10.5): the records that wait with a stamp in the tick, and those of the engine, which
bring X-PAD groups and signalling (types 3 and 7), in order of their offset. -/
def State.sidePayload (s : State) (f : W16) (tick : Nat) (own : List SideIn) : List Byte :=
  let mine := s.side.filter (fun r => r.slot == f && r.stamp.toNat / 1000000 == tick)
  let a := mine.map (fun r => (r.stamp.toNat % 1000000, r.type, r.check, r.body))
  let b := (own.filter (fun r => r.type == 3 || r.type == 7)).map (fun r => (r.off.toNat % 1000000, r.type, r.check, r.body))
  ((a ++ b).mergeSort (fun x y => decide (x.1 ≤ y.1))).flatMap (fun r => sideEntry r.2.1 r.2.2.1 r.1 r.2.2.2)

/-- The marks that a unit's content gives (R41, R150, R151, R177, R199, R203, R230). -/
def unitMarks (u : UnitIn) : W32 :=
  let on (b : Bool) (f : W32) : W32 := if b then f else 0#32
  on u.impaired fImpaired ||| on u.lost fGap ||| on u.degraded fDegraded ||| on u.concealed fConcealed
    ||| on u.overload fOverload ||| on u.impulse fImpulse ||| on u.blanked fBlanked ||| on u.unsettled fUnsettled

/-- The generation under which content was produced (R63): by the start of the OFDM frame that it is drawn from, or its stamp. -/
def unitGen (v : Service) (u : UnitIn) : W16 :=
  if (u.frame.getD u.stamp).toNat < v.genSince.toNat then v.prevGen else v.force.gen

/-- What a stream adds to a unit: the marks of R98 from the resumption on, and UNSETTLED of PCM that still settles (R180, R207,
R238, R265). -/
def State.streamMarks (s : State) (v : Service) (x : Stream) (u : UnitIn) : W32 :=
  let back := match x.resume with | some d => decide (d.toNat ≤ u.stamp.toNat) | none => false
  (if back then fDiscontinuity ||| fGap ||| fUnsettled else 0#32)
    ||| (if u.kind = 1 && (decide (0 < x.settleNs ∨ 0 < x.settleUnits) || s.memberWait v) then fUnsettled else 0#32)
    ||| (if u.kind = 1 && s.alertNow v then fAlert else 0#32)

/-- How long PCM settles after a lane's unsettled samples: 100 ms for FM, 20 ms for AM by the envelope detector, 200 ms under
SYNC (R180). -/
def Service.settleAfter (v : Service) : Nat :=
  match keyRxStd v.attrs.key with
  | 1 | 2 => 100000000
  | 3 => if v.force.analogue.nat 7 = 0 then 20000000 else 200000000
  | _ => 0

/-- A stream after a unit: what is left of its settling. -/
def Stream.settled (x : Stream) (v : Service) (u : UnitIn) : Stream :=
  let back := match x.resume with | some d => decide (d.toNat ≤ u.stamp.toNat) | none => false
  let x := if back then { x with resume := none } else x
  if u.kind ≠ 1 then x
  else if (u.unsettled || back) && decide (0 < v.settleAfter) then { x with settleNs := v.settleAfter }
  else { x with settleNs := x.settleNs - u.spanNs, settleUnits := x.settleUnits - 1 }

/-- Whether a followed service's unit may be handed over (R264): its release is at DT + D − P. -/
def State.released (s : State) (v : Service) (stamp : W64) : Bool :=
  !v.followed || decide ((stamp.toNat : Int) + v.follow.delay - candOffset v v.attrs.key ≤ s.now)

/-! What a service takes of the content that its engine or lane has. -/

/-- Whether a service takes a TS packet (R222, R231): a key 0x6 takes the PAT, PIDs 0x0010 to 0x0014 and its own PIDs, and no null
packet; a whole multiplex takes every packet, but under REMOVE those that null packet deletion had removed. -/
def Service.takesPacket (v : Service) (own : List Nat) (p : Bool × List Byte) : Bool :=
  let pid := tsPid p.2
  if keyStd v.attrs.key = 6 then pid != 0x1FFF && (pid == 0 || decide (0x10 ≤ pid ∧ pid ≤ 0x14) || own.contains pid)
  else !(p.1 && v.force.tv.nat 6 == 1)

/-- Whether a packet is dropped for its transport_error_indicator (R230). -/
def Service.dropsPacket (v : Service) (p : Bool × List Byte) : Bool := v.force.tv.nat 7 == 1 && (p.2.getD 1 0#8).getLsbD 7

/-- The address in the header of a packet of a DAB sub-channel (EN 300 401, log entry 28). -/
def dabAddress (b : List Byte) : Nat := (b.getD 0 0#8).toNat % 4 * 256 + (b.getD 1 0#8).toNat

/-- Whether a service takes an entry of sub-channel data (R200): a component takes its sub-channel's frames or, under the packet
filter, the packets at its address; a whole ensemble takes all. -/
def State.takesEntry (s : State) (v : Service) (e : Nat × Nat × Nat × List Byte) : Bool :=
  match keyStd v.attrs.key == 5, s.engineOf v with
  | true, some (.dab d) => match d.comp? v.attrs.key with
    | some c => e.1 == c.subCh && (e.2.1 == 0 || v.force.dab.nat 6 == 1 || dabAddress e.2.2.2 == c.address)
    | none => true
  | _, _ => true

/-- Whether a service takes a side-data record: PAD delivery chooses among X-PAD groups (R204, Table 7.3). -/
def Service.takesRecord (v : Service) (r : SideIn) : Bool :=
  r.type != 3 || v.force.dab.nat 5 2 == 2 || (v.force.dab.nat 5 2 == 1 && r.dls)

/-- A lane output as a raw sample, before saturation and after it (R159). -/
def rawRound (shift : Nat) (x : Int) : Int := roundEven x (2 ^ shift)
def rawSample (shift : Nat) (x : Int) : Int := max (-32767) (min 32767 (rawRound shift x))

/-- The shift S of a raw-band service (Table 5.7). -/
def Service.rawShift (v : Service) : Nat := v.force.lane.nat 8 8

/-- What a service takes of a content. -/
def State.chosen (s : State) (v : Service) (c : Content) : Content :=
  match c with
  | .ts own ps => .ts own ((ps.filter (v.takesPacket own)).filter (fun p => !v.dropsPacket p))
  | .dab es => .dab (es.filter (s.takesEntry v))
  | .side rs => .side (rs.filter v.takesRecord)
  | .iq i n k ps => .iq i n k (ps.map (fun p => (rawSample v.rawShift p.1, rawSample v.rawShift p.2)))
  | .pcm .. | .compressed .. | .alp .. => c

/-- Whether a service's packets were dropped from a content, so that the next unit carries GAP_BEFORE (R230). -/
def Service.dropped (v : Service) (c : Content) : Bool :=
  match c with
  | .ts own ps => (ps.filter (v.takesPacket own)).any v.dropsPacket
  | _ => false

/-- A tick without packets produces no unit (R231, R232). -/
def noPackets (c : Content) : Bool :=
  match c with
  | .ts _ ps => ps.isEmpty
  | .alp ps => ps.isEmpty
  | _ => false

/-- The lane of a raw band counts its saturated raw samples (R159). -/
def State.countRaw (s : State) (v : Service) (c : Content) : State :=
  match c with
  | .iq _ _ _ ps =>
    let bad (x : Int) : Bool := rawSample v.rawShift x != rawRound v.rawShift x
    let n := (ps.filter (fun p => bad p.1 || bad p.2)).length
    let ls := (s.lastLanes v.slot).map (fun l => (l.cls, l.index))
    { s with lanes := s.lanes.map (fun l => if ls.contains (l.cls, l.index) then { l with rawSat := sat32 (l.rawSat + n) } else l) }
  | _ => s

/-- A unit that an engine finished enters the collector's queue. -/
def State.unitDone (s : State) (v : Service) (x : Stream) (u : UnitIn) : State :=
  let c := s.chosen v u.content
  let flags := unitMarks u ||| s.streamMarks v x u ||| (if x.gapNext then fGap else 0#32)
  let dt := if u.kind = 6 then BitVec.ofNat 64 (u.stamp.toNat / 1000000 * 1000000) else u.stamp
  let body := match c with
    | .side own => s.sidePayload v.field (u.stamp.toNat / 1000000) own
    | c => contentBytes c
  let gap := v.dropped u.content
  if noPackets c then s.modStream v.field u.kind (fun x => { x with gapNext := x.gapNext || gap })
  else if u.kind = 6 && body.isEmpty then s
  else
    let s := s.countRaw v u.content
    let s1 : State := { s with
      side := if u.kind = 6 then s.side.filter (fun r => !(r.slot == v.field && r.stamp.toNat / 1000000 == u.stamp.toNat / 1000000)) else s.side }
    let s2 := s1.modStream v.field u.kind (fun x => { x.settled v u with gapNext := gap })
    s2.pushUnit v.field u.kind (unitGen v u) dt u.spanNs flags body

/-! ### The collector (R296 to R299) -/

/-- FLAGS that the collector's hand-over clears from a stream once a unit has carried them. -/
def Stream.took (x : Stream) (dt : W64) : Stream := { x with seq := (x.seq + 1) % 2 ^ 32, flags := 0#32, lastDt := dt }

/-- The unit as the stream hands it over: with the stream's waiting FLAGS, and with a DT not before the last one, which only
DISCONTINUITY and SPLICE allow (R57, log entry 34). -/
def Stream.dress (x : Stream) (u : OutUnit) : OutUnit :=
  let fl := u.flags ||| x.flags
  let free := fl &&& (fDiscontinuity ||| fSplice) != 0#32
  { u with flags := fl, dt := if !free && decide (u.dt.toNat < x.lastDt.toNat) then x.lastDt else u.dt }

/-- A stream whose LAST_OF_INCARNATION has gone is no more; its archive chunk goes with it. -/
def State.closeStream (s : State) (u : OutUnit) : State :=
  if u.flags &&& fLast = 0#32 then s
  else { s with streams := s.streams.filter (fun x => !(x.slot == u.slot && x.kind == u.kind)) }

/-- An archived unit is noted for the index of its slot (R307). -/
def State.noteIndex (s : State) (u : OutUnit) (archive seq bytes : Nat) : State :=
  let a := s.archive
  let sec := u.dt.toNat / 1000000000
  { s with archive := { a with
      index := a.index ++ [⟨u.slot, u.dt, BitVec.ofNat 64 archive, seq, u.kind, bytes⟩]
      nextSec := if a.nextSec.any (fun x => x.1 == u.slot) then a.nextSec else a.nextSec ++ [(u.slot, sec)] } }

/-- A unit becomes a record of a ring (R284, R297, R303, R306). -/
def State.writeRecord (s : State) (r tag : Nat) (x : Stream) (u : OutUnit) : State :=
  let gen := s.tagGen tag
  let n := roundUp 64 (48 + u.payload.length)
  let arch := x.archive && !(u.kind == 0xB)
  let (s, place) := if arch then s.archivePlace x n else (s, none)
  let u := if arch && place.isNone then { u with flags := u.flags ||| fUnarchived } else u
  let a := match place with | some c => c.start + c.used + c.epoch * 2 ^ 52 | none => noArchive
  let s := s.ringPut r tag u.slot (recordBytes tag gen u x.seq (tick32 u.tick) a)
  let s := s.issueTag tag
  if place.isSome then s.noteIndex u a x.seq (48 + u.payload.length) else s

/-- A UNIT packet's body (Table 12.8, R297): the fields that the head fills are zero. -/
def trunkUnitBody (x : Stream) (prio : Nat) (u : OutUnit) : List Byte :=
  le 1 (x.ctr % 256) ++ le 1 prio ++ zeros 2
    ++ (zeros 2 ++ [0x10#8] ++ le 1 u.kind ++ le 2 u.slot.toNat ++ le 2 u.gen.toNat ++ le 8 u.dt.toNat ++ zeros 8
      ++ le 4 u.flags.toNat ++ le 4 u.payload.length ++ zeros 8 ++ le 4 (spanField u.spanNs) ++ zeros 4)
    ++ u.payload

/-- Whether this device is a mast in RELAY, whose units cross the trunk (R297). -/
def State.relays (s : State) : Bool := s.isMast && s.power.mode == .relay

/-- Whether a unit can leave now, and the state after CONSUMER was read to find out (R294, R296, R356): a ring needs room and a
tag, the trunk's queue room, or to be empty; a packet port takes it at once. -/
def State.canLeave (s : State) (x : Stream) (u : OutUnit) : State × Bool :=
  if s.relays then
    (s, s.trunk.state == .data && (s.trunkQueued == 0 || decide (s.trunkQueued + u.payload.length + 60 ≤ s.trunkQueue)))
  else if x.autoRing then (s, false)
  else match x.ring with
    | none => (s, true)
    | some r =>
      if s.nextTag.isNone then ({ s with tags := { s.tags with waited := true } }, false) else s.ringRoom r u.payload.length

/-- A unit leaves by every output of its stream (R297). -/
def State.unitLeaves (s : State) (x : Stream) (u : OutUnit) : State :=
  let u := x.dress u
  let s := if s.relays then
      s.trunkSend 5 0 1 (trunkUnitBody x x.prio u)
    else
      let s := match x.ring, s.nextTag with
        | some r, some tag => s.writeRecord r tag x u
        | _, _ => s
      match x.port with | some p => s.toPkt p u | none => s
  let s := s.modStream x.slot x.kind (fun y => { (y.took u.dt) with ctr := if s.relays then (y.ctr + 1) % 256 else y.ctr })
  s.closeStream u

/-- The order in which the collector offers streams their turns (R296): by priority, 7 first, then the one served longest
ago. -/
def State.turns (s : State) : List Stream :=
  (s.streams.filter (fun x => s.unitWaits x.slot x.kind)).mergeSort (fun a b =>
    if a.prio == b.prio then decide (a.served ≤ b.served) else decide (b.prio < a.prio))

/-- The first unit of a stream's queue. -/
def State.headUnit (s : State) (x : Stream) : Option OutUnit := s.units.find? (fun u => u.slot == x.slot && u.kind == x.kind)

/-- The queue without the first unit of a stream. -/
def popUnit (f : W16) (kind : Nat) : List OutUnit → List OutUnit
  | [] => []
  | u :: us => if u.slot == f && u.kind == kind then us else u :: popUnit f kind us

/-- The collector serves the first stream in turn whose unit can leave; units of streams that are gone are discarded. -/
def State.collect (s : State) : List Stream → State
  | [] => s
  | x :: xs =>
    match s.headUnit x with
    | none => s.collect xs
    | some u =>
      match s.canLeave x u with
      | (s, false) => s.collect xs
      | (s, true) =>
        let top := (s.streams.map (·.served)).foldl max 0
        let s := { s with units := popUnit x.slot x.kind s.units }
        (s.unitLeaves x u).modStream x.slot x.kind (fun y => { y with served := top + 1 })

/-- COLLECTOR_WRITE (R296): the host's writes up to now, then one unit. -/
def execCollectorWrite (writes : List (Nat × Byte)) (wait : Nat) (s : State) : Res :=
  .next <|
    let s := (s.advance wait)
    let s := { s with host := Memory.writeCells ramDefault s.host writes }
    s.collect s.turns

/-- The first unit of a stream that has been held for more than 2 ticks, with the units before and after it. -/
def splitHeld (slot : Nat) (kind tick : Nat) : List OutUnit → List OutUnit → Option (List OutUnit × OutUnit × List OutUnit)
  | _, [] => none
  | pre, u :: us =>
    if u.slot.toNat % 256 == slot && u.kind == kind && decide (u.tick + 2 < tick) && !(u.flags &&& fLast != 0#32 && u.payload.isEmpty) then
      some (pre, u, us)
    else splitHeld slot kind tick (pre ++ [u]) us

/-- ENGINE_HOLD_DROP (R298, R299): the oldest unit held for more than 2 ticks is dropped; SPLICE and DISCONTINUITY pass on, and
of a unit with LAST_OF_INCARNATION only the content goes. -/
def execEngineHoldDrop (slot : Nat) (kind : Byte) (s : State) : Res :=
  .next <|
    match splitHeld slot kind.toNat s.tickNow [] s.units with
    | none => s
    | some (pre, u, post) =>
      let drop (x : Stream) (fl : W32) : Stream := { x with drops := sat32 (x.drops + 1), flags := x.flags ||| fl }
      if u.flags &&& fLast != 0#32 then
        ({ s with units := pre ++ { u with payload := [], flags := u.flags ||| fGap } :: post }).modStream u.slot u.kind (fun x => drop x 0#32)
      else
        ({ s with units := pre ++ post }).modStream u.slot u.kind
          (fun x => drop x (fGap ||| (u.flags &&& (fSplice ||| fDiscontinuity))))

/-! ### Index, statistics and spectrum units -/

/-- Whether every archived stream of a slot has passed a moment, so that no more units of before come (R57). -/
def State.streamsPast (s : State) (f : W16) (ns : Nat) : Bool :=
  s.streams.all (fun x => x.slot != f || !x.archive || x.seq == 0 || decide (ns ≤ x.lastDt.toNat))

/-- ARCHIVE_INDEX_UNIT (R307): a whole second is indexed once every archived unit of it has been written. -/
def execArchiveIndexUnit (slot : Nat) (s : State) : Res :=
  .next <|
    match s.slotSvc? slot with
    | none => s
    | some v =>
      let f := v.field
      match (s.archive.nextSec.find? (fun x => x.1 == f)), s.stream? f 0xB with
      | some (_, k), some _ =>
        if s.now < (k + 1) * 1000000000 || !s.streamsPast f ((k + 1) * 1000000000) then s
        else
          let here (e : IndexEntry) : Bool := e.slot == f && e.dt.toNat / 1000000000 == k
          let es := (s.archive.index.filter here).mergeSort (fun a b => decide (a.dt.toNat ≤ b.dt.toNat))
          let body := le 4 es.length ++ zeros 4 ++ es.flatMap (fun e =>
            le 8 e.dt.toNat ++ le 8 e.archive.toNat ++ le 4 e.seq ++ le 1 e.kind ++ zeros 3 ++ le 4 e.bytes ++ zeros 4)
          let a := { s.archive with
            index := s.archive.index.filter (fun e => !here e)
            nextSec := s.archive.nextSec.map (fun x => if x.1 == f then (f, k + 1) else x) }
          ({ s with archive := a }).pushUnit f 0xB v.force.gen (BitVec.ofNat 64 (k * 1000000000)) 1000000000 0#32 body
      | _, _ => s

/-- The counts of Tables 6.9, 7.5 and 8.9 that the block itself keeps for a service (R290). -/
def State.svcCounts (s : State) (v : Service) : List ((Nat × Nat × Nat) × Nat) :=
  let a := v.analogue
  let rows (t r : Nat) (xs : List Nat) : List ((Nat × Nat × Nat) × Nat) := xs.zipIdx.map (fun x => ((t, r, x.2), x.1))
  match keyRxStd v.attrs.key with
  | 1 | 2 =>
    if fmStereo v.attrs then [((0x69, 6, 1), a.pilotTicks)] ++ rows 0x69 9 (a.conf ++ [a.groups, a.eBlocks, a.rdsLosses]) else []
  | 3 => [((0x69, 13, 0), a.lockTicks)]
  | 4 => rows 0x69 15 [a.symOk, a.symBad] ++ rows 0x69 16 (a.tcGood :: a.tcBad)
  | 5 => match s.engineOf v with
    | some (.dab d) => rows 0x75 5 [d.fibGood, d.fibBad, d.losses, d.reconfigs]
    | _ => []
  | 6 | 7 => match s.engineOf v with
    | some (.tv t) => rows 0x89 5 [t.losses, t.reconfigs]
    | _ => []
  | _ => []

/-- What a count has grown by since the interval began. -/
def countSince (base : List ((Nat × Nat × Nat) × Nat)) (x : (Nat × Nat × Nat) × Nat) : Nat :=
  x.2 - (match base.find? (fun b => b.1 == x.1) with | some b => b.2 | none => 0)

/-- The engine items of a statistics record in order of TABLE, ROW and SUB (R290). -/
def State.statItems (s : State) (v : Service) (items : List StatItem) : List StatItem :=
  let counts := s.svcCounts v
  let own := counts.map (fun x => (⟨x.1.1, x.1.2.1, x.1.2.2, le 4 (sat32 (countSince v.base x))⟩ : StatItem))
  let rest := items.filter (fun i => !counts.any (fun x => x.1 == (i.table, i.row, i.sub)))
  (own ++ rest).mergeSort (fun a b => decide (a.table * 65536 + a.row * 256 + a.sub ≤ b.table * 65536 + b.row * 256 + b.sub))

/-- A lane section (Table 10.8). -/
def laneStatBytes (l : LaneStat) : List Byte :=
  le 1 l.cls ++ le 1 l.index ++ zeros 2 ++ leInt 2 l.peak ++ leInt 2 l.rms ++ leInt 2 l.envMin ++ leInt 2 l.envMax
    ++ le 4 l.blanked ++ le 4 l.overload ++ le 4 l.impulse ++ le 4 l.unsettled ++ le 4 l.firSat

/-- A service's interval begins now. -/
def State.statStart (s : State) (n : Nat) : State :=
  match s.slotSvc? n with
  | none => s
  | some v => let c := s.svcCounts v; s.modSvc n (fun v => { v with base := c, statFrom := s.time.dt })

/-- STATISTICS_INTERVAL_END (R66, R67, R152, R290): at a regular boundary, at the start of an effective tick, or where a switch or
an interruption closes the interval early. -/
def execStatisticsIntervalEnd (st : StatIn) (s : State) : Res :=
  .next <|
    match s.slotSvc? st.slot with
    | none => s
    | some v =>
      match s.stream? v.field 7 with
      | none => s
      | some x =>
        let l := v.force.lane.nat 6 1000
        let regular (n : Nat) : Bool := n % (l * 1000000) == 0
        let early := x.flags &&& fPartial != 0#32
        let changed := v.genSince == s.time.dt && v.genSince != v.statFrom
        if !(regular s.now || changed || early) || s.time.dt == v.statFrom then s
        else
          let part := !(regular s.now && regular v.statFrom.toNat) || early
          let items := s.statItems v st.items
          let body := le 1 st.lanes.length ++ [0] ++ le 2 items.length ++ le 4 st.impaired ++ st.lanes.flatMap laneStatBytes
            ++ items.flatMap StatItem_bytes
          let s1 := s.pushUnit v.field 7 (if changed then v.prevGen else v.force.gen) v.statFrom (s.now - v.statFrom.toNat)
            (if part then fPartial else 0#32) body
          (s1.modStream v.field 7 (fun x => { x with flags := x.flags &&& ~~~ fPartial })).statStart st.slot

/-- SPECTRUM_INTERVAL_END (R153, Table 10.5). -/
def execSpectrumIntervalEnd (sp : SpectrumIn) (s : State) : Res :=
  .next <|
    match s.slotSvc? sp.slot with
    | none => s
    | some v =>
      if (s.stream? v.field 9).isNone || !v.state.costs then s
      else
        let body := le 1 v.rx.input ++ [0] ++ le 2 1024 ++ le 2 sp.transforms ++ zeros 2 ++ le 4 sp.centreKhz.toNat
          ++ le 4 sp.binMhz.toNat ++ ((sp.levels ++ List.replicate 1024 0).take 1024).flatMap (leInt 2)
        s.pushUnit v.field 9 v.force.gen sp.stamp sp.spanNs 0#32 body

end Sys2Proof.Machine
end

