-- ==== Sys2Proof/Machine/Audio.lean ====
section
/-! DEFINITION. The TDM audio ports (chapter 11), and the completion of units (R295). -/

namespace Sys2Proof.Machine

/-! ### Frames (R313 to R315) -/

/-- The frame length F of a port in bit clocks. -/
def portF (t : ItemTable) : Nat := t.nat 5 64
/-- The slot width in bit clocks. -/
def portWidth (t : ItemTable) : Nat := t.nat 7 32
/-- The data width in bits. -/
def portData (t : ItemTable) : Nat := [16, 20, 24, 32].getD (t.nat 8 2) 24
/-- The offset of slot 0 in bit clocks. -/
def portOffset (t : ItemTable) : Nat := t.nat 9 1

/-- The ranges of Table 11.1 that bind items to each other (R313). -/
def audioItemsOk (t : ItemTable) : Bool :=
  let mclk := portRatio t * portRate t * 100
  (!portMaster t || decide (2400000 ≤ mclk ∧ mclk ≤ 51200000 ∧ portRatio t % portF t = 0))
    && decide (portF t * portRate t * 100 ≤ 49152000 ∧ portData t ≤ portWidth t ∧ portOffset t < portF t
      ∧ t.nat 6 2 * portWidth t ≤ portF t)

/-- Where bit `b` of slot `n` falls: how many frames after its own, and at which bit clock (R314). -/
def tdmPlace (t : ItemTable) (n b : Nat) : Nat × Nat :=
  let p := portOffset t + n * portWidth t + b
  (p / portF t, p % portF t)

/-- A sample rounded to `w` bits, ties to even, and saturated; at 32 bits eight zeros follow it (R315). -/
def slotWord (w : Nat) (x : BitVec 24) : W32 :=
  if 24 ≤ w then BitVec.ofInt 32 (x.toInt * (2 ^ (w - 24) : Nat))
  else
    let d : Int := (2 ^ (24 - w) : Nat)
    let q := x.toInt / d
    let r := x.toInt % d
    let up := decide (d < 2 * r) || (decide (2 * r = d) && decide (q % 2 = 1))
    let top : Int := (2 ^ (w - 1) : Nat) - 1
    BitVec.ofInt 32 (min top (if up then q + 1 else q))

/-! ### Settings and queries -/

/-- AUDIO_PORT_CONFIG (R313, Table 11.1): items 1 to 12 set the framing and the clocks. -/
def execAudioPortConfig (h : CmdHdr) (port : Byte) (items : List Item) (s : State) : Res :=
  .next (s.runCmd (gateNotRelay 0x0601) h fun s =>
    let p := port.toNat
    s.refuseIf (decide (3 < p)) .badParam <|
    let acc := s.acc.audio.getD p []
    s.itemCmd tbl111 (fun _ => true) [port, 0, 0, 0] (s.audioSet p) acc items fun t =>
      s.refuseIf (!audioItemsOk t) .badParam <|
      s.refuseIf (decide ((s.audioPort p).state ≠ 0) && ((List.range 12).any (fun i => acc.at (i + 1) != t.at (i + 1)))) .busyRunning <|
      s.commitDev none (fun a => { a with audio := a.audio.set p t }))

/-- A PROG entry of AUDIO_PORT_QUERY. -/
def progEntry (g : Prog) : List Byte :=
  le 2 g.slot.toNat ++ le 1 g.portSlot ++ le 1 g.path ++ le 4 (g.delay / 1000) ++ le 1 (if g.late then 1 else 0) ++ zeros 3

/-- AUDIO_PORT_QUERY (R331, Table 15.13). -/
def execAudioPortQuery (h : CmdHdr) (port : Byte) (s : State) : Res :=
  .next (s.runCmd (gateNotRelay 0x0602) h fun s =>
    let p := port.toNat
    let a := s.audioPort p
    s.refuseIf (decide (3 < p)) .badParam
      (s, answer .ok ([port] ++ le 1 a.state ++ le 1 a.progs.length ++ zeros 1 ++ le 4 a.q
        ++ le 2 (match a.pilot with | some f => f.toNat | none => 0xFFFF) ++ le 1 a.pilotWhy ++ zeros 1 ++ leInt 4 a.y ++ leInt 4 a.ep
        ++ le 8 a.firstFrame.toNat ++ le 4 a.underruns ++ le 4 a.overruns ++ le 4 a.fades ++ le 4 a.faults
        ++ a.progs.flatMap progEntry)))

/-! ### Delays (R318 to R320) -/

/-- 256 sample periods of a port in ns. -/
def periods256 (t : ItemTable) : Nat := 2560000000 / portRate t

/-- What a programme's path adds to a delay: c, 256 sample periods and 1 ms (R318, R319). -/
def State.pathDelay (s : State) (p : Nat) (g : Prog) : Nat :=
  (if g.path = 2 then 1500000 else 0) + periods256 (s.audioSet p) + 1000000

/-- The minimum delay of a programme in ns (R319). -/
def State.minDelay (s : State) (p : Nat) (g : Prog) (v : Service) : Nat := s.pcmBound v v.rx + s.pathDelay p g

/-- The fixed Q of a port in ms, none under AUTO. -/
def State.fixedQ (s : State) (p : Nat) : Option Nat :=
  match (s.audioSet p).at 14 with
  | .num q => some q.toNat
  | _ => none

/-- The state with one programme of a port changed. -/
def State.modProg (s : State) (p : Nat) (f : W16) (k : Prog → Prog) : State :=
  s.modAudio p (fun a => { a with progs := a.progs.map (fun x => if x.slot == f then k x else x) })

/-- A programme takes its L (R318, R319): by its own D where it is followed, else by Q, or by its own minimum delay where a fixed
Q is smaller. -/
def State.setDelay (s : State) (p : Nat) (g : Prog) : State :=
  match s.svc? g.slot with
  | none => s
  | some v =>
    if v.followed then s.modProg p g.slot (fun x => { x with delay := v.follow.delay + s.pathDelay p g, late := false })
    else
      let own := s.minDelay p g v
      let q := (s.audioPort p).q * 1000000
      match s.fixedQ p with
      | some _ => s.modProg p g.slot (fun x => { x with delay := max own q, late := decide (q < own) })
      | none => s.modProg p g.slot (fun x => { x with delay := q, late := false })

/-- The largest minimum delay among a port's programmes that are not followed, rounded up to 1 ms. -/
def State.qWanted (s : State) (p : Nat) : Nat :=
  let ms := (s.audioPort p).progs.map (fun g => match s.svc? g.slot with
    | some v => if v.followed then 0 else (s.minDelay p g v + 999999) / 1000000
    | none => 0)
  ms.foldl max 0

/-- A new programme on a port that runs: Q rises to its minimum delay under AUTO, and with it L of the others (R319, R320). -/
def State.raiseQ (s : State) (p : Nat) : State :=
  let q := s.qWanted p
  if (s.fixedQ p).isSome || q ≤ (s.audioPort p).q then s
  else
    let s := s.modAudio p (fun a => { a with q := q })
    (s.audioPort p).progs.foldl (fun s g => match s.svc? g.slot with
      | none => s
      | some v =>
        if v.followed then s
        else if g.playing then s.zcAdd p g (.lift (q * 1000000))
        else s.setDelay p g) s

/-! ### Starting and stopping (R327) -/

/-- A port starts at its trigger, with the first frame sync at an instant. -/
def State.startPort (s : State) (p : Nat) (firstFrame : W64) : State :=
  let s := s.modAudio p (fun a => { a with state := 2, armed := none, firstFrame := firstFrame, stopping := false, y := 0, ep := 0, goodMs := 0 })
  let s := s.repilot p
  let q := (s.fixedQ p).getD (s.qWanted p)
  let s := s.modAudio p (fun a => { a with q := q })
  (s.audioPort p).progs.foldl (fun s g => s.setDelay p g) s

/-- A port has ended its last channel and stops. -/
def State.portStopped (s : State) (p : Nat) : State :=
  s.modAudio p (fun a => { a with state := 0, stopping := false, changes := [], y := 0, ep := 0,
                                  progs := a.progs.map (fun g => { g with playing := false }) })

/-- A stopping port whose last channel has ended stops its clocks. -/
def State.stopDone (s : State) (p : Nat) : State :=
  let a := s.audioPort p
  if a.stopping && a.progs.all (fun g => !g.playing) then s.portStopped p else s

/-- A port is stopped: an arming is cancelled, and a port that runs ends each channel at a zero crossing (R327, R328). -/
def State.stopPort (s : State) (p : Nat) : State :=
  let a := s.audioPort p
  let s := s.modAudio p (fun a => { a with armed := none, armTicks := none, stopTicks := none })
  if a.state = 0 then s
  else if a.state ≠ 2 then s.portStopped p
  else
    let s := s.modAudio p (fun a => { a with stopping := true, changes := [] })
    let s := (a.progs.filter (·.playing)).foldl (fun s g => s.zcAdd p g .stop) s
    s.stopDone p

/-- Every audio port stops (R482). -/
def State.stopPorts (s : State) : State := (List.range 4).foldl State.stopPort s

/-- The ports that a mask names. -/
def maskPorts (m : Byte) : List Nat := (List.range 4).filter (fun p => m.getLsbD p)

/-- AUDIO_PORT_START (R50, R327): the arming takes effect at the effective tick. -/
def execAudioPortStart (h : CmdHdr) (mask trigger : Byte) (startDt : W64) (s : State) : Res :=
  .next (s.runCmd (gateNotRelay 0x0603) h fun s =>
    let ps := maskPorts mask
    let dt := if trigger = 2#8 then startDt else 0#64
    s.refuseIf (ps.isEmpty || decide (2 < trigger.toNat) || (trigger == 2#8 && decide (startDt.toNat < s.effTickIdx * 1000000))) .badParam <|
    s.refuseIf (ps.any (fun p => decide (2 ≤ (s.audioPort p).state))) .busyRunning <|
    let n := s.effTicks
    (ps.foldl (fun s p => s.modAudio p (fun a => { a with armTicks := some (n, ⟨trigger.toNat, dt⟩), stopTicks := none })) s,
      .now .ok [] none s.effTick))

/-- AUDIO_PORT_STOP (R327). -/
def execAudioPortStop (h : CmdHdr) (mask : Byte) (s : State) : Res :=
  .next (s.runCmd (gateNotRelay 0x0604) h fun s =>
    let ps := maskPorts mask
    s.refuseIf ps.isEmpty .badParam <|
    let n := s.effTicks
    (ps.foldl (fun s p => s.modAudio p (fun a => { a with armTicks := none, stopTicks := if a.state = 0 then none else some n })) s,
      .now .ok [] none s.effTick))

/-- The DT of a port's first frame sync after an AUD_START edge: t_SL on a MASTER port, between 19.99 and 20.01 µs; the board's
own frames decide on a SLAVE port. What the limits leave open is free (Table 11.4, log entry 5). -/
def State.edgeFrame (s : State) (p : Nat) : State × W64 :=
  let r := s.free
  (r.1, BitVec.ofNat 64 (s.now + (if portMaster (s.audioSet p) then 19990 + r.2 % 21 else r.2)))

/-- AUD_START_EDGE (R327): the ports armed for this edge start. -/
def execAudStartEdge (rising : Bool) (wait : Nat) (s : State) : Res :=
  .next <|
    let want := if rising then 0 else 1
    let on (p : Nat) : Bool := (s.audioPort p).state == 1 && (match (s.audioPort p).armed with | some a => a.trigger == want | none => false)
    let ps := (List.range 4).filter on
    if ps.isEmpty then s
    else ps.foldl (fun s p => let r := s.edgeFrame p; r.1.startPort p r.2) (s.advance wait)

/-- AUDIO_PORT_TRIGGER (R327): the ports whose start DT has come begin, MASTER ports with a frame sync at that DT. -/
def execAudioPortTrigger (wait : Nat) (s : State) : Res :=
  .next <|
    let t := s.advance wait
    let due (p : Nat) : Option W64 :=
      match (s.audioPort p).armed with
      | some a => if (s.audioPort p).state = 1 ∧ a.trigger = 2 ∧ a.dt.toNat ≤ t.now then some a.dt else none
      | none => none
    let ps := (List.range 4).filterMap (fun p => (due p).map (fun d => (p, d)))
    if ps.isEmpty then s
    else ps.foldl (fun s x =>
      if portMaster (s.audioSet x.1) then s.startPort x.1 x.2
      else let r := s.edgeFrame x.1; r.1.startPort x.1 r.2) t

/-! ### Zero crossings (R328, R329) -/

/-- A programme leaves its port, and its slots are free (R316). -/
def State.dropProg (s : State) (p : Nat) (f : W16) : State :=
  s.modAudio p (fun a => { a with progs := a.progs.filter (fun g => g.slot != f) })

/-- A change has taken place on every channel of a programme. -/
def State.changeDone (s : State) (p : Nat) (g : Prog) (k : ZcKind) : State :=
  match k with
  | .start => s.modProg p g.slot (fun x => { x with playing := true })
  | .stop => if g.ending then (s.dropProg p g.slot).stopDone p else (s.modProg p g.slot (fun x => { x with playing := false })).stopDone p
  | .path w => s.modProg p g.slot (fun x => { x with path := w })
  | .raise d =>
    let s := s.modSvc (g.slot.toNat % 256) (fun v => if v.field == g.slot then { v with follow := { v.follow with delay := max v.follow.delay d } } else v)
    (s.modProg p g.slot (fun x => { x with delay := d + s.pathDelay p g })).modStream g.slot 1 (fun x => { x with flags := x.flags ||| fConcealed })
  | .lift l => s.modProg p g.slot (fun x => { x with delay := max x.delay l, late := false })
  | .migration | .splice => s
  | .alert =>
    let s := s.modStream g.slot 1 (fun x => { x with flags := x.flags ||| fSplice })
    match s.svc? g.slot with
    | none => s
    | some v => s.modSvc v.slot (fun v => { v with follow := { v.follow with routing := v.follow.routing.map (fun r => { r with pending := false }) } })

/-- The changes that wait on a channel take place there. A change of a programme is done with its last channel. -/
def State.crossChannel (s : State) (p ch : Nat) : State :=
  let here := (s.audioPort p).changes.filter (fun c => c.channel == ch)
  let s := s.modAudio p (fun a => { a with changes := a.changes.filter (fun c => c.channel != ch) })
  match (s.audioPort p).progs.find? (fun g => decide (g.portSlot ≤ ch ∧ ch < g.portSlot + g.channels)) with
  | none => s
  | some g =>
    here.foldl (fun s c =>
      let rest := (s.audioPort p).changes.any (fun x => x.kind == c.kind && decide (g.portSlot ≤ x.channel ∧ x.channel < g.portSlot + g.channels))
      if rest then s else s.changeDone p g c.kind) s

/-- ZERO_CROSSING_SWITCH (R328): the difference of the outgoing and the incoming content of a channel crosses zero. -/
def execZeroCrossingSwitch (port channel : Nat) (wait : Nat) (s : State) : Res :=
  .next <|
    if !(s.audioPort port).changes.any (fun c => c.channel == channel) then s
    else (s.advance wait).crossChannel port channel

/-- ZERO_CROSSING_TIMEOUT (R328, R329): without a crossing within the timeout the channel changes with a 64-sample crossfade. -/
def execZeroCrossingTimeout (port channel : Nat) (wait : Nat) (s : State) : Res :=
  .next <|
    let t := s.advance wait
    let ms := (s.audioSet port).nat 16 10
    if !(s.audioPort port).changes.any (fun c => c.channel == channel && t.elapsed c.since (ms * 1000000)) then s
    else (t.modAudio port (fun a => { a with fades := sat32 (a.fades + 1) })).crossChannel port channel

/-! ### Clock faults, underruns and overruns (R326, R330, R331) -/

/-- EV_PORT_UNDERRUN, at most once per port in 100 ticks, with the count since the last (R331). -/
def State.portEvent (s : State) (p : Nat) (slot : W16) (portSlot kind cause silentUs : Nat) : State :=
  let a := s.audioPort p
  let n := a.since + 1
  let early := match a.lastEvent with | some t => decide (s.power.uptime < t + 100) | none => false
  if early then s.modAudio p (fun a => { a with since := n })
  else
    (s.modAudio p (fun a => { a with since := 0, lastEvent := some s.power.uptime })).raise 0x8014 slot
      (le 1 p ++ le 1 portSlot ++ le 1 kind ++ le 1 cause ++ le 4 silentUs ++ le 4 n)

/-- Whether a SLAVE port's clocks fail over 10 ms (R326). -/
def slaveBad (t : ItemTable) (m : SlaveClock) : Bool :=
  decide (m.fsBits ≠ portF t ∨ 1000 < m.ppm.natAbs ∨ 10 ≤ m.missing)

/-- SLAVE_CLOCK_CHECK (R326). -/
def execSlaveClockCheck (m : SlaveClock) (wait : Nat) (s : State) : Res :=
  .next <|
    let a := s.audioPort m.port
    if portMaster (s.audioSet m.port) || decide (a.state < 2) then s
    else
      let t := s.advance wait
      if slaveBad (s.audioSet m.port) m then
        if a.state = 3 then t.modAudio m.port (fun a => { a with goodMs := 0 })
        else
          (t.modAudio m.port (fun a => { a with state := 3, goodMs := 0, faults := sat32 (a.faults + 1) })).portEvent m.port noSlot 0xFF 0 3 0
      else if a.state = 3 then
        t.modAudio m.port (fun a => if 90 ≤ a.goodMs then { a with state := 2, goodMs := 0 } else { a with goodMs := a.goodMs + 10 })
      else t

/-- Whether the content that a programme lacks is missing for a plan change, parking or removal, which raises no event
(R331). -/
def State.excused (s : State) (g : Prog) : Bool :=
  g.ending || (match s.svc? g.slot with | some v => !v.state.costs | none => true)
    || (match s.stream? g.slot 1 with | some x => x.resume.isSome | none => true)

/-- AUDIO_UNDERRUN (R330, R331). -/
def execAudioUnderrun (u : Underrun) (wait : Nat) (s : State) : Res :=
  .next <|
    let a := s.audioPort u.port
    match a.progs.find? (fun g => g.portSlot == u.portSlot) with
    | none => s
    | some g =>
      if a.state ≠ 2 ∨ !g.playing ∨ 1 < u.kind ∨ 2 < u.cause ∨ ((u.kind = 1 ∨ u.cause = 2) ∧ g.path ≠ 1) then s
      else
        let t := (s.advance wait).modAudio u.port (fun a =>
          if u.kind = 0 then { a with underruns := sat32 (a.underruns + 1) } else { a with overruns := sat32 (a.overruns + 1) })
        if s.excused g then t else t.portEvent u.port g.slot u.portSlot u.kind u.cause u.silentUs

/-! ### The ports at a tick -/

/-- An arming or a stop reaches its effective tick. -/
def State.armTick (s : State) (p : Nat) : State :=
  let a := s.audioPort p
  let s := match a.armTicks with
    | some (n, x) =>
      if n ≤ 1 then s.modAudio p (fun a => if 2 ≤ a.state then { a with armTicks := none } else { a with armTicks := none, armed := some x, state := 1 })
      else s.modAudio p (fun a => { a with armTicks := some (n - 1, x) })
    | none => s
  match a.stopTicks with
  | some n => if n ≤ 1 then s.stopPort p else s.modAudio p (fun a => { a with stopTicks := some (n - 1) })
  | none => s

/-- Steering (R321, R323): y follows the pilot's clock and half of e_p per second, by at most 2 ppm in a tick. -/
def steer (y target : Int) : Int :=
  let t := max (-500000) (min 500000 target)
  max (y - 2000) (min (y + 2000) t)

/-- The steering offset of a MASTER port at a tick. -/
def State.steerTick (s : State) (p : Nat) (errs : List (Nat × Int)) : State :=
  let a := s.audioPort p
  if a.state ≠ 2 ∨ !portMaster (s.audioSet p) then s
  else
    match a.pilot.bind s.svc? with
    | none => s.modAudio p (fun a => { a with y := steer a.y 0, ep := 0 })
    | some v =>
      let e := match errs.find? (fun x => x.1 == p) with | some x => x.2 | none => a.ep
      s.modAudio p (fun a => { a with ep := e, y := steer a.y ((s.clockRatio v).getD 0 + e / 2) })

/-- A programme at a tick: one whose stream has ended leaves; one that is new takes its L, and the D of a followed one that does
not play is its present one. -/
def State.progTick (s : State) (p : Nat) (g : Prog) : State :=
  let gone := g.ending && (s.stream? g.slot 1).isNone
  if gone then
    if !g.playing then s.dropProg p g.slot
    else if (s.audioPort p).changes.any (fun c => c.channel == g.portSlot && c.kind == .stop) then s
    else s.zcAdd p g .stop
  else if (s.audioPort p).state < 2 || g.playing then s
  else s.setDelay p g

/-- The audio ports at a tick (R319, R322 to R325, R327). -/
def State.audioTick (s : State) (errs : List (Nat × Int)) : State :=
  (List.range 4).foldl (fun s p =>
    let s := (s.armTick p).repilot p
    let s := s.steerTick p errs
    let s := if 2 ≤ (s.audioPort p).state then s.raiseQ p else s
    (s.audioPort p).progs.foldl (fun s g => s.progTick p g) s) s

/-! ### Completion of a unit -/

/-- A PCM unit as its audio port plays it, from its presentation time t − P + L on (R315, R318). What the converter makes of it is
signal processing and is not given word by word. -/
def State.playUnit (s : State) (p : Nat) (g : Prog) (v : Service) (stamp : W64) (xs : List (BitVec 24)) : State :=
  let at_ : Int := (stamp.toNat : Int) - (if v.followed then candOffset v v.attrs.key else 0) + g.delay
  s.emit (.pcm p g.portSlot at_ (if g.path = 2 then [] else xs.map (slotWord (portData (s.audioSet p)))))

/-- A PCM unit reaches the audio port of its service: a programme that is past its trigger and has not begun starts with its first
sample without UNSETTLED (R327). -/
def State.audioUnit (s : State) (v : Service) (u : UnitIn) (settled : Bool) : State :=
  match s.progOf v.field, u.content with
  | some (p, g), .pcm _ _ _ xs =>
    let a := s.audioPort p
    if a.state ≠ 2 then s
    else if g.playing then s.playUnit p g v u.stamp xs
    else if a.stopping || g.ending || !settled || a.changes.any (fun c => c.channel == g.portSlot && c.kind == .start) then s
    else s.zcAdd p g .start
  | _, _ => s

/-- UNIT_COMPLETION (R295): the service holds its engine, the stream is open, and a followed service's release has come. -/
def execUnitCompletion (u : UnitIn) (wait : Nat) (s : State) : Res :=
  .next <|
    match s.slotSvc? u.slot with
    | none => s
    | some v =>
      match s.stream? v.field u.kind with
      | none => s
      | some x =>
        let t := s.advance wait
        if !v.state.costs || x.lastPending || Content_kind u.content ≠ u.kind || !t.released v u.stamp then s
        else
          let settled := (unitMarks u ||| t.streamMarks v x u) &&& fUnsettled == 0#32
          (t.unitDone v x u).audioUnit v u settled

end Sys2Proof.Machine
end

