-- ==== Sys2Proof/Machine/Trunk.lean ====
section
/-! DEFINITION. The trunk link: its states, codewords and frames, the packets of Table 12.8, and bit loading (R335 to R355,
R363 to R365). -/

namespace Sys2Proof.Machine

/-! ### Parts of the trunk -/

/-- The state with its trunk changed. -/
def State.modTrunk (s : State) (f : TrunkSt → TrunkSt) : State := { s with trunk := f s.trunk }

/-- The direction that this device sends (R335): head→mast at the head. -/
def State.txDir (s : State) : DirSt := if s.isHead then s.trunk.hm else s.trunk.mh
/-- The direction that this device receives. -/
def State.rxDir (s : State) : DirSt := if s.isHead then s.trunk.mh else s.trunk.hm
/-- The state with the direction that it sends changed. -/
def State.modTx (s : State) (f : DirSt → DirSt) : State :=
  s.modTrunk (fun t => if s.isHead then { t with hm := f t.hm } else { t with mh := f t.mh })
/-- The state with the direction that it receives changed. -/
def State.modRx (s : State) (f : DirSt → DirSt) : State :=
  s.modTrunk (fun t => if s.isHead then { t with mh := f t.mh } else { t with hm := f t.hm })

/-- The code of a link state (Table 15.3). -/
def LinkState.code : LinkState → Nat
  | .off => 0 | .search => 1 | .control => 2 | .data => 3 | .sleep => 4 | .recovery => 5 | .lost => 6

/-- Whether frame `f` has come by frame `now`, as serial numbers (R511). -/
def frameDue (now f : Nat) : Bool := decide ((now + 2 ^ 32 - f % 2 ^ 32) % 2 ^ 32 < 2 ^ 31)

/-- Whether SEQ `a` lies at or before SEQ `b`, modulo 4,096 (R341). -/
def seqUpTo (a b : Nat) : Bool := decide ((b + 4096 - a % 4096) % 4096 < 2048)

/-- The SEQ space of data or of control codewords. -/
def State.space (s : State) (ctrl : Bool) : SpaceSt := if ctrl then s.trunk.ctrl else s.trunk.data
/-- The state with a SEQ space changed. -/
def State.modSpace (s : State) (ctrl : Bool) (f : SpaceSt → SpaceSt) : State :=
  s.modTrunk (fun t => if ctrl then { t with ctrl := f t.ctrl } else { t with data := f t.data })

/-- RATE, n_cw and net rate of a direction in DATA (R355). -/
def State.dirBytes (s : State) (hm : Bool) (mid : List Byte) : List Byte :=
  let t := (if hm then s.trunk.hm else s.trunk.mh).table
  let n := s.dirSyms hm
  le 1 t.rate ++ mid ++ le 2 (t.codewords n) ++ le 4 (t.netKbps n)

/-! ### Masks (R352 to R354) -/

/-- The host mask's value of a carrier: 0 to 40 dB, or 0xFF off (R352). -/
def hostMask (rs : List MaskRange) (n : Nat) : Byte :=
  match rs.find? (fun r => decide (r.first.toNat ≤ n ∧ n ≤ r.last.toNat)) with | some r => r.atten | none => 0#8

/-- The bands in use, those of lanes that are about to start included (R353, R354). -/
def State.bandsInUse (s : State) : List Span :=
  let run := (s.lanes.filter (fun l => decide (l.cls < 2))).map s.laneSpan
  run ++ (match s.covers s.plan.plan true s.heldNext with | some c => covSpans s.plan.plan c | none => [])

/-- The mask that the bands in use and the host mask ask for (R352, R353). -/
def State.maskWanted (s : State) : List Byte :=
  let bs := s.bandsInUse
  carrierNs.map (fun n => if bs.any (inSpan n) then 0xFF#8 else hostMask s.force.trunkMask n)

/-- The mask in force, zeros before the first. -/
def State.maskNow (s : State) : List Byte := if s.trunk.mask.isEmpty then List.replicate 3921 0#8 else s.trunk.mask

/-- A table under a mask: a carrier that is off carries nothing (R349, R354). -/
def LoadTable.under (t : LoadTable) (mask : List Byte) (gen : W16) : LoadTable :=
  let off := ((List.zip carrierNs mask).filter (fun x => x.2 == 0xFF#8)).map (·.1)
  { t with maskGen := gen, bits := List.zipWith (fun n b => if off.contains n then 0 else b) dataCarriers t.bits }

/-- The body of a LOADING packet: two b per byte, the lower n in bits 3:0 (Table 12.8). -/
def loadingBody (id : Nat) (t : LoadTable) (frame : Nat) : List Byte :=
  let rec pairs : List Nat → List Byte
    | a :: b :: r => BitVec.ofNat 8 (a % 16 + b % 16 * 16) :: pairs r
    | [a] => [BitVec.ofNat 8 (a % 16)]
    | [] => []
  le 1 id ++ le 1 t.rate ++ le 2 t.maskGen.toNat ++ le 4 frame ++ pairs t.bits

/-- A receiver names a new table for the direction that it receives, in the ID not in use (R350). -/
def State.sendLoading (s : State) (t : LoadTable) (frame : Nat) : State :=
  let id := if s.trunk.state = .data then 1 - s.rxDir.active else 0
  let s := s.modRx (fun d => { d with
    table0 := if id = 0 then t else d.table0, table1 := if id = 0 then d.table1 else t, switch := some (id, frame), acked := false })
  s.trunkSend 1 0 5 (loadingBody id t frame)

/-- A frame at least 3 later, which the receiver of a direction chooses: how much later is open (R350, log entry 5). -/
def State.switchFrame (s : State) : State × Nat :=
  let r := s.free
  (r.1, (s.trunk.frame + 3 + r.2 % (2 ^ 31 - 4)) % 2 ^ 32)

/-- The head sends a mask for a frame, with its own LOADING packet where tables are in use (R354 steps 2 and 3). -/
def State.sendMask (s : State) (gen : W16) (values : List Byte) (frame : Nat) : State :=
  let s := s.modTrunk (fun t => { t with
    pendMask := some ⟨gen, frame, values, none, false⟩, toSend := t.toSend.filter (fun p => p.tag != 1) })
  let s := s.trunkSend 1 1 7 (le 2 gen.toNat ++ zeros 2 ++ le 4 frame ++ values)
  if s.trunk.state = .data then s.sendLoading (s.rxDir.table.under values gen) frame else s

/-- A new mask at the head: in CONTROL and DATA by a MASK packet, else at once (R353, R354). -/
def State.newMask (s : State) (values : List Byte) : State :=
  let gen := (match s.trunk.pendMask with | some p => p.gen | none => s.trunk.maskGen) + 1
  if s.trunk.state.masks then s.sendMask gen values ((s.tickNow + 7) / 2 % 2 ^ 32)
  else s.modTrunk (fun t => { t with mask := values, maskGen := gen, pendMask := none })

/-- The mask of a placement round (R354): new notches and changes of the host mask; a notch is lifted only by R351. -/
def State.maskRound (s : State) : State :=
  if !s.isHead then s
  else
    let cur := match s.trunk.pendMask with | some p => p.values | none => s.maskNow
    let new := List.zipWith (fun c w => if c == 0xFF#8 then c else w) cur s.maskWanted
    if new == cur then s else s.newMask new

/-- A mask reaches its SWITCH_FRAME, or is sent again one frame before it (R354). The transmitters' tables follow by their own
switches. -/
def State.maskFrame (s : State) : State :=
  match s.trunk.pendMask with
  | none => s
  | some p =>
    if frameDue s.trunk.frame p.frame then
      s.modTrunk (fun t => { t with mask := p.values, maskGen := p.gen, pendMask := none })
    else if s.isHead && !p.acked && frameDue (s.trunk.frame + 1) p.frame then s.sendMask p.gen p.values ((p.frame + 3) % 2 ^ 32)
    else s

/-! ### Link states (R345 to R347) -/

/-- EV_TRUNK_LOST (R365). -/
def State.trunkLostEvent (s : State) (reason : Nat) : State :=
  s.raise 0x800C noSlot (le 1 reason ++ le 1 s.trunk.state.code ++ zeros 2)

/-- EV_TRUNK_UP (R365). -/
def State.trunkUpEvent (s : State) : State :=
  s.raise 0x800D noSlot (le 1 s.trunk.fromState.code ++ le 1 s.trunk.profTx ++ zeros 2 ++ le 4 s.trunk.d
    ++ s.dirBytes true (zeros 1) ++ s.dirBytes false (zeros 1))

/-- A mast in RELAY leaves it for DORMANT as its link sleeps or is lost (R483). -/
def State.relayLeave (s : State) (cause : Nat) : State :=
  if s.isMast && s.power.mode == .relay then
    { s with power := { s.power with change := some ⟨.dormant, s.subWanted, cause, 0, false⟩, leftRelay := true } }
  else s

/-- A mast that left RELAY by R483 returns as its link enters DATA. -/
def State.relayReturn (s : State) : State :=
  if s.isMast && s.power.leftRelay then
    { s with power := { s.power with change := some ⟨.relay, .warm, 5, 0, false⟩, leftRelay := false } }
  else s

/-- A direction with no switch in sight. -/
def DirSt.still (d : DirSt) : DirSt := { d with switch := none, acked := false }

/-- The link enters SEARCH: nothing of the partner is known, the head's estimate is zero, and a mast's TRUNK reference is
disqualified (R347, Table 12.9). -/
def State.enterSearch (s : State) : State :=
  let s := s.modTrunk (fun t => { t with
    state := .search, fromState := t.state, since := s.time.dt, profTx := 3, heard := false, answered := false, snrAge := 8
    mySnr := 31, ackFrames := 0, goodAcks := 0, timeRun := 0, timeSeen := false, bursts := 0, useBursts := false, bursting := false
    hm := t.hm.still, mh := t.mh.still, estimate := 0, toSend := t.toSend.filter (fun p => p.rank == 5), winOpen := false
    callDue := none, pendMask := none
    data := SpaceSt.reset, ctrl := SpaceSt.reset })
  if s.isMast then s.loseRef 4 else s

/-- Every command for the mast goes into the queue again, as none of what was sent before counts (R364, R394). -/
def State.queueRemotes (s : State) : State :=
  let rs := s.trunk.remotes.filter (fun r => r.acked.isNone)
  let s := s.modTrunk (fun t => { t with remotes := t.remotes.map (fun r => if r.acked.isNone then { r with cw := none } else r) })
  rs.foldl (fun s r => if s.trunk.toSend.any (fun p => p.tag == r.id + 2) then s else s.trunkSend 2 (r.id + 2) 2 r.packet) s

/-- The link enters CONTROL (Table 12.10 step 4): the SEQ spaces start at 0, and the head sends the union mask. -/
def State.enterControl (s : State) : State :=
  let s := s.modTrunk (fun t => { t with state := .control, since := s.time.dt, data := SpaceSt.reset, ctrl := SpaceSt.reset
                                         ackFrames := 0, goodAcks := 0, hm := t.hm.still, mh := t.mh.still })
  if s.isHead then
    let r := s.switchFrame
    (r.1.sendMask (s.trunk.maskGen + 1) s.maskWanted r.2).queueRemotes
  else s

/-- The link enters DATA (Table 12.10 step 6). -/
def State.enterData (s : State) : State :=
  let id (d : DirSt) : DirSt := match d.switch with | some (i, _) => { d.still with active := i } | none => d
  let again := s.trunk.fromState == .recovery || s.trunk.fromState == .lost
  let s := s.modTrunk (fun t => { t with
    state := .data, since := s.time.dt, hm := id t.hm, mh := id t.mh, ctrl := { t.ctrl with carry := [], carryTag := 0 }
    rhos := if again then [] else t.rhos, lastE := if again then none else t.lastE, doubled := if again then 8 else t.doubled })
  let s := if s.isHead then s.modTrunk (fun t => { t with estimate := t.mh.table.netKbps (s.dirSyms false) }) else s
  (s.trunkUpEvent.relayReturn).queueRemotes

/-- A command that the mast will not answer is answered with NOT_FOUND (R394). -/
def State.dropRemote (s : State) (r : Remote) : State :=
  let s := s.modTrunk (fun t => { t with remotes := t.remotes.filter (fun x => x.id != r.id), toSend := t.toSend.filter (fun p => p.tag != r.id + 2) })
  s.complete r.tr r.id ⟨0x0C06#16, r.seq, .notFound, s.acc.gen, noTick, r.dt, []⟩

/-- The link enters OFF or LOST (R394, Table 12.9). -/
def State.enterIdle (s : State) (st : LinkState) : State :=
  let s := s.modTrunk (fun t => { t with state := st, since := s.time.dt, winOpen := false, callDue := none, bursting := false, estimate := 0
                                         toSend := [], hm := t.hm.still, mh := t.mh.still, pendMask := none })
  s.trunk.remotes.foldl State.dropRemote s

/-- TRUNK_LOSS (R347): nothing decoded from the partner for 1 s. -/
def execTrunkLoss (wait : Nat) (s : State) : Res :=
  .next <|
    let t := s.advance wait
    if !s.trunk.state.masks || !t.elapsed s.trunk.lastHeard 1000000000 then s
    else (t.trunkLostEvent 2).enterSearch

/-! ### Codewords (R338 to R344) -/

/-- Packet bytes of a codeword: control codewords hold 1,024 information bits, data codewords those of Table 12.6; six bytes
are the header. -/
def cwRoom (ctrl : Bool) (rate : Nat) : Nat := (if ctrl then 128 else rateK rate / 8) - 6

/-- A codeword's information bytes (Table 12.7). -/
def codewordBytes (seq retx first snr : Nat) (body : List Byte) : List Byte :=
  let h (crc : Nat) : List Byte := le 2 (seq % 4096 + retx % 4 * 4096) ++ le 2 (first % 2048 + snr % 32 * 2048) ++ le 2 crc ++ body
  h (crc16 (h 0)).toNat

/-- Whether a codeword that came holds (R344): its LDPC decoding converged and its CRC16 agrees. -/
def cwGood (c : RxCodeword) : Bool :=
  c.converged && decide (6 ≤ c.bytes.length)
    && crc16 (c.bytes.take 4 ++ [0, 0] ++ c.bytes.drop 6) == BitVec.ofNat 16 (field c.bytes 4 2)

/-- The SEQ of a codeword. -/
def cwSeq (c : RxCodeword) : Nat := field c.bytes 0 2 % 4096
/-- The SNR report of a codeword (R339, Table 12.7). -/
def cwSnr (c : RxCodeword) : Nat := field c.bytes 2 2 / 2048

/-- The report of a mean SNR: 1 dB steps from −16 dB. -/
def snrCode (db : Int) : Nat := (max 0 (min 30 (db + 16))).toNat

/-- Packets laid into the byte stream of a SEQ space: the bytes, where packets start, where the copies named by their tags end,
the rest of the last packet, and the packets that found no room (R342). -/
structure Fill where
  bytes  : List Byte
  starts : List Nat
  ends   : List (Nat × Nat)
  carry  : List Byte
  tag    : Nat
  rest   : List TxPacket
  deriving DecidableEq, Repr

/-- Packets are laid in until the capacity is used up. -/
def fillPackets (cap : Nat) : Fill → List TxPacket → Fill
  | f, [] => f
  | f, p :: ps =>
    if cap ≤ f.bytes.length then { f with rest := f.rest ++ p :: ps }
    else
      let room := cap - f.bytes.length
      let f := { f with starts := f.starts ++ [f.bytes.length] }
      if p.bytes.length ≤ room then
        fillPackets cap { f with bytes := f.bytes ++ p.bytes, ends := f.ends ++ [(p.tag, f.bytes.length + p.bytes.length)] } ps
      else { f with bytes := f.bytes ++ p.bytes.take room, carry := p.bytes.drop room, tag := p.tag, rest := ps }

/-- The stream of a part with a capacity, what was left of a packet coming first. -/
def fillPart (cap : Nat) (x : SpaceSt) (ps : List TxPacket) : Fill :=
  if cap < x.carry.length then ⟨x.carry.take cap, [], [], x.carry.drop cap, x.carryTag, ps⟩
  else fillPackets cap ⟨x.carry, [], if x.carry.isEmpty then [] else [(x.carryTag, x.carry.length)], [], 0, []⟩ ps

/-- The new codewords of a filled part: each with its SEQ, FIRST and packet bytes, zero bytes filling the last (R342). -/
def fillCodewords (f : Fill) (room next : Nat) : Nat → List TxCodeword
  | 0 => []
  | n + 1 =>
    let i := n
    let lo := i * room
    let here := f.starts.filter (fun x => decide (lo ≤ x ∧ x < lo + room))
    let body := ((f.bytes.drop lo).take room ++ zeros room).take room
    fillCodewords f room next n ++ [⟨(next + i) % 4096, 0, match here with | x :: _ => x - lo | [] => 0x7FF, body, false⟩]

/-- The codeword that holds the end of a packet. -/
def endCw (ctrl : Bool) (room next e : Nat) : CwRef := ⟨ctrl, (next + (e - 1) / max 1 room) % 4096⟩

/-- The copies that a part completes: the MASK packet, and commands (R354, R394). -/
def State.noteEnds (s : State) (ctrl : Bool) (room next : Nat) (ends : List (Nat × Nat)) : State :=
  ends.foldl (fun s x =>
    let c := endCw ctrl room next x.2
    if x.1 = 1 then s.modTrunk (fun t => { t with pendMask := t.pendMask.map (fun p => { p with cw := some c }) })
    else if 2 ≤ x.1 then
      s.modTrunk (fun t => { t with remotes := t.remotes.map (fun r => if r.id + 2 == x.1 then { r with cw := some c } else r) })
    else s) s

/-- Packets in the order of R343, those of one rank as they came. -/
def byRank (ps : List TxPacket) : List TxPacket := ps.mergeSort (fun a b => decide (a.rank ≤ b.rank))

/-- A codeword sent again has its retransmission count raised (R344). -/
def TxCodeword.again (c : TxCodeword) : TxCodeword := { c with retx := c.retx + 1, failed := false }

/-- One part is sent: `n` codewords of a rate, the failed ones of the space after items 1 and 2 of R343, and the waiting packets.
UNIT packets do not travel in control codewords (R342). -/
def State.sendPart (s : State) (ctrl : Bool) (rate n : Nat) : State :=
  let x := s.space ctrl
  let room := cwRoom ctrl rate
  let ps := byRank s.trunk.toSend
  let (mine, keep) := if ctrl then (ps.filter (fun p => decide (p.rank < 5)), ps.filter (fun p => p.rank == 5)) else (ps, [])
  let first := x.carry.length + ((mine.filter (fun p => decide (p.rank ≤ 2))).map (·.bytes.length)).sum
  let k := min n ((first + room - 1) / room)
  let again := (x.unacked.filter (·.failed)).take (n - k)
  let new := n - again.length
  let f := fillPart (new * room) x mine
  let cws := fillCodewords f room x.next new
  let resent := again.map TxCodeword.again
  let out := (cws ++ resent).map (fun c => codewordBytes c.seq c.retx c.first s.trunk.mySnr c.bytes)
  let seqs := again.map (·.seq)
  let s := s.modSpace ctrl (fun x => { x with
    next := (x.next + new) % 4096, carry := f.carry, carryTag := f.tag
    unacked := x.unacked.map (fun c => if c.failed && seqs.contains c.seq then c.again else c) ++ cws })
  let s := s.modTrunk (fun t => { t with toSend := f.rest ++ keep, sent := sat32 (t.sent + n), retx := sat32 (t.retx + resent.length) })
  (s.noteEnds ctrl room x.next f.ends).emit (.trunkFrame ctrl out)

/-! ### Frames (R335, R339, R347) -/

/-- SNR that a profile needs, with the 3 dB of R339, in dB (Table 12.5). -/
def profileSnr (p : Nat) : Int := [0, -3, -6, -9].getD p (-9)

/-- The lowest repetition that the last report allows; ×8 without a report within 8 frames (R339). -/
def TrunkSt.profWanted (t : TrunkSt) : Nat :=
  if 8 ≤ t.snrAge then 3 else ((List.range 4).find? (fun p => decide (profileSnr p ≤ t.snrRep))).getD 3

/-- The profile of the next burst: higher after a burst that was not acknowledged, lower after 8 acknowledged frames (R339). -/
def TrunkSt.nextProfile (t : TrunkSt) : Nat :=
  let w := t.profWanted
  let up := if 2 ≤ t.ackFrames then min 3 (t.profTx + 1) else t.profTx
  if up < w then w else if w < up ∧ 8 ≤ t.goodAcks then w else up

/-- What a received part tells: its codewords to be acknowledged (R344), and the partner's SNR report. The codewords of the part
that did not decode are taken to be the missing ones of the run from the SEQ expected next. -/
def State.receivePart (s : State) (rx : List RxCodeword) : State :=
  if rx.isEmpty then s.modTrunk (fun t => { t with snrAge := min 8 (t.snrAge + 1) })
  else
    let base := s.trunk.data.rxNext
    let good := (rx.filter cwGood).map cwSeq
    let new := good.filter (fun q => decide ((q + 4096 - base) % 4096 < 2048))
    let old := good.filter (fun q => !decide ((q + 4096 - base) % 4096 < 2048))
    let top := (new.map (fun q => (q + 4096 - base) % 4096 + 1)).foldl max 0
    let n := max top (rx.length - old.length)
    let ack (b : Nat) (bits : List Bool) : List Byte :=
      let bytes := (List.range ((bits.length + 7) / 8)).map (fun i => BitVec.ofNat 8 (((bits.drop (8 * i)).take 8).zipIdx.map (fun x => if x.1 then 2 ^ x.2 else 0)).sum)
      zeros 2 ++ le 2 b ++ le 2 bits.length ++ zeros 2 ++ pad4 bytes
    let s := s.trunkSend 1 0 4 (ack base ((List.range n).map (fun i => new.contains ((base + i) % 4096))))
    let s := old.foldl (fun s q => s.trunkSend 1 0 4 (ack q [true])) s
    let rep := ((rx.filter cwGood).map cwSnr).getLast?
    s.modTrunk (fun t => { t with
      data := { t.data with rxNext := (base + n) % 4096 }
      snrRep := match rep with | some r => if r < 31 then (r : Int) - 16 else t.snrRep | none => t.snrRep
      snrAge := match rep with | some r => if r < 31 then 0 else min 8 (t.snrAge + 1) | none => min 8 (t.snrAge + 1) })

/-- What the frame's measurements say of the partner (R336, R348). The cable delay is (a + Δ) / 2. -/
def State.frameMeasures (s : State) (f : TrunkFrameIn) : State :=
  let s : State := match f.preamble with
    | none => s
    | some id =>
      let s := s.modTrunk (fun t => { t with
        lastHeard := s.time.dt, mySnr := snrCode f.snrDb
        d := if s.isHead then ((t.a + f.delta) / 2).toNat else t.d, e := if s.isMast then f.e else 0 })
      if s.trunk.state = .data ∧ id ≠ s.rxDir.active then
        let s := s.modRx (fun d => { d.still with active := id })
        if s.isHead then s.modTrunk (fun t => { t with estimate := t.mh.table.netKbps (s.dirSyms false) }) else s
      else s
  s.modRx (fun d => { d with noise := f.noise, noiseF := BitVec.ofNat 32 s.trunk.frame })

/-- The table switches of a frame: the sender's at its SWITCH_FRAME, and DATA once both directions' have come (R345, R350). -/
def State.tableFrame (s : State) : State :=
  let due (d : DirSt) : Bool := match d.switch with | some (_, f) => frameDue s.trunk.frame f | none => false
  match s.trunk.state with
  | .control => if due s.trunk.hm && due s.trunk.mh && s.rxDir.acked && s.txDir.acked then s.enterData else s
  | .data =>
    if due s.txDir then s.modTx (fun d => match d.switch with | some (i, _) => { d.still with active := i } | none => d) else s
  | _ => s

/-- Replies and events of the mast's trunk transport go into REPLY_EVENT packets, replies first (R364, R400). -/
def State.takeReplies : Nat → State → State
  | 0, s => s
  | n + 1, s =>
    match s.pTrunk.outbox with
    | [] => s
    | e :: rest =>
      match e.reply with
      | none => s
      | some r =>
        let s1 : State := { s with pTrunk := { s.pTrunk with outbox := rest } }
        takeReplies n (if e.noReply && r.status.good then s1 else s1.trunkSend 2 0 3 r.packet)

/-- The mast's replies and events on their way. -/
def State.takeOutgoing (s : State) : State :=
  if !s.isMast then s
  else
    let s := State.takeReplies s.pTrunk.outbox.length s
    let evs := s.pTrunk.events
    evs.foldl (fun s e => s.trunkSend 2 0 3 e.packet) { s with pTrunk := { s.pTrunk with events := [] } }

/-- TIME, and NOISE once per second, go with a frame (R336, R363). -/
def State.framePackets (s : State) (f : TrunkFrameIn) : State :=
  let t := s.trunk
  let v : Int := if s.isHead then f.delta else t.a
  let s := s.trunkSend 1 0 9 (le 4 t.frame ++ leInt 4 v ++ le 4 t.d)
  if t.state = .data ∧ t.frame % 500 = 0 then s.trunkSend 4 0 8 (le 4 t.frame ++ (f.noise ++ zeros 3921).take 3921) else s

/-- A control burst is sent with the profile of R339; in SEARCH, SLEEP, RECOVERY and LOST it is C8 (Tables 12.9, 12.10). -/
def State.sendBurst (s : State) : State :=
  let p := if s.trunk.state.masks then s.trunk.nextProfile else 3
  (s.modTrunk (fun t => { t with profTx := p })).sendPart true 0 1

/-- Whether packets can be exchanged: in CONTROL and DATA, and in a meet window once the partner is heard (R358). -/
def TrunkSt.talks (t : TrunkSt) : Bool := t.state.masks || t.heard

/-- Whether this device sends anything in a frame (Table 12.9, R358, R360). A mast answers what it has decoded. -/
def State.sends (s : State) : Bool :=
  let t := s.trunk
  match t.state with
  | .off => false
  | .control | .data => true
  | .search | .recovery => s.isHead || t.heard
  | .sleep => t.winOpen && (s.isHead || t.heard)
  | .lost => s.isHead && t.bursting

/-- TRUNK_FRAME (R335, R336, R339 to R348): a frame begins. What the partner's last part brought is taken in, masks and tables
due take force, and this device's part is sent. -/
def execTrunkFrame (f : TrunkFrameIn) (s : State) : Res :=
  .next <|
    if s.trunk.state = .off || !s.serving || (s.isHead && s.tickNow % 2 != 0) then s
    else
      let n := if s.isHead then s.tickNow / 2 % 2 ^ 32 else (s.trunk.frame + 1) % 2 ^ 32
      let s := s.modTrunk (fun t => { t with
        frame := n, timeRun := if t.timeSeen then t.timeRun + 1 else 0, timeSeen := false
        ackFrames := t.ackFrames + 1, goodAcks := if t.ackFrames = 0 then t.goodAcks else 0 })
      let s := (s.frameMeasures f).maskFrame.tableFrame
      let s := if s.trunk.state = .data then s.receivePart f.rx else s
      if !s.sends then s
      else
        let s := if s.trunk.talks then (s.framePackets f).takeOutgoing else s
        if s.trunk.state = .data && !s.trunk.useBursts then
          let t := s.txDir.table
          s.sendPart false t.rate (t.codewords (s.dirSyms s.isHead))
        else s.sendBurst

/-- TRUNK_ACK_TIMEOUT (R347): no ACK for 16 frames. -/
def execTrunkAckTimeout (wait : Nat) (s : State) : Res :=
  .next <|
    if !s.trunk.state.masks || decide (s.trunk.ackFrames < 16) || s.trunk.useBursts then s
    else (s.advance wait).modTrunk (fun t => { t with useBursts := true })

/-- CONTROL_BURST_RECEIVED (R338, R345, R346, R358): the partner's burst and its codeword are decoded. A burst with another pair
identity is reported and not used (R365). -/
def execControlBurstReceived (b : ControlBurst) (wait : Nat) (s : State) : Res :=
  .next <|
    let st := s.trunk.state
    if st = .off || (st == .sleep && !s.trunk.winOpen) || !s.serving then s
    else
      let s := s.advance wait
      if b.pairId.toNat ≠ s.force.trunk.nat 2 then s.trunkLostEvent 3
      else
        let s := if st = .recovery || st = .lost then s.enterSearch else s
        let c : RxCodeword := ⟨b.bytes, true⟩
        let fresh := s.isMast && s.trunk.state == .search && !s.trunk.heard
        let s := s.modTrunk (fun t => { t with
          heard := true, lastHeard := s.time.dt, profRx := b.profile, bursts := t.bursts + 1, mySnr := snrCode b.snrDb
          winOk := t.winOk || (t.winOpen && s.isHead)
          a := if fresh then 0 else t.a, d := if s.isHead then ((t.a + b.delta) / 2).toNat else t.d })
        let s := if !cwGood c then s else
          let s := s.modTrunk (fun t => { t with
            ctrl := { t.ctrl with rxNext := (cwSeq c + 1) % 4096 }
            snrRep := if cwSnr c < 31 then (cwSnr c : Int) - 16 else t.snrRep, snrAge := if cwSnr c < 31 then 0 else min 8 (t.snrAge + 1) })
          s.trunkSend 1 0 4 ([1#8, 0#8] ++ le 2 (cwSeq c) ++ le 2 1 ++ zeros 2 ++ [1#8, 0#8, 0#8, 0#8])
        if s.isHead && s.trunk.state == .search then
          let held := s.trunk.toSend
          let s := s.enterControl
          s.modTrunk (fun t => { t with toSend := held.filter (fun p => p.rank == 1 && p.tag == 0) ++ t.toSend.filter (fun p => !(p.rank == 1 && p.tag == 0)) })
        else s

/-! ### Packets received -/

/-- The partner has decoded this device: a mast in SEARCH enters CONTROL, and a meet window has succeeded (Table 12.9, R358). -/
def State.partnerHears (s : State) : State :=
  let s := s.modTrunk (fun t => { t with answered := true, winOk := t.winOk || t.winOpen })
  if s.isMast && s.trunk.state == .search && s.trunk.heard then s.enterControl else s

/-- One codeword of an ACK: received, to be sent again, or lost after its third failure (R344). -/
def SpaceSt.ackOne (x : SpaceSt) (seq : Nat) (ok : Bool) : SpaceSt :=
  if ok then { x with unacked := x.unacked.filter (fun c => c.seq != seq) }
  else { x with unacked := (x.unacked.filter (fun c => !(c.seq == seq && decide (2 ≤ c.retx)))).map (fun c => if c.seq == seq then { c with failed := true } else c) }

/-- Whether the end of a copy has been acknowledged: nothing up to its codeword is outstanding. -/
def State.cwAcked (s : State) (c : CwRef) : Bool := !(s.space c.ctrl).unacked.any (fun x => seqUpTo x.seq c.seq)

/-- TRUNK_ACK (R344, R347, R354, R394). -/
def execTrunkAck (a : TrunkAckIn) (wait : Nat) (s : State) : Res :=
  .next <|
    if s.trunk.state = .off then s
    else
      let s := s.advance wait
      let ctrl := a.space == 1#8
      let x := s.space ctrl
      let at_ (i : Nat) : Nat := (a.base.toNat + i) % 4096
      let lost := (a.bits.zipIdx.filter (fun b => !b.1 && x.unacked.any (fun c => c.seq == at_ b.2 && decide (2 ≤ c.retx)))).length
      let y := a.bits.zipIdx.foldl (fun x b => x.ackOne (at_ b.2) b.1) x
      let s := s.modSpace ctrl (fun _ => y)
      let s := s.modTrunk (fun t => { t with ackFrames := 0, goodAcks := t.goodAcks + 1, useBursts := false, lost := sat32 (t.lost + lost) })
      let done (c : Option CwRef) : Bool := match c with | some c => s.cwAcked c | none => false
      let s := s.modTrunk (fun t => { t with
        pendMask := t.pendMask.map (fun p => if done p.cw then { p with acked := true } else p)
        remotes := t.remotes.map (fun r => if r.acked.isNone && done r.cw then { r with acked := some s.time.dt } else r) })
      s.partnerHears

/-- TRUNK_LOADING (R350): a table for the direction that this device sends; one for another mask is discarded. -/
def execTrunkLoading (l : LoadingIn) (wait : Nat) (s : State) : Res :=
  .next <|
    let f := l.switchF.toNat
    let gen := match s.trunk.pendMask with | some p => if frameDue f p.frame then p.gen else s.trunk.maskGen | none => s.trunk.maskGen
    let id := l.tableId.toNat
    if !s.trunk.state.masks || l.maskGen != gen || decide (1 < id ∨ 3 < l.rate.toNat) || (s.trunk.state == LinkState.data && id == s.txDir.active) then s
    else
      let t : LoadTable := ⟨l.rate.toNat, l.bits.map (fun b => min b 12), l.maskGen⟩
      let s := (s.advance wait).modTx (fun d => { d with
        table0 := if id = 0 then t else d.table0, table1 := if id = 0 then d.table1 else t, switch := some (id, f), acked := true })
      s.trunkSend 1 0 6 (le 1 id ++ zeros 3 ++ le 4 f)

/-- TRUNK_LOADING_ACK (R350). -/
def execTrunkLoadingAck (l : LoadingAckIn) (wait : Nat) (s : State) : Res :=
  .next <|
    if !s.trunk.state.masks || s.rxDir.switch != some (l.tableId.toNat, l.switchF.toNat) then s
    else (s.advance wait).modRx (fun d => { d with acked := true })

/-- TRUNK_MASK (R353, R354) at the mast: the mask for its frame, and a LOADING packet for the same frame where a table is in
use. -/
def execTrunkMaskPacket (m : MaskIn) (wait : Nat) (s : State) : Res :=
  .next <|
    if !s.isMast || !s.trunk.state.masks then s
    else
      let vs := (m.values ++ zeros 3921).take 3921
      let s := (s.advance wait).modTrunk (fun t => { t with pendMask := some ⟨m.maskGen, m.switchF.toNat, vs, none, true⟩ })
      if s.trunk.state = .data then s.sendLoading (s.rxDir.table.under vs m.maskGen) m.switchF.toNat else s

/-- TRUNK_NOISE (R363): the noise at the partner's end. -/
def execTrunkNoise (n : NoiseIn) (wait : Nat) (s : State) : Res :=
  .next <|
    if s.trunk.state = .off then s
    else (s.advance wait).modTx (fun d => { d with noise := n.values, noiseF := n.frame })

/-- TRUNK_TIME (R336): at the mast Δ moves the advance, at the head it brings a. -/
def execTrunkTime (t : TrunkTimeIn) (wait : Nat) (s : State) : Res :=
  .next <|
    if s.trunk.state = .off then s
    else
      let s := (s.advance wait).modTrunk (fun x => { x with
        a := if s.isHead then t.value else x.a + t.value, d := if s.isHead then x.d else t.d
        frame := if s.isHead then x.frame else t.frame.toNat, timeSeen := true })
      s.partnerHears

/-- TRUNK_SLEEP_PACKET (R357) at the mast: the schedule, and with state 1 the link sleeps. -/
def execTrunkSleepPacket (p : SleepIn) (wait : Nat) (s : State) : Res :=
  .next <|
    if !s.isMast || !s.trunk.state.masks then s
    else
      let s := (s.advance wait).modTrunk (fun t => { t with pS := p.pS.toNat, wMs := p.wMs.toNat })
      if !p.sleep then s
      else
        (s.modTrunk (fun t => { t with state := .sleep, fromState := t.state, since := s.time.dt, firstWin := p.first, nextWin := p.first
                                       winOpen := false, heard := false, hm := t.hm.still, mh := t.mh.still })).relayLeave 3

/-- The record header of a UNIT packet, read (Table 10.3), with its payload. -/
def unitOfRecord (r : List Byte) (tick : Nat) : OutUnit :=
  let span := field r 40 4
  ⟨BitVec.ofNat 16 (field r 4 2), field r 3 1, BitVec.ofNat 16 (field r 6 2), BitVec.ofNat 64 (field r 8 8),
    if span < 2 ^ 31 then span else (span - 2 ^ 31) * 1000, BitVec.ofNat 32 (field r 24 4), (r.drop 48).take (field r 28 4), tick⟩

/-- TRUNK_UNIT_PACKET (R297, R344): the unit enters the head's collector; a skip of STREAM_CTR leaves GAP_BEFORE. -/
def execTrunkUnitPacket (u : TrunkUnit) (wait : Nat) (s : State) : Res :=
  .next <|
    if !s.isHead || s.trunk.state ≠ .data || decide (u.record.length < 48) then s
    else
      let s := s.advance wait
      let x := unitOfRecord u.record s.tickNow
      if (s.stream? x.slot x.kind).isNone then s
      else
        let ctrs := s.trunk.unitCtrs
        let was := ctrs.find? (fun c => c.1 == x.slot && c.2.1 == x.kind)
        let skip := match was with | some c => (c.2.2 + 1) % 256 != u.ctr.toNat | none => false
        let x := if skip then { x with flags := x.flags ||| fGap } else x
        let new := (x.slot, x.kind, u.ctr.toNat) :: ctrs.filter (fun c => !(c.1 == x.slot && c.2.1 == x.kind))
        { s with units := s.units ++ [x], trunk := { s.trunk with unitCtrs := new } }

/-- TRUNK_REPLY_EVENT_PACKET (R364): a mast's reply answers its TRUNK_REMOTE, and an event of it is wrapped. -/
def execTrunkReplyEventPacket (packet : List Byte) (wait : Nat) (s : State) : Res :=
  .next <|
    if !s.isHead || s.trunk.state = .off then s
    else
      let s := s.advance wait
      if 0x8000 ≤ field packet 0 2 then s.raise 0x8017 noSlot packet
      else match s.trunk.remotes.find? (fun r => r.wseq.toNat == field packet 4 2) with
        | none => s
        | some r =>
          let s := s.modTrunk (fun t => { t with remotes := t.remotes.filter (fun x => x.id != r.id), toSend := t.toSend.filter (fun p => p.tag != r.id + 2) })
          s.complete r.tr r.id ⟨0x0C06#16, r.seq, .ok, s.acc.gen, noTick, r.dt, packet⟩

/-! ### Bit loading (R349, R351) -/

/-- The least SNR in 0.01 dB at which 10 log10(2^b − 1) is met, for b = 0 to 12. -/
def snrForBits : List Int := [-100000, 0, 478, 846, 1177, 1492, 1800, 2104, 2407, 2709, 3010, 3312, 3613]
/-- G of a rate in 0.01 dB (R349). -/
def rateGap (rate : Nat) : Int := [100, 250, 350, 450].getD rate 100

/-- The loading margin in 0.01 dB (Table 12.1). -/
def State.loadMargin (s : State) : Int := s.force.trunk.int 4 * 100

/-- b of a carrier at a rate: the largest that its SNR carries (R349). -/
def bitsFor (rate : Nat) (margin snr : Int) : Nat :=
  ((List.range 13).filter (fun b => decide (snrForBits.getD b 0 + rateGap rate + margin ≤ snr) || b == 0)).foldl max 0

/-- The table that a receiver computes under a mask: the rate with the largest n_cw × K, the lower one on ties (R349). -/
def bestTable (snr : List Int) (margin : Int) (mask : List Byte) (gen : W16) (syms : Nat) : LoadTable :=
  let off := ((List.zip carrierNs mask).filter (fun x => x.2 == 0xFF#8)).map (·.1)
  let one (r : Nat) : LoadTable := ⟨r, List.zipWith (fun n x => if off.contains n then 0 else bitsFor r margin x) dataCarriers snr, gen⟩
  let size (t : LoadTable) : Nat := t.codewords syms * rateK t.rate
  [one 1, one 2, one 3].foldl (fun b t => if size b < size t then t else b) (one 0)

/-- Whether a loaded carrier has fallen more than 1 dB below what its b needs (R351). -/
def carrierFell (t : LoadTable) (margin : Int) (snr : List Int) : Bool :=
  (List.zip t.bits snr).any (fun x => decide (0 < x.1 ∧ x.2 < snrForBits.getD x.1 0 + rateGap t.rate + margin - 100))

/-- Whether a new table is to be sent (R351). -/
def tableChanged (old new : LoadTable) (syms : Nat) (margin : Int) (r : RecomputeIn) : Bool :=
  let a := old.codewords syms * rateK old.rate
  let b := new.codewords syms * rateK new.rate
  decide (a * 2 < (max a b - min a b) * 100) || carrierFell old margin r.snr || decide (r.total < r.failed * 100)

/-- LOADING_RECOMPUTE (R349 to R351, R354): the receiver's table of this second. In CONTROL it is the first, for ID 0. At the head
a notch whose lane has stopped is lifted first. -/
def execLoadingRecompute (r : RecomputeIn) (wait : Nat) (s : State) : Res :=
  .next <|
    if !s.trunk.state.masks then s
    else
      let s := (s.advance wait).modRx (fun d => { d with snr := r.snr })
      let hm := !s.isHead
      let n := s.dirSyms hm
      if s.trunk.state = .data && s.isHead && s.trunk.pendMask.isNone && s.maskWanted != s.maskNow then
        let f := (s.tickNow + 7) / 2 % 2 ^ 32
        let gen := s.trunk.maskGen + 1
        let vs := s.maskWanted
        let s := s.modTrunk (fun t => { t with pendMask := some ⟨gen, f, vs, none, false⟩, toSend := t.toSend.filter (fun p => p.tag != 1) })
        let s := s.trunkSend 1 1 7 (le 2 gen.toNat ++ zeros 2 ++ le 4 f ++ vs)
        s.sendLoading (bestTable r.snr s.loadMargin vs gen n) f
      else
        let (mask, gen) := match s.trunk.pendMask with | some p => (p.values, p.gen) | none => (s.maskNow, s.trunk.maskGen)
        let t := bestTable r.snr s.loadMargin mask gen n
        let send (s : State) : State :=
          let f := s.switchFrame
          let at_ := match s.trunk.pendMask with | some p => if frameDue p.frame f.2 then p.frame else f.2 | none => f.2
          f.1.sendLoading t at_
        let past := match s.rxDir.switch with | some (_, f) => frameDue s.trunk.frame f | none => true
        if s.trunk.state = .control then (if past && !s.rxDir.acked then send s else s)
        else if past && tableChanged s.rxDir.table t n s.loadMargin r then send s else s

end Sys2Proof.Machine
end

