-- ==== Sys2Proof/Machine/TrunkCmd.lean ====
section
/-! DEFINITION. The trunk's commands, sleep and meet windows, wake calls and recovery (R333, R352, R357 to R365, R394). -/

namespace Sys2Proof.Machine

/-- A command that only the head takes, in any mode (R407, Table 15.19). -/
def gateHead (opcode : Nat) : Gate := ⟨opcode, .none, allModes, .head⟩

/-! ### Settings and queries -/

/-- TRUNK_CONFIG (R333, Table 12.1): the role changes in DORMANT and MAINTAIN only. -/
def execTrunkConfig (h : CmdHdr) (items : List Item) (s : State) : Res :=
  .next (s.runCmd (gateAll 0x0C01) h fun s =>
    s.itemCmd tbl121 (fun _ => true) [] s.force.trunk s.acc.trunk items fun t =>
      s.refuseIf (t.nat 1 != s.acc.trunk.nat 1 && !(s.power.mode == .dormant || s.power.mode == .maintain)) .wrongMode <|
      s.commitDev (some 0) (fun a => { a with trunk := t }))

/-- σ in 0.001 ppm: the spread of the last four values of ρ, 50 ppm while fewer than two are known (R357). -/
def TrunkSt.sigma (t : TrunkSt) : Nat :=
  match t.rhos.take 4 with
  | a :: b :: r => let xs := a :: b :: r; ((xs.foldl max a) - (xs.foldl min a)).toNat
  | _ => 50000

/-- The guard g in ns, twice that in the windows after a re-acquisition (R357, R361). -/
def TrunkSt.guard (t : TrunkSt) : Nat :=
  let g := (t.sigma + 1000) * t.pS + 200000
  let g := max 1000000 (min g (t.pS * 250000000))
  if t.doubled = 0 then g else 2 * g

/-- Carriers that the mask in force sets off. -/
def State.notched (s : State) : Nat := (s.maskNow.filter (· == 0xFF#8)).length

/-- TRUNK_QUERY (R365, Table 15.19). -/
def execTrunkQuery (h : CmdHdr) (s : State) : Res :=
  .next (s.runCmd (gateAll 0x0C02) h fun s =>
    let t := s.trunk
    let dir (hm : Bool) : List Byte := le 1 (if hm then t.hm.active else t.mh.active) ++ s.dirBytes hm [] ++ zeros 4
    let meet := if t.state = .sleep then t.nextWin.toNat else 0
    (s, answer .ok (le 1 t.state.code ++ le 1 s.role ++ le 1 t.profTx ++ le 1 t.profRx ++ le 4 (s.force.trunk.nat 2) ++ leInt 4 t.a ++ le 4 t.d
      ++ leInt 8 t.e ++ dir true ++ dir false ++ le 2 t.maskGen.toNat ++ le 2 s.notched ++ le 4 t.estimate ++ le 4 t.sent ++ le 4 t.retx
      ++ le 4 t.lost ++ le 4 t.callsSent ++ le 4 t.callsAcc ++ le 8 meet ++ le 2 t.pS ++ le 2 t.wMs ++ leInt 4 (t.rhos.headD 0)
      ++ le 4 t.sigma ++ le 4 (t.guard / 1000))))

/-- Whether mask ranges lie within the carriers and do not overlap (Table 15.19). -/
def maskRangesOk (rs : List MaskRange) : Bool :=
  decide (rs.length ≤ 64)
    && rs.all (fun r => decide (80 ≤ r.first.toNat ∧ r.first.toNat ≤ r.last.toNat ∧ r.last.toNat ≤ 4000) && (decide (r.atten.toNat ≤ 40) || r.atten == 0xFF#8))
    && decide (rs.Pairwise (fun a b => a.last.toNat < b.first.toNat ∨ b.last.toNat < a.first.toNat))

/-- TRUNK_MASK (R352). -/
def execTrunkMask (h : CmdHdr) (ranges : List MaskRange) (s : State) : Res :=
  .next (s.runCmd (gateHead 0x0C05) h fun s =>
    s.refuseIf (!maskRangesOk ranges) .badParam <|
    s.commitDev (some 0) (fun a => { a with trunkMask := ranges }))

/-- TRUNK_NOISE_QUERY (R363, R412). The SNR of a carrier that carries no data, or that its receiver has not reported, is open
(log entry 5). -/
def execTrunkNoiseQuery (h : CmdHdr) (endOf : Byte) (first : W16) (s : State) : Res :=
  .next (s.runCmd (gateHead 0x0C07) h fun s =>
    s.refuseIf (decide (1 < endOf.toNat) || decide (first.toNat < 80 ∨ 4000 < first.toNat)) .badParam <|
    s.refuseIf (s.trunk.state == .off) .notFound <|
    let d := if endOf = 0#8 then s.trunk.mh else s.trunk.hm
    let data := List.zip dataCarriers ((d.snr.map some ++ List.replicate 3758 none).zip (d.table.bits ++ List.replicate 3758 0))
    let entry (n : Nat) : List Byte :=
      let x := data.find? (fun y => y.1 == n)
      let snr := match x with | some (_, some v, _) => leInt 1 (v / 50) | _ => freeBytes (s.freeCtr + n) 1
      [d.noise.getD (n - 80) 0#8] ++ snr ++ le 1 (match x with | some y => y.2.2 | none => 0) ++ [s.maskNow.getD (n - 80) 0#8]
    let ns := carrierNs.filter (fun n => decide (first.toNat ≤ n))
    let go := ns.take 1016
    let next := match ns.drop 1016 with | n :: _ => n | [] => 0xFFFF
    ({ s with freeCtr := s.freeCtr + 4001 }, answer .ok (le 4 d.noiseF.toNat ++ le 2 go.length ++ le 2 next ++ go.flatMap entry)))

/-! ### Sleep (R357) -/

/-- The first whole multiple of P of DT after an instant. -/
def firstMultiple (pS after : Nat) : Nat := let p := max 1 pS * 1000000000; (after / p + 1) * p

/-- TRUNK_SLEEP (R357). -/
def execTrunkSleep (h : CmdHdr) (firstDt : W64) (s : State) : Res :=
  .next (s.runCmd (gateHead 0x0C03) h fun s =>
    s.refuseIf (s.trunk.state != .data) .busyRunning <|
    let eff := s.effTickIdx * 1000000
    s.refuseIf (firstDt != 0#64 && decide (firstDt.toNat < eff)) .badParam <|
    let p := s.force.trunk.nat 6 60
    let w := s.force.trunk.nat 7 10 * 2
    let dt : W64 := if firstDt = 0#64 then BitVec.ofNat 64 (firstMultiple p eff) else firstDt
    let n := s.effTicks
    let s1 := s.modTrunk (fun t => { t with sleepTicks := some n, firstWin := dt, pS := p, wMs := w })
    (s1.trunkSend 2 0 10 (le 8 dt.toNat ++ le 2 p ++ le 2 w ++ [1#8] ++ zeros 3), .now .ok (le 8 dt.toNat) none s.effTick))

/-- The link sleeps at its effective tick. -/
def State.sleepNow (s : State) : State :=
  s.modTrunk (fun t => { t with state := .sleep, fromState := t.state, since := s.time.dt, nextWin := t.firstWin, winOpen := false, heard := false
                                sleepTicks := none, hm := t.hm.still, mh := t.mh.still })

/-- A wake call is asked for (R358): in SLEEP one of type 0x02, in LOST a long call at once (R362). -/
def State.askCall (s : State) : State :=
  match s.trunk.state with
  | .sleep => s.modTrunk (fun t => { t with callType := 2, callDue := some s.time.dt })
  | .lost => s.modTrunk (fun t => { t with callType := 3, callDue := some s.time.dt })
  | _ => s

/-- TRUNK_WAKE (R358, R362). -/
def execTrunkWake (h : CmdHdr) (s : State) : Res :=
  .next (s.runCmd (gateHead 0x0C04) h fun s =>
    s.refuseIf (s.trunk.state == .off) .notFound (s.askCall, answer .ok))

/-- TRUNK_REMOTE (R364, R394): the reply waits for the mast's. -/
def execTrunkRemote (h : CmdHdr) (packet : List Byte) (s : State) : Res :=
  .next (s.runCmd (gateHead 0x0C06) h fun s =>
    s.refuseIf (s.trunk.state == .off || s.trunk.state == .lost) .notFound <|
    let r : Remote := ⟨s.nextId, h.tr, h.seq, BitVec.ofNat 16 (field packet 4 2), packet, 0, s.time.dt, none, none⟩
    let s1 := s.modTrunk (fun t => { t with remotes := t.remotes ++ [r] })
    let s2 := if s.trunk.state.masks then s1.trunkSend 2 (r.id + 2) 2 packet else s1
    (if s.trunk.state = .sleep then s2.askCall else s2, .later))

/-- TRUNK_REMOTE_RESEND (R394): 20 ms after the acknowledgement without a reply, up to three times; or NOT_FOUND, as when the link
has not reached DATA within 5 s. -/
def execTrunkRemoteResend (seq : W16) (wait : Nat) (s : State) : Res :=
  .next <|
    match s.trunk.remotes.find? (fun r => r.wseq == seq) with
    | none => s
    | some r =>
      let t := s.advance wait
      match r.acked with
      | some d =>
        if !t.elapsed d 20000000 then s
        else if 3 ≤ r.sends then t.dropRemote r
        else
          let t := t.modTrunk (fun x => { x with remotes := x.remotes.map (fun y => if y.id == r.id then { y with sends := y.sends + 1, acked := none, cw := none } else y) })
          if t.trunk.state.masks then t.trunkSend 2 (r.id + 2) 2 r.packet else t
      | none => if t.trunk.state != .data && t.elapsed r.dt 5000000000 then t.dropRemote r else s

/-! ### Wake calls (R359 to R362) -/

/-- The bytes of a wake call (Table 12.11). -/
def wakeCallBytes (pair type sender : Nat) : List Byte :=
  let body := be 4 pair ++ le 1 type ++ le 1 sender
  be 2 0xAAAA ++ be 2 0xB38F ++ body ++ [crc8 0x07#8 0x00#8 body]

/-- A call leaves. -/
def State.sendCall (s : State) (type : Nat) : State :=
  let s := s.emit (.wakeCall (wakeCallBytes (s.force.trunk.nat 2) type (if s.isMast then 1 else 0)))
  s.modTrunk (fun t => { t with callsSent := sat32 (t.callsSent + 1) })

/-- The DT of the next repeated call: every 50 ms from the start of RECOVERY, each delayed by a random 0 to 10 ms (R360). -/
def State.nextCall (s : State) : State × W64 :=
  let r := s.free
  let k := (s.now - s.trunk.since.toNat) / 50000000 + 1
  (r.1, BitVec.ofNat 64 (s.trunk.since.toNat + k * 50000000 + r.2 % 10000001))

/-- WAKE_CALL_SEND (R358, R360): a call of type 0x02 from SLEEP takes the link to SEARCH; those of RECOVERY repeat. -/
def execWakeCallSend (wait : Nat) (s : State) : Res :=
  .next <|
    let t := s.advance wait
    match s.trunk.callDue with
    | none => s
    | some d =>
      if t.now < d.toNat then s
      else match s.trunk.state with
        | .sleep => (t.sendCall 2).enterSearch
        | .recovery =>
          let u := (t.sendCall 1).nextCall
          u.1.modTrunk (fun x => { x with callDue := some u.2 })
        | _ => s

/-- LONG_CALL (R362): once in each recovery call interval, or at once after a TRUNK_WAKE. -/
def execLongCall (wait : Nat) (s : State) : Res :=
  .next <|
    let t := s.advance wait
    match s.trunk.callDue with
    | none => s
    | some d =>
      if s.trunk.state ≠ .lost ∨ !s.isHead ∨ t.now < d.toNat then s
      else
        let next : W64 := BitVec.ofNat 64 (d.toNat + s.force.trunk.nat 8 10 * 1000000000)
        (t.sendCall 3).modTrunk (fun x => { x with callDue := some next, bursting := true })

/-- CARRIER_DETECTED (R362): in LOST the envelope detector stays on for 300 ms. -/
def execCarrierDetected (wait : Nat) (s : State) : Res :=
  .next <| if s.trunk.state = .lost then (s.advance wait).modTrunk (fun t => { t with listenMs := 300 }) else s

/-- Whether the envelope detector hears calls: in SLEEP, in RECOVERY, and in LOST while carrier keeps it on (R360, R362). -/
def TrunkSt.listens (t : TrunkSt) : Bool :=
  match t.state with
  | .sleep | .recovery => true
  | .lost => decide (0 < t.listenMs)
  | _ => false

/-- Whether a call's pair identity matches and its CRC holds (R359). -/
def State.callOk (s : State) (b : List Byte) : Bool :=
  b.length == 11 && (b.drop 2).take 2 == be 2 0xB38F && (b.drop 4).take 4 == be 4 (s.force.trunk.nat 2)
    && b.getD 10 0 == crc8 0x07#8 0x00#8 ((b.drop 4).take 6)

/-- WAKE_CALL_ACCEPTED (R359, R360): TRUNK_WAKE_DET pulses, and the link goes to SEARCH. -/
def execWakeCallAccepted (c : WakeCallIn) (wait : Nat) (s : State) : Res :=
  .next <|
    if !s.trunk.listens || !s.callOk c.bytes then s
    else
      let s := (((s.advance wait).emit (.pin "TRUNK_WAKE_DET" true)).emit (.pin "TRUNK_WAKE_DET" false))
      (s.modTrunk (fun t => { t with callsAcc := sat32 (t.callsAcc + 1) })).enterSearch

/-! ### Meet windows and recovery (R357, R358, R361) -/

/-- The offset that a mast predicts at the next window: ê = e + ρ × P, in ns; the head has none. -/
def State.meetOffset (s : State) : Int :=
  if s.isMast then (s.trunk.lastE.getD 0) + s.trunk.rhos.headD 0 * s.trunk.pS else 0

/-- The DT by this device's clock at which it wakes for the next window. -/
def State.meetFrom (s : State) : Int := (s.trunk.nextWin.toNat : Int) + s.meetOffset - s.trunk.guard
/-- The DT by this device's clock at which that window ends. -/
def State.meetUntil (s : State) : Int := (s.trunk.nextWin.toNat : Int) + s.meetOffset + s.trunk.wMs * 1000000 + s.trunk.guard

/-- MEET_WINDOW_WAKE (R357, R358). -/
def execMeetWindowWake (wait : Nat) (s : State) : Res :=
  .next <|
    let t := s.advance wait
    if s.trunk.state ≠ .sleep ∨ s.trunk.winOpen ∨ (t.now : Int) < s.meetFrom then s
    else t.modTrunk (fun x => { x with winOpen := true, winOk := false, heard := false, answered := false, snrAge := 8 })

/-- What a successful window leaves: the mast's new ρ, one doubled guard fewer, and the next window (R357, R361). -/
def TrunkSt.meetDone (t : TrunkSt) (mast : Bool) : TrunkSt :=
  let rho := t.lastE.map (fun l => (t.e - l) / (max 1 t.pS : Nat))
  { t with
    rhos := if mast then (match rho with | some r => (r :: t.rhos).take 4 | none => t.rhos) else t.rhos
    lastE := if mast then some t.e else t.lastE
    doubled := t.doubled - 1, winOpen := false, heard := false
    nextWin := t.nextWin + BitVec.ofNat 64 (t.pS * 1000000000) }

/-- Whether this device still has work for its partner. -/
def State.trunkWork (s : State) : Bool :=
  !s.trunk.remotes.isEmpty || (s.isMast && (!s.pTrunk.events.isEmpty || s.pTrunk.replyWaits))

/-- MEET_WINDOW_END (R358, R361): the link sleeps again, stays awake where work is left, or goes into RECOVERY. -/
def execMeetWindowEnd (wait : Nat) (s : State) : Res :=
  .next <|
    let t := s.advance wait
    if s.trunk.state ≠ .sleep ∨ !s.trunk.winOpen ∨ (t.now : Int) < s.meetUntil then s
    else if s.trunk.winOk then
      let t := t.modTrunk (fun x => x.meetDone s.isMast)
      if t.trunkWork then t.enterSearch else t
    else
      t.modTrunk (fun x => { x with state := .recovery, fromState := .sleep, since := t.time.dt, winOpen := false, heard := false
                                    callType := 1, callDue := some t.time.dt })

/-- RECOVERY_TIMEOUT (R361, R362, R394): 4 s with nothing decoded. -/
def execRecoveryTimeout (wait : Nat) (s : State) : Res :=
  .next <|
    let t := s.advance wait
    if s.trunk.state ≠ .recovery ∨ !t.elapsed s.trunk.since 4000000000 then s
    else
      let t := ((t.trunkLostEvent 1).relayLeave 4).enterIdle .lost
      t.modTrunk (fun x => { x with fromState := .recovery, callType := 3, listenMs := 0, callDue := if s.isHead then some t.time.dt else none })

/-! ### The trunk at a tick -/

/-- A change of role takes force (R333, Table 12.9): OFF stops the link, any other role starts it in SEARCH. -/
def State.trunkForce (s : State) (old : Settings) : State :=
  if old.trunk.nat 1 = s.role then s
  else if s.role = 0 then s.enterIdle .off
  else ((s.enterIdle .off).modTrunk (fun t => { t with a := 0, rhos := [], lastE := none, doubled := 0 })).enterSearch

/-- The trunk at the start of a tick: a sleep reaches its effective tick (R357), a listening period runs (R362), an event of a
sleeping mast asks for a call (R358), the split in force gives the estimate (R355), and the mask follows the round (R354). -/
def State.trunkTick (s : State) : State :=
  let s : State := match s.trunk.sleepTicks with
    | some n =>
      if n ≤ 1 then (if s.trunk.state = .data then s.sleepNow else s.modTrunk (fun t => { t with sleepTicks := none }))
      else s.modTrunk (fun t => { t with sleepTicks := some (n - 1) })
    | none => s
  let s := s.modTrunk (fun t => { t with listenMs := t.listenMs - 1 })
  let s := if s.isMast && s.trunk.state == .sleep && s.trunk.callDue.isNone && !s.trunk.winOpen && !s.pTrunk.events.isEmpty then s.askCall else s
  let s := if s.isHead && s.trunk.state == .data then s.modTrunk (fun t => { t with estimate := t.mh.table.netKbps (s.dirSyms false) }) else s
  s.maskRound

/-- Whether TRUNK meets its criterion as a reference (R336): the link in DATA, and a TIME packet in each of the last 100 frames. -/
def State.trunkTime (s : State) : Bool := s.isMast && s.trunk.state == .data && decide (100 ≤ s.trunk.timeRun)

end Sys2Proof.Machine
end

