-- ==== Sys2Proof/Machine/Calibration.lean ====
section
/-! DEFINITION. Calibration: the blocks and their limits, the background results, the start calibration, and family 0x0B of the
commands (R366 to R384). -/

namespace Sys2Proof.Machine

/-! ### Blocks -/

/-- The state with its calibration blocks changed. -/
def State.modCal (s : State) (f : CalSt → CalSt) : State := { s with cal := f s.cal }

/-- The state with the block of one RF ADC changed. -/
def State.modAdc (s : State) (i : Nat) (f : AdcCal → AdcCal) : State :=
  s.modCal (fun c => if i = 0 then { c with adcA := f c.adcA } else { c with adcB := f c.adcB })

/-- The flatness block of an input. -/
def State.flat (s : State) (i : Nat) : FlatCal := if i = 0 then s.cal.flatA else if i = 1 then s.cal.flatB else s.cal.flatLf

/-- The state with the flatness block of an input changed. -/
def State.modFlat (s : State) (i : Nat) (f : FlatCal → FlatCal) : State :=
  s.modCal (fun c =>
    if i = 0 then { c with flatA := f c.flatA } else if i = 1 then { c with flatB := f c.flatB } else { c with flatLf := f c.flatLf })

/-- The trims of a slice under a plan. -/
def AdcCal.trim (a : AdcCal) (plan sl : Nat) : SliceTrim := (a.trims.getD plan []).getD sl ⟨0, 0, 0⟩

/-- The block with one slice's trims under a plan replaced. -/
def AdcCal.setTrim (a : AdcCal) (plan sl : Nat) (t : SliceTrim) : AdcCal :=
  { a with trims := a.trims.modify plan (fun l => l.set sl t) }

/-- FAILS of an ADC block's header: the largest slice FAILS (Table 13.2). -/
def AdcCal.headFails (a : AdcCal) : Nat := a.fails.foldl max 0

/-- A header after an accepted result (R367). -/
def CalHead.accept (dt : W64) (q q2 : Int) : CalHead := ⟨1, 0, dt, BitVec.ofInt 16 q, BitVec.ofInt 16 q2⟩

/-- A header after a rejected result (R367). -/
def CalHead.reject (h : CalHead) : CalHead := { h with fails := min 255 (h.fails + 1) }

/-- The bytes of a block header (Table 13.2). -/
def CalHead.bytes (h : CalHead) (block fails len : Nat) : List Byte :=
  le 1 block ++ [1] ++ le 1 h.state ++ le 1 fails ++ le 4 len ++ le 8 h.dt.toNat ++ le 8 Config.unitId.toNat
    ++ le 2 h.quality.toNat ++ le 2 h.quality2.toNat ++ zeros 4

/-- The body of an ADC block (Table 13.3). -/
def AdcCal.body (a : AdcCal) : List Byte :=
  le 1 a.mode ++ le 1 a.spare ++ zeros 2 ++ le 4 a.retired.toNat ++ (List.range 4).flatMap (fun p => (List.range 17).flatMap (fun i =>
    let t := a.trim p i
    leInt 2 t.offset ++ leInt 2 t.gain ++ leInt 2 t.skew ++ le 1 (a.status.getD i 0) ++ le 1 (a.fails.getD i 0)))

/-- The body of a flatness block (Table 13.1). -/
def FlatCal.body (f : FlatCal) : List Byte := f.steps.flatMap (leInt 2) ++ f.lines.flatMap (leInt 2)

/-- The body of block 0x20 (Table 13.1). -/
def ClockCal.body (c : ClockCal) : List Byte :=
  le 1 c.bandG ++ le 1 c.ampG ++ c.bandS.flatMap (le 1) ++ c.ampS.flatMap (le 1) ++ zeros 2 ++ le 2 c.delayA ++ le 2 c.delayB
    ++ le 2 c.delayLf ++ zeros 2

/-- The blocks in the order of Table 13.1. -/
def calOrder : List Nat := [0x01, 0x02, 0x10, 0x11, 0x12, 0x20, 0x30, 0x40]

/-- The body length of a block (Table 13.1). -/
def calLen (b : Nat) : Nat :=
  if b = 0x01 ∨ b = 0x02 then 552 else if b = 0x10 ∨ b = 0x11 then 732 else if b = 0x12 then 262
  else if b = 0x20 then 20 else if b = 0x30 then 64 else 8

/-- The header of a block (R366). -/
def CalSt.header (c : CalSt) (b : Nat) : List Byte :=
  let put (h : CalHead) (fails : Nat) : List Byte := h.bytes b fails (calLen b)
  if b = 0x01 then put c.adcA.head c.adcA.headFails else if b = 0x02 then put c.adcB.head c.adcB.headFails
  else if b = 0x10 then put c.flatA.head c.flatA.head.fails else if b = 0x11 then put c.flatB.head c.flatB.head.fails
  else if b = 0x12 then put c.flatLf.head c.flatLf.head.fails else if b = 0x20 then put c.clocks.head c.clocks.head.fails
  else if b = 0x30 then put c.eq.head c.eq.head.fails else put c.trim.head c.trim.head.fails

/-- The body of a block (Table 13.1). -/
def CalSt.body (c : CalSt) (b : Nat) : List Byte :=
  if b = 0x01 then c.adcA.body else if b = 0x02 then c.adcB.body else if b = 0x10 then c.flatA.body
  else if b = 0x11 then c.flatB.body else if b = 0x12 then c.flatLf.body else if b = 0x20 then c.clocks.body
  else if b = 0x30 then c.eq.taps.flatMap (leInt 2) else le 2 c.trim.trim.toNat ++ zeros 2 ++ leInt 4 c.trim.error

/-! ### Limits (Table 13.4) -/

/-- Whether a slice's trims keep their value limits: 16 LSB, 1.0 % and 2.0 ps. -/
def SliceTrim.ok (t : SliceTrim) : Bool := decide (t.offset.natAbs ≤ 1024 ∧ t.gain.natAbs ≤ 655 ∧ t.skew.natAbs ≤ 200)

/-- Whether a result keeps the change limits against the trims in force: 1 LSB, 0.05 % and 0.2 ps. -/
def SliceTrim.near (t old : SliceTrim) : Bool :=
  decide ((t.offset - old.offset).natAbs ≤ 64 ∧ (t.gain - old.gain).natAbs ≤ 32 ∧ (t.skew - old.skew).natAbs ≤ 20)

/-- A move of at most `m`. -/
def towards (old new m : Int) : Int := max (old - m) (min (old + m) new)

/-- An accepted estimate moves the trims by at most a quarter of the change limits (R374). -/
def SliceTrim.quarter (old t : SliceTrim) : SliceTrim :=
  ⟨towards old.offset t.offset 16, towards old.gain t.gain 8, towards old.skew t.skew 5⟩

/-- The attenuation in 0.01 dB that setting `a` of STEP stands for (R366). -/
def nominalStep (input a : Nat) : Int := ((if input = 2 then 300 * a else 100 * a) : Nat)

/-- Whether STEP keeps its value limits: within 0.5 dB of nominal, and strictly increasing. -/
def stepsOk (input : Nat) (st : List Int) : Bool :=
  (st.zipIdx.all (fun x => decide ((x.1 - nominalStep input x.2).natAbs ≤ 50)))
    && ((List.range (st.length - 1)).all (fun i => decide (st.getD i 0 < st.getD (i + 1) 0)))

/-- How many values STEP and LINE of an input have (Table 13.1). -/
def flatSizes (input : Nat) : Nat × Nat := if input = 2 then (11, 120) else (31, 335)

/-- The flatness block of an input. -/
def flatBlock (input : Nat) : Nat := 0x10 + input

/-- The factory LINE of an input (R368). -/
def factoryLines (input : Nat) : List Int := (FlatCal.factory (flatBlock input) (flatSizes input).1 (flatSizes input).2).lines

/-- Whether each value lies within `m` of the other list's. -/
def within (m : Nat) (xs ys : List Int) : Bool := (xs.zip ys).all (fun x => decide ((x.1 - x.2).natAbs ≤ m))

/-- Whether LINE keeps its value limit: within 3.0 dB of the factory LINE. -/
def linesOk (input : Nat) (ls : List Int) : Bool := within 300 ls (factoryLines input)

/-- Whether the delays of block 0x20 lie within Table 4.1. -/
def delaysOk (a b lf : Nat) : Bool := decide (a ≤ 2047 ∧ b ≤ 2047 ∧ lf ≤ 4095)

/-- Whether ERROR of the RTC trim lies within 100 ppm. -/
def errorOk (e : Int) : Bool := decide (e.natAbs ≤ 10000)

/-! ### Results -/

/-- EV_CAL_RESULT (R384, Table 15.21). -/
def State.calEvent (s : State) (block target outcome : Nat) (q q2 : Int) : State :=
  s.raise 0x800B noSlot (le 1 block ++ le 1 target ++ le 1 outcome ++ zeros 1 ++ leInt 2 q ++ leInt 2 q2)

/-- The journal's mask of retired slices of an ADC (R373). -/
def State.journalRetired (s : State) (adc : Nat) (m : W32) : State :=
  if s.journal.readOnly then s
  else
    let j := s.journal
    let y := if adc = 0 then { j.sys with retiredA := m } else { j.sys with retiredB := m }
    if y = j.sys then s else ({ s with journal := { j with sys := y } } : State).markDirty (some 31)

/-- A slice is retired and leaves the ADC without a spare (R373). -/
def AdcCal.retire (a : AdcCal) (sl : Nat) : AdcCal :=
  let st := (a.status.map (fun x => if x = 1 then 0 else x)).set sl 2
  { a with status := st, retired := a.retired ||| bitW sl, spare := 0xFF, mode := if st.any (· == 3) then 2 else 1
           estFails := List.replicate 17 0 }

/-- SLICE_RETIREMENT (R373): the block, the journal and the event. -/
def State.retireSlice (s : State) (adc sl : Nat) (q q2 : Int) : State :=
  let s := s.modAdc adc (fun a => a.retire sl)
  (s.journalRetired adc (s.adcCal adc).retired).calEvent (adc + 1) sl 3 q q2

/-- The target that the spare is measured against: the first slice in rotation from `target` on, ascending (R372). -/
def AdcCal.aim (a : AdcCal) : Nat :=
  ((List.range 17).map (fun i => (a.target + i) % 17)).find? (fun i => a.status.getD i 0 == 0) |>.getD 0

/-- Whether an RF ADC samples (R371): its clock runs and the inputs are sampled. -/
def State.adcRuns (s : State) : Bool := s.sampling && s.clk.adcOn

/-- ROTATION_STEP (R371 to R373): the spare's result after a step of 16 ticks. -/
def execRotationStep (r : RotationIn) (s : State) : Res :=
  .next <|
    let a := s.adcCal r.adc
    if decide (2 ≤ r.adc) || !s.adcRuns || a.mode != 0 || s.force.cal.nat 1 1 != 1 || decide (r.usable < 25) then s
    else
      let p := s.plan.plan
      let sp := a.spare
      let t : SliceTrim := ⟨r.offset, r.gain, r.skew⟩
      let aim := a.aim
      if t.ok && t.near (a.trim p sp) then
        let b := a.setTrim p sp t
        let b : AdcCal := { b with
          head := CalHead.accept s.time.dt r.quality r.quality2, fails := b.fails.set sp 0
          status := (b.status.set sp 0).set aim 1, spare := aim, target := (aim + 1) % 17 }
        s.modAdc r.adc (fun _ => b)
      else
        let b : AdcCal := { a with fails := a.fails.modify sp (fun n => min 255 (n + 1)), target := (aim + 1) % 17 }
        let s := s.modAdc r.adc (fun _ => b)
        if 3 ≤ b.fails.getD sp 0 then s.retireSlice r.adc sp r.quality r.quality2
        else s.calEvent (r.adc + 1) sp (if t.ok then 2 else 1) r.quality r.quality2

/-- One slice's estimate (R374, R518). -/
def State.estimateSlice (s : State) (adc : Nat) (q q2 : Int) (e : Nat × Int × Int × Int) : State :=
  let a := s.adcCal adc
  let p := s.plan.plan
  let sl := e.1
  let t : SliceTrim := ⟨e.2.1, e.2.2.1, e.2.2.2⟩
  if a.status.getD sl 9 != 0 || decide (5 ≤ a.status.count 3) then s
  else if t.ok && t.near (a.trim p sl) then
    let b := a.setTrim p sl ((a.trim p sl).quarter t)
    let b : AdcCal := { b with
      head := CalHead.accept s.time.dt q q2, fails := b.fails.set sl 0, estFails := b.estFails.set sl 0 }
    s.modAdc adc (fun _ => b)
  else
    let n := a.estFails.getD sl 0 + 1
    let b : AdcCal := { a with fails := a.fails.modify sl (fun n => min 255 (n + 1)), estFails := a.estFails.set sl n }
    if n < 3 then (s.modAdc adc (fun _ => b)).calEvent (adc + 1) sl (if t.ok then 2 else 1) q q2
    else
      let b : AdcCal := { b with status := b.status.set sl 3, mode := 2 }
      let s := s.modAdc adc (fun _ => b)
      let s := s.raise 0x800A noSlot (le 1 adc ++ le 1 sl ++ le 1 (b.status.count 3) ++ zeros 1)
      s.calEvent (adc + 1) sl 4 q q2

/-- ESTIMATION_WINDOW (R374). -/
def execEstimationWindow (r : EstimationIn) (s : State) : Res :=
  .next <|
    let a := s.adcCal r.adc
    if decide (2 ≤ r.adc) || !s.adcRuns || a.mode == 0 || s.force.cal.nat 1 1 != 1 || decide (r.rms < -4000) then s
    else r.estimates.foldl (fun s e => s.estimateSlice r.adc r.quality r.quality2 e) s

/-- FLATNESS_BURST (R376): the burst of 150 µs that began 400 µs into the tick has ended. -/
def execFlatnessBurst (b : BurstIn) (s : State) : Res :=
  .next <|
    let f := s.flat b.input
    if decide (2 < b.input) || !s.burstTick b.input s.tickNow || s.coex.reqIn || b.lines.length != f.lines.length then s
    else
      let s := s.advance (s.time.boundary - 450000 - s.now)
      let ok := linesOk b.input b.lines
      if ok && within 50 b.lines f.lines then
        s.modFlat b.input (fun f => { f with head := CalHead.accept s.time.dt b.quality 0, lines := b.lines })
      else
        (s.modFlat b.input (fun f => { f with head := f.head.reject })).calEvent (flatBlock b.input) b.input (if ok then 2 else 1) b.quality 0

/-- TRIM for an ERROR in 0.01 ppm (R380, R505): DIGITAL is −round(ERROR × 1.048576), and CLOAD stays. -/
def trimFor (old : W16) (e : Int) : W16 :=
  (old &&& 0xFC00#16) ||| (BitVec.ofInt 16 (roundEven (-e * 1048576) 100000000) &&& 0x03FF#16)

/-- RTC_TRIM_MEASURE (R380): a count over 1,000 s of DT has ended. -/
def execRtcTrimMeasure (errorCppm : Int) (wait : Nat) (s : State) : Res :=
  .next <|
    if s.force.cal.nat 4 1 != 1 || s.refs.tstate != .locked || decide (s.cal.lockTicks < 1000000) then s
    else
      let s := (s.advance wait).modCal (fun c => { c with lockTicks := 0 })
      let q : Int := errorCppm.natAbs
      if errorOk errorCppm then
        let t := trimFor s.rtc.trim errorCppm
        let s : State := { s with rtc := { s.rtc with trim := t } }
        s.modCal (fun c => { c with trim := ⟨CalHead.accept s.time.dt q 0, t, errorCppm⟩ })
      else
        (s.modCal (fun c => { c with trim := { c.trim with head := c.trim.head.reject } })).calEvent 0x40 0 1 (min 65535 q) 0

/-- Whether a fit of the trunk equaliser is due (R379, R383): by CAL_RUN, the first of a CONTROL period after 16 bursts, or
60 s after the last in DATA. -/
def State.fitDue (s : State) : Bool :=
  let t := s.trunk
  let last := match s.cal.eq.last with | some d => d.toNat | none => 0
  let job := match s.cal.job with | some j => j.target == 3 | none => false
  match t.state with
  | .control => job || (decide (16 ≤ t.bursts) && (s.cal.eq.last.isNone || decide (last < t.since.toNat)))
  | .data => job || decide (last + 60000000000 ≤ s.now)
  | _ => false

/-- EQUALISER_FIT (R379): taps apply whole in CONTROL, and in steps of at most 0.5 dB in DATA. -/
def execEqualiserFit (f : EqFit) (wait : Nat) (s : State) : Res :=
  .next <|
    let t := s.advance wait
    if !t.fitDue then s
    else
      let job := match t.cal.job with | some j => j.target == 3 | none => false
      let t := t.modCal (fun c => { c with
        job := if job then none else c.job
        eq := { c.eq with last := some t.time.dt } })
      if f.spread ≤ 400 then
        let taps := if t.trunk.state = .data ∧ 50 < f.change then f.stepTap else f.taps
        let t := t.modCal (fun c => { c with eq := { c.eq with head := CalHead.accept t.time.dt f.ripple 0, taps := taps } })
        if job then t.calEvent 0x30 0 0 f.ripple 0 else t
      else (t.modCal (fun c => { c with eq := { c.eq with head := c.eq.head.reject } })).calEvent 0x30 0 1 f.ripple 0

/-! ### Foreground measurements (R369, R383) -/

/-- The quality figures that a measurement gave for a block. -/
def calQ (c : StartCal) (b : Nat) : Int × Int := match c.quality.find? (·.1 == b) with | some x => x.2 | none => (0, 0)

/-- Whether a step of Table 13.5 was interrupted by more than three repetitions (R370). -/
def calCut (c : StartCal) (step : Nat) : Bool := c.repeats.any (fun x => x.1 == step && decide (3 < x.2))

/-- One result of a slice: trims and FAILS after it (R367). -/
def sliceResult (x : SliceTrim × Nat) (r : Int × Int × Int) : SliceTrim × Nat :=
  let t : SliceTrim := ⟨r.1, r.2.1, r.2.2⟩
  if 3 ≤ x.2 then x else if t.ok then (t, 0) else (x.1, x.2 + 1)

/-- The results of one slice under a plan: a slice in use takes them, is rejected, or is retired (R369, R373). -/
def State.measureSlice (s : State) (adc plan : Nat) (q : Int × Int) (e : Nat × Nat × List (Int × Int × Int)) : State :=
  let a := s.adcCal adc
  let sl := e.2.1
  if e.1 != adc || decide (1 < a.status.getD sl 2) then s
  else
    let r := e.2.2.foldl sliceResult (a.trim plan sl, a.fails.getD sl 0)
    let b := a.setTrim plan sl r.1
    let s := s.modAdc adc (fun _ => { b with fails := b.fails.set sl r.2 })
    if 3 ≤ r.2 then s.retireSlice adc sl q.1 q.2
    else if 0 < r.2 then s.calEvent (adc + 1) sl 1 q.1 q.2
    else s

/-- The slices of one ADC are measured under a plan; the block's own result follows those of its slices. -/
def State.measureAdc (s : State) (c : StartCal) (adc plan : Nat) : State :=
  let q := calQ c (adc + 1)
  if calCut c 5 then s.calEvent (adc + 1) 0 5 q.1 q.2
  else
    let s := c.slices.foldl (fun s e => s.measureSlice adc plan q e) s
    let s := s.modAdc adc (fun a => { a with head := CalHead.accept s.time.dt q.1 q.2 })
    s.calEvent (adc + 1) 0 0 q.1 q.2

/-- STEP and LINE of one input are measured. -/
def State.measureFlat (s : State) (c : StartCal) (i : Nat) : State :=
  let b := flatBlock i
  let q := (calQ c b).1
  let f := s.flat i
  let st := c.steps.getD i []
  let ls := c.lines.getD i []
  let st := if calCut c 2 || st.length != f.steps.length then f.steps else st
  let ls := if calCut c 3 || ls.length != f.lines.length then f.lines else ls
  if calCut c 2 && calCut c 3 then s.calEvent b i 5 q 0
  else if stepsOk i st && linesOk i ls then
    let s := s.modFlat i (fun _ => ⟨CalHead.accept s.time.dt q 0, st, ls⟩)
    s.calEvent b i (if calCut c 2 || calCut c 3 then 5 else 0) q 0
  else (s.modFlat i (fun f => { f with head := f.head.reject })).calEvent b i 1 q 0

/-- The clocks are measured: the band of the plan in force and, unless `keep`, the delays (R378). -/
def State.measureClocks (s : State) (c : StartCal) (keep : Bool) : State :=
  let p := s.plan.plan
  let k := s.cal.clocks
  let ok := c.tuneOk && decide (c.lock.failures < 3) && (keep || calCut c 4 || delaysOk 0 c.delayB c.delayLf)
  if ok then
    let k : ClockCal := { k with head := CalHead.accept s.time.dt c.tuneMv c.residual, bandS := k.bandS.set p c.lock.band }
    let k : ClockCal := if keep || calCut c 4 then k else { k with delayB := c.delayB, delayLf := c.delayLf }
    (s.modCal (fun x => { x with clocks := k })).calEvent 0x20 p (if calCut c 1 || (calCut c 4 && !keep) then 5 else 0) c.tuneMv c.residual
  else (s.modCal (fun x => { x with clocks := { k with head := k.head.reject } })).calEvent 0x20 p 1 c.tuneMv c.residual

/-- The start calibration (R369, Table 13.5), with the steps that SKIP_RESTORED leaves out (R381). -/
def State.startCal (s : State) (c : StartCal) : State :=
  let s := s.lockS c.lock
  let skip (h : CalHead) : Bool := s.force.cal.nat 5 == 1 && h.state == 2
  let k := s.cal
  let flat := !(skip k.flatA.head && skip k.flatB.head && skip k.flatLf.head)
  let s := if skip k.adcA.head then s else s.measureAdc c 0 s.plan.plan
  let s := if skip k.adcB.head then s else s.measureAdc c 1 s.plan.plan
  let s := if flat then [0, 1, 2].foldl (fun s i => s.measureFlat c i) s else s
  let s := s.measureClocks c (skip k.clocks.head)
  s.modCal (fun c => { c with startDone := true })

/-- A foreground calibration that ends in this tick (R383): the results of each plan that it ran under. -/
def State.calResults (s : State) (rs : List StartCal) : State :=
  match s.cal.job with
  | none => s
  | some j =>
    if rs.isEmpty || j.target == 3 then s
    else
      let adcs := if j.scope = 0 then [0] else if j.scope = 1 then [1] else [0, 1]
      let all := j.options % 2 = 1
      let s := rs.zipIdx.foldl (fun s x =>
        let p := if all then x.2 else s.plan.plan
        if j.target = 0 then adcs.foldl (fun s i => s.measureAdc x.1 i p) s
        else if j.target = 1 then ([0, 1, 2].filter (fun i => j.scope.testBit i)).foldl (fun s i => s.measureFlat x.1 i) s
        else (s.lockS x.1.lock).measureClocks x.1 false) s
      s.modCal (fun c => { c with job := none })

/-! ### Commands -/

/-- RETIRE_CLEAR (R383, R518): the retired and interpolated slices of an ADC return, and the lowest retired one is the
spare. -/
def AdcCal.retireClear (a : AdcCal) : AdcCal :=
  match (List.range 17).find? (fun i => a.retired.getLsbD i) with
  | none => a
  | some sp =>
    { a with retired := 0#32, mode := 0, spare := sp, status := (List.replicate 17 0).set sp 1
             fails := List.replicate 17 0, estFails := List.replicate 17 0, target := 0 }

/-- CAL_RUN (R383, R495, Table 15.19). -/
def execCalRun (h : CmdHdr) (target options scope : Byte) (s : State) : Res :=
  .next (s.runCmd ⟨0x0B01, .none, [.maintain], .none⟩ h fun s =>
    let t := target.toNat
    let k := scope.toNat
    let adc := t == 0
    s.refuseIf (decide (3 < t) || (adc && (decide (2 < k) || decide (3 < options.toNat)))
      || (t == 1 && (k == 0 || decide (7 < k)))) .badParam <|
    s.refuseIf (decide (1 ≤ s.thermal.level)) .thermalLimit <|
    s.refuseIf s.cal.job.isSome .busyRunning <|
    s.refuseIf (t == 3 && s.role == 0) .notFound <|
    let clear := adc && options.getLsbD 1
    let adcs := if k = 0 then [0] else if k = 1 then [1] else [0, 1]
    let s := s.modCal (fun c => { c with job := some ⟨t, if adc then options.toNat else 0, k⟩ })
    let s := if clear then adcs.foldl (fun s i => (s.modAdc i (fun a => a.retireClear)).journalRetired i 0#32) s else s
    (s, answer (if clear && s.nvOff then .nvReadOnly else .ok)))

/-- CAL_QUERY (R384, Table 15.19). -/
def execCalQuery (h : CmdHdr) (s : State) : Res :=
  .next (s.runCmd (gateAll 0x0B02) h fun s =>
    let c := s.cal
    (s, answer .ok (le 1 c.adcA.mode ++ le 1 c.adcA.spare ++ le 1 c.adcB.mode ++ le 1 c.adcB.spare
      ++ calOrder.flatMap c.header)))

/-- CAL_READ (R366). -/
def execCalRead (h : CmdHdr) (block : Byte) (s : State) : Res :=
  .next (s.runCmd (gateAll 0x0B03) h fun s =>
    let b := block.toNat
    s.refuseIf (!calOrder.contains b) .badParam <|
    (s, answer .ok (s.cal.header b ++ s.cal.body b)))

/-- The signed 16-bit value at an offset of a block's body. -/
def s16 (bs : List Byte) (off : Nat) : Int := (BitVec.ofNat 16 (field bs off 2)).toInt

/-- The header of a written block (R382): STATE 2 and FAILS 0. -/
def writtenHead (b : CalBlock) : CalHead := ⟨2, 0, b.dt, b.quality, b.quality2⟩

/-- The trims of a written ADC block (Table 13.3). -/
def writtenTrims (bs : List Byte) : List (List SliceTrim) :=
  (List.range 4).map (fun p => (List.range 17).map (fun i =>
    let o := 8 + 8 * (17 * p + i)
    ⟨s16 bs o, s16 bs (o + 2), s16 bs (o + 4)⟩))

/-- A written ADC block (R382): the mask is ORed with the one in force, and MODE and SPARE follow from the result. -/
def AdcCal.written (a : AdcCal) (b : CalBlock) : AdcCal :=
  let bs := b.body
  let mask := (a.retired ||| BitVec.ofNat 32 (field bs 4 4)) &&& 0x1FFFF#32
  let none := mask != 0#32
  let sp := if none then 0xFF else if field bs 1 1 ≤ 16 then field bs 1 1 else a.spare
  let st := (List.range 17).map (fun i =>
    if mask.getLsbD i then 2 else if i = sp then 1
    else if none && (a.status.getD i 0 == 3 || field bs (14 + 8 * i) 1 == 3) then 3 else 0)
  { head := writtenHead b, mode := if st.contains 3 then 2 else if none then 1 else 0, spare := sp, retired := mask
    trims := writtenTrims bs, status := st, fails := List.replicate 17 0, target := a.target, estFails := List.replicate 17 0 }

/-- The STEP and LINE of a written flatness block. -/
def writtenFlat (input : Nat) (b : CalBlock) : FlatCal :=
  let n := flatSizes input
  ⟨writtenHead b, (List.range n.1).map (fun i => s16 b.body (2 * i)), (List.range n.2).map (fun i => s16 b.body (2 * n.1 + 2 * i))⟩

/-- A written block 0x20. -/
def writtenClocks (b : CalBlock) : ClockCal :=
  let f := field b.body
  ⟨writtenHead b, f 0 1, f 1 1, (List.range 4).map (fun i => f (2 + i) 1), (List.range 4).map (fun i => f (6 + i) 1),
    f 12 2, f 14 2, f 16 2⟩

/-- Whether the values of a block keep the value limits (R382, Table 13.4). The taps of block 0x30 have none: the limit is
one of the measured response. -/
def calValuesOk (b : CalBlock) : Bool :=
  let n := b.block.toNat
  if n ≤ 2 then (writtenTrims b.body).all (fun l => l.all SliceTrim.ok)
  else if n ≤ 0x12 then
    let f := writtenFlat (n - 0x10) b
    stepsOk (n - 0x10) f.steps && linesOk (n - 0x10) f.lines
  else if n = 0x20 then let c := writtenClocks b; delaysOk c.delayA c.delayB c.delayLf
  else if n = 0x40 then errorOk ((BitVec.ofNat 32 (field b.body 4 4)).toInt)
  else true

/-- A block that passed every check takes effect (R380, R382, R505). -/
def State.putBlock (s : State) (b : CalBlock) : State :=
  let n := b.block.toNat
  if n ≤ 2 then
    let s := s.modAdc (n - 1) (fun a => a.written b)
    s.journalRetired (n - 1) (s.adcCal (n - 1)).retired
  else if n ≤ 0x12 then s.modFlat (n - 0x10) (fun _ => writtenFlat (n - 0x10) b)
  else if n = 0x20 then s.modCal (fun c => { c with clocks := writtenClocks b })
  else if n = 0x30 then
    s.modCal (fun c => { c with eq := { c.eq with head := writtenHead b, taps := (List.range 32).map (fun i => s16 b.body (2 * i)) } })
  else
    let t := BitVec.ofNat 16 (field b.body 0 2)
    let s : State := { s with rtc := { s.rtc with trim := t } }
    s.modCal (fun c => { c with trim := ⟨writtenHead b, t, (BitVec.ofNat 32 (field b.body 4 4)).toInt⟩ })

/-- CAL_WRITE (R382). -/
def execCalWrite (h : CmdHdr) (block : CalBlock) (s : State) : Res :=
  .next (s.runCmd ⟨0x0B04, .none, [.dormant, .maintain], .none⟩ h fun s =>
    let n := block.block.toNat
    s.refuseIf (!calOrder.contains n || block.version != 1#8 || block.body.length != calLen n) .badParam <|
    s.refuseIf (block.unit != Config.unitId || !calValuesOk block) .calRejected <|
    (s.putBlock block, answer .ok))

/-- CAL_CONFIG (R381, Table 13.6). -/
def execCalConfig (h : CmdHdr) (items : List Item) (s : State) : Res :=
  .next (s.runCmd (gateAll 0x0B05) h fun s =>
    s.itemCmd tbl136 (fun _ => true) [] s.force.cal s.acc.cal items fun t =>
      s.commitDev (some 4) (fun a => { a with cal := t }))

end Sys2Proof.Machine
end

