-- ==== Sys2Proof/Machine/Ldpc.lean ====
section
/-! DEFINITION. Tick overruns (R40, R41) and the LDPC pool (R225 to R230): its policy, the pacing and the schedule of a tick,
and LDPC_QUERY. Work is counted in tenths of an accounting edge-iteration, of which a tile has 10,125,000. -/

namespace Sys2Proof.Machine

/-! ### Tick overruns -/

/-- The priorities of the slots that an overrun touches: lowest and highest. -/
def State.prioSpan (s : State) (slots : List Nat) : Nat × Nat :=
  let ps := (s.services.filter (fun v => slots.contains v.slot)).map (fun v => v.attrs.priority.toNat)
  (ps.foldl min (ps.headD 0), ps.foldl max (ps.headD 0))

/-- A tick overrun of a class (R41): the streams have a gap, the counter advances, and EV_TICK_OVERRUN is raised at most
once per class per 100 ticks, with the overruns since the one before. -/
def State.overrun (s : State) (cls tiles : Nat) (slots : List Nat) : State :=
  let ended := s.tickNow - 1
  let old := s.place.lastOver.getD cls (none, 0)
  let n := old.2 + 1
  let due := match old.1 with | none => true | some t => decide (t + 100 ≤ ended)
  let last := s.place.lastOver.set cls (if due then (some ended, 0) else (old.1, n))
  let s := { s with place := { s.place with overruns := sat32 (s.place.overruns + 1), lastOver := last } }
  let s := (s.services.filter (fun v => slots.contains v.slot)).foldl (fun s v => s.gapKinds v.field engineKinds) s
  let ps := s.prioSpan slots
  if due then s.raise 0x8001 noSlot (le 8 ended ++ le 1 cls ++ le 1 ps.1 ++ le 1 ps.2 ++ [0] ++ le 2 tiles ++ zeros 2 ++ le 4 n) else s

/-! ### Charges -/

/-- Tenths of an edge-iteration in a tile. -/
def tileWork : Nat := 10125000

/-- One iteration of a codeword of `bits` coded bits: 4.5 × N. -/
def iterWork (bits : Nat) : Nat := 45 * bits

/-- Each PLP in delivery with its carrier and band (R221, R225). -/
def State.plpUses (s : State) : List (CarrierUse × Plp × Nat) :=
  (carrierUses s.held).flatMap (fun c => c.plps.map (fun p => (c, p.1, p.2)))

/-- The charge of a band in tiles (R227): its PLPs, and the trunk data in the trunk's band. -/
def State.bandCharge (s : State) (b : Nat) : Nat :=
  let i := (s.ldpcSet b).1
  ((s.plpUses.filter (fun x => x.2.2 == b)).map (fun x => plpTiles x.2.1 i)).sum
    + (if s.trunkOn && s.trunk.state == .data && s.trunkBand == b then s.trunkCharge else 0)

/-- CAP_b = ⌈cap factor × the band's charge⌉ (R227). -/
def State.bandCap (s : State) (b : Nat) : Nat := (s.bandCharge b * (s.ldpcSet b).2.2 + 99) / 100

/-- LDPC_POLICY (R226). -/
def execLdpcPolicy (h : CmdHdr) (bands : Option (List LdpcBand)) (s : State) : Res :=
  .next (s.runCmd (gateNotRelay 0x0A0D) h fun s =>
    match bands with
    | none => (s, answer .ok (s.force.ldpc.flatMap (fun b => [b.i, b.iExt] ++ le 2 b.capPct.toNat)))
    | some bs =>
      let ok (b : LdpcBand) : Bool :=
        decide (4 ≤ b.i.toNat ∧ b.i.toNat ≤ 30 ∧ b.iExt.toNat ≤ 50 ∧ 100 ≤ b.capPct.toNat ∧ b.capPct.toNat ≤ 200 ∧ b.capPct.toNat % 5 = 0)
      s.refuseIf (!bs.all ok) .badParam <|
      let up (b : LdpcBand) : LdpcBand := if b.iExt.toNat < b.i.toNat then { b with iExt := b.i } else b
      s.commitDev (some 3) (fun a => { a with ldpc := bs.map up }))

/-- LDPC_QUERY (R229, R239). The tiles used are those of every tick since the reset. -/
def execLdpcQuery (h : CmdHdr) (s : State) : Res :=
  .next (s.runCmd (gateAll 0x0A0E) h fun s =>
    let l := s.ldpc
    let caps := ((List.range 4).map s.bandCap).sum
    let data := s.trunkOn && s.trunk.state == .data
    let row (b : Nat) : List Byte :=
      le 4 (s.bandCharge b) ++ le 4 (s.bandCap b) ++ le 2 (if l.ticks = 0 then 0 else l.usedSum.getD b 0 / l.ticks)
        ++ le 2 (l.usedMax.getD b 0) ++ zeros 4
    (s, answer .ok (leInt 4 ((190 : Int) - caps) ++ le 4 (if s.trunkOn then 2 else 0) ++ le 4 (if data then s.trunkCharge else 0)
      ++ le 1 (if data then s.trunkBand else 0xFF) ++ zeros 3 ++ (List.range 4).flatMap row
      ++ le 4 l.extended ++ le 4 l.interrupted ++ le 4 l.dropped)))

/-! ### Pacing (R228) -/

/-- The codewords that two interleaving spans of a PLP hold. -/
def plpBuffer (p : Plp) : Nat :=
  if p.rateNum * p.bits = 0 then 0 else 2 * p.spanNs * p.netKbps * p.rateDen / (p.rateNum * p.bits * 1000000)

/-- The queue of a PLP or the trunk with its present charge; what it held before stays. -/
def State.queueFor (s : State) (carrier : W64) (plp band bits tiles : Nat) : CodeQueue :=
  match s.ldpc.queues.find? (fun q => q.carrier == carrier && q.plp == plp) with
  | some q => { q with band := band, bits := bits, tiles := tiles }
  | none => ⟨carrier, plp, band, bits, tiles, 0, [], []⟩

/-- The queues of a tick, with the limit of each buffer: one for each PLP in delivery, and the trunk's in DATA. -/
def State.ldpcQueues (s : State) : List (CodeQueue × Option Nat) :=
  s.plpUses.map (fun x => (s.queueFor x.1.rx.carrier x.2.1.id x.2.2 x.2.1.bits (plpTiles x.2.1 (s.ldpcSet x.2.2).1), some (plpBuffer x.2.1)))
    ++ (if s.trunkOn && s.trunk.state == .data then [(s.queueFor 0#64 0 s.trunkBand 12960 s.trunkCharge, none)] else [])

/-- The codewords that the tick completed join their queue; the oldest go where the buffer overflows. The answer also says
how many. -/
def CodeQueue.take (q : CodeQueue) (limit : Option Nat) (batches : List CwBatch) : CodeQueue × Nat :=
  let new := (batches.filter (fun b => b.carrier == q.carrier && b.plp == q.plp)).flatMap (fun b => b.need.map (fun n => (⟨n, 0⟩ : Codeword)))
  let all := q.waiting ++ new
  let cut := match limit with | some m => all.length - m | none => 0
  ({ q with waiting := all.drop cut }, cut)

/-- The quota grows by the covered rate, up to twice it, and releases whole codewords (R228 rules 2 and 3); `i` is the
band's limit. -/
def CodeQueue.pace (q : CodeQueue) (i : Nat) : CodeQueue :=
  let c := q.tiles * tileWork
  let quota := min (q.quota + c) (2 * c)
  let cost := i * iterWork q.bits
  let n := if cost = 0 then q.waiting.length else min (quota / cost) q.waiting.length
  { q with quota := quota - n * cost, released := q.released ++ q.waiting.take n, waiting := q.waiting.drop n }

/-! ### The schedule (R229) -/

/-- A band as its work proceeds: work done in this tick, work left of the tick, codewords to extend with their bits, the
counts of extended, interrupted and dropped codewords, the work of the dropped ones, and the streams that lost codewords. -/
structure BandRun where
  work        : Nat
  left        : Nat
  open_       : List (Codeword × Nat)
  extended    : Nat
  interrupted : Nat
  dropped     : Nat
  dropWork    : Nat
  lost        : List (W64 × Nat)
  deriving DecidableEq, Repr

/-- One codeword runs its regular iterations; the answer says whether it started. -/
def BandRun.start (r : BandRun) (q : CodeQueue) (c : Codeword) (i cap : Nat) : BandRun × Bool :=
  let w := iterWork q.bits
  if cap * tileWork < r.work + i * w then (r, false)
  else if r.left = 0 then ({ r with dropped := r.dropped + 1, dropWork := r.dropWork + i * w, lost := r.lost ++ [(q.carrier, q.plp)] }, true)
  else
    let want := match c.need with | some n => min n i | none => i
    let can := min want (r.left / w)
    let r := { r with work := r.work + can * w }
    if can < want then ({ r with left := 0, interrupted := r.interrupted + 1 }, true)
    else
      let done := match c.need with | some n => decide (n ≤ i) | none => false
      ({ r with left := r.left - can * w, open_ := if done then r.open_ else r.open_ ++ [(⟨c.need, i⟩, q.bits)] }, true)

/-- One turn of the round robin: the head of each stream of the band starts, unless the cap holds it back. -/
def bandTurn (i cap : Nat) : BandRun → List CodeQueue → BandRun × List CodeQueue × Bool
  | r, [] => (r, [], false)
  | r, q :: qs =>
    match q.released with
    | [] => let x := bandTurn i cap r qs; (x.1, q :: x.2.1, x.2.2)
    | c :: cs =>
      let y := r.start q c i cap
      let x := bandTurn i cap y.1 qs
      if y.2 then (x.1, { q with released := cs } :: x.2.1, true) else (x.1, q :: x.2.1, x.2.2)

/-- The regular work of a band: turns until none starts a codeword. -/
def bandTurns (i cap : Nat) : Nat → BandRun → List CodeQueue → BandRun × List CodeQueue
  | 0, r, qs => (r, qs)
  | n + 1, r, qs =>
    let x := bandTurn i cap r qs
    if x.2.2 then bandTurns i cap n x.1 x.2.1 else (x.1, x.2.1)

/-- The extension of one unconverged codeword (R229). -/
def BandRun.extend (r : BandRun) (x : Codeword × Nat) (iExt cap : Nat) : BandRun :=
  let w := iterWork x.2
  let want := (match x.1.need with | some n => min n iExt | none => iExt) - x.1.done
  let byCap := (cap * tileWork - r.work) / w
  let n := min want byCap
  let can := min n (r.left / w)
  let r := { r with work := r.work + can * w, extended := r.extended + (if 0 < can then 1 else 0) }
  if can < n then { r with left := 0, interrupted := r.interrupted + 1 } else { r with left := r.left - can * w }

/-- One band's tick. -/
def runBand (i iExt cap left : Nat) (qs : List CodeQueue) : BandRun × List CodeQueue :=
  let fuel := (qs.map (fun q => q.released.length)).sum
  let x := bandTurns i cap fuel ⟨0, left, [], 0, 0, 0, 0, []⟩ qs
  (x.1.open_.foldl (fun r c => r.extend c iExt cap) x.1, x.2)

/-- The services that a PLP of a carrier is delivered to. -/
def State.plpSlots (s : State) (carrier : W64) (plp : Nat) : List Nat :=
  ((s.carrierSvcs carrier).filter (fun v => (v.plps v.rx).any (fun p => p.id == plp))).map (·.slot)

/-- The streams that lost codewords have a gap. -/
def State.gapSlots (s : State) (slots : List Nat) : State :=
  (s.services.filter (fun v => slots.contains v.slot)).foldl (fun s v => s.gapKinds v.field engineKinds) s

/-- The codewords of the tick enter and are paced (R228). -/
def State.ldpcPace (s : State) (batches : List CwBatch) : State :=
  s.ldpcQueues.foldl (fun s x =>
    let y := x.1.take x.2 batches
    let q := y.1.pace (s.ldpcSet x.1.band).1
    let s := if y.2 = 0 then s else s.gapSlots (s.plpSlots q.carrier q.plp)
    { s with ldpc := { s.ldpc with queues := s.ldpc.queues ++ [q], dropped := sat32 (s.ldpc.dropped + y.2) } })
    { s with ldpc := { s.ldpc with queues := [] } }

/-- Band `b` runs with the work left of the tick. -/
def State.ldpcBandTick (s : State) (left b : Nat) : State × Nat :=
  let l := s.ldpc
  let set := s.ldpcSet b
  let x := runBand set.1 set.2.1 (s.bandCap b) left (l.queues.filter (fun q => q.band == b))
  let r := x.1
  let l : LdpcSt := { l with
    queues := l.queues.filter (fun q => q.band != b) ++ x.2
    usedSum := l.usedSum.modify b (· + (r.work * 10 + tileWork / 2) / tileWork)
    usedMax := l.usedMax.modify b (max ((r.work + tileWork - 1) / tileWork))
    extended := sat32 (l.extended + r.extended)
    interrupted := sat32 (l.interrupted + r.interrupted)
    dropped := sat32 (l.dropped + r.dropped) }
  let s1 : State := { s with ldpc := l }
  if r.dropped = 0 then (s1, r.left)
  else
    let slots := r.lost.flatMap (fun p => s.plpSlots p.1 p.2)
    (s1.overrun 6 (tilesOf r.dropWork) slots, r.left)

/-- The pool's tick (R228, R229): control codewords first, then bands 3 to 0. -/
def State.ldpcTick (s : State) (batches : List CwBatch) : State :=
  let s := s.ldpcPace batches
  let left := (if s.trunkOn then 190 else 192) * tileWork
  let run := [3, 2, 1, 0].foldl (fun (x : State × Nat) b => x.1.ldpcBandTick x.2 b) (s, left)
  { run.1 with ldpc := { run.1.ldpc with ticks := run.1.ldpc.ticks + 1 } }

end Sys2Proof.Machine
end

