-- ==== Sys2Proof/Machine/Journal.lean ====
section
/-! DEFINITION. The settings journal: records, commits, compaction, sector retirement and migration (R467 to R477). A commit
is one whole step, so that no torn record and no half-erased sector arises (log entry 35). -/

namespace Sys2Proof.Machine

/-! ### Groups and records -/

/-- One journal group's settings copied from `src` into `dst` (Table 18.8). -/
def groupCopy (g : Nat) (src dst : Settings) : Settings :=
  match g with
  | 0 => { dst with trunk := src.trunk, trunkMask := src.trunkMask }
  | 1 => { dst with refs := src.refs, lockS := src.lockS, lockG := src.lockG, clkout := src.clkout, ppsOut := src.ppsOut,
                    leapHost := src.leapHost, leapExpiry := src.leapExpiry }
  | 2 => { dst with rf := src.rf, coex := src.coex, plan := src.plan }
  | 3 => { dst with placement := src.placement, ldpc := src.ldpc, survey := src.survey, follow := src.follow, links := src.links,
                    alertMask := src.alertMask }
  | 4 => { dst with cal := src.cal }
  | 5 => { dst with evMask := src.evMask }
  | 6 => { dst with chain := src.chain }
  | 7 => { dst with wakeBudget := src.wakeBudget }
  | _ => dst

/-- The groups that hold device settings (Table 18.8). -/
def settingGroups : List Nat := [0, 1, 2, 3, 4, 5, 6, 7]

/-- Whether one RSEQ is later than another (R511). -/
def rseqLater (a b : W32) : Bool := decide (0 < (a - b).toNat ∧ (a - b).toNat < 2 ^ 31)

/-- The record with the highest RSEQ (R472, R512). -/
def latestRecord (rs : List JRecord) : Option JRecord :=
  rs.foldl (fun m r => match m with
    | none => some r
    | some x => if rseqLater r.rseq x.rseq then some r else m) none

/-- The records of every sector in use (R472). -/
def JournalSt.records (j : JournalSt) : List JRecord := (j.sectors.filter (·.inUse)).flatMap (·.records)

/-- A group's record in force for an image that reads the formats from `lo` to `hi` (R472). -/
def JournalSt.inForce (j : JournalSt) (g lo hi : Nat) : Option JRecord :=
  latestRecord (j.records.filter (fun r => r.group == g && decide (lo ≤ r.format ∧ r.format ≤ hi)))

/-- Pages that a record with a body of `len` bytes takes (R469). -/
def recordPages (len : Nat) : Nat := (len + 20 + 255) / 256

/-- The working sectors that are erased (R474). -/
def JournalSt.erased (j : JournalSt) : List Nat :=
  (List.range j.sectors.length).filter (fun i => match j.sectors[i]? with
    | some x => !x.spare && !x.retired && !x.inUse
    | none => false)

/-- The least of a list by a measure, the first where several are. -/
def leastBy (f : Nat → Nat) : List Nat → Option Nat
  | [] => none
  | x :: xs => some (xs.foldl (fun m y => if f y < f m then y else m) x)

/-- A sector of the journal. -/
def JournalSt.sector (j : JournalSt) (i : Nat) : JSector := j.sectors.getD i ⟨false, false, false, 0, 0, 1, []⟩

/-- The journal with one sector changed. -/
def JournalSt.modSector (j : JournalSt) (i : Nat) (f : JSector → JSector) : JournalSt := { j with sectors := j.sectors.modify i f }

/-- A sector comes into use as the current one (R470, R474). -/
def JournalSt.open_ (j : JournalSt) (i : Nat) : JournalSt :=
  { (j.modSector i (fun x => { x with inUse := true, seq := j.nextSeq, nextPage := 1, records := [] })) with
    current := i, nextSeq := j.nextSeq + 1 }

/-- A record is put at the next free page of the current sector. -/
def JournalSt.append (j : JournalSt) (r : JRecord) : JournalSt :=
  j.modSector j.current (fun x => { x with records := x.records ++ [r], nextPage := x.nextPage + recordPages r.len })

/-- A commit under way: the journal, and the blank checks still to come. -/
structure JWork where
  j     : JournalSt
  blank : List Bool
  deriving DecidableEq, Repr

/-- Which records a compaction keeps: those in force and, in a trial, the newest of every other FORMAT (R474). -/
def JournalSt.keeps (j : JournalSt) (lo hi : Nat) (trial : Bool) (r : JRecord) : Bool :=
  j.inForce r.group lo hi == some r
    || (trial && latestRecord (j.records.filter (fun x => x.group == r.group && x.format == r.format)) == some r)

/-- A sector is erased. Where it does not read blank it is retired, and a spare takes its place or the store becomes
read-only (R475). -/
def JournalSt.erase (j : JournalSt) (i : Nat) (ok : Bool) : JournalSt :=
  let j := j.modSector i (fun x => { x with inUse := false, erases := x.erases + 1, nextPage := 1, records := [] })
  if ok then j
  else
    let j := j.modSector i (fun x => { x with retired := true })
    let y : SysRecord := { j.sys with retiredSectors := j.sys.retiredSectors + 1 }
    let j : JournalSt := { j with sys := y, dirty := if j.dirty.any (·.1 == 31) then j.dirty else j.dirty ++ [(31, 0)] }
    match (List.range j.sectors.length).find? (fun k => (j.sector k).spare && !(j.sector k).retired) with
    | some k => j.modSector k (fun x => { x with spare := false })
    | none => { j with readOnly := true, dirty := [] }

/-- Compaction into the erased sector `into` (R474, R512). -/
def JWork.compact (w : JWork) (lo hi : Nat) (trial : Bool) (into : Nat) : JWork :=
  let used := (List.range w.j.sectors.length).filter (fun i => (w.j.sector i).inUse)
  match leastBy (fun i => (w.j.sector i).seq) used with
  | none => w
  | some old =>
    let keep := (w.j.sector old).records.filter (w.j.keeps lo hi trial)
    let j := keep.foldl (fun (j : JournalSt) r => { (j.append { r with rseq := j.rseq }) with rseq := j.rseq + 1 }) (w.j.open_ into)
    ⟨j.erase old (w.blank.headD true), w.blank.drop 1⟩

/-- Room for `n` pages in the current sector: the next erased sector comes into use, or the journal is compacted (R474). With
`hot` set no erase may start (R478), and the answer is no. -/
def JWork.room : Nat → JWork → Nat → Nat → Nat → Bool → Bool → JWork × Bool
  | 0, w, _, _, _, _, _ => (w, false)
  | fuel + 1, w, n, lo, hi, trial, hot =>
    let x := w.j.sector w.j.current
    if w.j.readOnly then (w, false)
    else if x.inUse ∧ x.nextPage + n ≤ 256 then (w, true)
    else
      let e := w.j.erased
      match leastBy (fun i => (w.j.sector i).erases) e with
      | none => (w, false)
      | some i =>
        if 2 ≤ e.length then JWork.room fuel { w with j := w.j.open_ i } n lo hi trial hot
        else if hot then (w, false)
        else JWork.room fuel (w.compact lo hi trial i) n lo hi trial hot

/-- A record is programmed and read back; each of `miss` copies that reads back wrong is followed by another (R473). -/
def JWork.program : Nat → JWork → JRecord → Nat → Nat → Bool → Bool → JWork × Bool
  | miss, w, r, lo, hi, trial, hot =>
    let x := w.room 16 (recordPages r.len) lo hi trial hot
    if !x.2 then x
    else match miss with
      | 0 =>
        let j := x.1.j
        ({ x.1 with j := { (j.append { r with rseq := j.rseq }) with rseq := j.rseq + 1 } }, true)
      | m + 1 =>
        let j := x.1.j.modSector x.1.j.current (fun y => { y with nextPage := y.nextPage + recordPages r.len })
        JWork.program m { x.1 with j := j } r lo hi trial hot

/-- EV_NV_READ_ONLY (R475). -/
def State.nvEvent (s : State) : State := s.raise 0x8013 noSlot (le 1 s.journal.sys.retiredSectors ++ zeros 3)

/-- Whether the running image is on trial (R461). -/
def State.onTrial (s : State) : Bool := !s.journal.sys.confirmed

/-- One group's record is written with what stands accepted now (R468 to R475). -/
def State.writeGroup (s : State) (c : CommitIn) : State :=
  let j := s.journal
  if j.readOnly then s
  else
    let base := if c.crcOnes then j.rseq + 1 else j.rseq
    let j : JournalSt := (({ j with rseq := base } : JournalSt).modSector j.current (fun x => { x with nextPage := x.nextPage + c.skip }))
    let r : JRecord := ⟨c.group, s.flash.format, base, c.len, s.acc, j.sys⟩
    let x := JWork.program c.misreads ⟨j, c.blank⟩ r s.flash.formatMin s.flash.format s.onTrial (decide (1 ≤ s.thermal.level))
    if x.2 then { s with journal := { x.1.j with dirty := x.1.j.dirty.filter (·.1 != c.group) } }
    else if x.1.j.readOnly then ({ s with journal := x.1.j } : State).nvEvent
    else s

/-- The SYSTEM record is written at once with new contents (R461, R462). Its body length is not in the spec, and a page holds
it. -/
def State.writeSystem (s : State) (f : SysRecord → SysRecord) : State :=
  ({ s with journal := { s.journal with sys := f s.journal.sys } } : State).writeGroup ⟨31, 32, false, 0, 0, []⟩

/-- JOURNAL_COMMIT (R468): a group with a change is written and committed. -/
def execJournalCommit (c : CommitIn) (s : State) : Res :=
  .next (if s.journal.dirty.any (·.1 == c.group) && decide (c.len ≤ 4064 ∧ c.len % 4 = 0) then s.writeGroup c else s)

/-! ### At a start -/

/-- What applying the journal found: the settings, the groups reset, those to be written again, and the lowest FORMAT that was
migrated. -/
structure JApply where
  set    : Settings
  reset  : List Nat
  moved  : List Nat
  from_  : Option Nat
  deriving DecidableEq, Repr

/-- One group at a start: its record in force, migrated where its FORMAT is older, or its defaults (R476). -/
def JournalSt.applyGroup (j : JournalSt) (lo hi : Nat) (a : JApply) (g : Nat) : JApply :=
  match j.inForce g lo hi with
  | none => { a with reset := a.reset ++ [g] }
  | some r =>
    let a : JApply := { a with set := groupCopy g r.body a.set }
    if r.format < hi then
      { a with moved := a.moved ++ [g], from_ := some (match a.from_ with | some f => min f r.format | none => r.format) }
    else a

/-- The journal's groups as the running image takes them (R467, R476). -/
def JournalSt.apply (j : JournalSt) (lo hi : Nat) : JApply :=
  (settingGroups ++ [31]).foldl (j.applyGroup lo hi) ⟨Settings.default, [], [], none⟩

/-- EV_SETTINGS_MIGRATED (R476), where anything was migrated or reset. -/
def JApply.note (a : JApply) (hi : Nat) : List (Nat × List Byte) :=
  if a.reset.isEmpty && a.moved.isEmpty then []
  else [(0x8012, le 2 (a.from_.getD 0) ++ le 2 hi ++ le 4 ((a.reset.map (fun g => 2 ^ g)).sum))]

/-! ### Commands -/

/-- SETTINGS_QUERY (R475, Table 15.19). -/
def execSettingsQuery (h : CmdHdr) (s : State) : Res :=
  .next (s.runCmd (gateAll 0x0D06) h fun s =>
    let j := s.journal
    (s, answer .ok (le 2 s.flash.format ++ le 1 (if j.readOnly then 1 else 0)
      ++ le 1 ((j.sectors.filter (fun x => x.spare && !x.retired)).length) ++ le 4 j.records.length
      ++ j.sectors.flatMap (fun x => le 4 x.erases))))

/-- One group is reset to its defaults; its record is written even where nothing changes (R477). -/
def State.resetGroup (s : State) (g : Nat) : State :=
  (s.commitDev (some g) (fun a => groupCopy g Settings.default a)).1.markDirty (some g)

/-- SETTINGS_RESET (R477): the device generation advances for every group that changes. -/
def execSettingsReset (h : CmdHdr) (groups : W32) (confirm : W16) (s : State) : Res :=
  .next (s.runCmd ⟨0x0D07, .none, [.dormant, .maintain], .none⟩ h fun s =>
    s.refuseIf (decide (255 < groups.toNat) || confirm != 0x9484#16) .badParam <|
    let gs := settingGroups.filter (fun g => groups.getLsbD g)
    let t := gs.foldl State.resetGroup s
    let st := if s.nvOff && !gs.isEmpty then Status.nvReadOnly else .ok
    (t, .now st [] none (if t.acc.gen = s.acc.gen then noTick else s.effTick)))

/-- CHAIN_CONFIG (R464). -/
def execChainConfig (h : CmdHdr) (enable : Byte) (s : State) : Res :=
  .next (s.runCmd (gateAll 0x0D09) h fun s =>
    s.refuseIf (decide (1 < enable.toNat)) .badParam <|
    s.commitDev (some 6) (fun a => { a with chain := enable == 1#8 }))

end Sys2Proof.Machine
end

