-- ==== Sys2Proof/Machine/Images.lean ====
section
/-! DEFINITION. Firmware images: the checks, the transfer, activation, the keys, and the chain port (R452 to R466). -/

namespace Sys2Proof.Machine

/-! ### The flash and the header -/

/-- S of Table 18.1. -/
def State.slotSize (s : State) : Nat := (s.flash.size - 524288) / 2

/-- The flash address of a slot. -/
def State.slotBase (s : State) (i : Nat) : Nat := i * s.slotSize

/-- The bytes of a slot from an offset. -/
def State.slotBytes (s : State) (i off n : Nat) : List Byte := Memory.readN flashDefault s.flash.mem (s.slotBase i + off) n

/-- A slot. -/
def State.slot (s : State) (i : Nat) : ImgSlot := if i = 0 then s.flash.slot0 else s.flash.slot1

/-- The state with a slot changed. -/
def State.modSlot (s : State) (i : Nat) (f : ImgSlot → ImgSlot) : State :=
  { s with flash := if i = 0 then { s.flash with slot0 := f s.flash.slot0 } else { s.flash with slot1 := f s.flash.slot1 } }

/-- The codes of Table 18.5. -/
def ImgState.code : ImgState → Nat
  | .empty => 0 | .receiving => 1 | .refused => 2 | .bootable => 3 | .scheduled => 4 | .trial => 5 | .running => 6 | .failed => 7

/-- EV_IMAGE_STATE's parameters (Table 15.21). -/
def imageParams (i : Nat) (x : ImgSlot) (reason : Nat) : List Byte :=
  le 1 i ++ le 1 x.state.code ++ le 1 reason ++ zeros 1 ++ le 4 x.version.toNat
    ++ le 8 (match x.activate with | some d => d.toNat | none => 0)

/-- EV_IMAGE_STATE (R455). -/
def State.imageEvent (s : State) (i reason : Nat) : State := s.raise 0x8011 noSlot (imageParams i (s.slot i) reason)

/-- A segment entry (Table 18.3). -/
structure Segment where
  target : Nat
  iface  : Nat
  off    : Nat
  len    : Nat
  deriving DecidableEq, Repr

/-- The segments of a header, at most 8. -/
def headerSegs (hd : List Byte) : List Segment :=
  (List.range (min 8 (field hd 37 1))).map (fun i =>
    let o := 40 + 16 * i
    ⟨field hd o 1, field hd (o + 2) 2, field hd (o + 4) 4, field hd (o + 8) 4⟩)

/-- Whether a run of header bytes is zero. -/
def zeroRun (hd : List Byte) (off n : Nat) : Bool := ((hd.drop off).take n).all (· == 0#8)

/-- Whether the reserved bytes and bits of a header are zero (Tables 18.2 and 18.3). -/
def reservedZero (hd : List Byte) : Bool :=
  field hd 14 2 / 2 == 0 && zeroRun hd 38 2 && zeroRun hd 328 56
    && (List.range 8).all (fun i => if i < field hd 37 1 then zeroRun hd (41 + 16 * i) 1 && zeroRun hd (52 + 16 * i) 4 else zeroRun hd (40 + 16 * i) 16)

/-- Whether two segments overlap. -/
def Segment.overlaps (a b : Segment) : Bool := decide (a.off < b.off + b.len) && decide (b.off < a.off + a.len)

/-- Check 6 of Table 18.4. -/
def segsOk (hd : List Byte) : Bool :=
  let ss := headerSegs hd
  let n := field hd 37 1
  let img := field hd 28 4
  reservedZero hd && decide (1 ≤ n ∧ n ≤ 8) && (ss.filter (fun x => x.target == 0)).length == 1
    && decide (ss.map (·.target)).Nodup && ss.all (fun x => decide (384 ≤ x.off ∧ x.off % 4 = 0 ∧ x.off + x.len ≤ img))
    && (List.range n).all (fun i => (List.range i).all (fun k => match ss[i]?, ss[k]? with
      | some a, some b => !a.overlaps b
      | _, _ => true))

/-- Checks 1 to 6 of Table 18.4; `len` is the LENGTH of IMAGE_BEGIN on a transfer. The answer is the reason, 0 where all
pass. -/
def State.headerForm (s : State) (hd : List Byte) (len : Option Nat) : Nat :=
  let img := field hd 28 4
  if hd.take 4 ≠ [0x4C#8, 0x58#8, 0x46#8, 0x57#8] ∨ field hd 4 2 ≠ 1 ∨ field hd 6 2 ≠ 384 then 0x01
  else if field hd 8 2 ≠ 0x9484 then 0x02
  else if Config.siliconStep < field hd 10 2 ∨ field hd 12 2 < Config.siliconStep then 0x03
  else if field hd 14 2 % 2 = 1 ∧ field hd 16 8 ≠ Config.unitId.toNat then 0x04
  else if img ≤ 384 ∨ s.slotSize < img ∨ len.getD img ≠ img then 0x05
  else if !segsOk hd then 0x0B
  else 0

/-- Checks 7 to 10 of Table 18.4: the key and the signature (R457). -/
def State.headerKeys (s : State) (hd : List Byte) : Nat :=
  let key := s.flash.keys.getD (field hd 36 1) ⟨none, false⟩
  let pub := (hd.drop 168).take 64
  match key.hash with
  | none => 0x06
  | some x =>
    if key.revoked then 0x07
    else if sha256 pub ≠ x then 0x08
    else if !ecdsaValid pub ((hd.drop 264).take 32) ((hd.drop 296).take 32) (hd.take 264) then 0x09
    else 0

/-- Checks 1 to 11: on a transfer also that the running image's FORMAT can be read, which the loader skips (R454, R466). -/
def State.headerReason (s : State) (hd : List Byte) (len : Option Nat) : Nat :=
  let a := s.headerForm hd len
  if a ≠ 0 then a
  else
    let b := s.headerKeys hd
    if b ≠ 0 then b
    else if len.isSome ∧ s.power.recovery = false ∧ s.flash.format < field hd 34 2 then 0x0A
    else 0

/-- Check 12: DIGEST against the body as read back. -/
def State.digestOk (s : State) (i : Nat) (hd : List Byte) : Bool :=
  sha256 (s.slotBytes i 384 (field hd 28 4 - 384)) == (hd.drop 232).take 32

/-- The reason that a slot's contents give under checks 1 to 10 and 12, 0 where they pass. -/
def State.slotReason (s : State) (i : Nat) : Nat :=
  let hd := s.slotBytes i 0 384
  let a := s.headerReason hd none
  if a ≠ 0 then a else if s.digestOk i hd then 0 else 0x0C

/-- A slot as a start finds it (R455, R458): erased, refused, or bootable, where a failed one stays failed. -/
def State.slotAtStart (s : State) (i : Nat) : ImgSlot :=
  let hd := s.slotBytes i 0 384
  let old := s.slot i
  if hd.all (· == flashDefault) then { ImgSlot.reset with reason := if old.reason = 0x14 then 0x14 else 0 }
  else
    let r := s.slotReason i
    let v := BitVec.ofNat 32 (field hd 24 4)
    if r ≠ 0 then ⟨.refused, r, v, field hd 28 4, none, none⟩
    else ⟨if old.state = .failed then .failed else .bootable, if old.state = .failed then old.reason else 0, v, field hd 28 4, none, none⟩

/-! ### The transfer (R458) -/

/-- Whether a slot runs; none does under the recovery loader. -/
def State.runs (s : State) (i : Nat) : Bool := !s.power.recovery && s.flash.running == i

/-- Whether the thermal level stops image commands (R478). -/
def State.tooHot (s : State) : Bool := decide (1 ≤ s.thermal.level)

/-- Whether a transfer to a slot is in progress for somebody else. -/
def ImgSlot.heldFrom (x : ImgSlot) (o : ImgOwner) : Bool :=
  match x.transfer with | some t => x.state == .receiving && t.owner != o | none => false

/-- IMAGE_BEGIN: the slot's first sector is erased, and the slot receives. -/
def State.imgBegin (s : State) (o : ImgOwner) (i len : Nat) (seq : Byte) : State × Status :=
  let x := s.slot i
  if 1 < i then (s, .badParam)
  else if s.runs i || x.state == .scheduled || x.heldFrom o then (s, .busyRunning)
  else if s.tooHot then (s, .thermalLimit)
  else
    let s : State := { s with flash := { s.flash with mem := Memory.clear s.flash.mem (s.slotBase i) 65536 } }
    let s := s.modSlot i (fun _ => ⟨.receiving, 0, 0#32, 0, none, some ⟨o, len, 0, [], seq⟩⟩)
    (s.imageEvent i 0, .ok)

/-- A slot's transfer or header failed a check. -/
def State.imgRefuse (s : State) (i reason : Nat) (drop : Bool) : State :=
  (s.modSlot i (fun x => { x with state := .refused, reason := reason, transfer := if drop then none else x.transfer })).imageEvent i reason

/-- The transfer of a slot that an owner has under way. -/
def State.imgOf (s : State) (o : ImgOwner) (i : Nat) : Option ImgTransfer :=
  match (s.slot i).transfer with | some t => if t.owner = o then some t else none | none => none

/-- Body bytes are programmed, each further sector being erased before the first byte written into it. -/
def State.imgProgram (s : State) (i off : Nat) (data : List Byte) : State :=
  let b := s.slotBase i
  let first := (off + 65535) / 65536
  let last := (off + data.length + 65535) / 65536
  let m := (List.range (last - first)).foldl (fun m k => if first + k = 0 then m else Memory.clear m (b + (first + k) * 65536) 65536) s.flash.mem
  let skip := 384 - off
  { s with flash := { s.flash with mem := Memory.writeN flashDefault m (b + max off 384) (data.drop skip) } }

/-- IMAGE_DATA: the next bytes of a transfer. The header stays in RAM, and is checked as soon as it is whole. -/
def State.imgData (s : State) (o : ImgOwner) (i off : Nat) (data : List Byte) (seq : Byte) : State × Status :=
  if 1 < i then (s, .badParam)
  else match s.imgOf o i with
    | none => (s, .notFound)
    | some t =>
      if (s.slot i).state ≠ .receiving then (s, .notFound)
      else if off ≠ t.next ∨ t.length < off + data.length then (s, .badParam)
      else if s.tooHot then (s, .thermalLimit)
      else
        let hd := t.head ++ data.take (384 - t.head.length)
        let done := decide (t.head.length < 384 ∧ hd.length = 384)
        let t : ImgTransfer := { t with next := off + data.length, head := hd, chainSeq := seq }
        let s := s.modSlot i (fun x => { x with transfer := some t })
        let s := if done then s.modSlot i (fun x => { x with version := BitVec.ofNat 32 (field hd 24 4), length := field hd 28 4 }) else s
        let r := if done then s.headerReason hd (some t.length) else 0
        if r ≠ 0 then (s.imgRefuse i r false, .ok) else (s.imgProgram i off data, .ok)

/-- IMAGE_END: the transfer is complete and its digest right, so the header page is written; or the slot is refused. -/
def State.imgEnd (s : State) (o : ImgOwner) (i : Nat) : State × Status :=
  match s.imgOf o i with
  | none => (s, .notFound)
  | some t =>
    if (s.slot i).state ≠ .receiving then (s.modSlot i (fun x => { x with transfer := none }), .imageRefused)
    else if t.next < t.length ∨ t.head.length < 384 then (s.imgRefuse i 0x0E true, .imageRefused)
    else if !s.digestOk i t.head then (s.imgRefuse i 0x0C true, .imageRefused)
    else
      let s : State := { s with flash := { s.flash with mem := Memory.writeN flashDefault s.flash.mem (s.slotBase i) t.head } }
      ((s.modSlot i (fun x => { x with state := .bootable, reason := 0, transfer := none })).imageEvent i 0, .ok)

/-! ### Activation (R460) -/

/-- A pending activation ends with a reason. -/
def State.imgCancel (s : State) (i : Nat) : State :=
  if (s.slot i).state = .scheduled then
    (s.modSlot i (fun x => { x with state := .bootable, reason := 0x12, activate := none })).imageEvent i 0x12
  else s

/-- IMAGE_ACTIVATE of a slot at a DT, 0 for at once: the effective tick. Under the recovery loader it is always at once. -/
def State.imgActivate (s : State) (i dt : Nat) : State × Answer :=
  let at_ := if dt = 0 || s.power.recovery then s.effTickIdx * 1000000 else dt
  let eff := if at_ = s.effTickIdx * 1000000 then s.effTick else noTick
  if 1 < i then refuse s .badParam
  else if s.runs i then (s.imgCancel (1 - i), answer .ok)
  else if at_ < s.effTickIdx * 1000000 then refuse s .badParam
  else if s.tooHot then refuse s .thermalLimit
  else if (s.slot 0).state = .scheduled ∨ (s.slot 1).state = .scheduled then refuse s .busyRunning
  else if s.journal.readOnly then (s.imageEvent i 0x13, answer .imageRefused)
  else if (s.slot i).state ≠ .bootable then refuse s .imageRefused
  else
    ((s.modSlot i (fun x => { x with state := .scheduled, reason := 0, activate := some (BitVec.ofNat 64 at_) })).imageEvent i 0,
      .now .ok [] none eff)

/-! ### Commands -/

/-- A status as an answer. -/
def plain (r : State × Status) : State × Answer := (r.1, answer r.2)

/-- The layout of IMAGE_END's reply (Table 15.19). -/
def ImgSlot.endReply (x : ImgSlot) : List Byte := le 1 x.state.code ++ le 1 x.reason ++ zeros 2 ++ le 4 x.version.toNat

/-- IMAGE_BEGIN (R458). -/
def execImageBegin (h : CmdHdr) (slot : Byte) (length : W32) (s : State) : Res :=
  .next (s.runCmd (gateAll 0x0D01) h fun s => plain (s.imgBegin (.transport h.tr) slot.toNat length.toNat 0#8))

/-- IMAGE_DATA (R458). -/
def execImageData (h : CmdHdr) (slot : Byte) (offset : W32) (data : List Byte) (s : State) : Res :=
  .next (s.runCmd (gateAll 0x0D02) h fun s => plain (s.imgData (.transport h.tr) slot.toNat offset.toNat data 0#8))

/-- IMAGE_END (R458). -/
def execImageEnd (h : CmdHdr) (slot : Byte) (s : State) : Res :=
  .next (s.runCmd (gateAll 0x0D03) h fun s =>
    let i := slot.toNat
    if 1 < i then refuse s .notFound
    else if s.tooHot then refuse s .thermalLimit
    else
      let r := s.imgEnd (.transport h.tr) i
      (r.1, answer r.2 (if r.2 = .notFound then [] else (r.1.slot i).endReply)))

/-- IMAGE_ACTIVATE (R460). -/
def execImageActivate (h : CmdHdr) (slot : Byte) (dt : W64) (s : State) : Res :=
  .next (s.runCmd (gateAll 0x0D04) h fun s => s.imgActivate slot.toNat dt.toNat)

/-- IMAGE_QUERY (Table 15.19). -/
def execImageQuery (h : CmdHdr) (s : State) : Res :=
  .next (s.runCmd (gateAll 0x0D05) h fun s =>
    let one (i : Nat) : List Byte :=
      let x := s.slot i
      x.endReply ++ le 4 x.length ++ zeros 4 ++ le 8 (match x.activate with | some d => d.toNat | none => 0)
    (s, answer .ok (le 1 s.runningImage ++ zeros 3 ++ one 0 ++ one 1)))

/-- OTP_KEY (R457). -/
def execOtpKey (h : CmdHdr) (action keySlot : Byte) (confirm : W16) (hash : List Byte) (s : State) : Res :=
  .next (s.runCmd ⟨0x0D08, .none, [.maintain], .none⟩ h fun s =>
    let k := keySlot.toNat
    let ks := s.flash.keys
    let key := ks.getD k ⟨none, false⟩
    let live := (ks.filter (fun x => x.hash.isSome && !x.revoked)).length
    s.refuseIf (decide (1 < action.toNat) || decide (3 < k) || confirm != 0x9484#16) .badParam <|
    let put (x : OtpKey) : State × Answer := ({ s with flash := { s.flash with keys := ks.set k x } }, answer .ok)
    if action = 0#8 then s.refuseIf key.hash.isSome .locked (put { key with hash := some hash })
    else s.refuseIf (key.revoked || (key.hash.isSome && decide (live ≤ 1))) .locked (put { key with revoked := true }))

/-! ### The chain port (R464, R465) -/

/-- Whether the chain port listens: READY, and enabled or under the recovery loader (R464, R466). -/
def State.chainOn (s : State) : Bool := s.serving && (s.force.chain || s.power.recovery)

/-- Whether a frame is for this device and its CRC holds. -/
def ChainFrame_ok (f : ChainFrame) (type : Nat) : Bool :=
  f.hw == 0x9484#16
    && crc16 (le 1 type ++ [f.seq] ++ le 2 f.payload.length ++ le 2 f.hw.toNat ++ f.payload) == f.crc

/-- The slot that the chain port acts on: the one that is not running, slot 0 under the recovery loader (log entry 36). -/
def State.chainSlot (s : State) : Nat := if s.power.recovery then 0 else 1 - s.flash.running

/-- CHAIN_IMAGE_START. -/
def execChainImageStart (f : ChainFrame) (wait : Nat) (s : State) : Res :=
  .next <|
    if !s.chainOn || !ChainFrame_ok f 1 || f.payload.length != 4 then s
    else
      let s := s.advance wait
      (s.imgBegin .chain s.chainSlot (unle f.payload) f.seq).1

/-- CHAIN_IMAGE_BLOCK: a gap in SEQ or offset ends the transfer with reason 0x0E. -/
def execChainImageBlock (f : ChainFrame) (wait : Nat) (s : State) : Res :=
  .next <|
    if !s.chainOn || !ChainFrame_ok f 2 || decide (f.payload.length < 4) then s
    else
      let s := s.advance wait
      let i := s.chainSlot
      let off := field f.payload 0 4
      match s.imgOf .chain i with
      | none => s
      | some t =>
        if (s.slot i).state ≠ .receiving then s
        else if f.seq ≠ t.chainSeq + 1#8 ∨ off ≠ t.next then s.imgRefuse i 0x0E true
        else (s.imgData .chain i off (f.payload.drop 4) f.seq).1

/-- CHAIN_IMAGE_DONE. -/
def execChainImageDone (f : ChainFrame) (wait : Nat) (s : State) : Res :=
  .next <|
    if !s.chainOn || !ChainFrame_ok f 3 || s.tooHot then s
    else
      let s := s.advance wait
      (s.imgEnd .chain s.chainSlot).1

/-- CHAIN_ACTIVATE: as IMAGE_ACTIVATE at the DT of receipt plus a delay in seconds. -/
def execChainActivate (f : ChainFrame) (wait : Nat) (s : State) : Res :=
  .next <|
    if !s.chainOn || !ChainFrame_ok f 4 || f.payload.length != 2 then s
    else
      let s := s.advance wait
      (s.imgActivate s.chainSlot (s.now + unle f.payload * 1000000000)).1

/-- CHAIN_BYTE_RECEIVED: the byte is repeated on CHAIN_TX. -/
def execChainByteReceived (b : Byte) (s : State) : Res := .next (if s.chainOn then s.emit (.chainByte b) else s)

end Sys2Proof.Machine
end

