-- ==== Sys2Proof/Machine/Power.lean ====
section
/-! DEFINITION. Modes, resets, the start, supplies and temperature, activation and trials, and the JTAG port (R461 to R463, R479
to R495, R521, R522). -/

namespace Sys2Proof.Machine

/-! ### Resets -/

/-- Whether a reset source keeps the diagnostic log (Table 19.5). -/
def keepsLog (src : Nat) : Bool := decide (2 ≤ src ∧ src ≤ 7)

/-- Whether a reset source is a trial failure (Table 19.5). -/
def failsTrial (src : Nat) : Bool := decide (5 ≤ src ∧ src ≤ 8)

/-- A slot as a reset leaves it (R458, R460): a transfer ends EMPTY with reason 0x14, and a pending activation is cancelled. -/
def ImgSlot.afterReset (x : ImgSlot) : ImgSlot :=
  match x.state with
  | .receiving => { ImgSlot.reset with reason := 0x14 }
  | .scheduled | .trial | .running => { x with state := .bootable, activate := none, transfer := none }
  | .empty | .refused | .bootable | .failed => { x with transfer := none }

/-- The flash and OTP as a reset leaves them (R458, R489). -/
def State.flashAfter (s : State) (src : Nat) : FlashSt :=
  let f := s.flash
  let ended (i : Nat) : List (Nat × Nat) := if (s.slot i).state = .receiving then [(i, 0x14)] else []
  { f with slot0 := f.slot0.afterReset, slot1 := f.slot1.afterReset, trialTick := none
           trialHit := f.trialHit || (s.onTrial && failsTrial src), notes := f.notes ++ ended 0 ++ ended 1 }

/-- The journal as a reset leaves it: what was not committed is lost (R468), and SYSTEM is that of its record (R472). -/
def State.journalAfter (s : State) : JournalSt :=
  let y := match latestRecord (s.journal.records.filter (fun r => r.group == 31)) with
    | some r => r.sys
    | none => JournalSt.reset.sys
  { s.journal with dirty := [], sys := y }

/-- The backup domain as a reset leaves it: its interface locked, and nothing of a staged write committed (R497, R498). -/
def RtcSt.afterReset (r : RtcSt) : RtcSt := { r with locked := true, write := [], lockedDue := false, lastSet := none }

/-- Everything except the backup domain is reset, with a source of Table 19.5 (R489, R521). The queue, what left the device,
the free values and host memory are not the device's to reset. -/
def State.afterReset (s : State) (src : Nat) : State :=
  { State.reset with
    pending := s.pending, out := s.out ++ [.floated true], freeCtr := s.freeCtr, host := s.host, rtc := s.rtc.afterReset
    flash := s.flashAfter src, journal := s.journalAfter, diag := if keepsLog src then s.diag else []
    power := { State.reset.power with
      railsGood := s.power.railsGood, lastReset := src, resets := if keepsLog src then sat32 (s.power.resets + 1) else 0
      enterMaintain := src == 3 && s.power.enterMaintain } }

/-- Whether the device runs: rails good, started, and not held by a shutdown (R491, R494). -/
def State.up (s : State) : Bool := s.power.railsGood && s.power.ioUp && !s.thermal.shutdown

/-- RESET_N_ASSERTED (R489): it acts on a device whose rails are good and that no shutdown holds. -/
def execResetNAsserted (s : State) : Res :=
  .next (if s.power.railsGood && !s.thermal.shutdown then s.afterReset 2 else s)

/-- WATCHDOG_RESET (R489). -/
def execWatchdogReset (s : State) : Res := .next (if s.up then s.afterReset 5 else s)

/-- PLL_G_LOCK_LOST (R116). -/
def execPllGLockLost (s : State) : Res := .next (if s.up && s.clk.pllG.locked then s.afterReset 6 else s)

/-- RAIL_POWER_LOSS (R491, R497): the interface locks, every I/O ball floats, and everything but the backup domain is reset; with
every rail down and VBAT good the device is in BACKUP. -/
def execRailPowerLoss (allDown vbatOk : Bool) (s : State) : Res :=
  .next <|
    let hit := s.flash.trialHit
    let t := s.afterReset 0
    { t with
      rtc := { t.rtc with onVbat := true, vbatSeen := t.rtc.vbatSeen || vbatOk }
      flash := { t.flash with trialHit := hit }
      power := { t.power with railsGood := false, resets := s.power.resets
                              mode := if allDown && vbatOk then .backup else .dormant } }

/-- POWER_ON_RESET (R491): every rail is good again, with source 1 where all of them had been down and 8 otherwise. -/
def execPowerOnReset (allDown : Bool) (s : State) : Res :=
  .next <|
    if s.power.railsGood then s
    else
      let t := s.afterReset (if allDown then 1 else 8)
      { t with power := { t.power with railsGood := true } }

/-! ### Trials (R461, R462) -/

/-- A trial failure: the first is counted, the second gives the previous slot back and marks the new one FAILED. -/
def State.trialFail (s : State) : State :=
  let y := s.journal.sys
  if y.trialCount = 0 then s.writeSystem (fun y => { y with trialCount := 1 })
  else
    let s := s.writeSystem (fun y => { y with bootSlot := y.prevSlot, prevSlot := y.bootSlot, trialCount := 2, confirmed := true })
    let s := s.modSlot y.bootSlot (fun x => { x with state := .failed, reason := 0x10 })
    { s with flash := { s.flash with notes := s.flash.notes ++ [(y.bootSlot, 0x10)] } }

/-- The device starts again from step 3 of Table 18.6 after a trial failure: what a start begins with, no new source. -/
def State.restart (s : State) : State :=
  let t := s.afterReset 0
  { t with power := { t.power with lastReset := s.power.lastReset, resets := s.power.resets }, diag := s.diag
           flash := { t.flash with trialHit := false } }

/-- TRIAL_FAILURE (R462): READY is not set within 10 s of step 3. -/
def execTrialFailure (s : State) : Res :=
  .next (if s.power.startPend && s.flash.trialTick.isSome then s.trialFail.restart else s)

/-- TRIAL_CONFIRM (R461): 60 s after READY. -/
def execTrialConfirm (s : State) : Res :=
  .next <|
    match s.flash.trialTick with
    | none => s
    | some n =>
      if !s.serving || decide (n < 60000) then s
      else
        let i := s.flash.running
        let s := s.writeSystem (fun y => { y with confirmed := true })
        let s : State := { s with flash := { s.flash with trialTick := none } }
        (s.modSlot i (fun x => { x with state := .running, reason := 0x11 })).imageEvent i 0x11

/-- The slot whose activation is due. -/
def State.activationDue (s : State) : Option Nat :=
  [0, 1].find? (fun i => (s.slot i).state == .scheduled && match (s.slot i).activate with
    | some d => decide (d.toNat ≤ s.now)
    | none => false)

/-- IMAGE_ACTIVATION (Table 18.6 steps 1 and 2). Under the recovery loader no trial follows (R466). -/
def execImageActivation (s : State) : Res :=
  .next <|
    match s.activationDue with
    | none => s
    | some i =>
      if !s.serving then s
      else
        let r := s.power.recovery
        let prev := if r then 1 - i else s.flash.running
        (s.writeSystem (fun y => { y with bootSlot := i, prevSlot := prev, trialCount := 0, confirmed := r })).afterReset 4

/-! ### Processor load (R463) -/

/-- The segment of a target in a slot. -/
def State.segOf (s : State) (i target : Nat) : Option Segment :=
  (headerSegs (s.slotBytes i 0 384)).find? (fun x => x.target == target)

/-- What loading one segment gave: 0 ready, 1 taken from the other slot, 2 failed. -/
def State.loadSeg (s : State) (i : Nat) (x : SegLoad) : Nat :=
  let t := x.target.toNat
  match s.segOf i t with
  | none => 0
  | some g =>
    if t = 0 || decide (6 < t) || x.first || x.second then 0
    else
      let o := 1 - i
      let st := (s.slot o).state
      let ok := (st == .bootable || st == .failed) && s.slotReason o == 0 && x.other && match s.segOf o t with
        | some k => k.iface / 256 == g.iface / 256
        | none => false
      if ok then 1 else 2

/-- The reasons that loading the segments of a slot reports, and whether one failed with no fallback. -/
def State.loadSegs (s : State) (i : Nat) (xs : List SegLoad) : List Nat × Bool :=
  xs.foldl (fun a x =>
    let k := s.loadSeg i x
    if k = 1 then (a.1 ++ [0x20 + x.target.toNat], a.2) else if k = 2 then (a.1 ++ [0x28 + x.target.toNat], true) else a) ([], false)

/-! ### The start (Table 19.6) -/

/-- The slot that a start boots: the SYSTEM record's, or else the other, where its checks pass (R488). -/
def State.bootChoice (s : State) : Option Nat :=
  let good (i : Nat) : Bool := (s.slot i).state == .bootable || (s.slot i).state == .failed
  let b := s.journal.sys.bootSlot
  if good b then some b else if good (1 - b) then some (1 - b) else none

/-- The events that a start holds back until READY: those of the slots' notes. -/
def State.noteEvents (s : State) : List (Nat × List Byte) :=
  s.flash.notes.map (fun x => (0x8011, imageParams x.1 (s.slot x.1) x.2))

/-- The recovery loader runs (R466, R490). -/
def State.startLoader (s : State) : State :=
  let evs := s.noteEvents
  { s with
    power := { s.power with recovery := true, startPend := true, mode := .maintain, enterMaintain := false, bootEvents := evs }
    flash := { s.flash with fwVersion := 0#32, format := 0, formatMin := 0, notes := [] } }

/-- The leap-second table of the image: the built-in one, and that of a segment of TARGET 0x10 where it is newer (R72, R463). -/
def State.startLeap (s : State) (i : Nat) : State :=
  let s : State := { s with time := { s.time with image := builtinLeap, imageExp := Config.imageLeapExpiry } }
  match s.segOf i 0x10 with
  | none => s
  | some g =>
    let t := Config.leapSegment (s.slotBytes i g.off g.len)
    if s.leapExpiry.toNat < t.1.toNat then
      { s with time := { s.time with image := t.2.map (fun x => ⟨x.1, x.2.1, x.2.2, 0⟩), imageExp := t.1 } }
    else s

/-- The journal's groups take force (R467, R476, R87), and those migrated are to be written again. -/
def State.startJournal (s : State) : State × List (Nat × List Byte) :=
  let a := s.journal.apply s.flash.formatMin s.flash.format
  let s : State := { s with acc := a.set, force := a.set }
  let s := a.moved.foldl (fun s g => s.markDirty (some g)) s
  let s : State := if a.set.plan.policy = 0#8 then { s with plan := { s.plan with plan := a.set.plan.plan.toNat } } else s
  (if s.role = 0 then s else s.enterSearch, a.note s.flash.format)

/-- An image runs (R461, R467, R490). -/
def State.startImage (s : State) (i : Nat) (trial : Bool) (boot : Nat) (notes : List Nat) (failed : Bool) : State :=
  let s := s.modSlot i (fun x => { x with state := if trial then .trial else .running, reason := 0 })
  let r := s.startJournal
  let s := r.1.startLeap i
  let maintain := s.power.enterMaintain || boot == 2 || failed
  let evs := s.noteEvents ++ r.2 ++ (if trial then [(0x8011, imageParams i (s.slot i) 0)] else [])
    ++ notes.map (fun k => (0x8011, imageParams i (s.slot i) k))
  let y := s.journal.sys
  { s with
    flash := { s.flash with running := i, trialTick := if trial then some 0 else none, notes := [] }
    cal := { CalSt.factory y.retiredA y.retiredB with clocks := s.cal.clocks }
    power := { s.power with startPend := true, segFailed := failed, enterMaintain := false, bootEvents := evs
                            mode := if maintain then .maintain else .dormant, sub := s.subWanted } }

/-- What a start does before any image is chosen: the balls are sampled, the flash is sized, PLL-G locks, and the slots are
checked (R368, R438, R452, R455, R488). -/
def State.startHard (s : State) (inp : StartIn) : State :=
  let s := s.emit (.floated false)
  let s : State := { s with
    power := { s.power with ioUp := true }
    tw := { s.tw with addrBits := inp.twAddr % 8 }
    flash := { s.flash with size := inp.sfdpSize }
    rtc := { s.rtc with locked := true }
    clk := { s.clk with pllG := { s.clk.pllG with locked := true, band := inp.bandG } } }
  let s := s.modCal (fun c => { c with clocks := { c.clocks with bandG := inp.bandG } })
  let s := if s.flash.trialHit then s.trialFail else s
  let s : State := { s with flash := { s.flash with trialHit := false, slot0 := s.slotAtStart 0, slot1 := s.slotAtStart 1 } }
  s

/-- DEVICE_START (Table 19.6). READY follows when the backup interface unlocks (R498). A segment that fails with no fallback in a
trial is a trial failure, after which the device starts again (R462). -/
def execDeviceStart (inp : StartIn) (s : State) : Res :=
  .next <|
    if !s.power.railsGood || s.power.ioUp || s.thermal.shutdown then s
    else
      let s := s.startHard inp
      match (if inp.boot = 1 then none else s.bootChoice) with
      | none => s.startLoader
      | some i =>
        let hd := s.slotBytes i 0 384
        let s : State := { s with flash := { s.flash with
          fwVersion := BitVec.ofNat 32 (field hd 24 4), format := field hd 32 2, formatMin := field hd 34 2 } }
        let trial := s.onTrial && s.journal.sys.bootSlot == i
        let g := s.loadSegs i inp.segs
        if trial && g.2 then s.trialFail.restart else s.startImage i trial inp.boot g.1 g.2

/-! ### Mode changes (R481 to R486) -/

/-- A protection window opens for the 91 ms of the start calibration (R105, R369). -/
def State.calWindow (s : State) : State :=
  if !s.coexOn then s
  else
    let e := s.now + 91000000
    let c := s.coex
    let c : CoexSt := if c.window then { c with windowEnd := BitVec.ofNat 64 (max e c.windowEnd.toNat) }
      else { c with window := true, windowEnd := BitVec.ofNat 64 e, leadDt := s.time.dt, ackSeen := c.gntIn }
    ({ s with coex := c } : State).setReqOut true

/-- The start calibration, where the RF ADCs were unpowered since the last (R369). -/
def State.wakeRf (s : State) (c : StartCal) : State := if s.cal.startDone then s else s.calWindow.startCal c

/-- The RF ADCs lose power (Table 19.3). -/
def State.sleepRf (s : State) : State :=
  { s with
    clk := { s.clk with adcOn := false, retry := false, pllS := { s.clk.pllS with locked := false } }
    cal := { s.cal with startDone := false } }

/-- The services that hold a reception. -/
def Service.receiving (v : Service) : Bool :=
  v.state == .admitted || v.state == .placed || v.state == .migrating || v.state == .following

/-- What ends with a mode (R16, R93, R109, R482): services are parked, ports stop, combs go off. -/
def State.leaveMode (s : State) (target : Mode) : State :=
  let m := s.power.mode
  let s := if m.receives then (s.services.filter Service.receiving).foldl (fun s v => s.park v.slot 6) s else s
  let s := if m == .serve || m == .relay then s.planLeave else s
  let s : State := if m.receives then { s with map := { s.map with probes := [] } } else s
  let s := if m.receives && (!target.receives || target == .relay) then s.stopPorts else s
  if m == .maintain then
    { s with rf := s.rf.map (fun x => { x with comb := false }), cal := { s.cal with job := none } }
  else s

/-- The power that a DORMANT sub-state leaves on (Table 19.3, R485). -/
def State.dormantPower (s : State) (sub : SubState) : State :=
  let s := if sub = .hot then s else s.sleepRf
  let s := [5, 6, 7].foldl State.loseRef s
  { s with clk := { s.clk with pllG := { s.clk.pllG with locked := sub != .cold } } }

/-- The processors that a shallower sub-state powers again are loaded (R463). -/
def State.reload (s : State) (segs : List SegLoad) : List Nat × Bool :=
  if s.power.mode = .dormant ∧ SubState.cool.code ≤ s.power.sub.code then s.loadSegs s.flash.running segs else ([], false)

/-- The sub-state changes at once (R484). -/
def State.subNow (s : State) (sub : SubState) (cause : Nat) : State :=
  let s := s.dormantPower sub
  let s : State := { s with power := { s.power with sub := sub, change := none } }
  (s.setIntBoth intModeChange).modeEvent 1 cause

/-- A transition that takes time begins (R481): what the old mode held ends, processors are loaded, PLL-G and the RF ADCs come
up. -/
def State.beginChange (s : State) (c : ModeChange) (cal : StartCal) (segs : List SegLoad) : State :=
  let g := s.reload segs
  if g.2 && s.flash.trialTick.isSome then s.trialFail.restart
  else
    let s := if c.target = s.power.mode then s else s.leaveMode c.target
    let s : State := { s with clk := { s.clk with pllG := { s.clk.pllG with locked := true } } }
    let s := g.1.foldl (fun s k => s.imageEvent s.flash.running k) s
    let c : ModeChange := if g.2 then { c with target := .maintain, cause := 6 } else c
    let s : State := { s with power := { s.power with change := some { c with begun := true }, segFailed := s.power.segFailed || g.2 } }
    let s := s.setIntBoth intModeChange
    if c.target.receives || c.target == .maintain || c.sub == .hot then s.wakeRf cal else s

/-- MODE_TRANSITION (R481, R484): the change whose effective tick has begun. A deeper sub-state applies at once. -/
def execModeTransition (c : StartCal) (segs : List SegLoad) (s : State) : Res :=
  .next <|
    match s.power.change with
    | none => s
    | some m =>
      if !s.serving || m.begun || m.ticksLeft != 0 then s
      else if m.target = .dormant ∧ s.power.mode = .dormant ∧ s.power.sub.code ≤ m.sub.code then s.subNow m.sub m.cause
      else s.beginChange m c segs

/-- MODE_TRANSITION_COMPLETE (R481): TRANSITION clears, and EV_MODE is raised. -/
def execModeTransitionComplete (wait : Nat) (s : State) : Res :=
  .next <|
    match s.power.change with
    | none => s
    | some m =>
      if !s.serving || !m.begun then s
      else
        let old := s.power.mode.code
        let s := s.advance wait
        let s := if m.target = .dormant then s.dormantPower m.sub else s
        let s : State := { s with power := { s.power with mode := m.target, sub := m.sub, change := none } }
        (s.setIntBoth intModeChange).modeEvent old m.cause

/-! ### Temperature (R492 to R494) -/

/-- A temperature in 0.1 °C. -/
def deg (t : W16) : Int := t.toInt

/-- EV_THERMAL and INT_STATUS THERMAL at a change of level (R492). -/
def State.setLevel (s : State) (n : Nat) : State :=
  let t := s.thermal
  let shed := n == 2
  let up := decide (t.level < n)
  let t : ThermalSt := { t with
    level := n, inLevel := 0, coolTicks := 0, shedTicks := 0
    warnings := if n = 1 && up then sat32 (t.warnings + 1) else t.warnings
    sheds := if shed then sat32 (t.sheds + 1) else t.sheds
    shedSteps := if shed then min 10 (t.shedSteps + 1) else t.shedSteps }
  let s := ({ s with thermal := t } : State).setIntBoth intThermal
  s.raise 0x8010 noSlot (le 1 n ++ zeros 1 ++ le 2 s.thermal.temp.toNat)

/-- The shutdown of R494: everything except the backup domain and the sensor is held in reset. -/
def State.shutDown (s : State) : State :=
  let t := (s.setLevel 3).afterReset 7
  { t with thermal := { t.thermal with shutdown := true, temp := s.thermal.temp } }

/-- The level that a tick's reading gives (Table 19.7), after the counters took it. -/
def ThermalSt.next (t : ThermalSt) : Nat :=
  let leave := decide (1000 ≤ t.coolTicks)
  if 1250 ≤ deg t.temp then 3
  else if t.level = 0 then (if 2 ≤ t.hot115 then 2 else if 2 ≤ t.hot110 then 1 else 0)
  else if t.level = 1 then (if 2 ≤ t.hot115 ∨ 30000 ≤ t.inLevel then 2 else if leave then 0 else 1)
  else (if leave then 1 else 2)

/-- The sensor's reading of a tick (R492). -/
def State.thermalTick (s : State) (temp : W16) : State :=
  let t := s.thermal
  let d := deg temp
  let cool := decide (d < (if t.level = 2 then 1100 else 1050))
  let t : ThermalSt := { t with
    temp := temp, tempMax := if s.power.uptime = 0 ∨ deg t.tempMax < d then temp else t.tempMax
    hot110 := if 1100 ≤ d then t.hot110 + 1 else 0, hot115 := if 1150 ≤ d then t.hot115 + 1 else 0
    coolTicks := if cool then t.coolTicks + 1 else 0, inLevel := t.inLevel + 1, shedTicks := t.shedTicks + 1 }
  let s : State := { s with thermal := t }
  let n := t.next
  if n = 3 then s.shutDown else if n = t.level then s else s.setLevel n

/-- THERMAL_SHED_STEP (R493): 10 % less at each second of LEVEL 2, 10 % back every 10 s below it. -/
def execThermalShedStep (s : State) : Res :=
  .next <|
    let t := s.thermal
    if t.level = 2 then
      if t.shedTicks < 1000 then s else { s with thermal := { t with shedTicks := 0, shedSteps := min 10 (t.shedSteps + 1) } }
    else if t.shedSteps = 0 ∨ t.shedTicks < 10000 then s
    else { s with thermal := { t with shedTicks := 0, shedSteps := t.shedSteps - 1 } }

/-- THERMAL_RESTART (R494): the check every 100 ms; two readings in succession below 100 °C end the shutdown, and a start
follows. -/
def execThermalRestart (temp : W16) (s : State) : Res :=
  .next <|
    let t := s.thermal
    if !t.shutdown then s
    else if deg temp < 1000 then
      if t.coldReads = 0 then { s with thermal := { t with coldReads := 1, temp := temp } }
      else { s with thermal := { t with shutdown := false, coldReads := 0, temp := temp } }
    else { s with thermal := { t with coldReads := 0, temp := temp } }

/-! ### JTAG (R522) -/

/-- The TAP's next state at a rising TCK edge (IEEE 1149.1). -/
def TapState.next (t : TapState) (tms : Bool) : TapState :=
  match t with
  | .testLogicReset => if tms then .testLogicReset else .runTestIdle
  | .runTestIdle => if tms then .selectDr else .runTestIdle
  | .selectDr => if tms then .selectIr else .captureDr
  | .captureDr => if tms then .exit1Dr else .shiftDr
  | .shiftDr => if tms then .exit1Dr else .shiftDr
  | .exit1Dr => if tms then .updateDr else .pauseDr
  | .pauseDr => if tms then .exit2Dr else .pauseDr
  | .exit2Dr => if tms then .updateDr else .shiftDr
  | .updateDr => if tms then .selectDr else .runTestIdle
  | .selectIr => if tms then .testLogicReset else .captureIr
  | .captureIr => if tms then .exit1Ir else .shiftIr
  | .shiftIr => if tms then .exit1Ir else .shiftIr
  | .exit1Ir => if tms then .updateIr else .pauseIr
  | .pauseIr => if tms then .exit2Ir else .pauseIr
  | .exit2Ir => if tms then .updateIr else .shiftIr
  | .updateIr => if tms then .selectDr else .runTestIdle

/-- The identification code (R522). -/
def idcode : W32 := 0x19484A5B#32

/-- A data register as Capture-DR loads it: IDCODE, bypass, or the boundary cells, whose levels are those of the balls. An empty
`ir` is the IDCODE instruction of Test-Logic-Reset. -/
def State.captureDr (s : State) : State × List Bool :=
  let k := if s.jtag.ir.isEmpty then 1 else Config.jtagSelect s.jtag.ir
  if k = 1 then (s, (List.range 32).map idcode.getLsbD)
  else if k = 0 then
    ({ s with freeCtr := s.freeCtr + Config.jtagCells }, (List.range Config.jtagCells).map (fun i => Config.freeValue (s.freeCtr + i) % 2 == 1))
  else (s, [false])

/-- One rising TCK edge: what the state just left does with TDI, and the state entered with what TDO drives. -/
def State.tckEdge (s : State) (e : Bool × Bool) : State :=
  let j := s.jtag
  let s := match j.tap with
    | .captureDr => let r := s.captureDr; { r.1 with jtag := { j with dr := r.2 } }
    | .captureIr => { s with jtag := { j with irSh := true :: List.replicate (Config.jtagIrWidth - 1) false } }
    | .shiftDr => { s with jtag := { j with dr := j.dr.drop 1 ++ [e.2] } }
    | .shiftIr => { s with jtag := { j with irSh := j.irSh.drop 1 ++ [e.2] } }
    | _ => s
  let t := j.tap.next e.1
  let j := s.jtag
  let j : JtagSt := { j with tap := t, ir := if t = .updateIr then j.irSh else if t = .testLogicReset then [] else j.ir }
  let tdo : Option Bool := match t with
    | .shiftDr => j.dr.head?
    | .shiftIr => j.irSh.head?
    | _ => none
  ({ s with jtag := j } : State).emit (.tdo tdo)

/-- BOUNDARY_SCAN (R522): it works in every mode except BACKUP. `edges` gives TMS and TDI at each rising edge of TCK. -/
def execBoundaryScan (edges : List (Bool × Bool)) (s : State) : Res :=
  .next (if s.power.railsGood then edges.foldl State.tckEdge s else s)

end Sys2Proof.Machine
end

