-- ==== Sys2Proof/Machine/Interp.lean ====
section
/-! DEFINITION. The interpreter: the host command that a packet spells, executed from within another step. -/

namespace Sys2Proof.Machine

/-- The state that a meaning answers, or the state before where it answers none. -/
def outState (s : State) (r : Res) : State :=
  match r with
  | .next t => t
  | .fault _ => s
  | .refused _ => s

/-- One host command as the interpreter takes it from a transport (R395): the meaning of its row. Anything that is no host
command is no packet's content. -/
def State.interpret (s : State) (i : Instr) : State :=
  match i with
  | .deviceInfo h => outState s (execDeviceInfo h s)
  | .cmdRingConfig h items => outState s (execCmdRingConfig h items s)
  | .nop h data => outState s (execNop h data s)
  | .eventRoute h transport mask => outState s (execEventRoute h transport mask s)
  | .eventFetch h => outState s (execEventFetch h s)
  | .modeSet h mode => outState s (execModeSet h mode s)
  | .wakeBudget h budgetMs => outState s (execWakeBudget h budgetMs s)
  | .modeQuery h => outState s (execModeQuery h s)
  | .reset h kind confirm => outState s (execReset h kind confirm s)
  | .thermalQuery h => outState s (execThermalQuery h s)
  | .serviceAdd h attrs => outState s (execServiceAdd h attrs s)
  | .serviceRemove h => outState s (execServiceRemove h s)
  | .serviceModify h attrs => outState s (execServiceModify h attrs s)
  | .serviceQuery h key => outState s (execServiceQuery h key s)
  | .placementPolicy h params => outState s (execPlacementPolicy h params s)
  | .placementQuery h => outState s (execPlacementQuery h s)
  | .surveyConfig h params => outState s (execSurveyConfig h params s)
  | .mapQuery h => outState s (execMapQuery h s)
  | .mapRead h byKey first key => outState s (execMapRead h byKey first key s)
  | .followPolicy h items => outState s (execFollowPolicy h items s)
  | .linksetSet h index keys => outState s (execLinksetSet h index keys s)
  | .linksetQuery h index => outState s (execLinksetQuery h index s)
  | .followQuery h => outState s (execFollowQuery h s)
  | .alertConfig h params => outState s (execAlertConfig h params s)
  | .ringConfig h ring items => outState s (execRingConfig h ring items s)
  | .ringQuery h ring => outState s (execRingQuery h ring s)
  | .archiveConfig h items => outState s (execArchiveConfig h items s)
  | .archiveExtentAdd h extents => outState s (execArchiveExtentAdd h extents s)
  | .archiveQuery h what first => outState s (execArchiveQuery h what first s)
  | .outputQuery h first => outState s (execOutputQuery h first s)
  | .audioPortConfig h port items => outState s (execAudioPortConfig h port items s)
  | .audioPortQuery h port => outState s (execAudioPortQuery h port s)
  | .audioPortStart h mask trigger startDt => outState s (execAudioPortStart h mask trigger startDt s)
  | .audioPortStop h mask => outState s (execAudioPortStop h mask s)
  | .pktPortConfig h port items => outState s (execPktPortConfig h port items s)
  | .pktPortQuery h port => outState s (execPktPortQuery h port s)
  | .timeSet h form arm value => outState s (execTimeSet h form arm value s)
  | .timeQuery h => outState s (execTimeQuery h s)
  | .leapTableSet h mode expiry entries => outState s (execLeapTableSet h mode expiry entries s)
  | .leapTableQuery h => outState s (execLeapTableQuery h s)
  | .clockConfig h body => outState s (execClockConfig h body s)
  | .clockQuery h => outState s (execClockQuery h s)
  | .refConfig h params => outState s (execRefConfig h params s)
  | .refQuery h => outState s (execRefQuery h s)
  | .ppsTod h dt => outState s (execPpsTod h dt s)
  | .rfConfig h input gainMode target atten => outState s (execRfConfig h input gainMode target atten s)
  | .rfQuery h input => outState s (execRfQuery h input s)
  | .planPolicy h params => outState s (execPlanPolicy h params s)
  | .planDefer h seconds => outState s (execPlanDefer h seconds s)
  | .planQuery h => outState s (execPlanQuery h s)
  | .coexConfig h items => outState s (execCoexConfig h items s)
  | .coexQuery h => outState s (execCoexQuery h s)
  | .combTest h input on => outState s (execCombTest h input on s)
  | .firBankLoad h cls bank phase coeffs => outState s (execFirBankLoad h cls bank phase coeffs s)
  | .firBankQuery h cls bank => outState s (execFirBankQuery h cls bank s)
  | .laneQuery h first => outState s (execLaneQuery h first s)
  | .laneConfig h items => outState s (execLaneConfig h items s)
  | .analogueConfig h items => outState s (execAnalogueConfig h items s)
  | .analogueQuery h => outState s (execAnalogueQuery h s)
  | .timecodeFormatLoad h fmt => outState s (execTimecodeFormatLoad h fmt s)
  | .timecodeFormatQuery h format => outState s (execTimecodeFormatQuery h format s)
  | .dabConfig h items => outState s (execDabConfig h items s)
  | .dabQuery h => outState s (execDabQuery h s)
  | .tvConfig h items => outState s (execTvConfig h items s)
  | .tvQuery h => outState s (execTvQuery h s)
  | .ldpcPolicy h bands => outState s (execLdpcPolicy h bands s)
  | .ldpcQuery h => outState s (execLdpcQuery h s)
  | .calRun h target options scope => outState s (execCalRun h target options scope s)
  | .calQuery h => outState s (execCalQuery h s)
  | .calRead h block => outState s (execCalRead h block s)
  | .calWrite h block => outState s (execCalWrite h block s)
  | .calConfig h items => outState s (execCalConfig h items s)
  | .trunkConfig h items => outState s (execTrunkConfig h items s)
  | .trunkQuery h => outState s (execTrunkQuery h s)
  | .trunkSleep h firstDt => outState s (execTrunkSleep h firstDt s)
  | .trunkWake h => outState s (execTrunkWake h s)
  | .trunkMask h ranges => outState s (execTrunkMask h ranges s)
  | .trunkRemote h packet => outState s (execTrunkRemote h packet s)
  | .trunkNoiseQuery h endOf first => outState s (execTrunkNoiseQuery h endOf first s)
  | .imageBegin h slot length => outState s (execImageBegin h slot length s)
  | .imageData h slot offset data => outState s (execImageData h slot offset data s)
  | .imageEnd h slot => outState s (execImageEnd h slot s)
  | .imageActivate h slot dt => outState s (execImageActivate h slot dt s)
  | .imageQuery h => outState s (execImageQuery h s)
  | .settingsQuery h => outState s (execSettingsQuery h s)
  | .settingsReset h groups confirm => outState s (execSettingsReset h groups confirm s)
  | .otpKey h action keySlot confirm hash => outState s (execOtpKey h action keySlot confirm hash s)
  | .chainConfig h enable => outState s (execChainConfig h enable s)
  | .rtcSet h cal option => outState s (execRtcSet h cal option s)
  | .rtcQuery h => outState s (execRtcQuery h s)
  | .backupWrite h offset data => outState s (execBackupWrite h offset data s)
  | .backupRead h offset len => outState s (execBackupRead h offset len s)
  | .rtcAlarm h cal enable => outState s (execRtcAlarm h cal enable s)
  | .diagQuery h => outState s (execDiagQuery h s)
  | .diagLogRead h first => outState s (execDiagLogRead h first s)
  | _ => s

end Sys2Proof.Machine
end

