-- ==== Sys2Proof/Machine/Doors.lean ====
section
/-! DEFINITION. The doors by which packets reach the interpreter: the mailbox and its doorbell, the command ring, the service
port, the two-wire port's writes, and the wrapped commands of the trunk (chapters 14, 16 and 17). -/

namespace Sys2Proof.Machine

/-! ### One packet -/

/-- A packet that fails one of the checks 1 to 4 is refused (R395); a refusal that enters the duplicate record is answered from
it on a retry (R396). -/
def State.refusePacket (s : State) (h : CmdHdr) (op : W16) (keep : Bool) (st : Status) : State :=
  let again := if keep then (s.port h.tr).dup? h.seq h.trailer else none
  match again with
  | some d => s.resend h d
  | none => s.post h keep (some ⟨op, h.seq, st, s.replyGen h.slot, noTick, s.time.dt, []⟩)

/-- One packet from a transport (Table 14.6): checks 1 to 4, and then the command that it spells. -/
def State.takePacket (s : State) (tr : Transport) (viaRing exact_ : Bool) (maxLen : Nat) (bs : List Byte) : State :=
  match parsePacket tr viaRing exact_ maxLen 0 bs with
  | .noTrailer op seq slot noReply => s.refusePacket ⟨tr, viaRing, slot, seq, noReply, 0#32, 0⟩ op false .badLength
  | .badCrc op seq slot noReply => s.refusePacket ⟨tr, viaRing, slot, seq, noReply, 0#32, 0⟩ op false .badCrc
  | .badLength op h => s.refusePacket h op true .badLength
  | .badOpcode op h => s.refusePacket h op true .badOpcode
  | .command _ _ i => s.interpret i

/-! ### The mailbox -/

/-- The bytes of a bus's mailbox bank. -/
def State.bankBytes (s : State) (b : Bus) : List Byte := Memory.readN ramDefault (s.bus b).bank 0 4096

/-- A mailbox doorbell (R389, R426, R429): ignored while nothing is served and while the bank is busy. -/
def State.mailboxBell (s : State) (b : Bus) : State :=
  if !s.serves (busTransport b) || (s.bus b).bankBusy then s
  else
    let s := (s.setBus b { s.bus b with bankBusy := true }).setIntWord b (· &&& ~~~ (bitW intMboxReply))
    s.takePacket (busTransport b) false false 4072 (s.bankBytes b)

/-- MAILBOX_DOORBELL (R389). -/
def execMailboxDoorbell (bus : Bus) (wait : Nat) (s : State) : Res := .next ((s.advance wait).mailboxBell bus)

/-! ### The command ring -/

/-- The command ring's base and size. -/
def State.cmdBase (s : State) : Nat := s.force.cmdRing.nat 2
def State.cmdSize (s : State) : Nat := s.force.cmdRing.nat 3 1

/-- Whether the device may take a packet from the command ring (R391, R392, R429). -/
def State.cmdRingOn (s : State) : Bool :=
  s.serves .pcie && s.force.cmdRing.nat 1 == 1 && s.replyRingOn && decide (4096 ≤ s.replyFree)

/-- The command ring's CONSUMER moves, and CMD_CONSUMER is written (R391). -/
def State.cmdConsumed (s : State) (c : Nat) : State :=
  ({ s with rings := { s.rings with cmdConsumer := c } }).hostWrite (s.force.cmdRing.nat 7 + 8) (le 4 c)

/-- The packets of the command ring, up to the producer (R387, R391, R392). `n` bounds their number. -/
def State.serveRing : Nat → State → State
  | 0, s => s
  | n + 1, s =>
    let s : State := if s.replyRingOn && decide (s.replyFree < 4096) then s.readReplyConsumer else s
    let c := s.rings.cmdConsumer
    let p := s.rings.cmdProducer
    if !s.cmdRingOn || c == p then s
    else
      let head := Memory.readN ramDefault s.host (s.cmdBase + c) 16
      let len := field head 6 2
      let size := roundUp 64 (20 + len)
      if field head 0 2 = 0 then serveRing n (s.cmdConsumed 0)
      else if 4072 < len ∨ s.cmdSize < c + size then
        ({ s with pPcie := { s.pPcie with refused := sat32 (s.pPcie.refused + 1) } }).ringsFault
      else if c < p ∧ p < c + size then s
      else
        let s := s.takePacket .pcie true true 4072 (Memory.readN ramDefault s.host (s.cmdBase + c) (20 + len))
        serveRing n (s.cmdConsumed ((c + size) % s.cmdSize))

/-- The command ring is served as far as it can be: each of its packets takes at least 64 bytes. -/
def State.serveCmdRing (s : State) : State := s.serveRing (s.cmdSize / 64 + 1)

/-- A command ring doorbell (R391, R429). -/
def State.ringBell (s : State) (b : Bus) (producer : Nat) : State :=
  if !s.serves .pcie || b == .twoWire || s.force.cmdRing.nat 1 != 1 then s
  else if producer % 64 ≠ 0 ∨ s.cmdSize ≤ producer then
    { s with pPcie := { s.pPcie with refused := sat32 (s.pPcie.refused + 1) } }
  else ({ s with rings := { s.rings with cmdProducer := producer } }).serveCmdRing

/-- The host writes its own memory. -/
def State.hostCells (s : State) (ws : List (Nat × Byte)) : State :=
  { s with host := Memory.writeCells ramDefault s.host ws }

/-- CMD_RING_DOORBELL (R391), after the host's writes of its packets. -/
def execCmdRingDoorbell (bus : Bus) (producer : BitVec 24) (writes : List (Nat × Byte)) (wait : Nat) (s : State) : Res :=
  .next (((s.advance wait).hostCells writes).ringBell bus producer.toNat)

/-! ### Register writes -/

/-- A write of CMD_DOORBELL (Table 16.2, R429). -/
def State.doorbell (s : State) (b : Bus) (v : W32) : State :=
  match v.toNat / 2 ^ 30 with
  | 1 => s.mailboxBell b
  | 2 => s.ringBell b (v.toNat % 2 ^ 24)
  | _ => s

/-- A write of the word at an address that is a multiple of 4. -/
def State.writeWord (s : State) (b : Bus) (addr : Nat) (v : W32) : State :=
  if addr = 0x0080 then s.doorbell b v else s.writePlain b addr v

/-- REGISTER_WRITE (R420, R421, R423): over PCIe, of 4 or 8 aligned bytes with every byte enable set; over the two-wire port, of
one word below 0x2000. Nothing is reached while the I/O is in high impedance. -/
def execRegisterWrite (bus : Bus) (addr : W16) (len : Nat) (value : W64) (enables : Bool) (s : State) : Res :=
  let a := addr.toNat
  let lo : W32 := value.setWidth 32
  let hi : W32 := (value >>> 32).setWidth 32
  .next <|
    if !s.power.ioUp then s
    else match bus with
      | .pcie =>
        if enables && len == 4 && a % 4 == 0 && decide (a + 4 ≤ 0x4000) then s.writeWord .pcie a lo
        else if enables && len == 8 && a % 8 == 0 && decide (a + 8 ≤ 0x4000) then
          (s.writeWord .pcie a lo).writeWord .pcie (a + 4) hi
        else s
      | .twoWire => if len == 4 && a % 4 == 0 && decide (a < 0x2000) then s.writeWord .twoWire a lo else s

/-! ### The two-wire port, write side -/

/-- One data byte of a write (R422, R442, R443): a word takes effect with its byte 3, and bytes before the first word boundary
are discarded. -/
def State.twWriteByte (s : State) (v : Byte) : State :=
  let p := s.tw.pointer.toNat
  let w := s.tw.partWord
  let part := if p % 4 = w.length then w ++ [v] else []
  let move (part : List Byte) : State := { s with tw := { s.tw with pointer := s.tw.pointer + 1, partWord := part } }
  if part.length = 4 then
    let s := move []
    if p < 0x2000 then s.writeWord .twoWire (p - 3) (BitVec.ofNat 32 (unle part)) else s
  else move part

/-- TW_WRITE_TRANSACTION (R438 to R443): the pointer and the data bytes; `stopped` says that a STOP or a repeated START ended
it. -/
def execTwWriteTransaction (addrByte : Byte) (bytes : List Byte) (stopped : Bool) (wait : Nat) (s : State) : Res :=
  let s := s.advance wait
  .next <|
    if !s.twMine addrByte false then s
    else match bytes with
      | hi :: lo :: rest =>
        let s := { s with tw := { s.tw with pointer := hi ++ lo, partWord := [] } }
        let s := rest.foldl State.twWriteByte s
        if stopped then { s with tw := { s.tw with partWord := [] } } else s
      | _ => { s with tw := { s.tw with partWord := [] } }

/-! ### The service port and the trunk -/

/-- WRITE_PACKET (R393): discarded while READY is clear or when cut off; the port does nothing while the I/O is in high
impedance. -/
def execWritePacket (bytes : List Byte) (cutOff : Bool) (wait : Nat) (s : State) : Res :=
  let s0 := s.advance wait
  let s := s0.emit (.svcStatus (BitVec.ofNat 8 s.svcStatus))
  .next <|
    if !s.power.ioUp then s0
    else if !s.serves .service || cutOff then { s with svc := ⟨true⟩ }
    else ({ s with svc := ⟨false⟩ }).takePacket .service false true 4072 bytes

/-- TRUNK_COMMAND_PACKET (R364, R385, R394): the mast's interpreter takes a wrapped command. -/
def execTrunkCommandPacket (packet : List Byte) (wait : Nat) (s : State) : Res :=
  .next <|
    if !s.isMast || s.trunk.state = .off || !s.serves .trunk then s
    else (s.advance wait).takePacket .trunk false true 4044 packet

end Sys2Proof.Machine
end

