-- ==== Sys2Proof/Machine/Tick.lean ====
section
/-! DEFINITION. The tick: what the device does at the start of every tick of device time, from what the tick that ended
measured (R23, R49). -/

namespace Sys2Proof.Machine

/-! ### What the ended tick measured -/

/-- A running lane after a tick (R140, R151, R153): a tick with more than 200 µs of marked time is impaired. -/
def Lane.measured (l : Lane) (m : LaneMeas) : Lane :=
  { l with
    markedNs := m.marked
    impaired := if 200000 < m.marked then sat32 (l.impaired + 1) else l.impaired
    firSat := sat32 (l.firSat + m.firSat)
    carriers := if l.cls = 0 then m.carriers else l.carriers }

/-- Every running lane takes its measures. -/
def State.laneMeasures (s : State) (ms : List LaneMeas) : State :=
  { s with lanes := s.lanes.map (fun l => match ms.find? (fun m => m.cls == l.cls && m.index == l.index) with
      | some m => l.measured m
      | none => { l with markedNs := 0 }) }

/-- Whether the ended tick is impaired for a service; a diversity multiplex is impaired only when both of its branches
are (R151). -/
def State.tickImpaired (s : State) (n : Nat) : Bool :=
  let ls := s.lastLanes n
  !ls.isEmpty && ls.all (fun l => decide (200000 < l.markedNs))

/-- The engine values of the tick, and the ticks with the pilot present or SYNC locked that are not impaired (R187,
R208, R239). -/
def State.engineMeasures (s : State) (es : List (Nat × List StatItem)) : State :=
  { s with services := s.services.map (fun v =>
      let bad := s.tickImpaired v.slot
      let a := v.analogue
      let one (b : Bool) : Nat := if v.state.costs && b && !bad then 1 else 0
      { v with
        values := match es.find? (fun e => e.1 == v.slot) with | some e => e.2 | none => []
        analogue := { a with pilotTicks := sat32 (a.pilotTicks + one a.pilot), lockTicks := sat32 (a.lockTicks + one a.syncLock) } }) }

/-- The transmitter clock ratios (R189, R212). -/
def State.ratioMeasures (s : State) (rs : List (W64 × Int)) : State :=
  { s with carriers := s.carriers.map (fun c => match rs.find? (fun r => r.1 == c.key) with
      | some r => { c with ratio := some r.2 }
      | none => c) }

/-- A signal with the regenerated TS rate that its engine measured (R20). -/
def TvSignal_rate (t : TvSignal) (kbps : Nat) : TvSignal := if t.std = 1 then { t with tsKbps := kbps } else t

/-- The measured TS rates, which the next placement round charges (R20). -/
def State.rateMeasures (s : State) (rs : List (W64 × Nat)) : State :=
  rs.foldl (fun s r =>
    { s with
      carriers := s.carriers.map (fun c => match c.engine with
        | .tv e => if c.key == r.1 then { c with engine := .tv { e with signal := TvSignal_rate e.signal r.2 } } else c
        | .dab _ => c)
      services := s.services.map (fun v =>
        if v.rx.carrier == r.1 then { v with rx := { v.rx with signal := v.rx.signal.map (fun t => TvSignal_rate t r.2) } } else v) }) s

/-- A tick in which the collector had to wait for a tag (R294). -/
def State.tagTick (s : State) : State :=
  if s.tags.waited then { s with tags := { s.tags with waitTicks := sat32 (s.tags.waitTicks + 1), waited := false } } else s

/-- Everything that the ended tick measured of lanes, engines and the pool. -/
def State.measures (s : State) (inp : TickIn) : State :=
  let s := ((s.laneMeasures inp.lanes).engineMeasures inp.engines).ratioMeasures inp.ratios
  let s := s.rateMeasures inp.tsKbps
  let s := inp.tileLoss.foldl (fun s t => s.overrun t.cls t.tiles t.slots) s
  (s.ldpcTick inp.codewords).tagTick

/-! ### Settings that take force -/

/-- The command rings as their settings take force (R280, R283, R391, R392): a ring that is enabled starts empty, a reply ring that
is disabled has its PRODUCER written a last time, and the fault is cleared once both rings have been disabled. -/
def State.cmdRingForce (s : State) (old : ItemTable) : State :=
  let new := s.force.cmdRing
  let cIs := new.nat 1 == 1
  let rIs := new.nat 4 == 1
  let r := s.rings
  let s : State := if old.nat 4 == 1 && !rIs then s.hostWrite (old.nat 7) (le 4 r.replyProducer ++ le 4 r.replyWraps) else s
  let r : CmdRings := { r with cmdWasOff := r.fault && (r.cmdWasOff || !cIs), replyWasOff := r.fault && (r.replyWasOff || !rIs) }
  let r : CmdRings := if r.cmdWasOff && r.replyWasOff then { r with fault := false, cmdWasOff := false, replyWasOff := false } else r
  let r : CmdRings := if cIs && old.nat 1 != 1 then { r with cmdProducer := 0, cmdConsumer := 0 } else r
  let r : CmdRings := if rIs && old.nat 4 != 1 then
      { r with replyProducer := 0, replyConsumer := 0, replyWraps := 0, starts := [], unsignalled := 0, timerUs := none }
    else r
  { s with rings := r }

/-- A packet port whose settings change starts its schedule anew (R310). -/
def State.pktForce (s : State) (old : Settings) : State :=
  { s with pkts := s.pkts.zipIdx.map (fun x =>
      if old.pkt.getD x.2 [] = s.pktSet x.2 then x.1 else { x.1 with t0 := none }) }

/-- What follows from device settings that have come into force. -/
def State.settingsForced (s : State) (old : Settings) : State :=
  let s := (((s.planForce old.plan).ringForce old).pktForce old).trunkForce old
  if old.coex.nat 1 == 1 && s.force.coex.nat 1 != 1 then s.coexOff else s

/-- The entries whose effective tick begins now, of which the last counts, and those that wait on. -/
def schedDue {α : Type} (xs : List (Sched α)) : Option α × List (Sched α) :=
  (((xs.filter (fun x => decide (x.ticksLeft ≤ 1))).getLast?).map (·.value),
    (xs.filter (fun x => decide (1 < x.ticksLeft))).map (fun x => { x with ticksLeft := x.ticksLeft - 1 }))

/-- Device settings take force at their effective tick (R62). -/
def State.forceDevice (s : State) : State :=
  let d := schedDue s.sched
  let old := s.force
  let s : State := match d.1 with
    | some v => ({ s with sched := d.2, force := v } : State).settingsForced old
    | none => { s with sched := d.2 }
  s.cmdRingForce old.cmdRing

/-- The streams of a service as its bindings take force (R37, R307, R416). -/
def State.bindingsForced (s : State) (v : Service) (new : AttrBlock) : State :=
  let f := v.field
  let old := v.force.attrs
  let gone := (old.bindings.map (·.kind.toNat)).filter (fun k => !bound new k)
  let arch := new.bindings.any (fun b => b.options.getLsbD 0)
  let s := (if arch then gone else gone ++ [0xB]).foldl (fun s k => s.endStream f k) s
  let ends (g : Prog) : Prog := if g.slot == f then { g with ending := true } else g
  let s : State := if gone.contains 1 then { s with audio := s.audio.map (fun a => { a with progs := a.progs.map ends }) } else s
  let upd (x : Stream) : Stream :=
    if x.slot != f then x
    else
      let x := { x with prio := new.priority.toNat }
      match bindingOf new x.kind with
      | some b => { x with archive := b.options.getLsbD 0, bindIdx := new.bindings.findIdx (fun y => y.kind == b.kind) }
      | none => x
  { s with streams := s.streams.map upd }

/-- The streams and the programme of the kinds that a modification binds anew. -/
def State.bindingsNew (s : State) (v : Service) (new : AttrBlock) : State :=
  if !v.state.costs then s
  else
    let f := v.field
    let fresh (k : Nat) : Bool := bound new k && !bound v.force.attrs k
    let t := s.openStreams v.slot
    let keep (x : Stream) : Bool := x.slot != f || (s.stream? f x.kind).isSome || bound new x.kind || x.kind == 0xB
    let t : State := { t with streams := t.streams.filter keep }
    let auto := match t.audioHint v with | some x => some x | none => t.autoAudio v v.rx
    let t := if fresh 1 then t.bindAudio v (if audioAuto new then auto else none) else t
    if fresh 7 then t.statStart v.slot else t

/-- The settings of one service take force at their effective tick (R61, R63, R64). -/
def State.forceSvc (s : State) (n : Nat) : State :=
  match s.slotSvc? n with
  | none => s
  | some v =>
    let d := schedDue v.sched
    match d.1 with
    | none => s.modSvc n (fun v => { v with sched := d.2 })
    | some new =>
      let s := (s.tvChanged v new.tv).analogueChanged v new
      let s := s.modSvc n (fun v => { v with sched := d.2, force := new, prevGen := v.force.gen, genSince := s.time.dt })
      (s.bindingsForced v new.attrs).bindingsNew v new.attrs

/-- The own lane of a service whose FIR bank has changed restarts (Table 5.1, R156). -/
def State.rebank (s : State) (n : Nat) : State :=
  { s with lanes := s.lanes.map (fun l =>
      let own := l.cls == 2 || l.dedicated
      let us := l.users ++ l.joining
      let b := s.laneBank own l.dedicated us
      if !(own && l.users.contains n) || b = l.bank then l
      else
        let taps := match b with | some i => s.bankTaps l.bankClass i | none => 0
        { l with bank := b, unsettled := settleCount (l.cls == 2) l.k 0 taps (rankLen (s.laneItems own us)),
                 firSat := 0, impaired := 0, rawSat := 0, markedNs := 0, startDt := s.time.dt }) }

/-- Every service whose settings take force. -/
def State.forceServices (s : State) : State :=
  (s.services.map (·.slot)).foldl (fun s n =>
    let t := s.forceSvc n
    if (t.slotSvc? n).map (·.force.lane) = (s.slotSvc? n).map (·.force.lane) then t else t.rebank n) s

/-- One tick boundary less for an RTC write (R502) and for a mode change (R481). -/
def State.countDown (s : State) : State :=
  { s with
    rtc := { s.rtc with write := s.rtc.write.map (fun w => { w with ticksLeft := w.ticksLeft - 1 }) }
    power := { s.power with change := s.power.change.map (fun c => if c.begun then c else { c with ticksLeft := c.ticksLeft - 1 }) } }

/-- Everything that takes force as the tick begins. -/
def State.forces (s : State) : State := (s.forceDevice.forceServices).countDown

/-! ### The rest of the tick -/

/-- The references and the timebase (R123 to R128, R58). -/
def State.refTick (s : State) (inp : TickIn) : State :=
  let s := (s.refCount inp.edgeA inp.edgeB s.trunkTime).freqTick inp.eps inp.slewDone
  (s.timeTick inp.errors).stepTick

/-- PPS_OUT (R114): it rises at a whole second of DT, and is held low while units would carry TIME_UNLOCKED if squelch is
set. -/
def State.ppsTick (s : State) : State :=
  let c := s.force.ppsOut
  let ms := s.tickNow % 1000
  let may := c.enable == 1#8 && !(c.squelch == 1#8 && s.trustFlags &&& fTimeUnlocked != 0#32)
  let high := may && (if ms = 0 then true else s.clk.ppsHigh && decide (ms < c.highMs.toNat))
  if high = s.clk.ppsHigh then s
  else ({ s with clk := { s.clk with ppsHigh := high } }).emit (.pin "PPS_OUT" high)

/-- The placement round (R23), and what begins for each service that comes to hold costs in it (R66, R253, R264). -/
def State.roundTick (s : State) : State :=
  let had := (s.services.filter (·.state.costs)).map (·.field)
  let s := s.placementRound
  let new := (s.services.filter (fun v => v.state.costs && !had.contains v.field)).map (·.slot)
  (new.foldl (fun s n => (s.followStart n).statStart n) s).planTick

/-- Counts that run from tick to tick: the lock behind R504's trim, and the ages of the journal's changes (R468). Side-data records
of streams that are gone are dropped. -/
def State.ageTick (s : State) : State :=
  { s with
    cal := { s.cal with lockTicks := if s.refs.tstate = .locked then s.cal.lockTicks + 1 else 0 }
    journal := { s.journal with dirty := s.journal.dirty.map (fun d => (d.1, d.2 + 1)) }
    side := s.side.filter (fun r => (s.stream? r.slot 6).isSome) }

/-- In DORMANT, the link's state or the budget may ask for another sub-state (R484, R486). -/
def State.subTick (s : State) : State :=
  if s.power.mode = .dormant ∧ s.power.change = none ∧ s.subWanted ≠ s.power.sub then
    { s with power := { s.power with change := some ⟨.dormant, s.subWanted, 1, 0, false⟩ } }
  else s

/-- Whatever can leave a transport does, and the command ring is served again (R280, R392). -/
def State.serveAll (s : State) : State :=
  ([Transport.pcie, .twoWire, .service, .trunk].foldl State.flush s).serveCmdRing

/-- The work of a tick in the order of the chapters: settings, time, inputs, rings, lanes, placement, following, trunk, audio,
calibration. -/
def State.tickWork (s : State) (inp : TickIn) : State :=
  let old := s.force
  let s := ((s.measures inp).forces).refTick inp
  let s := (s.rfTick old inp.inputs).readConsumers
  let s := (s.readReplyConsumer.ringAuto).layLanes.layCarriers
  let s := (s.roundTick.followTick inp.sources).alertTick
  let s := (s.mapTick.trunkTick).audioTick inp.portErr
  let s := (s.pktTick.ppsTick).calResults inp.cal
  s.ageTick.subTick.serveAll

/-- DT comes to the tick boundary. -/
def State.nextTick (s : State) : State :=
  let t := s.time
  { s with
    time := { t with dt := BitVec.ofNat 64 t.boundary, boundary := t.boundary + 1000000 }
    flash := { s.flash with trialTick := s.flash.trialTick.map (· + 1) } }

/-- A tick of a device that serves: the temperature (R492), a RESET whose effective tick begins (R489), and then the tick's
work, of which the recovery loader does none. -/
def State.servedTick (s : State) (inp : TickIn) : State :=
  let s := (s.nextTick.hostCells inp.writes).thermalTick inp.temp
  if !s.serving then s
  else
  let s : State := { s with power := { s.power with uptime := s.power.uptime + 1 } }
  match s.power.resetIn with
    | some n => if n ≤ 1 then s.afterReset 3
      else ({ s with power := { s.power with resetIn := some (n - 1) } }).tickWork inp
    | none => if s.power.recovery then s.serveAll else s.tickWork inp

/-- TICK (R23): the start of the next tick. A device that is held in reset only sees the host write its memory; before READY the
sensor is read. Where DT would pass 2^64 − 1, DT_WRAP comes first. -/
def execTick (inp : TickIn) (s : State) : Res :=
  .next <|
    if !s.up then s.hostCells inp.writes
    else if !s.serving then
      let s := (s.hostCells inp.writes).thermalTick inp.temp
      { s with power := { s.power with uptime := s.power.uptime + 1 } }
    else if 2 ^ 64 ≤ s.time.boundary then s
    else s.servedTick inp

end Sys2Proof.Machine
end

