-- ==== Sys2Proof/Machine/Dispatch.lean ====
section
/-! DEFINITION. What each command does: one arm per constructor, each one call of its meaning. -/

namespace Sys2Proof.Machine

/-- The effect of a command on everything but the queue. -/
def exec (i : Instr) (s : State) : Host.Outcome State Fault Refusal :=
  match i with
  | .deviceInfo h => Sys2Proof.Machine.execDeviceInfo h s
  | .cmdRingConfig h items => Sys2Proof.Machine.execCmdRingConfig h items s
  | .nop h data => Sys2Proof.Machine.execNop h data s
  | .eventRoute h transport mask => Sys2Proof.Machine.execEventRoute h transport mask s
  | .eventFetch h => Sys2Proof.Machine.execEventFetch h s
  | .modeSet h mode => Sys2Proof.Machine.execModeSet h mode s
  | .wakeBudget h budgetMs => Sys2Proof.Machine.execWakeBudget h budgetMs s
  | .modeQuery h => Sys2Proof.Machine.execModeQuery h s
  | .reset h kind confirm => Sys2Proof.Machine.execReset h kind confirm s
  | .thermalQuery h => Sys2Proof.Machine.execThermalQuery h s
  | .serviceAdd h attrs => Sys2Proof.Machine.execServiceAdd h attrs s
  | .serviceRemove h => Sys2Proof.Machine.execServiceRemove h s
  | .serviceModify h attrs => Sys2Proof.Machine.execServiceModify h attrs s
  | .serviceQuery h key => Sys2Proof.Machine.execServiceQuery h key s
  | .placementPolicy h params => Sys2Proof.Machine.execPlacementPolicy h params s
  | .placementQuery h => Sys2Proof.Machine.execPlacementQuery h s
  | .surveyConfig h params => Sys2Proof.Machine.execSurveyConfig h params s
  | .mapQuery h => Sys2Proof.Machine.execMapQuery h s
  | .mapRead h byKey first key => Sys2Proof.Machine.execMapRead h byKey first key s
  | .followPolicy h items => Sys2Proof.Machine.execFollowPolicy h items s
  | .linksetSet h index keys => Sys2Proof.Machine.execLinksetSet h index keys s
  | .linksetQuery h index => Sys2Proof.Machine.execLinksetQuery h index s
  | .followQuery h => Sys2Proof.Machine.execFollowQuery h s
  | .alertConfig h params => Sys2Proof.Machine.execAlertConfig h params s
  | .ringConfig h ring items => Sys2Proof.Machine.execRingConfig h ring items s
  | .ringQuery h ring => Sys2Proof.Machine.execRingQuery h ring s
  | .archiveConfig h items => Sys2Proof.Machine.execArchiveConfig h items s
  | .archiveExtentAdd h extents => Sys2Proof.Machine.execArchiveExtentAdd h extents s
  | .archiveQuery h what first => Sys2Proof.Machine.execArchiveQuery h what first s
  | .outputQuery h first => Sys2Proof.Machine.execOutputQuery h first s
  | .audioPortConfig h port items => Sys2Proof.Machine.execAudioPortConfig h port items s
  | .audioPortQuery h port => Sys2Proof.Machine.execAudioPortQuery h port s
  | .audioPortStart h mask trigger startDt => Sys2Proof.Machine.execAudioPortStart h mask trigger startDt s
  | .audioPortStop h mask => Sys2Proof.Machine.execAudioPortStop h mask s
  | .pktPortConfig h port items => Sys2Proof.Machine.execPktPortConfig h port items s
  | .pktPortQuery h port => Sys2Proof.Machine.execPktPortQuery h port s
  | .timeSet h form arm value => Sys2Proof.Machine.execTimeSet h form arm value s
  | .timeQuery h => Sys2Proof.Machine.execTimeQuery h s
  | .leapTableSet h mode expiry entries => Sys2Proof.Machine.execLeapTableSet h mode expiry entries s
  | .leapTableQuery h => Sys2Proof.Machine.execLeapTableQuery h s
  | .clockConfig h body => Sys2Proof.Machine.execClockConfig h body s
  | .clockQuery h => Sys2Proof.Machine.execClockQuery h s
  | .refConfig h params => Sys2Proof.Machine.execRefConfig h params s
  | .refQuery h => Sys2Proof.Machine.execRefQuery h s
  | .ppsTod h dt => Sys2Proof.Machine.execPpsTod h dt s
  | .rfConfig h input gainMode target atten => Sys2Proof.Machine.execRfConfig h input gainMode target atten s
  | .rfQuery h input => Sys2Proof.Machine.execRfQuery h input s
  | .planPolicy h params => Sys2Proof.Machine.execPlanPolicy h params s
  | .planDefer h seconds => Sys2Proof.Machine.execPlanDefer h seconds s
  | .planQuery h => Sys2Proof.Machine.execPlanQuery h s
  | .coexConfig h items => Sys2Proof.Machine.execCoexConfig h items s
  | .coexQuery h => Sys2Proof.Machine.execCoexQuery h s
  | .combTest h input on => Sys2Proof.Machine.execCombTest h input on s
  | .firBankLoad h cls bank phase coeffs => Sys2Proof.Machine.execFirBankLoad h cls bank phase coeffs s
  | .firBankQuery h cls bank => Sys2Proof.Machine.execFirBankQuery h cls bank s
  | .laneQuery h first => Sys2Proof.Machine.execLaneQuery h first s
  | .laneConfig h items => Sys2Proof.Machine.execLaneConfig h items s
  | .analogueConfig h items => Sys2Proof.Machine.execAnalogueConfig h items s
  | .analogueQuery h => Sys2Proof.Machine.execAnalogueQuery h s
  | .timecodeFormatLoad h fmt => Sys2Proof.Machine.execTimecodeFormatLoad h fmt s
  | .timecodeFormatQuery h format => Sys2Proof.Machine.execTimecodeFormatQuery h format s
  | .dabConfig h items => Sys2Proof.Machine.execDabConfig h items s
  | .dabQuery h => Sys2Proof.Machine.execDabQuery h s
  | .tvConfig h items => Sys2Proof.Machine.execTvConfig h items s
  | .tvQuery h => Sys2Proof.Machine.execTvQuery h s
  | .ldpcPolicy h bands => Sys2Proof.Machine.execLdpcPolicy h bands s
  | .ldpcQuery h => Sys2Proof.Machine.execLdpcQuery h s
  | .calRun h target options scope => Sys2Proof.Machine.execCalRun h target options scope s
  | .calQuery h => Sys2Proof.Machine.execCalQuery h s
  | .calRead h block => Sys2Proof.Machine.execCalRead h block s
  | .calWrite h block => Sys2Proof.Machine.execCalWrite h block s
  | .calConfig h items => Sys2Proof.Machine.execCalConfig h items s
  | .trunkConfig h items => Sys2Proof.Machine.execTrunkConfig h items s
  | .trunkQuery h => Sys2Proof.Machine.execTrunkQuery h s
  | .trunkSleep h firstDt => Sys2Proof.Machine.execTrunkSleep h firstDt s
  | .trunkWake h => Sys2Proof.Machine.execTrunkWake h s
  | .trunkMask h ranges => Sys2Proof.Machine.execTrunkMask h ranges s
  | .trunkRemote h packet => Sys2Proof.Machine.execTrunkRemote h packet s
  | .trunkNoiseQuery h endOf first => Sys2Proof.Machine.execTrunkNoiseQuery h endOf first s
  | .imageBegin h slot length => Sys2Proof.Machine.execImageBegin h slot length s
  | .imageData h slot offset data => Sys2Proof.Machine.execImageData h slot offset data s
  | .imageEnd h slot => Sys2Proof.Machine.execImageEnd h slot s
  | .imageActivate h slot dt => Sys2Proof.Machine.execImageActivate h slot dt s
  | .imageQuery h => Sys2Proof.Machine.execImageQuery h s
  | .settingsQuery h => Sys2Proof.Machine.execSettingsQuery h s
  | .settingsReset h groups confirm => Sys2Proof.Machine.execSettingsReset h groups confirm s
  | .otpKey h action keySlot confirm hash => Sys2Proof.Machine.execOtpKey h action keySlot confirm hash s
  | .chainConfig h enable => Sys2Proof.Machine.execChainConfig h enable s
  | .rtcSet h cal option => Sys2Proof.Machine.execRtcSet h cal option s
  | .rtcQuery h => Sys2Proof.Machine.execRtcQuery h s
  | .backupWrite h offset data => Sys2Proof.Machine.execBackupWrite h offset data s
  | .backupRead h offset len => Sys2Proof.Machine.execBackupRead h offset len s
  | .rtcAlarm h cal enable => Sys2Proof.Machine.execRtcAlarm h cal enable s
  | .diagQuery h => Sys2Proof.Machine.execDiagQuery h s
  | .diagLogRead h first => Sys2Proof.Machine.execDiagLogRead h first s
  | .mailboxDoorbell bus wait => Sys2Proof.Machine.execMailboxDoorbell bus wait s
  | .cmdRingDoorbell bus producer writes wait => Sys2Proof.Machine.execCmdRingDoorbell bus producer writes wait s
  | .intStatusWrite bus value => Sys2Proof.Machine.execIntStatusWrite bus value s
  | .intEnableWrite bus value => Sys2Proof.Machine.execIntEnableWrite bus value s
  | .dtMatchCommit bus hi wait => Sys2Proof.Machine.execDtMatchCommit bus hi wait s
  | .multiwordSnapshotRead bus addr wait => Sys2Proof.Machine.execMultiwordSnapshotRead bus addr wait s
  | .registerWrite bus addr len value enables => Sys2Proof.Machine.execRegisterWrite bus addr len value enables s
  | .msixUnmask enable funcMask masked => Sys2Proof.Machine.execMsixUnmask enable funcMask masked s
  | .pciePowerState d3 pme => Sys2Proof.Machine.execPciePowerState d3 pme s
  | .perst => Sys2Proof.Machine.execPerst s
  | .writePacket bytes cutOff wait => Sys2Proof.Machine.execWritePacket bytes cutOff wait s
  | .readStatus => Sys2Proof.Machine.execReadStatus s
  | .readPacket complete => Sys2Proof.Machine.execReadPacket complete s
  | .twWriteTransaction addrByte bytes stopped wait => Sys2Proof.Machine.execTwWriteTransaction addrByte bytes stopped wait s
  | .twReadTransaction addrByte count wait => Sys2Proof.Machine.execTwReadTransaction addrByte count wait s
  | .twTimeout => Sys2Proof.Machine.execTwTimeout s
  | .attnWrite result wait => Sys2Proof.Machine.execAttnWrite result wait s
  | .attnWriteRetry result wait => Sys2Proof.Machine.execAttnWriteRetry result wait s
  | .chainImageStart f wait => Sys2Proof.Machine.execChainImageStart f wait s
  | .chainImageBlock f wait => Sys2Proof.Machine.execChainImageBlock f wait s
  | .chainImageDone f wait => Sys2Proof.Machine.execChainImageDone f wait s
  | .chainActivate f wait => Sys2Proof.Machine.execChainActivate f wait s
  | .tick inp => Sys2Proof.Machine.execTick inp s
  | .thermalShedStep => Sys2Proof.Machine.execThermalShedStep s
  | .thermalRestart temp => Sys2Proof.Machine.execThermalRestart temp s
  | .engineSettled slot wait => Sys2Proof.Machine.execEngineSettled slot wait s
  | .migrationSwitch slot wait => Sys2Proof.Machine.execMigrationSwitch slot wait s
  | .migrationRelease slot => Sys2Proof.Machine.execMigrationRelease slot s
  | .migrationAbandon slot wait => Sys2Proof.Machine.execMigrationAbandon slot wait s
  | .planChange lock => Sys2Proof.Machine.execPlanChange lock s
  | .planDeferralEnd wait => Sys2Proof.Machine.execPlanDeferralEnd wait s
  | .pllSLockLost lock wait => Sys2Proof.Machine.execPllSLockLost lock wait s
  | .pllSRetry lock wait => Sys2Proof.Machine.execPllSRetry lock wait s
  | .pllGLockLost => Sys2Proof.Machine.execPllGLockLost s
  | .ppsEdge wait => Sys2Proof.Machine.execPpsEdge wait s
  | .referenceQualified code timeRole wait => Sys2Proof.Machine.execReferenceQualified code timeRole wait s
  | .referenceLoss code wait => Sys2Proof.Machine.execReferenceLoss code wait s
  | .holdoverExpiry wait => Sys2Proof.Machine.execHoldoverExpiry wait s
  | .timeStep => Sys2Proof.Machine.execTimeStep s
  | .dtWrap => Sys2Proof.Machine.execDtWrap s
  | .dtMatchExpiry bus wait => Sys2Proof.Machine.execDtMatchExpiry bus wait s
  | .coexRequest pri gntIn wait => Sys2Proof.Machine.execCoexRequest pri gntIn wait s
  | .coexGrant wait => Sys2Proof.Machine.execCoexGrant wait s
  | .coexRelease wait => Sys2Proof.Machine.execCoexRelease wait s
  | .coexTailExpiry wait => Sys2Proof.Machine.execCoexTailExpiry wait s
  | .coexGrantLimit wait => Sys2Proof.Machine.execCoexGrantLimit wait s
  | .protectionWindowLead wait => Sys2Proof.Machine.execProtectionWindowLead wait s
  | .protectionWindowEnd wait => Sys2Proof.Machine.execProtectionWindowEnd wait s
  | .coexAckTimeout wait => Sys2Proof.Machine.execCoexAckTimeout wait s
  | .coexInputStuck wire wait => Sys2Proof.Machine.execCoexInputStuck wire wait s
  | .audStartEdge rising wait => Sys2Proof.Machine.execAudStartEdge rising wait s
  | .audioPortTrigger wait => Sys2Proof.Machine.execAudioPortTrigger wait s
  | .slaveClockCheck m wait => Sys2Proof.Machine.execSlaveClockCheck m wait s
  | .audioUnderrun u wait => Sys2Proof.Machine.execAudioUnderrun u wait s
  | .zeroCrossingSwitch port channel wait => Sys2Proof.Machine.execZeroCrossingSwitch port channel wait s
  | .zeroCrossingTimeout port channel wait => Sys2Proof.Machine.execZeroCrossingTimeout port channel wait s
  | .unitCompletion u wait => Sys2Proof.Machine.execUnitCompletion u wait s
  | .collectorWrite writes wait => Sys2Proof.Machine.execCollectorWrite writes wait s
  | .engineHoldDrop slot kind => Sys2Proof.Machine.execEngineHoldDrop slot kind s
  | .ringModerationTimer ring wait => Sys2Proof.Machine.execRingModerationTimer ring wait s
  | .archiveIndexUnit slot => Sys2Proof.Machine.execArchiveIndexUnit slot s
  | .statisticsIntervalEnd st => Sys2Proof.Machine.execStatisticsIntervalEnd st s
  | .spectrumIntervalEnd sp => Sys2Proof.Machine.execSpectrumIntervalEnd sp s
  | .pktPortPacket port wait => Sys2Proof.Machine.execPktPortPacket port wait s
  | .rdsGroup slot g wait => Sys2Proof.Machine.execRdsGroup slot g wait s
  | .rdsSyncLoss slot wait => Sys2Proof.Machine.execRdsSyncLoss slot wait s
  | .pilotStateChange slot present wait => Sys2Proof.Machine.execPilotStateChange slot present wait s
  | .amSyncLock slot locked wait => Sys2Proof.Machine.execAmSyncLock slot locked wait s
  | .timecodeFrame slot f wait => Sys2Proof.Machine.execTimecodeFrame slot f wait s
  | .fibReceived f wait => Sys2Proof.Machine.execFibReceived f wait s
  | .dabReconfiguration carrier cif wait => Sys2Proof.Machine.execDabReconfiguration carrier cif wait s
  | .dabSyncLoss carrier wait => Sys2Proof.Machine.execDabSyncLoss carrier wait s
  | .dabSearchTimeout carrier wait => Sys2Proof.Machine.execDabSearchTimeout carrier wait s
  | .sectionReceived x wait => Sys2Proof.Machine.execSectionReceived x wait s
  | .tvSyncLoss carrier wait => Sys2Proof.Machine.execTvSyncLoss carrier wait s
  | .tvReconfiguration carrier t wait => Sys2Proof.Machine.execTvReconfiguration carrier t wait s
  | .tvSearchTimeout carrier wait => Sys2Proof.Machine.execTvSearchTimeout carrier wait s
  | .timeIndication ti wait => Sys2Proof.Machine.execTimeIndication ti wait s
  | .alertTimeout slot wait => Sys2Proof.Machine.execAlertTimeout slot wait s
  | .probeStart p wait => Sys2Proof.Machine.execProbeStart p wait s
  | .probeEnd p wait => Sys2Proof.Machine.execProbeEnd p wait s
  | .mapPublication => Sys2Proof.Machine.execMapPublication s
  | .mapEntryExpiry key => Sys2Proof.Machine.execMapEntryExpiry key s
  | .spliceSwitch slot m wait => Sys2Proof.Machine.execSpliceSwitch slot m wait s
  | .spliceTimeout slot wait => Sys2Proof.Machine.execSpliceTimeout slot wait s
  | .rotationStep r => Sys2Proof.Machine.execRotationStep r s
  | .estimationWindow r => Sys2Proof.Machine.execEstimationWindow r s
  | .flatnessBurst b => Sys2Proof.Machine.execFlatnessBurst b s
  | .rtcTrimMeasure errorCppm wait => Sys2Proof.Machine.execRtcTrimMeasure errorCppm wait s
  | .equaliserFit f wait => Sys2Proof.Machine.execEqualiserFit f wait s
  | .modeTransition c segs => Sys2Proof.Machine.execModeTransition c segs s
  | .modeTransitionComplete wait => Sys2Proof.Machine.execModeTransitionComplete wait s
  | .trunkFrame f => Sys2Proof.Machine.execTrunkFrame f s
  | .controlBurstReceived b wait => Sys2Proof.Machine.execControlBurstReceived b wait s
  | .trunkUnitPacket u wait => Sys2Proof.Machine.execTrunkUnitPacket u wait s
  | .trunkCommandPacket packet wait => Sys2Proof.Machine.execTrunkCommandPacket packet wait s
  | .trunkReplyEventPacket packet wait => Sys2Proof.Machine.execTrunkReplyEventPacket packet wait s
  | .trunkAck a wait => Sys2Proof.Machine.execTrunkAck a wait s
  | .trunkLoading l wait => Sys2Proof.Machine.execTrunkLoading l wait s
  | .trunkLoadingAck l wait => Sys2Proof.Machine.execTrunkLoadingAck l wait s
  | .trunkMaskPacket m wait => Sys2Proof.Machine.execTrunkMaskPacket m wait s
  | .trunkNoise n wait => Sys2Proof.Machine.execTrunkNoise n wait s
  | .trunkTime t wait => Sys2Proof.Machine.execTrunkTime t wait s
  | .trunkSleepPacket p wait => Sys2Proof.Machine.execTrunkSleepPacket p wait s
  | .loadingRecompute r wait => Sys2Proof.Machine.execLoadingRecompute r wait s
  | .trunkAckTimeout wait => Sys2Proof.Machine.execTrunkAckTimeout wait s
  | .trunkLoss wait => Sys2Proof.Machine.execTrunkLoss wait s
  | .trunkRemoteResend seq wait => Sys2Proof.Machine.execTrunkRemoteResend seq wait s
  | .meetWindowWake wait => Sys2Proof.Machine.execMeetWindowWake wait s
  | .meetWindowEnd wait => Sys2Proof.Machine.execMeetWindowEnd wait s
  | .wakeCallAccepted c wait => Sys2Proof.Machine.execWakeCallAccepted c wait s
  | .wakeCallSend wait => Sys2Proof.Machine.execWakeCallSend wait s
  | .recoveryTimeout wait => Sys2Proof.Machine.execRecoveryTimeout wait s
  | .longCall wait => Sys2Proof.Machine.execLongCall wait s
  | .imageActivation => Sys2Proof.Machine.execImageActivation s
  | .trialConfirm => Sys2Proof.Machine.execTrialConfirm s
  | .trialFailure => Sys2Proof.Machine.execTrialFailure s
  | .journalCommit c => Sys2Proof.Machine.execJournalCommit c s
  | .powerOnReset allDown => Sys2Proof.Machine.execPowerOnReset allDown s
  | .railPowerLoss allDown vbatOk => Sys2Proof.Machine.execRailPowerLoss allDown vbatOk s
  | .resetNAsserted => Sys2Proof.Machine.execResetNAsserted s
  | .watchdogReset => Sys2Proof.Machine.execWatchdogReset s
  | .deviceStart inp => Sys2Proof.Machine.execDeviceStart inp s
  | .backupDomainReset => Sys2Proof.Machine.execBackupDomainReset s
  | .rtcSecondRollover => Sys2Proof.Machine.execRtcSecondRollover s
  | .rtcUnlockTimeout => Sys2Proof.Machine.execRtcUnlockTimeout s
  | .rtcWriteCommit wait => Sys2Proof.Machine.execRtcWriteCommit wait s
  | .rtcDtCorrection diffUs wait => Sys2Proof.Machine.execRtcDtCorrection diffUs wait s
  | .oscillatorStopped => Sys2Proof.Machine.execOscillatorStopped s
  | .rdsSynchronisation slot wait => Sys2Proof.Machine.execRdsSynchronisation slot wait s
  | .dabSynchronised carrier mode wait => Sys2Proof.Machine.execDabSynchronised carrier mode wait s
  | .tvSynchronised carrier t wait => Sys2Proof.Machine.execTvSynchronised carrier t wait s
  | .carrierDetected wait => Sys2Proof.Machine.execCarrierDetected wait s
  | .chainByteReceived b => Sys2Proof.Machine.execChainByteReceived b s
  | .boundaryScan edges => Sys2Proof.Machine.execBoundaryScan edges s

end Sys2Proof.Machine
end

