-- ==== Sys2Proof/WellFormed.lean ====
section
/-! DEFINITION. Which terms of `Instr` are commands at all: counts that their fields can hold, lengths that a packet can
hold (R385, R404), and names of inputs, ports, slots and units that exist. A value out of the range of a parameter is
well formed: the device refuses it itself (check 7 of Table 14.6). -/

namespace Sys2Proof

/-- A count that an 8-bit field holds. -/
def byteCount (n : Nat) : Bool := n < 256

/-- A command whose counts and lengths its layout can carry. -/
def Instr.countsOk : Instr → Bool
  | .nop _ data => data.length ≤ 64
  | .serviceAdd _ a | .serviceModify _ a => byteCount a.bindings.length
  | .serviceQuery h key => key.isSome == (h.slot == 0xFFFF#16)
  | .surveyConfig _ (some p) => byteCount p.ranges.length
  | .linksetSet _ _ keys => byteCount keys.length
  | .leapTableSet _ _ _ es => byteCount es.length
  | .clockConfig _ (.other t _) => 6 ≤ t.toNat
  | .refConfig _ (some p) => byteCount p.entries.length
  | .firBankLoad _ _ _ _ cs => byteCount cs.length
  | .timecodeFormatLoad _ f => byteCount f.fields.length
  | .ldpcPolicy _ (some bs) => bs.length == 4
  | .trunkRemote _ p => 20 ≤ p.length && p.length == 20 + Machine.field p 6 2
  | .imageData _ _ _ d => 1 ≤ d.length
  | .otpKey _ _ _ _ hash => hash.length == 32
  | .backupWrite _ _ d => byteCount d.length
  | _ => true

/-- The limit of PARAM_LEN on a transport (R385). -/
def maxParams (t : Transport) : Nat := if t = .trunk then 4044 else 4072

/-- An event whose names exist: slots 0 to 255, ports 0 to 3, inputs 0 to 2, ADCs 0 and 1, rings 0 to 64 (64 is the
reply/event ring), references 0 to 8. -/
def Instr.namesOk : Instr → Bool
  | .tick inp => inp.inputs.length == 3
  | .engineSettled n _ | .migrationSwitch n _ | .migrationRelease n | .migrationAbandon n _ | .archiveIndexUnit n
  | .rdsGroup n _ _ | .rdsSyncLoss n _ | .pilotStateChange n _ _ | .amSyncLock n _ _ | .timecodeFrame n _ _
  | .alertTimeout n _ | .spliceSwitch n _ _ | .spliceTimeout n _ | .rdsSynchronisation n _ | .engineHoldDrop n _ =>
    n < 256
  | .referenceQualified c _ _ | .referenceLoss c _ => c < 9
  | .slaveClockCheck m _ => m.port < 4
  | .audioUnderrun u _ => u.port < 4 && u.kind < 2 && u.cause < 3
  | .zeroCrossingSwitch p _ _ | .zeroCrossingTimeout p _ _ | .pktPortPacket p _ => p < 4
  | .unitCompletion u _ => u.slot < 256
  | .ringModerationTimer r _ => r ≤ 64
  | .coexInputStuck w _ => w < 3
  | .rotationStep r => r.adc < 2
  | .estimationWindow r => r.adc < 2
  | .flatnessBurst b => b.input < 3
  | .registerWrite _ _ len _ _ => 1 ≤ len
  | .probeStart p _ => p.input < 3
  | .probeEnd p _ => p.input < 3
  | .chainImageStart f _ | .chainImageBlock f _ | .chainImageDone f _ | .chainActivate f _ => byteCount f.payload.length
  | _ => true

/-- Well-formed commands. -/
def Instr.wf (i : Instr) : Bool :=
  i.countsOk && i.namesOk &&
  match encodeParams i with
  | some (_, h, p) => p.length ≤ maxParams h.tr
  | none => true

end Sys2Proof
end

