-- ==== Sys2Proof/Safety.lean ====
section
/-! DEFINITION. The terms in which statements about the block speak: what an accepted command packet is, what its reply
says and what it leaves alone, and the invariants of the state. -/

namespace Sys2Proof.Machine

/-! ### Replies -/

/-- The state without what carries replies and events out of the block: the transports' queues and counters, the command
rings' run-time state, the banked registers, MSI-X, the two-wire port, host memory, and what has left. Two states with
the same core differ only in what has been delivered. -/
def State.core (s : State) : State :=
  { s with
    out := []
    pPcie := Port.reset
    pTw := Port.reset
    pSvc := Port.reset
    pTrunk := Port.reset
    nextId := 0
    rings := State.reset.rings
    busP := BusRegs.reset
    busT := BusRegs.reset
    pcie := State.reset.pcie
    tw := State.reset.tw
    host := [] }

/-- The reply that a transport's duplicate record kept last (R396). -/
def State.lastReply (s : State) (t : Transport) : Option Reply := (s.port t).dups.getLast?.bind (·.reply)

/-- The entry that a transport's duplicate record kept last. -/
def State.lastEntry (s : State) (t : Transport) : Option DupEntry := (s.port t).dups.getLast?

/-- A command packet that passes checks 1 to 4 and is served, is no retry, and passes checks 5 and 6 (Table 14.6). -/
def Taken (g : Gate) (h : CmdHdr) (s : State) : Prop :=
  s.serves h.tr = true ∧ ((s.advance h.wait).port h.tr).dup? h.seq h.trailer = none
    ∧ (s.advance h.wait).slotOk g.slot h.slot = true ∧ (s.advance h.wait).modeOk g h = true

/-- The command completes: the reply kept for its transport has the opcode, the command's SEQ, the status, the generation
`gen`, the effective tick, the DT of the acceptance, and the parameters; and beside the delivery of replies and events the
state is `t`. -/
def RepliesGen (r : Res) (opcode : Nat) (h : CmdHdr) (s : State) (st : Status) (gen : W16) (eff : W32)
    (params : List Byte) (t : State) : Prop :=
  ∃ u, r = .next u ∧ u.core = t.core ∧
    u.lastReply h.tr = some ⟨BitVec.ofNat 16 opcode, h.seq, st, gen, eff, (s.advance h.wait).time.dt, params⟩

/-- The command completes with the generation that its slot, or the device, has after it (R61, R62). -/
def Replies (r : Res) (opcode : Nat) (h : CmdHdr) (s : State) (st : Status) (eff : W32) (params : List Byte)
    (t : State) : Prop :=
  RepliesGen r opcode h s st (t.replyGen h.slot) eff params t

/-- The command is answered with OK and parameters `params`, and beside its reply changes nothing but the time. -/
def Reads (r : Res) (opcode : Nat) (h : CmdHdr) (s : State) (params : List Byte) : Prop :=
  Replies r opcode h s .ok noTick params (s.advance h.wait)

/-- The command is accepted and its reply is left to the next placement round (R23); beside that the state is `t`. -/
def Awaits (r : Res) (h : CmdHdr) (s t : State) : Prop :=
  ∃ u, r = .next u ∧ u.core = t.core ∧ u.lastEntry h.tr = some ⟨h.seq, h.trailer, s.nextId, none⟩

/-- The state in which the device settings `a` are accepted with the next generation, to take force at the effective tick
(R23, R62), and journal group `g` is to be written (R468). -/
def State.withDev (s : State) (g : Option Nat) (a : Settings) : State :=
  let a := { a with gen := s.acc.gen + 1 }
  ({ s with acc := a, sched := s.sched ++ [(⟨s.effTicks, a⟩ : Sched Settings)] } : State).markDirty g

/-- The status of an accepted change of stored settings: NV_READ_ONLY where it will not be persisted (R413). -/
def State.storedStatus (s : State) (g : Option Nat) : Status := if g.isSome && s.nvOff then .nvReadOnly else .ok

/-- The command changes device settings to `a`, which differ from those accepted: its reply carries the new generation and
the effective tick, and beside the reply nothing else changes but the time. -/
def Sets (r : Res) (opcode : Nat) (h : CmdHdr) (s : State) (g : Option Nat) (a : Settings) (params : List Byte := []) :
    Prop :=
  let s1 := s.advance h.wait
  a ≠ s1.acc → Replies r opcode h s (s1.storedStatus g) s1.effTick params (s1.withDev g a)

/-- The state in which service slot `n` has accepted the settings `a` with its next generation (R61). -/
def State.withSvc (s : State) (n : Nat) (a : SvcSettings) : State :=
  s.modSvc n (fun v => { v with acc := { a with gen := a.gen + 1 }, sched := v.sched ++ [(⟨s.effTicks, { a with gen := a.gen + 1 }⟩ : Sched SvcSettings)] })

/-! ### Invariants -/

/-- Every memory of the block is in its canonical form. -/
def State.memWf (s : State) : Bool :=
  Memory.wf ramDefault s.host && Memory.wf ramDefault s.busP.bank && Memory.wf ramDefault s.busT.bank
    && Memory.wf ramDefault s.pcie.table && Memory.wf flashDefault s.flash.mem

/-- A transport keeps at most the last 32 packets and at most 128 events (R396, R400). -/
def Port.bounded (p : Port) : Bool := decide (p.dups.length ≤ 32) && decide (p.events.length ≤ 128)

/-- Every transport keeps to its bounds. -/
def State.portsBounded (s : State) : Bool :=
  s.pPcie.bounded && s.pTw.bounded && s.pSvc.bounded && s.pTrunk.bounded

/-- Every command that waits is well formed. -/
def State.queueWf (s : State) : Bool := s.pending.all Instr.wf

end Sys2Proof.Machine
end

