-- ==== Sys2Proof/Certificates/Slice0/Obligations.lean ====
section
/-! DEFINITION. The statements about the block: what each command does, what it leaves alone, and what every step keeps. -/

open Sys2Proof Sys2Proof.Machine

/-- Each of the six commands, where it passes checks 1 to 6 and is no retry, completes with OK: its reply carries the
fields of its layout (DEV_ID, UNIT, ROLE, MODE and the rest; the data of NOP unchanged; MODE, SUB_STATE, LAST_RESET,
BUDGET_MS, UPTIME_S; TEMP to SHEDS; the counters of the four transports; a page of the log), and beside the reply it
changes nothing but the time. POWER_MW of MODE_QUERY is a free value (log entry 5), whose counter advances. -/
def Obligations.SystemQueriesAnswer : Prop :=
  ∀ (h : CmdHdr) (s : State),
    (Taken (gateAll 0x0001) h s →
      Reads (exec (.deviceInfo h) s) 0x0001 h s
        (le 4 0x94840001 ++ le 8 Config.unitId.toNat ++ le 1 s.role ++ le 1 (if s.power.recovery then 0xFF else s.flash.running)
          ++ le 1 s.power.mode.code ++ [0] ++ le 4 (if s.power.recovery then 0 else s.flash.fwVersion.toNat)
          ++ le 2 (if s.power.recovery then 0 else s.flash.format) ++ le 1 (otpBits s.flash.keys) ++ [0])) ∧
    (∀ data, Taken (gateAll 0x0003) h s → Reads (exec (.nop h data) s) 0x0003 h s data) ∧
    (Taken (gateAll 0x0103) h s →
      Replies (exec (.modeQuery h) s) 0x0103 h s .ok noTick
        (le 1 s.power.mode.code ++ le 1 (if s.power.mode = .dormant then s.power.sub.code else 0xFF) ++ le 1 s.power.lastReset
          ++ [0] ++ le 4 s.force.wakeBudget.toNat ++ le 4 (Config.freeValue s.freeCtr) ++ le 4 (s.power.uptime / 1000))
        { s.advance h.wait with freeCtr := s.freeCtr + 1 }) ∧
    (Taken (gateAll 0x0105) h s →
      Reads (exec (.thermalQuery h) s) 0x0105 h s
        (le 2 s.thermal.temp.toNat ++ le 2 s.thermal.tempMax.toNat ++ le 1 s.thermal.level ++ zeros 3
          ++ le 4 s.thermal.warnings ++ le 4 s.thermal.sheds)) ∧
    (Taken (gateAll 0x0F01) h s →
      Reads (exec (.diagQuery h) s) 0x0F01 h s
        ([s.pPcie, s.pTw, s.pSvc, s.pTrunk].flatMap (fun p => le 4 p.accepted ++ le 4 p.refused ++ le 4 p.retries
          ++ le 4 p.evDropped) ++ le 1 s.pcie.speed ++ le 1 s.pcie.width ++ zeros 2 ++ le 4 s.power.resets)) ∧
    (∀ first, Taken (gateAll 0x0F02) h s →
      let pg := page 16 first.toNat (s.diag.map (fun d =>
        le 8 d.dt.toNat ++ le 2 d.code.toNat ++ zeros 2 ++ (d.args ++ zeros 20).take 20))
      Reads (exec (.diagLogRead h first) s) 0x0F02 h s (le 2 pg.1.length ++ le 2 pg.2 ++ zeros 4 ++ pg.1.flatten))

/-- Where the operands are in range and the settings they give differ from those accepted, each command is answered with
the new device generation and the effective tick, the new settings are accepted and wait for that tick, the stored group
is to be written, and nothing else changes beside the reply. EVENT_ROUTE with its selector alone, and CMD_RING_CONFIG
with no item, read back what is in force. WAKE_BUDGET in DORMANT also starts the change to the sub-state of the new
budget. SETTINGS_RESET is stated for one group at a time, which then holds its defaults. -/
def Obligations.SystemSettingsTakeForceLater : Prop :=
  ∀ (h : CmdHdr) (s : State),
    (∀ (t : Byte) (m : BitVec 128), Taken (gateAll 0x0004) h s → t.toNat ≤ 3 → (t = 3#8 → s.role = 1) →
      Sets (exec (.eventRoute h t (some m)) s) 0x0004 h s (some 5) { s.acc with evMask := s.acc.evMask.set t.toNat m }) ∧
    (∀ (t : Byte), Taken (gateAll 0x0004) h s → t.toNat ≤ 3 → (t = 3#8 → s.role = 1) →
      Reads (exec (.eventRoute h t none) s) 0x0004 h s ([t, 0, 0, 0] ++ le 16 (s.force.evMask.getD t.toNat 0).toNat)) ∧
    (∀ (items : List Item) (tbl : ItemTable), Taken ⟨0x0002, .none, allModes, .pcieMailbox⟩ h s → items ≠ [] →
      applyItems tbl143 (fun _ => true) s.acc.cmdRing items = some tbl → cmdRingIncomplete tbl = false →
      s.acc.cmdRing.nat 1 = 0 → s.force.cmdRing.nat 1 = 0 → s.acc.cmdRing.nat 4 = 0 → s.force.cmdRing.nat 4 = 0 →
      Sets (exec (.cmdRingConfig h items) s) 0x0002 h s none { s.acc with cmdRing := tbl }) ∧
    (Taken ⟨0x0002, .none, allModes, .pcieMailbox⟩ h s →
      Reads (exec (.cmdRingConfig h []) s) 0x0002 h s (readTable tbl143 s.force.cmdRing)) ∧
    (∀ (ms : W32), Taken (gateAll 0x0102) h s → 1 ≤ ms.toNat → ms.toNat ≤ 600000 → s.power.mode ≠ .dormant →
      Sets (exec (.wakeBudget h ms) s) 0x0102 h s (some 7) { s.acc with wakeBudget := ms }
        (le 1 (subForBudget ms.toNat).code ++ zeros 3)) ∧
    (∀ (ms : W32), Taken (gateAll 0x0102) h s → 1 ≤ ms.toNat → ms.toNat ≤ 600000 → s.power.mode = .dormant →
      s.power.change = none → s.role = 0 → s.power.sub ≠ subForBudget ms.toNat → s.acc.wakeBudget ≠ ms →
      let s1 := s.advance h.wait
      Replies (exec (.wakeBudget h ms) s) 0x0102 h s (s1.storedStatus (some 7)) s1.effTick
        (le 1 (subForBudget ms.toNat).code ++ zeros 3)
        { s1.withDev (some 7) { s.acc with wakeBudget := ms } with
            power := { s.power with change := some ⟨.dormant, subForBudget ms.toNat, 1, s1.effTicks, false⟩ } }) ∧
    (∀ (on : Byte), Taken (gateAll 0x0D09) h s → on.toNat ≤ 1 →
      Sets (exec (.chainConfig h on) s) 0x0D09 h s (some 6) { s.acc with chain := on == 1#8 }) ∧
    (∀ (g : Nat), Taken ⟨0x0D07, .none, [.dormant, .maintain], .none⟩ h s → g ≤ 7 → s.nvOff = false →
      groupCopy g Settings.default s.acc ≠ s.acc →
      let s1 := s.advance h.wait
      Replies (exec (.settingsReset h (BitVec.ofNat 32 (2 ^ g)) 0x9484#16) s) 0x0D07 h s .ok s1.effTick []
        (s1.withDev (some g) (groupCopy g Settings.default s.acc)))

/-- MODE_SET to a mode other than the one in force, which the role allows, with no change under way, with all segments
loaded and no thermal limit, is answered with MODE_BEFORE and the effective tick, and the change waits for that tick; to
the mode in force it answers OK and changes nothing; a mode that the role bars is WRONG_MODE, and a change under way
BUSY_RUNNING. RESET with a KIND of 0 or 1 and the CONFIRM value is answered with OK, and the reset is due 10 ms later;
any other is BAD_PARAM. -/
def Obligations.ModeSetAndResetAnswer : Prop :=
  ∀ (h : CmdHdr) (s : State),
    let s1 := s.advance h.wait
    (∀ (b : Byte) (m : Mode), Taken (gateAll 0x0101) h s → modeOf b.toNat = some m → m ≠ s.power.mode →
      ((m = .survey ∨ m = .serve) → s.role ≠ 1) → (m = .relay → s.role = 1) → (m.receives = true → s.power.segFailed = false) →
      s.inTransition = false → (m.receives = true → s.power.mode.receives = false → s.thermal.level = 0) →
      Replies (exec (.modeSet h b) s) 0x0101 h s .ok s1.effTick (le 1 s.power.mode.code ++ zeros 3)
        { s1 with power := { s.power with change := some ⟨m, s1.subWanted, 0, s1.effTicks, false⟩, leftRelay := false } }) ∧
    (∀ (b : Byte), Taken (gateAll 0x0101) h s → modeOf b.toNat = some s.power.mode → s.inTransition = false →
      ((s.power.mode = .survey ∨ s.power.mode = .serve) → s.role ≠ 1) → (s.power.mode = .relay → s.role = 1) →
      (s.power.mode.receives = true → s.power.segFailed = false) →
      Reads (exec (.modeSet h b) s) 0x0101 h s (le 1 s.power.mode.code ++ zeros 3)) ∧
    (∀ (b : Byte) (m : Mode), Taken (gateAll 0x0101) h s → modeOf b.toNat = some m →
      (((m = .survey ∨ m = .serve) ∧ s.role = 1) ∨ (m = .relay ∧ s.role ≠ 1)) →
      Replies (exec (.modeSet h b) s) 0x0101 h s .wrongMode noTick [] s1) ∧
    (∀ (b : Byte), Taken (gateAll 0x0101) h s → s.power.segFailed = false → s.inTransition = true →
      (b = 1#8 ∨ b = 5#8) →
      Replies (exec (.modeSet h b) s) 0x0101 h s .busyRunning noTick [] s1) ∧
    (∀ (k : Byte), Taken (gateAll 0x0104) h s → k.toNat ≤ 1 →
      Replies (exec (.reset h k 0x9484#16) s) 0x0104 h s .ok noTick []
        { s1 with power := { s.power with resetIn := some ((s1.now + 10999999 - s.time.boundary) / 1000000 + 1)
                                          enterMaintain := k == 1#8 } }) ∧
    (∀ (k : Byte) (c : W16), Taken (gateAll 0x0104) h s → (1 < k.toNat ∨ c ≠ 0x9484#16) →
      Replies (exec (.reset h k c) s) 0x0104 h s .badParam noTick [] s1)

/-- A SERVICE_ADD in range, whose cleared key no occupied slot holds and whose ports are free, puts a new service with
the next incarnation into the free slot and leaves its reply to the placement round where the key is a frequency or a
published map entry; where the entry is only in the shadow copy it answers OK_PENDING with generation 0. A key that an
occupied slot holds answers BUSY_RUNNING with that slot and its generation. SERVICE_MODIFY in range waits for its round
with the service unchanged. SERVICE_REMOVE answers OK with the service generation and the effective tick, frees the
slot, marks every stream of it as ending, and beside its streams, units, lanes, programmes and the placement changes
nothing. A slot that is free or of another incarnation is BAD_SLOT. -/
def Obligations.ServicesComeAndGo : Prop :=
  ∀ (h : CmdHdr) (s : State),
    let s1 := s.advance h.wait
    (∀ (attrs : AttrBlock) (slot inc : Nat), Taken (gateNotRelay 0x0201) h s →
      let a := cleanAttrs attrs
      let v (st : SvcState) (fresh : Bool) := newService slot inc st fresh s.place.order a s1.time.dt
      s.attrsOk a = true → (∀ x ∈ s.services, x.acc.attrs.key ≠ a.key) → s.portsBusy a none = false →
      s.freeSlot = some (slot, inc) →
      ((identityKey a.key = false ∨ (s.mapEntry a.key).isSome = true) →
        Awaits (exec (.serviceAdd h attrs) s) h s
          { s1 with
            services := s.services ++ [v .requested true]
            place := { s.place with
              order := s.place.order + 1
              pending := s.place.pending ++ [⟨s.nextId, h.tr, h.seq, false, BitVec.ofNat 16 (slot + 256 * inc), a, 0#16, s1.time.dt⟩] } }) ∧
      (identityKey a.key = true → s.mapEntry a.key = none → (s.shadowEntry a.key).isSome = true →
        RepliesGen (exec (.serviceAdd h attrs) s) 0x0201 h s .okPending 0#16 noTick
          (le 1 slot ++ le 1 inc ++ le 1 1 ++ [0] ++ le 2 (hintsBarred a) ++ [0, 0] ++ le 8 a.key.toNat)
          { s1 with
            services := s.services ++ [v .awaiting false]
            place := { s.place with order := s.place.order + 1, incs := s.place.incs.set slot inc } })) ∧
    (∀ (attrs : AttrBlock) (x : Service), Taken (gateNotRelay 0x0201) h s → s.attrsOk (cleanAttrs attrs) = true →
      s.services.find? (fun v => v.acc.attrs.key == (cleanAttrs attrs).key) = some x →
      RepliesGen (exec (.serviceAdd h attrs) s) 0x0201 h s .busyRunning x.acc.gen noTick
        (le 1 x.slot ++ le 1 x.inc ++ le 1 x.state.code ++ [0] ++ le 2 x.hintRefused ++ [0, 0] ++ le 8 (cleanAttrs attrs).key.toNat)
        s1) ∧
    (∀ (attrs : AttrBlock) (v : Service), Taken ⟨0x0203, .service, notRelay, .none⟩ h s → s.svc? h.slot = some v →
      let a := cleanAttrs attrs
      a.key = v.acc.attrs.key → s.attrsOk a = true → v.bindBusy a = false →
      s.portsBusy { a with bindings := a.bindings.filter (fun b => !v.acc.attrs.bindings.any (fun o => o.kind == b.kind)) }
        (some v.slot) = false →
      Awaits (exec (.serviceModify h attrs) s) h s
        { s1 with place := { s.place with
            pending := s.place.pending ++ [⟨s.nextId, h.tr, h.seq, true, h.slot, a, v.acc.gen, s1.time.dt⟩] } }) ∧
    (∀ (v : Service), Taken ⟨0x0202, .service, notRelay, .none⟩ h s → s.svc? h.slot = some v →
      ∃ t : State, RepliesGen (exec (.serviceRemove h) s) 0x0202 h s .ok v.acc.gen s1.effTick [] t ∧
        t = { s1 with services := s.services.filter (fun x => x.slot != v.slot), streams := t.streams, units := t.units,
                      lanes := t.lanes, audio := t.audio, place := t.place } ∧
        (∀ x ∈ t.streams, x.slot = h.slot → x.lastPending = true) ∧
        t.streams.length = s.streams.length ∧
        (∀ l ∈ t.lanes, v.slot ∉ l.users ∧ v.slot ∉ l.joining)) ∧
    (∀ (i : Instr), (i = .serviceRemove h ∨ i = .serviceQuery h none ∨ (∃ a, i = .serviceModify h a)) →
      s.serves h.tr = true → ((s.advance h.wait).port h.tr).dup? h.seq h.trailer = none → h.slot ≠ noSlot →
      s.svc? h.slot = none →
      ∃ op, RepliesGen (exec i s) op h s .badSlot s.acc.gen noTick [] s1)

/-- Each query that passes checks 1 to 6 completes with OK and changes nothing but the time: SERVICE_QUERY by slot or by
key answers slot, incarnation, state, reason, refused hints, STATE_DT, attributes in force and costs; PLACEMENT_QUERY
the policy in force, TICK_OVERRUN and a row of capacity, reserve, load and reserve used per class; MAP_QUERY generation,
entries, refusals, passes and survey; MAP_READ one entry by key or a page by index; LINKSET_QUERY the set of the host,
else the learned set of the published copy; FOLLOW_QUERY the candidates of a service, or without a slot the policy in
force. A key not in the map or not served is NOT_FOUND. -/
def Obligations.ServiceAndMapQueriesAnswer : Prop :=
  ∀ (h : CmdHdr) (s : State),
    let s1 := s.advance h.wait
    let g (op : Nat) : Gate := ⟨op, .either, notRelay, .none⟩
    let row (v : Service) : List Byte :=
      le 1 v.slot ++ le 1 v.inc ++ le 1 v.state.code ++ le 1 v.reason ++ le 2 v.hintRefused ++ [0, 0] ++ le 8 v.stateDt.toNat
        ++ attrBytes v.force.attrs
        ++ (s1.serviceCost v (if v.rx.freqKhz = 0 then freqRx v.attrs.key ((freqInputs v.attrs.key).headD 0) else v.rx)).flatMap (le 4)
    (∀ v, Taken (g 0x0204) h s → s.svc? h.slot = some v → Reads (exec (.serviceQuery h none) s) 0x0204 h s (row v)) ∧
    (∀ k v, Taken (g 0x0204) h s → s.services.find? (fun v => v.acc.attrs.key == clearKey k) = some v →
      Reads (exec (.serviceQuery h (some k)) s) 0x0204 h s (row v)) ∧
    (∀ k, Taken (g 0x0204) h s → s.services.find? (fun v => v.acc.attrs.key == clearKey k) = none →
      Replies (exec (.serviceQuery h (some k)) s) 0x0204 h s .notFound noTick [] s1) ∧
    (Taken (gateAll 0x0206) h s →
      Reads (exec (.placementQuery h) s) 0x0206 h s
        ([s.force.placement.reserve, s.force.placement.preempt, s.force.placement.headReception, 0] ++ le 4 s.place.overruns
          ++ s1.capacity.zipIdx.flatMap (fun x => le 4 x.1 ++ le 4 (reserveOf x.2 x.1 s1.reservePct)
            ++ le 4 (s1.loadNow.getD x.2 0) ++ le 4 (s1.reserveUsed.getD x.2 0)))) ∧
    (Taken (gateNotRelay 0x0302) h s →
      Reads (exec (.mapQuery h) s) 0x0302 h s
        (le 4 s.map.gen.toNat ++ le 2 s.map.published.entries.length ++ zeros 2 ++ le 4 s.map.refused ++ le 4 s.map.passes
          ++ surveyParamBytes s.force.survey)) ∧
    (∀ first k e, Taken (gateNotRelay 0x0303) h s → findEntry s.map.published.entries (clearKey k) = some e →
      Reads (exec (.mapRead h 1#8 first k) s) 0x0303 h s (le 4 s.map.gen.toNat ++ le 2 1 ++ le 2 0xFFFF ++ mapEntryBytes e)) ∧
    (∀ first k, Taken (gateNotRelay 0x0303) h s → findEntry s.map.published.entries (clearKey k) = none →
      Replies (exec (.mapRead h 1#8 first k) s) 0x0303 h s .notFound noTick [] s1) ∧
    (∀ first k, Taken (gateNotRelay 0x0303) h s →
      let pg := page 16 first.toNat (s.map.published.entries.map mapEntryBytes)
      Reads (exec (.mapRead h 0#8 first k) s) 0x0303 h s
        (le 4 s.map.gen.toNat ++ le 2 pg.1.length ++ le 2 pg.2 ++ pg.1.flatten)) ∧
    (∀ (i : Byte) x, Taken (gateNotRelay 0x0403) h s → i.toNat ≤ 63 → s.force.links.find? (fun x => x.index == i.toNat) = some x →
      Reads (exec (.linksetQuery h i) s) 0x0403 h s ([i] ++ le 1 1 ++ le 1 x.keys.length ++ [0] ++ le 4 s.map.learnRefused
        ++ x.keys.flatMap (fun k => le 8 k.toNat ++ leInt 8 (s1.memberOffset k)))) ∧
    (∀ (i : Byte) x, Taken (gateNotRelay 0x0403) h s → i.toNat ≤ 63 → s.force.links.find? (fun x => x.index == i.toNat) = none →
      s.map.published.learned.find? (fun x => x.index == i.toNat) = some x →
      Reads (exec (.linksetQuery h i) s) 0x0403 h s ([i] ++ le 1 2 ++ le 1 x.keys.length ++ [0] ++ le 4 s.map.learnRefused
        ++ x.keys.flatMap (fun k => le 8 k.toNat ++ leInt 8 (s1.memberOffset k)))) ∧
    (Taken (g 0x0404) h s → s.svc? h.slot = none →
      Reads (exec (.followQuery h) s) 0x0404 h s (readTable tbl97 s.force.follow)) ∧
    (∀ v, Taken (g 0x0404) h s → s.svc? h.slot = some v →
      Reads (exec (.followQuery h) s) 0x0404 h s
        (le 1 (followMode v.force.attrs) ++ [if followReturn v.force.attrs then 1 else 0] ++ le 1 v.follow.cands.length
          ++ le 1 (if v.follow.splice.isSome then 1 else if v.follow.routing.isSome then 2 else 0) ++ zeros 4
          ++ le 8 (if v.followed then v.follow.delay else 0) ++ v.follow.cands.flatMap s1.candEntry))

/-- In range and with a change, PLACEMENT_POLICY, SURVEY_CONFIG, FOLLOW_POLICY, LINKSET_SET (also making a publication
due) and ALERT_CONFIG without a slot set device settings of the PLACEMENT group; ALERT_CONFIG with a slot that binds PCM
sets that service. Without parameters each answers the settings in force. A reserve outside 5 to 25 is BAD_PARAM, and a
link set with a key of another set BUSY_RUNNING. -/
def Obligations.PlacementSurveyAndFollowSettings : Prop :=
  ∀ (h : CmdHdr) (s : State),
    let s1 := s.advance h.wait
    let g (op : Nat) : Gate := ⟨op, .either, notRelay, .none⟩
    (∀ p : PlacementParams, Taken (gateNotRelay 0x0205) h s → 5 ≤ p.reserve.toNat → p.reserve.toNat ≤ 25 → p.preempt.toNat ≤ 1 →
      p.headReception.toNat ≤ 1 →
      Sets (exec (.placementPolicy h (some p)) s) 0x0205 h s (some 3) { s.acc with placement := p }) ∧
    (∀ p : PlacementParams, Taken (gateNotRelay 0x0205) h s → (p.reserve.toNat < 5 ∨ 25 < p.reserve.toNat) →
      Replies (exec (.placementPolicy h (some p)) s) 0x0205 h s .badParam noTick [] s1) ∧
    (Taken (gateNotRelay 0x0205) h s →
      Reads (exec (.placementPolicy h none) s) 0x0205 h s
        [s.force.placement.reserve, s.force.placement.preempt, s.force.placement.headReception, 0]) ∧
    (∀ p : SurveyParams, Taken (gateNotRelay 0x0301) h s → 100 ≤ p.interval.toNat → p.interval.toNat ≤ 60000 →
      p.ranges.length ≤ 16 → p.ranges.all surveyRangeOk = true →
      Sets (exec (.surveyConfig h (some p)) s) 0x0301 h s (some 3) { s.acc with survey := p }) ∧
    (Taken (gateNotRelay 0x0301) h s → Reads (exec (.surveyConfig h none) s) 0x0301 h s (surveyParamBytes s.force.survey)) ∧
    (∀ items t, Taken (gateNotRelay 0x0401) h s → items ≠ [] → applyItems tbl97 (fun _ => true) s.acc.follow items = some t →
      Sets (exec (.followPolicy h items) s) 0x0401 h s (some 3) { s.acc with follow := t }) ∧
    (Taken (gateNotRelay 0x0401) h s → Reads (exec (.followPolicy h []) s) 0x0401 h s (readTable tbl97 s.force.follow)) ∧
    (∀ (i : Byte) (keys : List W64), Taken (gateNotRelay 0x0402) h s → i.toNat ≤ 63 → 1 ≤ keys.length → keys.length ≤ 8 →
      (keys.map clearKey).all linkKeyOk = true → (keys.map clearKey).Nodup →
      (∀ x ∈ s.acc.links, x.index ≠ i.toNat → ∀ k ∈ x.keys, k ∉ keys.map clearKey) →
      let a : Settings := { s.acc with
        links := s.acc.links.filter (fun x => x.index < i.toNat) ++ [⟨i.toNat, keys.map clearKey⟩]
          ++ s.acc.links.filter (fun x => x.index > i.toNat) }
      a ≠ s.acc →
      Replies (exec (.linksetSet h i keys) s) 0x0402 h s (s1.storedStatus (some 3)) s1.effTick []
        ({ s1 with map := { s.map with due := true } }.withDev (some 3) a)) ∧
    (∀ (i : Byte) (keys : List W64) (x : LinkCfg) (k : W64), Taken (gateNotRelay 0x0402) h s → i.toNat ≤ 63 → keys.length ≤ 8 →
      (keys.map clearKey).all linkKeyOk = true → (keys.map clearKey).Nodup →
      x ∈ s.acc.links → x.index ≠ i.toNat → k ∈ x.keys → k ∈ keys.map clearKey →
      Replies (exec (.linksetSet h i keys) s) 0x0402 h s .busyRunning noTick [] s1) ∧
    (∀ p : AlertParams, Taken (g 0x0405) h s → s.svc? h.slot = none →
      Sets (exec (.alertConfig h (some p)) s) 0x0405 h s (some 3) { s.acc with alertMask := p.mask }) ∧
    (Taken (g 0x0405) h s → s.svc? h.slot = none →
      Reads (exec (.alertConfig h none) s) 0x0405 h s (le 8 s.force.alertMask.toNat ++ le 4 0)) ∧
    (∀ v, Taken (g 0x0405) h s → s.svc? h.slot = some v →
      Reads (exec (.alertConfig h none) s) 0x0405 h s (le 8 v.force.alertMask.toNat ++ le 4 v.force.alertLimit.toNat)) ∧
    (∀ v (p : AlertParams), Taken (g 0x0405) h s → s.svc? h.slot = some v → s.slotSvc? v.slot = some v →
      bound v.acc.attrs 1 = true → p.mask.toNat < 2048 → 10 ≤ p.limitS.toNat → p.limitS.toNat ≤ 3600 →
      ({ v.acc with alertMask := p.mask, alertLimit := p.limitS } : SvcSettings) ≠ v.acc →
      RepliesGen (exec (.alertConfig h (some p)) s) 0x0405 h s .ok (v.acc.gen + 1) s1.effTick []
        (s1.withSvc v.slot { v.acc with alertMask := p.mask, alertLimit := p.limitS }))

/-- Each query in range that passes checks 1 to 6 completes with OK and changes nothing but the time: the state,
pointers and counts of the ring and the accounting load of its streams; the held extents or the assigned chunks, a page
at a time; the tags held and the streams with their SEQ and drops; the state, Q, pilot and counters of the audio port
and its programmes; the service, rate and counters of the packet port. A ring above 63 or a port above 3 is BAD_PARAM.
-/
def Obligations.OutputQueriesAnswer : Prop :=
  ∀ (h : CmdHdr) (s : State),
    let s1 := s.advance h.wait
    (∀ r : Byte, Taken (gateNotRelay 0x0502) h s → r.toNat ≤ 63 →
      let x := s.ring r.toNat
      Reads (exec (.ringQuery h r) s) 0x0502 h s
        ([r] ++ le 1 (if x.on = false then 0 else if x.fault then 2 else 1)
          ++ le 2 (s.streams.filter (fun y => y.ring == some r.toNat)).length ++ le 4 x.producer ++ le 4 x.consumer
          ++ le 4 x.wraps ++ le 8 x.records ++ le 4 x.tags.length ++ le 4 (s1.ringLoad r.toNat))) ∧
    (∀ r : Byte, Taken (gateNotRelay 0x0502) h s → 63 < r.toNat →
      Replies (exec (.ringQuery h r) s) 0x0502 h s .badParam noTick [] s1) ∧
    (∀ (w : Byte) (first : W16), Taken (gateNotRelay 0x0505) h s → w.toNat ≤ 1 →
      let es := if w = 0#8 then s.archive.extents.map (fun e => le 8 e.start ++ le 8 e.remaining)
        else s.streams.filterMap (fun x => x.chunk.map (fun c =>
          le 2 x.slot.toNat ++ le 1 x.kind ++ [0] ++ le 2 c.epoch ++ zeros 2 ++ le 8 c.start ++ le 4 c.used ++ zeros 4))
      let pg := page 24 first.toNat es
      Reads (exec (.archiveQuery h w first) s) 0x0505 h s
        (le 2 s.archive.epoch ++ le 2 s.archive.extents.length ++ le 2 pg.1.length ++ le 2 pg.2
          ++ le 8 s.archive.unassigned ++ pg.1.flatten)) ∧
    (∀ first : W16, Taken (gateNotRelay 0x0506) h s →
      let pg := page 24 first.toNat (s.streams.map (fun x =>
        le 2 x.slot.toNat ++ le 1 x.kind ++ le 1 (x.ring.getD 0xFE) ++ le 4 x.seq ++ le 4 x.drops ++ zeros 4))
      Reads (exec (.outputQuery h first) s) 0x0506 h s
        (le 4 s.heldTags.length ++ le 1 s.oldestRing ++ [0] ++ le 2 pg.1.length ++ le 4 s.tags.waitTicks ++ le 2 pg.2
          ++ zeros 2 ++ pg.1.flatten)) ∧
    (∀ p : Byte, Taken (gateNotRelay 0x0602) h s → p.toNat ≤ 3 →
      let a := s.audioPort p.toNat
      Reads (exec (.audioPortQuery h p) s) 0x0602 h s
        ([p] ++ le 1 a.state ++ le 1 a.progs.length ++ zeros 1 ++ le 4 a.q
          ++ le 2 (match a.pilot with | some f => f.toNat | none => 0xFFFF) ++ le 1 a.pilotWhy ++ zeros 1 ++ leInt 4 a.y
          ++ leInt 4 a.ep ++ le 8 a.firstFrame.toNat ++ le 4 a.underruns ++ le 4 a.overruns ++ le 4 a.fades ++ le 4 a.faults
          ++ a.progs.flatMap progEntry)) ∧
    (∀ p : Byte, Taken (gateNotRelay 0x0702) h s → p.toNat ≤ 3 →
      let x := s.pkts.getD p.toNat ⟨[], none, 0, 0, 0, 0, 0, 0⟩
      Reads (exec (.pktPortQuery h p) s) 0x0702 h s
        ([p] ++ le 1 ((s.pktSet p.toNat).nat 1) ++ zeros 2
          ++ le 2 (match s.pktStream p.toNat with | some y => y.slot.toNat | none => 0xFFFF) ++ zeros 2 ++ le 4 x.rate
          ++ le 4 x.sent ++ le 4 x.dropped ++ le 4 x.late)) ∧
    (∀ p : Byte, 3 < p.toNat →
      (Taken (gateNotRelay 0x0602) h s → Replies (exec (.audioPortQuery h p) s) 0x0602 h s .badParam noTick [] s1) ∧
      (Taken (gateNotRelay 0x0702) h s → Replies (exec (.pktPortQuery h p) s) 0x0702 h s .badParam noTick [] s1))

/-- With items in range that change something, RING_CONFIG of a ring that is not enabled, ARCHIVE_CONFIG without its
Flush item, AUDIO_PORT_CONFIG of a STOPPED port and PKT_PORT_CONFIG with a mean clock of at most 135 MHz set device
settings that no journal group stores; with no item each reads back what is in force after its selector. Changing the
base, the size or the control block of an enabled ring is BUSY_RUNNING. -/
def Obligations.OutputSettings : Prop :=
  ∀ (h : CmdHdr) (s : State),
    let s1 := s.advance h.wait
    (∀ (r : Byte) items t, Taken (gateNotRelay 0x0501) h s → r.toNat ≤ 63 → items ≠ [] →
      applyItems (tbl101 r.toNat) (fun _ => true) (s.acc.rings.getD r.toNat []) items = some t → ringIncomplete t = false →
      (s.acc.rings.getD r.toNat []).nat 1 ≠ 1 → (s.ringSet r.toNat).nat 1 ≠ 1 →
      Sets (exec (.ringConfig h r items) s) 0x0501 h s none { s.acc with rings := s.acc.rings.set r.toNat t }) ∧
    (∀ (r : Byte) items t, Taken (gateNotRelay 0x0501) h s → r.toNat ≤ 63 → items ≠ [] →
      applyItems (tbl101 r.toNat) (fun _ => true) (s.acc.rings.getD r.toNat []) items = some t → ringIncomplete t = false →
      ((s.acc.rings.getD r.toNat []).nat 1 = 1 ∨ (s.ringSet r.toNat).nat 1 = 1) →
      (∃ i ∈ [2, 3, 4], (s.acc.rings.getD r.toNat []).at i ≠ t.at i) →
      Replies (exec (.ringConfig h r items) s) 0x0501 h s .busyRunning noTick [] s1) ∧
    (∀ r : Byte, Taken (gateNotRelay 0x0501) h s → r.toNat ≤ 63 →
      Reads (exec (.ringConfig h r []) s) 0x0501 h s ([r, 0, 0, 0] ++ readTable (tbl101 r.toNat) (s.ringSet r.toNat))) ∧
    (∀ items t, Taken (gateNotRelay 0x0503) h s → items ≠ [] → (∀ i ∈ items, i.item ≠ 3#8) →
      applyItems tbl109 (fun _ => true) s.acc.archive items = some t →
      Sets (exec (.archiveConfig h items) s) 0x0503 h s none { s.acc with archive := t.take 2 ++ [ItemV.num 0] }) ∧
    (Taken (gateNotRelay 0x0503) h s → Reads (exec (.archiveConfig h []) s) 0x0503 h s (readTable tbl109 s.force.archive)) ∧
    (∀ (p : Byte) items t, Taken (gateNotRelay 0x0601) h s → p.toNat ≤ 3 → items ≠ [] →
      applyItems tbl111 (fun _ => true) (s.acc.audio.getD p.toNat []) items = some t → audioItemsOk t = true →
      (s.audioPort p.toNat).state = 0 →
      Sets (exec (.audioPortConfig h p items) s) 0x0601 h s none { s.acc with audio := s.acc.audio.set p.toNat t }) ∧
    (∀ p : Byte, Taken (gateNotRelay 0x0601) h s → p.toNat ≤ 3 →
      Reads (exec (.audioPortConfig h p []) s) 0x0601 h s ([p, 0, 0, 0] ++ readTable tbl111 (s.audioSet p.toNat))) ∧
    (∀ (p : Byte) items t, Taken (gateNotRelay 0x0701) h s → p.toNat ≤ 3 → items ≠ [] →
      applyItems tbl1010 (fun _ => true) (s.acc.pkt.getD p.toNat []) items = some t →
      1228800000 * 2 ^ 32 ≤ 135000000 * (field (t.raw 2) 0 4 * 2 ^ 32 + field (t.raw 2) 4 4) →
      Sets (exec (.pktPortConfig h p items) s) 0x0701 h s none { s.acc with pkt := s.acc.pkt.set p.toNat t }) ∧
    (∀ p : Byte, Taken (gateNotRelay 0x0701) h s → p.toNat ≤ 3 →
      Reads (exec (.pktPortConfig h p []) s) 0x0701 h s ([p, 0, 0, 0] ++ readTable tbl1010 (s.pktSet p.toNat)))

/-- ARCHIVE_EXTENT_ADD with 1 to 254 extents of whole MiB that overlap none held adds them and answers how many are held
and how many bytes are unassigned; more than 4,096 held would be NO_CAPACITY. AUDIO_PORT_START on ports that are neither
RUNNING nor in CLOCK_FAULT answers with the effective tick, and each named port is to be armed with the trigger at that
tick; AUDIO_PORT_STOP drops the arming of each named port, which is to stop at the effective tick unless it is STOPPED.
Ports not named and everything else stay as they are. -/
def Obligations.ArchiveAndAudioActions : Prop :=
  ∀ (h : CmdHdr) (s : State),
    let s1 := s.advance h.wait
    (∀ es : List Extent, Taken (gateNotRelay 0x0504) h s → 1 ≤ es.length → es.length ≤ 254 →
      extentsOk s.archive.extents es = true → s.archive.extents.length + es.length ≤ 4096 →
      let new := s.archive.extents ++ es.map (fun e => (⟨e.start.toNat, e.length.toNat⟩ : HeldExtent))
      let total := ({ s.archive with extents := new } : ArchiveSt).unassigned
      ∃ low, Replies (exec (.archiveExtentAdd h es) s) 0x0504 h s .ok noTick (le 4 new.length ++ zeros 4 ++ le 8 total)
        { s1 with archive := { s.archive with extents := new, fullSaid := false, lowSaid := low } }) ∧
    (∀ es : List Extent, Taken (gateNotRelay 0x0504) h s → 1 ≤ es.length → es.length ≤ 254 →
      extentsOk s.archive.extents es = true → 4096 < s.archive.extents.length + es.length →
      Replies (exec (.archiveExtentAdd h es) s) 0x0504 h s .noCapacity noTick [] s1) ∧
    (∀ (mask trigger : Byte) (dt : W64), Taken (gateNotRelay 0x0603) h s → maskPorts mask ≠ [] → trigger.toNat ≤ 2 →
      (trigger = 2#8 → s1.effTickIdx * 1000000 ≤ dt.toNat) → (∀ p ∈ maskPorts mask, (s.audioPort p).state < 2) →
      s.audio.length = 4 →
      ∃ t : State, Replies (exec (.audioPortStart h mask trigger dt) s) 0x0603 h s .ok s1.effTick [] t ∧
        t = { s1 with audio := t.audio } ∧
        ∀ p < 4, t.audioPort p = if p ∈ maskPorts mask then
            { s.audioPort p with
              armTicks := some (s1.effTicks, ⟨trigger.toNat, if trigger = 2#8 then dt else 0#64⟩), stopTicks := none }
          else s.audioPort p) ∧
    (∀ (mask : Byte), Taken (gateNotRelay 0x0604) h s → maskPorts mask ≠ [] → s.audio.length = 4 →
      ∃ t : State, Replies (exec (.audioPortStop h mask) s) 0x0604 h s .ok s1.effTick [] t ∧
        t = { s1 with audio := t.audio } ∧
        ∀ p < 4, t.audioPort p = if p ∈ maskPorts mask then
            { s.audioPort p with armTicks := none, stopTicks := if (s.audioPort p).state = 0 then none else some s1.effTicks }
          else s.audioPort p)

/-- Each query in range that passes checks 1 to 6 completes with OK and changes nothing but the time: L, flags, time
state, source and tick; expiry and rows of the leap table in force; state, band, window and losses of both synthesisers
at the start of the clock rows; references, state, e, eps and holdover; gain settings in force, attenuation and
measurements of the input; plan in force, proposal, policy, mask and ranking; wire levels, reasons, grants, withheld
grants and blanked time. -/
def Obligations.TimeAndRfQueriesAnswer : Prop :=
  ∀ (h : CmdHdr) (s : State),
    let s1 := s.advance h.wait
    (Taken (gateAll 0x0802) h s →
      Reads (exec (.timeQuery h) s) 0x0802 h s
        (leInt 2 (leapL s.leapTable s1.now)
          ++ le 1 ((if s.leapExpiry.toNat < s1.now then 1 else 0) + (if s.time.armed then 2 else 0))
          ++ le 1 s.refs.tstate.code ++ le 1 s1.timeSourceCode ++ le 1 s.refs.freqRef ++ [0, 0] ++ le 8 (s1.now / 1000000))) ∧
    (Taken (gateAll 0x0804) h s →
      Reads (exec (.leapTableQuery h) s) 0x0804 h s
        (le 8 s.leapExpiry.toNat ++ le 1 s.leapTable.length ++ zeros 7 ++ s.leapTable.flatMap (fun r =>
          le 8 r.dt.toNat ++ [if r.deleted then 1 else 0, BitVec.ofNat 8 r.origin] ++ le 2 r.l.toNat ++ zeros 4))) ∧
    (Taken (gateAll 0x0806) h s →
      ∃ rows, Reads (exec (.clockQuery h) s) 0x0806 h s
        (le 1 (if s.clk.pllS.locked then 1 else 0) ++ le 1 s.clk.pllS.band ++ le 2 s.force.lockS.window.toNat
          ++ le 4 s.clk.pllS.losses ++ le 1 (if s.clk.pllG.locked then 1 else 0) ++ le 1 s.clk.pllG.band
          ++ le 2 s.force.lockG.window.toNat ++ le 4 s.clk.pllG.losses ++ le 2 s.force.lockS.n.toNat
          ++ le 2 s.force.lockG.n.toNat ++ zeros 4 ++ rows)) ∧
    (Taken (gateAll 0x0808) h s →
      let held := if s.refs.tstate = .holdover ∨ s.refs.tstate = .expired then s.refs.holdTicks else 0
      Reads (exec (.refQuery h) s) 0x0808 h s
        (le 1 s.refs.freqRef ++ le 1 (if s.refs.freqHold then 1 else 0) ++ le 1 s1.timeSourceCode ++ le 1 s.refs.tstate.code
          ++ le 4 (held / 1000) ++ leInt 8 s.refs.e ++ leInt 8 s.refs.eps
          ++ le 8 (held * (if s.force.refs.xoKind = 1#8 then 1 else 20))
          ++ (List.range 9).flatMap (fun c => le 1 c ++ le 1 (s1.refQualBits c) ++ [0, 0] ++ le 4 (s1.refRemain c)))) ∧
    (∀ i : Byte, Taken (gateAll 0x0902) h s → i.toNat ≤ 2 →
      let c := rfCfg s.force i.toNat
      let x := s.input i.toNat
      Reads (exec (.rfQuery h i) s) 0x0902 h s
        ([i, c.mode, c.target] ++ le 1 x.atten ++ le 4 x.ovlLast ++ le 4 x.ovlTotal ++ le 4 x.ovlTicks ++ leInt 2 x.rms
          ++ leInt 2 x.peak ++ zeros 4)) ∧
    (∀ i : Byte, Taken (gateAll 0x0902) h s → 2 < i.toNat →
      Replies (exec (.rfQuery h i) s) 0x0902 h s .badParam noTick [] s1) ∧
    (Taken (gateAll 0x0905) h s →
      let prop := match s.plan.proposal with | some x => (x.plan, x.reason, x.changeTick) | none => (0xFF, 0, 0)
      ∃ rows, Reads (exec (.planQuery h) s) 0x0905 h s
        (le 1 s.plan.plan ++ le 1 prop.1 ++ le 1 prop.2.1 ++ [s.force.plan.policy, s.force.plan.mask] ++ zeros 3 ++ le 8 prop.2.2
          ++ le 8 (match s.plan.deferEnd with | some e => e.toNat | none => 0) ++ rows)) ∧
    (Taken (gateAll 0x0907) h s →
      Reads (exec (.coexQuery h) s) 0x0907 h s
        (le 1 s.coex.wires ++ zeros 3 ++ zeros 8 ++ s.coex.reasons.flatMap (le 4) ++ le 4 s.coex.grants ++ le 4 s.coex.withheld
          ++ le 4 (sat32 ((s.coex.enter s.coex.phase s1.time.dt).blankedNs / 1000))))

/-- In range and with a change, each sets device settings: the host entries of the leap table with their expiry, and the
synthesisers, clocks and references in the REFERENCES group; gain, plan policy and coexistence in the RF group. The
divider of an ADC clock is set in MAINTAIN only and stored in no group. REF_CONFIG replaces the entry of each code named
and keeps PREF_SLOT for codes 1 to 4; RF_CONFIG keeps ATTEN outside MANUAL; PLAN_POLICY keeps PLAN outside FIXED.
Without parameters REF_CONFIG, PLAN_POLICY and COEX_CONFIG answer what is in force. -/
def Obligations.TimeAndRfSettings : Prop :=
  ∀ (h : CmdHdr) (s : State),
    (∀ (m : Byte) (exp : W64) (es : List LeapEntry), Taken (gateAll 0x0803) h s → m.toNat ≤ 1 → es.length ≤ 32 →
      leapEntriesOk es = true →
      let host := hostLeapAfter m.toNat s.acc.leapHost es
      let tab := mergeLeap (host.map leapRow) s.time.learned s.time.image
      leapStepsOk 0 tab = true → tab.length ≤ 32 →
      Sets (exec (.leapTableSet h m exp es) s) 0x0803 h s (some 1) { s.acc with leapHost := host, leapExpiry := some exp }) ∧
    (∀ b : ClockBody, Taken (gateAll 0x0805) h s → clockBodyAdc b = false → clockBodyOk b = true →
      Sets (exec (.clockConfig h b) s) 0x0805 h s (some 1) (clockBodyPut b s.acc)) ∧
    (∀ b : ClockBody, Taken ⟨0x0805, .none, [.maintain], .none⟩ h s → clockBodyAdc b = true → clockBodyOk b = true →
      Sets (exec (.clockConfig h b) s) 0x0805 h s none (clockBodyPut b s.acc)) ∧
    (∀ p : RefParams, Taken (gateAll 0x0807) h s → 60 ≤ p.holdoverS.toNat → p.holdoverS.toNat ≤ 604800 → p.xoKind.toNat ≤ 1 →
      1 ≤ p.entries.length → p.entries.length ≤ 7 → (∀ e ∈ p.entries, s.refEntryOk e = true) →
      (p.entries.map (·.code)).Nodup →
      Sets (exec (.refConfig h (some p)) s) 0x0807 h s (some 1)
        { s.acc with refs := ⟨p.holdoverS, p.xoKind, s.acc.refs.entries.map (fun o =>
          match p.entries.find? (fun n => n.code == o.code) with
          | some n => if o.code.toNat < 5 then { n with prefSlot := o.prefSlot } else n
          | none => o)⟩ }) ∧
    (Taken (gateAll 0x0807) h s → Reads (exec (.refConfig h none) s) 0x0807 h s (refParamBytes s.force.refs)) ∧
    (∀ i g t a : Byte, Taken (gateAll 0x0901) h s → i.toNat ≤ 2 → g.toNat ≤ 2 → -24 ≤ t.toInt → t.toInt ≤ -10 →
      (g = 2#8 → a.toNat ≤ 30 ∧ (i = 2#8 → a.toNat % 3 = 0)) →
      Sets (exec (.rfConfig h i g t a) s) 0x0901 h s (some 2)
        { s.acc with rf := s.acc.rf.set i.toNat ⟨g, t, if g = 2#8 then a else (rfCfg s.acc i.toNat).atten⟩ }) ∧
    (∀ p : PlanPolicyParams, Taken (gateNotRelay 0x0903) h s → p.policy.toNat ≤ 2 → p.mask &&& 0x0F#8 ≠ 0#8 →
      (p.policy = 0#8 → p.plan.toNat ≤ 3 ∧ p.mask.getLsbD p.plan.toNat = true) →
      Sets (exec (.planPolicy h (some p)) s) 0x0903 h s (some 2)
        { s.acc with plan := ⟨p.policy, p.mask &&& 0x0F#8, if p.policy = 0#8 then p.plan else s.acc.plan.plan⟩ }) ∧
    (Taken (gateNotRelay 0x0903) h s →
      Reads (exec (.planPolicy h none) s) 0x0903 h s [s.force.plan.policy, s.force.plan.mask, s.force.plan.plan, 0]) ∧
    (∀ items t, Taken (gateAll 0x0906) h s → items ≠ [] → applyItems tbl39 (fun _ => true) s.acc.coex items = some t →
      Sets (exec (.coexConfig h items) s) 0x0906 h s (some 2) { s.acc with coex := t }) ∧
    (Taken (gateAll 0x0906) h s → Reads (exec (.coexConfig h []) s) 0x0906 h s (readTable tbl39 s.force.coex))

/-- TIME_SET with FORM 0 sets the DT to take at the next PPS edge (whole seconds only), FORM 1 adds to the offset that
waits for the tick, ARM 1 arms instead, and FORM 2 disarms, or is NOT_FOUND where nothing is armed. PPS_TOD labels the
next edge with a whole second. PLAN_DEFER with 1 to 600 s, where a proposal or a deferral stands, ends its deferral that
much later and clears the change tick; where none stands it is NOT_FOUND. COMB_TEST in MAINTAIN switches the comb of one
input. Nothing else changes beside the reply. -/
def Obligations.TimeAndRfActions : Prop :=
  ∀ (h : CmdHdr) (s : State),
    let s1 := s.advance h.wait
    (∀ v : W64, Taken (gateAll 0x0801) h s → v.toNat % 1000000000 = 0 →
      Replies (exec (.timeSet h 0#8 0#8 v) s) 0x0801 h s .ok noTick (le 1 (if s.time.armed then 1 else 0) ++ zeros 7)
        { s1 with time := { s1.time with atPps := some v } }) ∧
    (∀ v : W64, Taken (gateAll 0x0801) h s → v.toNat % 1000000000 ≠ 0 →
      Replies (exec (.timeSet h 0#8 0#8 v) s) 0x0801 h s .badParam noTick [] s1) ∧
    (∀ v : W64, Taken (gateAll 0x0801) h s →
      Replies (exec (.timeSet h 1#8 0#8 v) s) 0x0801 h s .ok noTick (le 1 (if s.time.armed then 1 else 0) ++ zeros 7)
        { s1 with time := { s1.time with offset := some (s.time.offset.getD 0 + v.toInt) } }) ∧
    (∀ v : W64, Taken (gateAll 0x0801) h s →
      Replies (exec (.timeSet h 1#8 1#8 v) s) 0x0801 h s .ok noTick (le 1 1 ++ zeros 7)
        { s1 with time := { s1.time with armed := true } }) ∧
    (∀ v : W64, Taken (gateAll 0x0801) h s → s.time.armed = true →
      Replies (exec (.timeSet h 2#8 0#8 v) s) 0x0801 h s .ok noTick (le 1 0 ++ zeros 7)
        { s1 with time := { s1.time with armed := false } }) ∧
    (∀ v : W64, Taken (gateAll 0x0801) h s → s.time.armed = false →
      Replies (exec (.timeSet h 2#8 0#8 v) s) 0x0801 h s .notFound noTick [] s1) ∧
    (∀ d : W64, Taken (gateAll 0x0809) h s → d.toNat % 1000000000 = 0 →
      Replies (exec (.ppsTod h d) s) 0x0809 h s .ok noTick []
        { s1 with refs := { s.refs with ppsTod := some (d, s1.time.dt) } }) ∧
    (∀ n : W16, Taken (gateNotRelay 0x0904) h s → 1 ≤ n.toNat → n.toNat ≤ 600 →
      (s.plan.proposal.isSome = true ∨ s.plan.deferEnd.isSome = true) →
      let e := s1.time.dt + BitVec.ofNat 64 (n.toNat * 1000000000)
      Replies (exec (.planDefer h n) s) 0x0904 h s .ok noTick (le 8 e.toNat)
        { s1 with plan := { s.plan with deferEnd := some e
                                        proposal := s.plan.proposal.map (fun p => { p with changeTick := 0 }) } }) ∧
    (∀ n : W16, Taken (gateNotRelay 0x0904) h s → n.toNat ≤ 600 → s.plan.proposal = none → s.plan.deferEnd = none →
      Replies (exec (.planDefer h n) s) 0x0904 h s .notFound noTick [] s1) ∧
    (∀ i on : Byte, Taken ⟨0x0908, .none, [.maintain], .none⟩ h s → i.toNat ≤ 2 → on.toNat ≤ 1 →
      Replies (exec (.combTest h i on) s) 0x0908 h s .ok noTick []
        { s1 with rf := s.rf.modify i.toNat (fun x => { x with comb := on == 1#8 }) })

/-- Each query in range that passes checks 1 to 6 completes with OK and changes nothing but the time: phase,
coefficients and users of a bank, or its users alone where it is not loaded; the lanes of a service, or without a slot
the band lanes with their carriers; the analogue engine state and the values of Table 6.9; the loaded format;
synchronisation, mode, ensemble and CIF count of a DAB engine with the values of Table 7.5, zeros where there is none;
the television engine state with the values of Table 8.9; the LDPC pool with a row per band and its counters. A format
that is not loaded is NOT_FOUND, and a service of another standard BAD_PARAM. -/
def Obligations.EngineQueriesAnswer : Prop :=
  ∀ (h : CmdHdr) (s : State),
    let s1 := s.advance h.wait
    let g (op : Nat) : Gate := ⟨op, .service, allModes, .none⟩
    (∀ c b : Byte, Taken (gateAll 0x0A02) h s → c.toNat ≤ 1 → b.toNat ≤ 7 → s.bank? c.toNat b.toNat = none →
      Reads (exec (.firBankQuery h c b) s) 0x0A02 h s ([c, b, 0, 0] ++ le 2 (s.bankUsers c.toNat b.toNat) ++ zeros 10)) ∧
    (∀ (c b : Byte) k, Taken (gateAll 0x0A02) h s → c.toNat ≤ 1 → b.toNat ≤ 7 → s.bank? c.toNat b.toNat = some k →
      Reads (exec (.firBankQuery h c b) s) 0x0A02 h s
        ([c, b] ++ le 1 k.phase ++ le 1 k.coeffs.length ++ le 2 (s.bankUsers c.toNat b.toNat) ++ zeros 2
          ++ leInt 4 (k.coeffs.foldl (· + ·) 0) ++ le 4 (s.bankDelay c.toNat b.toNat) ++ k.coeffs.flatMap (leInt 4))) ∧
    (∀ (first : W16) v, Taken ⟨0x0A03, .either, allModes, .none⟩ h s → s.svc? h.slot = some v →
      let pg := page 16 first.toNat ((s.lanes.filter (fun l => (l.users ++ l.joining).contains v.slot)).map s1.laneEntry)
      Reads (exec (.laneQuery h first) s) 0x0A03 h s (le 2 pg.1.length ++ le 2 pg.2 ++ zeros 4 ++ pg.1.flatten)) ∧
    (∀ first : W16, Taken ⟨0x0A03, .either, allModes, .none⟩ h s → s.svc? h.slot = none →
      let pg := page 16 first.toNat ((s.lanes.filter (fun l => l.cls != 2)).map (fun l => s1.laneEntry l ++ carrierEntries l))
      Reads (exec (.laneQuery h first) s) 0x0A03 h s (le 2 pg.1.length ++ le 2 pg.2 ++ zeros 4 ++ pg.1.flatten)) ∧
    (∀ v, Taken (g 0x0A06) h s → s.svc? h.slot = some v → 1 ≤ keyStd v.acc.attrs.key → keyStd v.acc.attrs.key ≤ 4 →
      let a := v.analogue
      Reads (exec (.analogueQuery h) s) 0x0A06 h s
        (le 1 ((if a.pilot then 1 else 0) + (if a.rdsSync then 2 else 0) + (if a.syncLock then 4 else 0))
          ++ le 1 (a.tcReason.getD 0xFF) ++ le 2 v.blend ++ le 2 (v.tableValues 0x69).length ++ zeros 2
          ++ le 8 (match a.tcLabel with | some d => d.toNat | none => 0) ++ (v.tableValues 0x69).flatMap StatItem_bytes)) ∧
    (∀ v, Taken (g 0x0A06) h s → s.svc? h.slot = some v → 4 < keyStd v.acc.attrs.key →
      Replies (exec (.analogueQuery h) s) 0x0A06 h s .badParam noTick [] s1) ∧
    (∀ (n : Byte) f, Taken (gateAll 0x0A08) h s → n.toNat ≤ 7 → s.format? n.toNat = some f →
      Reads (exec (.timecodeFormatQuery h n) s) 0x0A08 h s (formatBytes f)) ∧
    (∀ n : Byte, Taken (gateAll 0x0A08) h s → n.toNat ≤ 7 → s.format? n.toNat = none →
      Replies (exec (.timecodeFormatQuery h n) s) 0x0A08 h s .notFound noTick [] s1) ∧
    (∀ v d, Taken (g 0x0A0A) h s → s.svc? h.slot = some v → keyRxStd v.acc.attrs.key = 5 → s.engineOf v = some (.dab d) →
      Reads (exec (.dabQuery h) s) 0x0A0A h s
        (le 1 (if d.synced = false then 0
            else if d.notInMci && (keyStd v.acc.attrs.key == 5 && (d.subCh? v.acc.attrs.key).isNone) then 1 else 2)
          ++ le 1 d.txMode ++ le 2 d.eid.toNat ++ le 2 d.cif ++ le 2 (v.tableValues 0x75).length
          ++ (v.tableValues 0x75).flatMap StatItem_bytes)) ∧
    (∀ v, Taken (g 0x0A0A) h s → s.svc? h.slot = some v → keyRxStd v.acc.attrs.key = 5 → s.engineOf v = none →
      Reads (exec (.dabQuery h) s) 0x0A0A h s
        (zeros 6 ++ le 2 (v.tableValues 0x75).length ++ (v.tableValues 0x75).flatMap StatItem_bytes)) ∧
    (∀ v d, Taken (g 0x0A0C) h s → s.svc? h.slot = some v →
      (keyRxStd v.acc.attrs.key = 6 ∨ keyRxStd v.acc.attrs.key = 7) → s.engineOf v = some (.tv d) → d.lostAt = none →
      let vals := v.tableValues 0x89
      Reads (exec (.tvQuery h) s) 0x0A0C h s
        (le 1 (if d.synced = false then 0 else if d.unsupported then 2 else if v.notDecodable then 3 else 1)
          ++ le 1 d.signal.std ++ le 1 d.signal.bandwidth ++ le 1 (min 4 (v.plps v.rx).length) ++ plpIds (v.plps v.rx)
          ++ le 2 vals.length ++ le 2 d.signal.sig.length ++ pad4 d.signal.sig ++ vals.flatMap StatItem_bytes)) ∧
    (∀ v, Taken (g 0x0A0C) h s → s.svc? h.slot = some v → keyRxStd v.acc.attrs.key = 5 →
      Replies (exec (.tvQuery h) s) 0x0A0C h s .badParam noTick [] s1) ∧
    (Taken (gateAll 0x0A0E) h s →
      ∃ rows, Reads (exec (.ldpcQuery h) s) 0x0A0E h s
        (leInt 4 ((190 : Int) - (((List.range 4).map s.bandCap).sum : Nat)) ++ rows ++ le 4 s.ldpc.extended
          ++ le 4 s.ldpc.interrupted ++ le 4 s.ldpc.dropped))

/-- In range and with a change, FIR_BANK_LOAD of a bank without users, TIMECODE_FORMAT_LOAD of a format no service
names, and LANE_CONFIG, DAB_CONFIG and TV_CONFIG without a slot set device settings that no group stores, and
LDPC_POLICY those of the PLACEMENT group, an extended limit below the limit being raised to it; with a slot LANE_CONFIG,
ANALOGUE_CONFIG, DAB_CONFIG and TV_CONFIG set that service, whose generation advances. ANALOGUE_CONFIG with no item
reads back the items that apply to the service. A bank in use is BUSY_RUNNING. -/
def Obligations.EngineSettings : Prop :=
  ∀ (h : CmdHdr) (s : State),
    let s1 := s.advance h.wait
    let g (op : Nat) (u : SlotUse) : Gate := ⟨op, u, notRelay, .none⟩
    let setsSvc (r : Res) (op : Nat) (v : Service) (a : SvcSettings) : Prop :=
      a ≠ v.acc → RepliesGen r op h s .ok (v.acc.gen + 1) s1.effTick [] (s1.withSvc v.slot a)
    (∀ (c b ph : Byte) (cs : List W32), Taken (gateNotRelay 0x0A01) h s → c.toNat ≤ 1 → b.toNat ≤ 7 →
      builtinBank c.toNat b.toNat = false → ph.toNat ≤ 1 → 1 ≤ cs.length → cs.length ≤ 128 → (∀ x ∈ cs, coeffOk x = true) →
      (ph = 0#8 → cs = cs.reverse) →
      32768 ≤ cs.foldl (fun a x => a + x.toInt) (0 : Int) → cs.foldl (fun a x => a + x.toInt) (0 : Int) ≤ 131072 →
      s.bankUsers c.toNat b.toNat = 0 →
      Sets (exec (.firBankLoad h c b ph cs) s) 0x0A01 h s none
        { s.acc with fir := s.acc.fir.filter (fun x => !(x.cls == c.toNat && x.bank == b.toNat))
            ++ [⟨c.toNat, b.toNat, ph.toNat, cs⟩] }) ∧
    (∀ (c b ph : Byte) (cs : List W32), Taken (gateNotRelay 0x0A01) h s → c.toNat ≤ 1 → b.toNat ≤ 7 →
      builtinBank c.toNat b.toNat = false → ph.toNat ≤ 1 → 1 ≤ cs.length → cs.length ≤ 128 → (∀ x ∈ cs, coeffOk x = true) →
      (ph = 0#8 → cs = cs.reverse) →
      32768 ≤ cs.foldl (fun a x => a + x.toInt) (0 : Int) → cs.foldl (fun a x => a + x.toInt) (0 : Int) ≤ 131072 →
      0 < s.bankUsers c.toNat b.toNat →
      Replies (exec (.firBankLoad h c b ph cs) s) 0x0A01 h s .busyRunning noTick [] s1) ∧
    (∀ items t, Taken (g 0x0A04 .either) h s → s.svc? h.slot = none → items ≠ [] →
      applyItems tbl57 (fun i => i != 1) s.acc.lane items = some t →
      Sets (exec (.laneConfig h items) s) 0x0A04 h s none { s.acc with lane := t }) ∧
    (∀ items t v, Taken (g 0x0A04 .either) h s → s.svc? h.slot = some v → s.slotSvc? v.slot = some v → items ≠ [] →
      applyItems tbl57 (fun _ => true) v.acc.lane items = some t → s.bankItemOk v.acc.attrs.key t = true →
      setsSvc (exec (.laneConfig h items) s) 0x0A04 v { v.acc with lane := t }) ∧
    (∀ items t v, Taken (g 0x0A05 .service) h s → s.svc? h.slot = some v → s.slotSvc? v.slot = some v → items ≠ [] →
      applyItems tbl61 (analogueApplies v.acc.attrs) v.acc.analogue items = some t → analogueOk v.acc.attrs t = true →
      setsSvc (exec (.analogueConfig h items) s) 0x0A05 v { v.acc with analogue := t }) ∧
    (∀ v, Taken (g 0x0A05 .service) h s → s.svc? h.slot = some v →
      Reads (exec (.analogueConfig h []) s) 0x0A05 h s
        (itemsBytes ((encodeItems 1 tbl61 v.force.analogue).filter (fun i => analogueApplies v.acc.attrs i.item.toNat)))) ∧
    (∀ f : TcFormat, Taken (gateNotRelay 0x0A07) h s → tcFormatOk f = true →
      (∀ v ∈ s.services, v.namesFormat f.format.toNat = false) →
      Sets (exec (.timecodeFormatLoad h f) s) 0x0A07 h s none
        { s.acc with formats := s.acc.formats.filter (fun x => x.format != f.format) ++ [f] }) ∧
    (∀ items t, Taken (g 0x0A09 .either) h s → s.svc? h.slot = none → items ≠ [] →
      applyItems tbl73 (fun i => decide (i ≤ 2)) s.acc.dab items = some t →
      Sets (exec (.dabConfig h items) s) 0x0A09 h s none { s.acc with dab := t }) ∧
    (∀ items t v, Taken (g 0x0A09 .either) h s → s.svc? h.slot = some v → s.slotSvc? v.slot = some v → items ≠ [] →
      applyItems tbl73 (dabApplies v.acc.attrs) v.acc.dab items = some t →
      setsSvc (exec (.dabConfig h items) s) 0x0A09 v { v.acc with dab := t }) ∧
    (∀ items t, Taken (g 0x0A0B .either) h s → s.svc? h.slot = none → items ≠ [] →
      applyItems tbl87 (fun i => i == 1) s.acc.tv items = some t →
      Sets (exec (.tvConfig h items) s) 0x0A0B h s none { s.acc with tv := t }) ∧
    (∀ items t v, Taken (g 0x0A0B .either) h s → s.svc? h.slot = some v → s.slotSvc? v.slot = some v → items ≠ [] →
      applyItems tbl87 (tvApplies v.acc.attrs) v.acc.tv items = some t →
      setsSvc (exec (.tvConfig h items) s) 0x0A0B v { v.acc with tv := t }) ∧
    (∀ bs : List LdpcBand, Taken (gateNotRelay 0x0A0D) h s →
      (∀ b ∈ bs, 4 ≤ b.i.toNat ∧ b.i.toNat ≤ 30 ∧ b.iExt.toNat ≤ 50 ∧ 100 ≤ b.capPct.toNat ∧ b.capPct.toNat ≤ 200
        ∧ b.capPct.toNat % 5 = 0) →
      Sets (exec (.ldpcPolicy h (some bs)) s) 0x0A0D h s (some 3)
        { s.acc with ldpc := bs.map (fun b => if b.iExt.toNat < b.i.toNat then { b with iExt := b.i } else b) }) ∧
    (Taken (gateNotRelay 0x0A0D) h s →
      Reads (exec (.ldpcPolicy h none) s) 0x0A0D h s (s.force.ldpc.flatMap (fun b => [b.i, b.iExt] ++ le 2 b.capPct.toNat)))

/-- CAL_QUERY answers modes, spares and the header of every block, and CAL_READ header and body of a block of Table
13.1; any other block is BAD_PARAM. CAL_CONFIG sets device settings of the CALIBRATION group or reads them back. CAL_RUN
in MAINTAIN, cool and with no job under way, starts the job: of an ADC without its RETIRE_CLEAR option, of the flatness
of inputs, or of the clocks. CAL_WRITE in DORMANT or MAINTAIN of the trim block with this unit, its version, its length
and values in range puts the block in force and the trim into the backup domain; of another unit it is CAL_REJECTED and
changes nothing. -/
def Obligations.CalibrationCommands : Prop :=
  ∀ (h : CmdHdr) (s : State),
    let s1 := s.advance h.wait
    (Taken (gateAll 0x0B02) h s →
      Reads (exec (.calQuery h) s) 0x0B02 h s
        (le 1 s.cal.adcA.mode ++ le 1 s.cal.adcA.spare ++ le 1 s.cal.adcB.mode ++ le 1 s.cal.adcB.spare
          ++ [0x01, 0x02, 0x10, 0x11, 0x12, 0x20, 0x30, 0x40].flatMap s.cal.header)) ∧
    (∀ b : Byte, Taken (gateAll 0x0B03) h s → b.toNat ∈ [0x01, 0x02, 0x10, 0x11, 0x12, 0x20, 0x30, 0x40] →
      Reads (exec (.calRead h b) s) 0x0B03 h s (s.cal.header b.toNat ++ s.cal.body b.toNat)) ∧
    (∀ b : Byte, Taken (gateAll 0x0B03) h s → b.toNat ∉ [0x01, 0x02, 0x10, 0x11, 0x12, 0x20, 0x30, 0x40] →
      Replies (exec (.calRead h b) s) 0x0B03 h s .badParam noTick [] s1) ∧
    (∀ items t, Taken (gateAll 0x0B05) h s → items ≠ [] → applyItems tbl136 (fun _ => true) s.acc.cal items = some t →
      Sets (exec (.calConfig h items) s) 0x0B05 h s (some 4) { s.acc with cal := t }) ∧
    (Taken (gateAll 0x0B05) h s → Reads (exec (.calConfig h []) s) 0x0B05 h s (readTable tbl136 s.force.cal)) ∧
    (∀ t o k : Byte, Taken ⟨0x0B01, .none, [.maintain], .none⟩ h s → s.thermal.level = 0 → s.cal.job = none →
      ((t = 0#8 ∧ k.toNat ≤ 2 ∧ o.toNat ≤ 1) ∨ (t = 1#8 ∧ 1 ≤ k.toNat ∧ k.toNat ≤ 7) ∨ t = 2#8) →
      Replies (exec (.calRun h t o k) s) 0x0B01 h s .ok noTick []
        { s1 with cal := { s.cal with job := some ⟨t.toNat, if t = 0#8 then o.toNat else 0, k.toNat⟩ } }) ∧
    (∀ t o k : Byte, Taken ⟨0x0B01, .none, [.maintain], .none⟩ h s → t = 2#8 → 1 ≤ s.thermal.level →
      Replies (exec (.calRun h t o k) s) 0x0B01 h s .thermalLimit noTick [] s1) ∧
    (∀ b : CalBlock, Taken ⟨0x0B04, .none, [.dormant, .maintain], .none⟩ h s → b.block = 0x40#8 → b.version = 1#8 →
      b.body.length = calLen 0x40 → b.unit = Config.unitId → calValuesOk b = true →
      let v := BitVec.ofNat 16 (field b.body 0 2)
      Replies (exec (.calWrite h b) s) 0x0B04 h s .ok noTick []
        { s1 with
          rtc := { s.rtc with trim := v }
          cal := { s.cal with trim := ⟨writtenHead b, v, (BitVec.ofNat 32 (field b.body 4 4)).toInt⟩ } }) ∧
    (∀ b : CalBlock, Taken ⟨0x0B04, .none, [.dormant, .maintain], .none⟩ h s → b.block = 0x40#8 → b.version = 1#8 →
      b.body.length = calLen 0x40 → b.unit ≠ Config.unitId →
      Replies (exec (.calWrite h b) s) 0x0B04 h s .calRejected noTick [] s1)

/-- TRUNK_CONFIG with a change of role outside DORMANT and MAINTAIN is WRONG_MODE; otherwise it and TRUNK_MASK set
device settings of the TRUNK group. TRUNK_QUERY answers state, role, profiles and the rest of its layout. In the head
role TRUNK_SLEEP from DATA answers the first window and queues the SLEEP packet, and from any other state is
BUSY_RUNNING; TRUNK_WAKE asks for a wake call from SLEEP (type 0x02) or a long call from LOST (type 0x03); TRUNK_REMOTE
keeps the command until the reply of the mast and, in CONTROL or DATA, queues it for the mast; TRUNK_NOISE_QUERY pages
through the carriers, drawing free values for SNR not reported (log entry 5). -/
def Obligations.TrunkCommands : Prop :=
  ∀ (h : CmdHdr) (s : State),
    let s1 := s.advance h.wait
    (∀ items t, Taken (gateAll 0x0C01) h s → items ≠ [] → applyItems tbl121 (fun _ => true) s.acc.trunk items = some t →
      (t.nat 1 = s.acc.trunk.nat 1 ∨ s.power.mode = .dormant ∨ s.power.mode = .maintain) →
      Sets (exec (.trunkConfig h items) s) 0x0C01 h s (some 0) { s.acc with trunk := t }) ∧
    (∀ items t, Taken (gateAll 0x0C01) h s → items ≠ [] → applyItems tbl121 (fun _ => true) s.acc.trunk items = some t →
      t.nat 1 ≠ s.acc.trunk.nat 1 → s.power.mode ≠ .dormant → s.power.mode ≠ .maintain →
      Replies (exec (.trunkConfig h items) s) 0x0C01 h s .wrongMode noTick [] s1) ∧
    (Taken (gateAll 0x0C02) h s →
      ∃ rest, Reads (exec (.trunkQuery h) s) 0x0C02 h s
        (le 1 s.trunk.state.code ++ le 1 s.role ++ le 1 s.trunk.profTx ++ le 1 s.trunk.profRx ++ le 4 (s.force.trunk.nat 2)
          ++ leInt 4 s.trunk.a ++ le 4 s.trunk.d ++ leInt 8 s.trunk.e ++ rest)) ∧
    (∀ rs, Taken (gateHead 0x0C05) h s → maskRangesOk rs = true →
      Sets (exec (.trunkMask h rs) s) 0x0C05 h s (some 0) { s.acc with trunkMask := rs }) ∧
    (∀ (e : Byte) (first : W16), Taken (gateHead 0x0C07) h s → e.toNat ≤ 1 → 80 ≤ first.toNat → first.toNat ≤ 4000 →
      s.trunk.state ≠ .off →
      let ns := carrierNs.filter (fun n => decide (first.toNat ≤ n))
      ∃ entries, Replies (exec (.trunkNoiseQuery h e first) s) 0x0C07 h s .ok noTick
        (le 4 (if e = 0#8 then s.trunk.mh else s.trunk.hm).noiseF.toNat ++ le 2 (ns.take 1016).length
          ++ le 2 ((ns.drop 1016).headD 0xFFFF) ++ entries)
        { s1 with freeCtr := s.freeCtr + 4001 }) ∧
    (∀ dt : W64, Taken (gateHead 0x0C03) h s → s.trunk.state = .data → s1.effTickIdx * 1000000 ≤ dt.toNat → dt ≠ 0#64 →
      let p := s.force.trunk.nat 6 60
      let w := s.force.trunk.nat 7 10 * 2
      Replies (exec (.trunkSleep h dt) s) 0x0C03 h s .ok s1.effTick (le 8 dt.toNat)
        { s1 with trunk := { s.trunk with
          sleepTicks := some s1.effTicks, firstWin := dt, pS := p, wMs := w
          toSend := s.trunk.toSend ++ [⟨2, 0, trunkPacket 10 (le 8 dt.toNat ++ le 2 p ++ le 2 w ++ [1#8] ++ zeros 3)⟩] } }) ∧
    (∀ dt : W64, Taken (gateHead 0x0C03) h s → s.trunk.state ≠ .data →
      Replies (exec (.trunkSleep h dt) s) 0x0C03 h s .busyRunning noTick [] s1) ∧
    (Taken (gateHead 0x0C04) h s → s.trunk.state = .sleep →
      Replies (exec (.trunkWake h) s) 0x0C04 h s .ok noTick []
        { s1 with trunk := { s.trunk with callType := 2, callDue := some s1.time.dt } }) ∧
    (Taken (gateHead 0x0C04) h s → s.trunk.state = .lost →
      Replies (exec (.trunkWake h) s) 0x0C04 h s .ok noTick []
        { s1 with trunk := { s.trunk with callType := 3, callDue := some s1.time.dt } }) ∧
    (∀ pkt, Taken (gateHead 0x0C06) h s → s.trunk.state = .data →
      Awaits (exec (.trunkRemote h pkt) s) h s
        { s1 with trunk := { s.trunk with
          remotes := s.trunk.remotes ++ [⟨s.nextId, h.tr, h.seq, BitVec.ofNat 16 (field pkt 4 2), pkt, 0, s1.time.dt, none, none⟩]
          toSend := s.trunk.toSend ++ [⟨2, s.nextId + 2, trunkPacket 2 pkt⟩] } }) ∧
    (∀ pkt, Taken (gateHead 0x0C06) h s → (s.trunk.state = .off ∨ s.trunk.state = .lost) →
      Replies (exec (.trunkRemote h pkt) s) 0x0C06 h s .notFound noTick [] s1)

/-- IMAGE_BEGIN of a slot that neither runs nor is scheduled, cool and held by nobody else, erases its first sector, and
the slot receives; of the running slot it is BUSY_RUNNING. IMAGE_DATA takes the next bytes of the transfer: while the
header is not whole only the header copy grows. IMAGE_END of a transfer that is not complete refuses the slot with
reason 0x0E; of one whose digest holds it programs the header page, and the slot is BOOTABLE. IMAGE_ACTIVATE of a
bootable slot at a DT not before the effective tick schedules it. IMAGE_QUERY and SETTINGS_QUERY answer slots and
journal. OTP_KEY in MAINTAIN with the CONFIRM value programs an empty key slot, and is LOCKED where the slot holds a
hash. -/
def Obligations.ImageAndKeyCommands : Prop :=
  ∀ (h : CmdHdr) (s : State),
    let s1 := s.advance h.wait
    (∀ (i : Byte) (len : W32), Taken (gateAll 0x0D01) h s → i.toNat ≤ 1 → s.runs i.toNat = false →
      (s.slot i.toNat).state ≠ .scheduled → (s.slot i.toNat).heldFrom (.transport h.tr) = false → s.thermal.level = 0 →
      let x : ImgSlot := ⟨.receiving, 0, 0#32, 0, none, some ⟨.transport h.tr, len.toNat, 0, [], 0#8⟩⟩
      Replies (exec (.imageBegin h i len) s) 0x0D01 h s .ok noTick []
        ({ s1 with flash := { s.flash with mem := Memory.clear s.flash.mem (s.slotBase i.toNat) 65536 } }.modSlot i.toNat (fun _ => x))) ∧
    (∀ (i : Byte) (len : W32), Taken (gateAll 0x0D01) h s → i.toNat ≤ 1 → s.runs i.toNat = true →
      Replies (exec (.imageBegin h i len) s) 0x0D01 h s .busyRunning noTick [] s1) ∧
    (∀ (i : Byte) (off : W32) (data : List Byte) (t : ImgTransfer), Taken (gateAll 0x0D02) h s → i.toNat ≤ 1 →
      (s.slot i.toNat).transfer = some t → t.owner = .transport h.tr → (s.slot i.toNat).state = .receiving →
      off.toNat = t.next → t.next + data.length ≤ t.length → s.thermal.level = 0 → t.head.length + data.length < 384 →
      t.head.length = t.next → 1 ≤ data.length →
      Replies (exec (.imageData h i off data) s) 0x0D02 h s .ok noTick []
        (s1.modSlot i.toNat (fun x => { x with
          transfer := some { t with next := t.next + data.length, head := t.head ++ data, chainSeq := 0#8 } }))) ∧
    (∀ (i : Byte) (t : ImgTransfer), Taken (gateAll 0x0D03) h s → i.toNat ≤ 1 → s.thermal.level = 0 →
      (s.slot i.toNat).transfer = some t → t.owner = .transport h.tr → (s.slot i.toNat).state = .receiving → t.next < t.length →
      let u := s1.modSlot i.toNat (fun x => { x with state := .refused, reason := 0x0E, transfer := none })
      Replies (exec (.imageEnd h i) s) 0x0D03 h s .imageRefused noTick (u.slot i.toNat).endReply u) ∧
    (∀ (i : Byte) (t : ImgTransfer), Taken (gateAll 0x0D03) h s → i.toNat ≤ 1 → s.thermal.level = 0 →
      (s.slot i.toNat).transfer = some t → t.owner = .transport h.tr → (s.slot i.toNat).state = .receiving → t.length ≤ t.next →
      384 ≤ t.head.length → s.digestOk i.toNat t.head = true →
      let u := ({ s1 with flash := { s.flash with mem := Memory.writeN flashDefault s.flash.mem (s.slotBase i.toNat) t.head } }).modSlot
        i.toNat (fun x => { x with state := .bootable, reason := 0, transfer := none })
      Replies (exec (.imageEnd h i) s) 0x0D03 h s .ok noTick (u.slot i.toNat).endReply u) ∧
    (∀ (i : Byte) (dt : W64), Taken (gateAll 0x0D04) h s → i.toNat ≤ 1 → s.runs i.toNat = false →
      s1.effTickIdx * 1000000 < dt.toNat → s.power.recovery = false → s.thermal.level = 0 →
      (s.slot 0).state ≠ .scheduled → (s.slot 1).state ≠ .scheduled → s.journal.readOnly = false →
      (s.slot i.toNat).state = .bootable →
      Replies (exec (.imageActivate h i dt) s) 0x0D04 h s .ok noTick []
        (s1.modSlot i.toNat (fun x => { x with state := .scheduled, reason := 0, activate := some dt }))) ∧
    (Taken (gateAll 0x0D05) h s →
      let one (x : ImgSlot) : List Byte := le 1 x.state.code ++ le 1 x.reason ++ zeros 2 ++ le 4 x.version.toNat ++ le 4 x.length
        ++ zeros 4 ++ le 8 (match x.activate with | some d => d.toNat | none => 0)
      Reads (exec (.imageQuery h) s) 0x0D05 h s
        (le 1 (if s.power.recovery then 0xFF else s.flash.running) ++ zeros 3 ++ one s.flash.slot0 ++ one s.flash.slot1)) ∧
    (Taken (gateAll 0x0D06) h s →
      Reads (exec (.settingsQuery h) s) 0x0D06 h s
        (le 2 s.flash.format ++ le 1 (if s.journal.readOnly then 1 else 0)
          ++ le 1 ((s.journal.sectors.filter (fun x => x.spare && !x.retired)).length) ++ le 4 s.journal.records.length
          ++ s.journal.sectors.flatMap (fun x => le 4 x.erases))) ∧
    (∀ (k : Byte) (hash : List Byte) (key : OtpKey), Taken ⟨0x0D08, .none, [.maintain], .none⟩ h s → k.toNat ≤ 3 →
      s.flash.keys[k.toNat]? = some key → key.hash = none →
      Replies (exec (.otpKey h 0#8 k 0x9484#16 hash) s) 0x0D08 h s .ok noTick []
        { s1 with flash := { s.flash with keys := s.flash.keys.set k.toNat { key with hash := some hash } } }) ∧
    (∀ (k : Byte) (hash : List Byte) (key : OtpKey), Taken ⟨0x0D08, .none, [.maintain], .none⟩ h s → k.toNat ≤ 3 →
      s.flash.keys[k.toNat]? = some key → key.hash.isSome = true →
      Replies (exec (.otpKey h 0#8 k 0x9484#16 hash) s) 0x0D08 h s .locked noTick [] s1)

/-- RTC_SET with a calendar value in range waits for the first whole second at or after the effective tick and answers
with its tick; RTC_QUERY answers calendar, flags, trim and alarm; RTC_ALARM sets the alarm and clears ALARM_FLAG;
BACKUP_WRITE replaces the bytes named and BACKUP_READ reads them, padded to 4. A range that leaves the 32 bytes is
BAD_PARAM. While the interface is locked each of them is LOCKED and changes nothing. -/
def Obligations.ClockAndBackupCommands : Prop :=
  ∀ (h : CmdHdr) (s : State),
    let s1 := s.advance h.wait
    (∀ (c : Calendar) (o : Byte), Taken (gateAll 0x0E01) h s → s.rtc.locked = false → o.toNat ≤ 1 → calendarOk c = true →
      Replies (exec (.rtcSet h c o) s) 0x0E01 h s .ok (tick32 (roundUp 1000 s1.effTickIdx)) []
        { s1 with
          acc := { s.acc with gen := s.acc.gen + 1 }
          rtc := { s.rtc with write := s.rtc.write ++
            [⟨o.toNat, ⟨c.year.toNat, c.month.toNat, c.day.toNat, c.hour.toNat, c.minute.toNat, c.second.toNat⟩,
              roundUp 1000 s1.effTickIdx - s1.tickNow⟩] } }) ∧
    (Taken (gateAll 0x0E02) h s → s.rtc.locked = false →
      Reads (exec (.rtcQuery h) s) 0x0E02 h s
        (s.rtc.cal.bytes 0 ++ le 1 ((if s.rtc.halt then 1 else 0) + (if s.rtc.osf then 2 else 0) + (if s.rtc.wasVbat then 4 else 0))
          ++ [0] ++ le 2 s.rtc.trim.toNat ++ s.rtc.alarm.bytes (if s.rtc.alarmEn then 1 else 0))) ∧
    (∀ (c : Calendar) (e : Byte), Taken (gateAll 0x0E05) h s → s.rtc.locked = false → e.toNat ≤ 1 → calendarOk c = true →
      Replies (exec (.rtcAlarm h c e) s) 0x0E05 h s .ok noTick []
        { s1 with rtc := { s.rtc with
          alarm := ⟨c.year.toNat, c.month.toNat, c.day.toNat, c.hour.toNat, c.minute.toNat, c.second.toNat⟩
          alarmEn := e == 1#8
          alarmFlag := false } }) ∧
    (∀ (o : Byte) (d : List Byte), Taken (gateAll 0x0E03) h s → s.rtc.locked = false → 1 ≤ d.length → o.toNat + d.length ≤ 32 →
      Replies (exec (.backupWrite h o d) s) 0x0E03 h s .ok noTick []
        { s1 with rtc := { s.rtc with
          backup := s.rtc.backup.take o.toNat ++ d ++ s.rtc.backup.drop (o.toNat + d.length) } }) ∧
    (∀ o n : Byte, Taken (gateAll 0x0E04) h s → s.rtc.locked = false → 1 ≤ n.toNat → o.toNat + n.toNat ≤ 32 →
      Reads (exec (.backupRead h o n) s) 0x0E04 h s (pad4 ((s.rtc.backup.drop o.toNat).take n.toNat))) ∧
    (∀ o n : Byte, Taken (gateAll 0x0E04) h s → s.rtc.locked = false → 32 < o.toNat + n.toNat →
      Replies (exec (.backupRead h o n) s) 0x0E04 h s .badParam noTick [] s1) ∧
    (s.rtc.locked = true →
      (∀ c o, Taken (gateAll 0x0E01) h s → Replies (exec (.rtcSet h c o) s) 0x0E01 h s .locked noTick [] s1) ∧
      (Taken (gateAll 0x0E02) h s → Replies (exec (.rtcQuery h) s) 0x0E02 h s .locked noTick [] s1) ∧
      (∀ c e, Taken (gateAll 0x0E05) h s → Replies (exec (.rtcAlarm h c e) s) 0x0E05 h s .locked noTick [] s1) ∧
      (∀ o d, Taken (gateAll 0x0E03) h s → Replies (exec (.backupWrite h o d) s) 0x0E03 h s .locked noTick [] s1) ∧
      (∀ o n, Taken (gateAll 0x0E04) h s → Replies (exec (.backupRead h o n) s) 0x0E04 h s .locked noTick [] s1))

/-- A write to INT_STATUS clears in the copy of its bus exactly the W1C bits written as 1; a write to INT_ENABLE sets
that bus copy to the value written without its reserved bits. Neither changes the other bus copy, another register of
its own bank, host memory or anything that is not delivery. On PCIe an enable that turns a condition from 0 to 1 sends
MSI-X vector 0 where MSI-X is enabled and unmasked in D0, or else holds it as pending; one that turns none sends
nothing. On the two-wire bus ATTN_N afterwards is low exactly while an event waits or an enabled condition is set. -/
def Obligations.InterruptRegistersOfABus : Prop :=
  ∀ (b : Bus) (v : W32) (s : State),
    (∃ u, exec (.intStatusWrite b v) s = .next u ∧ u.core = s.core ∧ u.host = s.host ∧
      u.bus b = { s.bus b with intStatus := (s.bus b).intStatus &&& ~~~ (v &&& 0x3F1#32) } ∧
      (∀ c, c ≠ b → u.bus c = s.bus c)) ∧
    (∃ u, exec (.intEnableWrite b v) s = .next u ∧ u.core = s.core ∧ u.host = s.host ∧
      u.bus b = { s.bus b with intEnable := v &&& 0x3F3#32 } ∧ (∀ c, c ≠ b → u.bus c = s.bus c)) ∧
    (s.intStatus .pcie &&& (v &&& 0x3F3#32) &&& ~~~ s.intActive .pcie ≠ 0#32 →
      (s.pcie.msixOn = true → s.pcie.funcMask = false → s.pcie.masked.getLsbD 0 = false → s.pcie.d3 = false →
        ∃ u, exec (.intEnableWrite .pcie v) s = .next u ∧ u.out = s.out ++ [.msix 0] ∧ u.pcie = s.pcie) ∧
      (s.pcie.msixOn = false ∨ s.pcie.funcMask = true ∨ s.pcie.masked.getLsbD 0 = true ∨ s.pcie.d3 = true →
        ∃ u, exec (.intEnableWrite .pcie v) s = .next u ∧ u.out = s.out ∧
          u.pcie = { s.pcie with pba := s.pcie.pba ||| 1#64 })) ∧
    (s.intStatus .pcie &&& (v &&& 0x3F3#32) &&& ~~~ s.intActive .pcie = 0#32 →
      ∃ u, exec (.intEnableWrite .pcie v) s = .next u ∧ u.out = s.out ∧ u.pcie = s.pcie) ∧
    (∃ u, exec (.intEnableWrite .twoWire v) s = .next u ∧
      (u.tw.attnLow = true ↔ u.pTw.events ≠ [] ∨ u.intActive .twoWire ≠ 0#32)) ∧
    (∃ u, exec (.intStatusWrite .twoWire v) s = .next u ∧
      (u.tw.attnLow = true ↔ u.pTw.events ≠ [] ∨ u.intActive .twoWire ≠ 0#32))

/-- A commit of DT_MATCH takes its lower word from the staging shadow. A value other than zero that DT has not reached
arms the match; zero disarms it; a value that DT has reached sets INT_STATUS DT_MATCH at once and disarms it.
DT_MATCH_EXPIRY sets the bit and disarms an armed match that DT has reached, the register keeping its value, and changes
nothing but the time while it is not reached or not armed. The other bus is not touched. -/
def Obligations.DtMatchArmsFiresAndDisarms : Prop :=
  ∀ (b : Bus) (hi : W32) (wait : Nat) (s : State),
    let s1 := s.advance wait
    let v : W64 := hi ++ (s.bus b).stage
    (v ≠ 0#64 → s1.now < v.toNat →
      exec (.dtMatchCommit b hi wait) s = .next (s1.setBus b { s.bus b with dtMatch := v, matchArmed := true })) ∧
    (v = 0#64 →
      exec (.dtMatchCommit b hi wait) s = .next (s1.setBus b { s.bus b with dtMatch := 0#64, matchArmed := false })) ∧
    (v ≠ 0#64 → v.toNat ≤ s1.now → ∃ u, exec (.dtMatchCommit b hi wait) s = .next u ∧ u.core = s1.core ∧ u.host = s.host ∧
      u.bus b = { s.bus b with dtMatch := v, matchArmed := false, intStatus := (s.bus b).intStatus ||| 0x200#32 } ∧
      (∀ c, c ≠ b → u.bus c = s.bus c)) ∧
    ((s.bus b).matchArmed = true → (s.bus b).dtMatch.toNat ≤ s1.now →
      ∃ u, exec (.dtMatchExpiry b wait) s = .next u ∧ u.core = s1.core ∧ u.host = s.host ∧
        u.bus b = { s.bus b with matchArmed := false, intStatus := (s.bus b).intStatus ||| 0x200#32 } ∧
        (∀ c, c ≠ b → u.bus c = s.bus c)) ∧
    ((s.bus b).matchArmed = false ∨ s1.now < (s.bus b).dtMatch.toNat → exec (.dtMatchExpiry b wait) s = .next s1)

/-- MULTIWORD_SNAPSHOT_READ of the lowest word of DT_NOW sends bits 31:0 of DT and latches bits 63:32 into the snapshot
shadow of its bus, and changes nothing else; a read of its upper word sends the shadow. DEV_ID, the banked words,
SCRATCH and a word of the mailbox bank read as held, MODE_STATUS as zero until READY, and an address that Table 16.2
does not list as zero; none of these reads changes anything but what has left and the time. -/
def Obligations.RegisterReads : Prop :=
  ∀ (b : Bus) (wait : Nat) (s : State),
    let s1 := s.advance wait
    let reads (a : W16) (v : Nat) : Prop := exec (.multiwordSnapshotRead b a wait) s = .next (s1.emit (.readData (le 4 v)))
    (s.time.seeded = true → exec (.multiwordSnapshotRead b 0x0040#16 wait) s
      = .next ((s1.setBus b { s.bus b with snapDt := BitVec.ofNat 32 (s1.now / 2 ^ 32) }).emit
          (.readData (le 4 (s1.now % 2 ^ 32))))) ∧
    reads 0x0044#16 (s.bus b).snapDt.toNat ∧
    (exec (.multiwordSnapshotRead b 0x0050#16 wait) s
      = .next ((s1.setBus b { s.bus b with snapMatch := BitVec.ofNat 32 ((s.bus b).dtMatch.toNat / 2 ^ 32) }).emit
          (.readData (le 4 ((s.bus b).dtMatch.toNat % 2 ^ 32))))) ∧
    reads 0x0054#16 (s.bus b).snapMatch.toNat ∧
    reads 0x0000#16 0x94840001 ∧
    (s.power.ready = false → reads 0x0010#16 0) ∧
    reads 0x0020#16 ((s.bus b).intStatus ||| (if (s.port (busTransport b)).events.isEmpty then 0#32 else 2#32)).toNat ∧
    reads 0x0024#16 (s.bus b).intEnable.toNat ∧
    (s.time.seeded = true → reads 0x0048#16 (s1.now / 1000000 % 2 ^ 32)) ∧
    reads 0x0060#16 (s.thermal.level % 4 * 2 ^ 16 + s.thermal.temp.toNat) ∧
    reads 0x00F0#16 s.scratch.toNat ∧
    (∀ a : W16, 0x1000 ≤ a.toNat → a.toNat < 0x2000 → a.toNat % 4 = 0 →
      reads a (unle (Memory.readN ramDefault (s.bus b).bank (a.toNat - 0x1000) 4))) ∧
    (∀ a : W16, a.toNat % 4 = 0 → 0x0100 ≤ a.toNat → a.toNat < 0x1000 → reads a 0) ∧
    (∀ a : W16, a.toNat % 4 = 0 → b = .twoWire → 0x2000 ≤ a.toNat → reads a 0)

/-- With the I/O out of high impedance, an aligned 4-byte REGISTER_WRITE: to the lower word of DT_MATCH stages it and
changes nothing in force; to SCRATCH changes SCRATCH; to a word of the mailbox bank stores it little-endian in the bank
of that bus, unless the bank is busy; to CMD_DOORBELL with KIND 1 does what MAILBOX_DOORBELL does, with KIND 0 or 3
nothing; to an RO or unlisted address nothing. A PCIe write with a byte enable clear, a misaligned one, one past the end
of BAR0, a two-wire write from 0x2000 upwards, and any write in high impedance change nothing. An aligned 8-byte PCIe
write is the two 4-byte writes in order. -/
def Obligations.RegisterWrites : Prop :=
  ∀ (b : Bus) (v : W64) (s : State),
    let lo : W32 := v.setWidth 32
    (s.power.ioUp = true →
      exec (.registerWrite b 0x0050#16 4 v true) s = .next (s.setBus b { s.bus b with stage := lo }) ∧
      exec (.registerWrite b 0x00F0#16 4 v true) s = .next { s with scratch := lo } ∧
      (∀ a : W16, 0x1000 ≤ a.toNat → a.toNat < 0x2000 → a.toNat % 4 = 0 →
        exec (.registerWrite b a 4 v true) s = .next (if (s.bus b).bankBusy then s else
          s.setBus b { s.bus b with bank := Memory.writeN ramDefault (s.bus b).bank (a.toNat - 0x1000) (le 4 lo.toNat) })) ∧
      (lo.toNat / 2 ^ 30 = 1 → exec (.registerWrite b 0x0080#16 4 v true) s = .next (s.mailboxBell b)) ∧
      (lo.toNat / 2 ^ 30 = 0 ∨ lo.toNat / 2 ^ 30 = 3 → exec (.registerWrite b 0x0080#16 4 v true) s = .next s) ∧
      (∀ a : W16, a ∈ [0x0000#16, 0x0008#16, 0x000C#16, 0x0010#16, 0x0040#16, 0x0044#16, 0x0048#16, 0x0060#16] →
        exec (.registerWrite b a 4 v true) s = .next s) ∧
      (∀ a : W16, 0x0100 ≤ a.toNat → a.toNat < 0x1000 → exec (.registerWrite b a 4 v true) s = .next s) ∧
      (∀ (a : W16) (n : Nat), 0x2000 ≤ a.toNat → exec (.registerWrite .twoWire a n v true) s = .next s) ∧
      (∀ (a : W16) (n : Nat), exec (.registerWrite .pcie a n v false) s = .next s) ∧
      (∀ (a : W16) (n : Nat), 0x4000 ≤ a.toNat ∨ (n ≠ 4 ∧ n ≠ 8) ∨ a.toNat % n ≠ 0 →
        exec (.registerWrite .pcie a n v true) s = .next s) ∧
      (∀ a : W16, a.toNat % 8 = 0 → a.toNat < 0x4000 → exec (.registerWrite .pcie a 8 v true) s
        = .next ((s.writeWord .pcie a.toNat lo).writeWord .pcie (a.toNat + 4) ((v >>> 32).setWidth 32)))) ∧
    (s.power.ioUp = false → ∀ (a : W16) (n : Nat) (en : Bool), exec (.registerWrite b a n v en) s = .next s)

/-- Where what a transport holds passes checks 1 to 4 as a command i, MAILBOX_DOORBELL with its bank free executes i
with the bank busy and MBOX_REPLY clear; CMD_RING_DOORBELL with both rings enabled and at least 4,096 bytes free takes
the first packet that lies whole below the producer, executes it, and moves CONSUMER past it; WRITE_PACKET of a whole
packet executes it and clears DISCARDED. Each ignores what it must: a busy bank, READY clear, the two-wire bus or a
disabled ring at a ring doorbell; WRITE_PACKET cut off or while READY is clear sets DISCARDED. -/
def Obligations.DoorsLeadToTheInterpreter : Prop :=
  ∀ (wait : Nat) (s : State), let s1 := s.advance wait
    (∀ (b : Bus) (op : W16) (h : CmdHdr) (i : Instr), s.serves (busTransport b) = true → (s.bus b).bankBusy = false →
      parsePacket (busTransport b) false false 4072 0 (s.bankBytes b) = .command op h i →
      ∃ t : State, exec (.mailboxDoorbell b wait) s = .next (t.interpret i) ∧ t.core = s1.core ∧ t.host = s.host ∧
        t.bus b = { s.bus b with bankBusy := true, intStatus := (s.bus b).intStatus &&& ~~~ 1#32 } ∧
        (∀ c, t.port c = s.port c)) ∧
    (∀ (b : Bus), s.serves (busTransport b) = false ∨ (s.bus b).bankBusy = true →
      exec (.mailboxDoorbell b wait) s = .next s1) ∧
    (∀ (p : BitVec 24) (ws : List (Nat × Byte)) (op : W16) (h : CmdHdr) (i : Instr),
      let s2 := { s1.hostCells ws with rings := { s.rings with cmdProducer := p.toNat } }
      let at_ := s.force.cmdRing.nat 2 + s.rings.cmdConsumer
      let n := field (Memory.readN ramDefault s2.host at_ 16) 6 2
      let size := roundUp 64 (20 + n)
      s2.cmdRingOn = true → 4096 ≤ s2.replyFree → p.toNat % 64 = 0 → p.toNat < s.cmdSize →
      s.rings.cmdConsumer ≠ p.toNat → s.rings.cmdConsumer + size ≤ s.cmdSize →
      (p.toNat < s.rings.cmdConsumer ∨ s.rings.cmdConsumer + size ≤ p.toNat) →
      parsePacket .pcie true true 4072 0 (Memory.readN ramDefault s2.host at_ (20 + n)) = .command op h i →
      exec (.cmdRingDoorbell .pcie p ws wait) s
        = .next (State.serveRing (s.cmdSize / 64) ((s2.interpret i).cmdConsumed ((s.rings.cmdConsumer + size) % s.cmdSize)))) ∧
    (∀ (b : Bus) (p : BitVec 24) (ws : List (Nat × Byte)),
      s.serves .pcie = false ∨ b = .twoWire ∨ s.force.cmdRing.nat 1 ≠ 1 →
      exec (.cmdRingDoorbell b p ws wait) s = .next (s1.hostCells ws)) ∧
    (∀ (bs : List Byte) (op : W16) (h : CmdHdr) (i : Instr), s.power.ioUp = true → s.serves .service = true →
      parsePacket .service false true 4072 0 bs = .command op h i →
      exec (.writePacket bs false wait) s
        = .next (State.interpret { s1.emit (.svcStatus (BitVec.ofNat 8 s.svcStatus)) with svc := ⟨false⟩ } i)) ∧
    (∀ (bs : List Byte) (cut : Bool), s.power.ioUp = true → cut = true ∨ s.serves .service = false →
      exec (.writePacket bs cut wait) s
        = .next { s1.emit (.svcStatus (BitVec.ofNat 8 s.svcStatus)) with svc := ⟨true⟩ })

/-- READ_STATUS sends the status byte (READY, PENDING, DISCARDED) and changes nothing else. READ_PACKET sends the status
byte, then the length and bytes of the oldest reply that waits, or else of the oldest event, or length 0 where none
waits; a reply waits before any event. A transaction that runs to the last byte removes the packet it sent; one that
does not removes nothing. -/
def Obligations.ServicePortReads : Prop :=
  ∀ (s : State), s.power.ioUp = true →
    let st := BitVec.ofNat 8 ((if s.serving then 1 else 0) + (if s.svcPending then 2 else 0) + (if s.svc.discarded then 4 else 0))
    exec .readStatus s = .next (s.emit (.svcStatus st)) ∧
    (s.pSvc.outbox = [] → s.pSvc.events = [] → ∀ c,
      exec (.readPacket c) s = .next ((s.emit (.svcStatus st)).emit (.svcBytes [0, 0]))) ∧
    (∀ id v n r rest, s.pSvc.outbox = ⟨id, v, n, some r⟩ :: rest →
      exec (.readPacket false) s = .next ((s.emit (.svcStatus st)).emit (.svcBytes (le 2 r.packet.length ++ r.packet)))) ∧
    (∀ id v n r, s.pSvc.outbox = [⟨id, v, n, some r⟩] → ∃ u, exec (.readPacket true) s = .next u ∧ u.core = s.core ∧
      u.pSvc = { s.pSvc with outbox := [] } ∧ u.host = s.host ∧
      (s.out ++ [Out.svcStatus st, Out.svcBytes (le 2 r.packet.length ++ r.packet)]).isPrefixOf u.out = true) ∧
    (∀ e rest, s.pSvc.outbox = [] → s.pSvc.events = e :: rest →
      exec (.readPacket false) s = .next ((s.emit (.svcStatus st)).emit (.svcBytes (le 2 e.packet.length ++ e.packet))) ∧
      ∃ u, exec (.readPacket true) s = .next u ∧ u.core = s.core ∧ u.pSvc = { s.pSvc with events := rest } ∧
        u.host = s.host ∧
        u.out = s.out ++ [.svcStatus st, .svcBytes (le 2 e.packet.length ++ e.packet)]
          ++ (if rest = [] then [.pin "SVC_REQ_N" true] else []))

/-- A write of the pointer alone sets it; a write of four data bytes at an aligned pointer below 0x2000 has the effect
of that register write and advances the pointer by 4; a write of fewer bytes that ends changes only the pointer; an
address byte that is not its own changes nothing but the time. A read of one byte sends the byte at the pointer and
advances it, and TW_TIMEOUT discards a partly written word and leaves the pointer as it is. ATTN_WRITE, the first
attempt of a due write, and ATTN_WRITE_RETRY, a later one, that is not disturbed sends 0x10, the device address, and the
low 16 bits of the two-wire INT_STATUS, and clears no bit of it. A NACK or a lost arbitration keeps the write for a
later attempt, the NACK for 10 ms later; the eighth lost arbitration or the third NACK abandons it and counts it as a
dropped event of the two-wire transport. Before a write is due, or with none triggered, they change nothing but the
time. -/
def Obligations.TwoWirePort : Prop :=
  (∀ (wait : Nat) (s : State), let s1 := s.advance wait
      let own := 2 * (0x58 + s.tw.addrBits % 8)
      let done (t : State) : State := { t with tw := { t.tw with partWord := [] } }
      (∀ (a : Byte) (bs : List Byte) (st : Bool), a.toNat ≠ own ∨ s.power.ioUp = false →
        exec (.twWriteTransaction a bs st wait) s = .next s1) ∧
      (∀ (a : Byte) (n : Nat), a.toNat ≠ own + 1 ∨ s.power.ioUp = false → exec (.twReadTransaction a n wait) s = .next s1) ∧
      (∀ a : Byte, a.toNat = own → s.power.ioUp = true →
        (∀ b st, exec (.twWriteTransaction a [b] st wait) s = .next (done s1)) ∧
        (∀ hi lo, exec (.twWriteTransaction a [hi, lo] true wait) s
          = .next { s1 with tw := { s.tw with pointer := hi ++ lo, partWord := [] } }) ∧
        (∀ hi lo x, (hi ++ lo : W16).toNat % 4 = 0 → exec (.twWriteTransaction a [hi, lo, x] true wait) s
          = .next { s1 with tw := { s.tw with pointer := (hi ++ lo) + 1, partWord := [] } }) ∧
        (∀ hi lo x0 x1 x2 x3, (hi ++ lo : W16).toNat % 4 = 0 → (hi ++ lo : W16).toNat < 0x2000 →
          exec (.twWriteTransaction a [hi, lo, x0, x1, x2, x3] true wait) s
            = .next (done (({ s1 with tw := { s.tw with pointer := (hi ++ lo) + 4, partWord := [] } }).writeWord .twoWire
                (hi ++ lo : W16).toNat (BitVec.ofNat 32 (unle [x0, x1, x2, x3])))))) ∧
      (∀ a : Byte, a.toNat = own + 1 → s.power.ioUp = true → 0x2000 ≤ s.tw.pointer.toNat →
        exec (.twReadTransaction a 1 wait) s = .next (({ s1 with tw :=
          { s.tw with partWord := [], readWord := 0#32, pointer := s.tw.pointer + 1 } }).emit (.readData [0#8]))) ∧
      (∀ a : Byte, a.toNat = own + 1 → s.power.ioUp = true → s.tw.pointer = 0x00F0#16 →
        exec (.twReadTransaction a 1 wait) s = .next (({ s1 with tw :=
          { s.tw with partWord := [], readWord := s.scratch, pointer := 0x00F1#16 } }).emit (.readData [s.scratch.setWidth 8]))) ∧
      exec .twTimeout s = .next (done s)) ∧
  (∀ (wait : Nat) (s : State), let s1 := s.advance wait
      let sent : State := ({ s1 with tw := { s.tw with attn := none, lastAttn := some s1.time.dt } }).emit
        (.attnWrite [0x10#8, BitVec.ofNat 8 (2 * (0x58 + s.tw.addrBits % 8)), BitVec.ofNat 8 (s.intStatus .twoWire).toNat,
          BitVec.ofNat 8 ((s.intStatus .twoWire).toNat / 256)])
      let gone : State := { s1 with tw := { s.tw with attn := none }
                                    pTw := { s.pTw with evDropped := min (s.pTw.evDropped + 1) 0xFFFFFFFF } }
      (∀ w, s.tw.attn = some w → w.due.toNat ≤ s1.now →
        (w.arbLost = 0 → w.nacks = 0 →
          exec (.attnWrite .sent wait) s = .next sent ∧
          exec (.attnWrite .nack wait) s = .next { s1 with tw := { s.tw with
            attn := some ⟨BitVec.ofNat 64 (s1.now + 10000000), 0, 1⟩ } } ∧
          (∃ d, exec (.attnWrite .arbLost wait) s = .next { s1 with tw := { s.tw with attn := some ⟨d, 1, 0⟩ } }) ∧
          (∀ r, exec (.attnWriteRetry r wait) s = .next s1)) ∧
        (0 < w.arbLost + w.nacks →
          exec (.attnWriteRetry .sent wait) s = .next sent ∧
          (∀ r, exec (.attnWrite r wait) s = .next s1) ∧
          (w.nacks + 1 < 3 → exec (.attnWriteRetry .nack wait) s = .next { s1 with tw := { s.tw with
            attn := some ⟨BitVec.ofNat 64 (s1.now + 10000000), w.arbLost, w.nacks + 1⟩ } }) ∧
          (3 ≤ w.nacks + 1 → exec (.attnWriteRetry .nack wait) s = .next gone) ∧
          (w.arbLost + 1 < 8 → ∃ d, exec (.attnWriteRetry .arbLost wait) s
            = .next { s1 with tw := { s.tw with attn := some ⟨d, w.arbLost + 1, w.nacks⟩ } }) ∧
          (8 ≤ w.arbLost + 1 → exec (.attnWriteRetry .arbLost wait) s = .next gone))) ∧
      (s.tw.attn = none ∨ (∃ w, s.tw.attn = some w ∧ s1.now < w.due.toNat) → ∀ r,
        exec (.attnWrite r wait) s = .next s1 ∧ exec (.attnWriteRetry r wait) s = .next s1))

/-- MSIX_UNMASK with MSI-X enabled, the function unmasked and D0 sends every pending message whose vector is unmasked
and keeps the others pending; else it sends none. PCIE_POWER_STATE to D3hot only sets the power state and PME, and
PCIE_WAKE_N follows; PERST clears the PCIe copies of INT_STATUS, INT_ENABLE and DT_MATCH, disables the output rings and
the command rings, resets the MSI-X table, and changes neither the mode nor LAST_RESET nor the two-wire registers nor
any service. -/
def Obligations.PcieEndpoint : Prop :=
  ∀ (s : State),
    (∀ (m : W64), s.pcie.d3 = false → exec (.msixUnmask true false m) s
      = .next { s with
          pcie := { s.pcie with msixOn := true, funcMask := false, masked := m, pba := s.pcie.pba &&& m }
          out := s.out ++ ((List.range 64).filter (fun v => s.pcie.pba.getLsbD v && !m.getLsbD v)).map .msix }) ∧
    (∀ (en fm : Bool) (m : W64), en = false ∨ fm = true ∨ s.pcie.d3 = true → exec (.msixUnmask en fm m) s
      = .next { s with pcie := { s.pcie with msixOn := en, funcMask := fm, masked := m } }) ∧
    (∀ (p : Bool), exec (.pciePowerState true p) s = .next { s with
      pcie := { s.pcie with d3 := true, pme := p }
      out := s.out ++ (if (p && !s.pPcie.events.isEmpty) = (s.pcie.pme && !s.pPcie.events.isEmpty) then []
        else [.pin "PCIE_WAKE_N" (!(p && !s.pPcie.events.isEmpty))]) }) ∧
    (∀ (p : Bool), ∃ u, exec (.pciePowerState false p) s = .next u ∧ u.core = s.core ∧ u.pcie.d3 = false ∧ u.pcie.pme = p) ∧
    (∃ u, exec .perst s = .next u ∧ u.power = s.power ∧ u.busT = s.busT ∧ u.services = s.services ∧ u.host = s.host ∧
      u.busP.intStatus = 0#32 ∧ u.busP.intEnable = 0#32 ∧ u.busP.dtMatch = 0#64 ∧ u.busP.matchArmed = false ∧
      u.busP.bank = s.busP.bank ∧ u.pcie.msixOn = false ∧ u.pcie.masked = BitVec.allOnes 64 ∧ u.pcie.table = [] ∧
      u.pcie.pba = 0#64 ∧ (∀ r ∈ u.outRings, r.on = false) ∧ u.outRings.length = s.outRings.length ∧
      u.force.cmdRing = (s.force.cmdRing.set 0 (.num 0)).set 3 (.num 0))

/-- While the port is on, a received byte leaves on CHAIN_TX; while it is off nothing happens. A frame of another HW or
a wrong CRC, or any frame while the port is off, changes nothing. CHAIN_IMAGE_START of four bytes, cool and with the
slot neither held nor scheduled, erases the first sector of the slot that does not run, and that slot receives.
CHAIN_IMAGE_BLOCK takes the next bytes of the header; a gap in SEQ or offset refuses the slot with reason 0x0E.
CHAIN_IMAGE_DONE of a whole transfer with the right digest programs the header page, and the slot is BOOTABLE.
CHAIN_ACTIVATE of a bootable slot schedules it for the DT of receipt and the delay. -/
def Obligations.ChainPort : Prop :=
  ∀ (f : ChainFrame) (wait : Nat) (s : State), let s1 := s.advance wait
    (∀ b, s.chainOn = true → exec (.chainByteReceived b) s = .next { s with out := s.out ++ [.chainByte b] }) ∧
    (∀ b, s.chainOn = false → exec (.chainByteReceived b) s = .next s) ∧
    (s.chainOn = false ∨ f.hw ≠ 0x9484#16 ∨ (∀ t, ChainFrame_ok f t = false) →
      exec (.chainImageStart f wait) s = .next s ∧ exec (.chainImageBlock f wait) s = .next s ∧
      exec (.chainImageDone f wait) s = .next s ∧ exec (.chainActivate f wait) s = .next s) ∧
    (∀ i, s.chainOn = true → s.power.recovery = false → s.flash.running ≤ 1 → i = 1 - s.flash.running →
      s.thermal.level = 0 →
      (ChainFrame_ok f 1 = true → f.payload.length = 4 → (s.slot i).state ≠ .scheduled → (s.slot i).heldFrom .chain = false →
        ∃ u, exec (.chainImageStart f wait) s = .next u ∧ u.core =
          (({ s1 with flash := { s.flash with mem := Memory.clear s.flash.mem (s.slotBase i) 65536 } }).modSlot i
            (fun _ => ⟨.receiving, 0, 0#32, 0, none, some ⟨.chain, unle f.payload, 0, [], f.seq⟩⟩)).core) ∧
      (∀ t, (s.slot i).transfer = some t → t.owner = .chain → (s.slot i).state = .receiving →
        (ChainFrame_ok f 2 = true → 4 ≤ f.payload.length → (f.seq ≠ t.chainSeq + 1 ∨ field f.payload 0 4 ≠ t.next) →
          ∃ u, exec (.chainImageBlock f wait) s = .next u ∧ u.core =
            (s1.modSlot i (fun x => { x with state := .refused, reason := 0x0E, transfer := none })).core) ∧
        (ChainFrame_ok f 2 = true → 5 ≤ f.payload.length → f.seq = t.chainSeq + 1 → field f.payload 0 4 = t.next →
          t.next + (f.payload.length - 4) ≤ t.length → t.head.length = t.next → t.head.length + (f.payload.length - 4) < 384 →
          exec (.chainImageBlock f wait) s = .next (s1.modSlot i (fun x => { x with transfer := some { t with
            next := t.next + (f.payload.length - 4), head := t.head ++ f.payload.drop 4, chainSeq := f.seq } }))) ∧
        (ChainFrame_ok f 3 = true → t.length ≤ t.next → 384 ≤ t.head.length → s.digestOk i t.head = true →
          ∃ u, exec (.chainImageDone f wait) s = .next u ∧ u.core =
            (({ s1 with flash := { s.flash with mem := Memory.writeN flashDefault s.flash.mem (s.slotBase i) t.head } }).modSlot i
              (fun x => { x with state := .bootable, reason := 0, transfer := none })).core)) ∧
      (ChainFrame_ok f 4 = true → f.payload.length = 2 → (s.slot i).state = .bootable → (s.slot (1 - i)).state ≠ .scheduled →
        s.journal.readOnly = false → s1.effTickIdx * 1000000 < s1.now + unle f.payload * 1000000000 →
        ∃ u, exec (.chainActivate f wait) s = .next u ∧ u.core =
          (s1.modSlot i (fun x => { x with state := .scheduled, reason := 0, activate := some (BitVec.ofNat 64 (s1.now + unle f.payload * 1000000000)) })).core))

/-- A TICK of a device that serves and stays below the thermal levels takes DT to the boundary, the next boundary 1 ms
on, the host bytes into its memory, the reading into TEMP and the uptime one on; then the work of the tick runs, or the
reset that has become due. Held in reset, the device only sees the host write its memory; before READY it only reads its
sensor. TIME_STEP takes DT to the value due, DT_WRAP to zero where the boundary would pass 2^64; each ends the tick in
progress at the first whole millisecond at least 0.5 ms on and marks the next unit of every stream DISCONTINUITY, and
EV_TIME_DISCONTINUITY is queued where its code is in the mask. -/
def Obligations.TicksAndStepsOfTime : Prop :=
  ∀ (inp : TickIn) (s : State),
    let cells := Memory.writeCells ramDefault s.host inp.writes
    let cold (t : ThermalSt) : ThermalSt := { t with
      temp := inp.temp, tempMax := if s.power.uptime = 0 ∨ t.tempMax.toInt < inp.temp.toInt then inp.temp else t.tempMax
      hot110 := 0, hot115 := 0, coolTicks := t.coolTicks + 1, inLevel := t.inLevel + 1, shedTicks := t.shedTicks + 1 }
    let stepped (before : Nat) (dt : W64) (u : State) : Prop :=
      u.time.dt = dt ∧ u.time.boundary = (dt.toNat + 500000 + 999999) / 1000000 * 1000000 ∧ u.time.stepDue = none ∧
      u.streams = s.streams.map (fun x => { x with
        flags := x.flags ||| fDiscontinuity ||| (if x.kind = 7 then fPartial else 0#32) }) ∧
      (s.masked .service 0x8008#16 = true → ∃ e ∈ u.pSvc.events,
        e.code = 0x8008#16 ∧ e.dt = dt ∧ e.params = le 8 before ++ le 8 dt.toNat)
    (s.up = false → exec (.tick inp) s = .next { s with host := cells }) ∧
    (s.up = true → s.serving = false → s.thermal.level = 0 → inp.temp.toInt < 1050 →
      exec (.tick inp) s = .next { s with host := cells, thermal := cold s.thermal
                                          power := { s.power with uptime := s.power.uptime + 1 } }) ∧
    (s.up = true → s.serving = true → s.time.boundary < 2 ^ 64 → s.thermal.level = 0 → inp.temp.toInt < 1050 →
      let t : State := { s with
        host := cells, thermal := cold s.thermal
        time := { s.time with dt := BitVec.ofNat 64 s.time.boundary, boundary := s.time.boundary + 1000000 }
        flash := { s.flash with trialTick := s.flash.trialTick.map (· + 1) }
        power := { s.power with uptime := s.power.uptime + 1 } }
      (s.power.resetIn = none → s.power.recovery = false → exec (.tick inp) s = .next (t.tickWork inp)) ∧
      (s.power.resetIn = none → s.power.recovery = true → ∃ u, exec (.tick inp) s = .next u ∧ u.core = t.core) ∧
      (∀ n, s.power.resetIn = some n → 2 ≤ n →
        exec (.tick inp) s = .next ({ t with power := { t.power with resetIn := some (n - 1) } }.tickWork inp)) ∧
      (∀ n, s.power.resetIn = some n → n ≤ 1 → exec (.tick inp) s = .next (t.afterReset 3))) ∧
    (s.up = true → s.serving = true → 2 ^ 64 ≤ s.time.boundary → exec (.tick inp) s = .next s) ∧
    (∀ d, s.time.stepDue = some d → ∃ u, exec .timeStep s = .next u ∧ stepped s.now d u) ∧
    (s.time.stepDue = none → exec .timeStep s = .next s) ∧
    (2 ^ 64 ≤ s.time.boundary → ∃ u, exec .dtWrap s = .next u ∧ stepped (2 ^ 64 - 1) 0#64 u) ∧
    (s.time.boundary < 2 ^ 64 → exec .dtWrap s = .next s)

/-- In LEVEL 2, a second after the last, THERMAL_SHED_STEP sheds one step more, up to ten; below LEVEL 2, 10 s after the
last, it restores one; earlier it changes nothing. In a shutdown THERMAL_RESTART counts a first reading below 100 °C,
and at the second in succession the shutdown ends; a reading of 100 °C or more starts the count again; outside a
shutdown it changes nothing. A reading of 125 °C in a TICK holds the device in reset with LAST_RESET 7, and keeps the
backup domain. -/
def Obligations.TemperatureAndShedding : Prop :=
  ∀ (s : State), let t := s.thermal
    let steps (n : Nat) : State := { s with thermal := { t with shedTicks := 0, shedSteps := n } }
    (t.level = 2 → 1000 ≤ t.shedTicks → t.shedSteps < 10 → exec .thermalShedStep s = .next (steps (t.shedSteps + 1))) ∧
    (t.level = 2 → 1000 ≤ t.shedTicks → t.shedSteps = 10 → exec .thermalShedStep s = .next (steps 10)) ∧
    (t.level ≠ 2 → 10000 ≤ t.shedTicks → 0 < t.shedSteps → exec .thermalShedStep s = .next (steps (t.shedSteps - 1))) ∧
    ((t.level = 2 ∧ t.shedTicks < 1000) ∨ (t.level ≠ 2 ∧ (t.shedTicks < 10000 ∨ t.shedSteps = 0)) →
      exec .thermalShedStep s = .next s) ∧
    (∀ w : W16, t.shutdown = true →
      (w.toInt < 1000 → t.coldReads = 0 →
        exec (.thermalRestart w) s = .next { s with thermal := { t with coldReads := 1, temp := w } }) ∧
      (w.toInt < 1000 → t.coldReads ≠ 0 → exec (.thermalRestart w) s
        = .next { s with thermal := { t with shutdown := false, coldReads := 0, temp := w } }) ∧
      (1000 ≤ w.toInt → exec (.thermalRestart w) s = .next { s with thermal := { t with coldReads := 0, temp := w } })) ∧
    (∀ w : W16, t.shutdown = false → exec (.thermalRestart w) s = .next s) ∧
    (∀ inp : TickIn, s.up = true → s.serving = true → s.time.boundary < 2 ^ 64 → 1250 ≤ inp.temp.toInt →
      ∃ u, exec (.tick inp) s = .next u ∧ u.thermal.shutdown = true ∧ u.thermal.temp = inp.temp ∧ u.power.ioUp = false ∧
        u.power.lastReset = 7 ∧ u.power.ready = false ∧ u.services = [] ∧ u.rtc.backup = s.rtc.backup ∧ u.rtc.cal = s.rtc.cal)

/-- REFERENCE_QUALIFIED qualifies a reference in a role that it has once the criterion has held for Q, and EV_REF_STATE
reason 7 says so; before that, or twice, it changes nothing but the time. REFERENCE_LOSS takes the qualification and
criterion of a reference that is not in use away in all its roles, with reason 8 for each it was qualified in.
HOLDOVER_EXPIRY at the end of the holdover time takes the time state from HOLDOVER to EXPIRED with reason 6. A PPS_EDGE
a second after the last, within 1 us, meets the frequency criterion and labels the edge a second after the last label.
TIME_INDICATION of a service that is no source changes nothing but the time. -/
def Obligations.ReferencesComeAndGo : Prop :=
  ∀ (c wait : Nat) (s : State), let s1 := s.advance wait
    let said (t : State) (reason role : Nat) : State := t.raise 0x8009 noSlot (le 1 reason ++ le 1 role ++ le 1 (t.inUse role)
      ++ le 1 (t.inUse role) ++ le 1 t.refs.tstate.code ++ le 1 c ++ [0, 0] ++ leInt 8 t.refs.e ++ leInt 8 t.refs.eps)
    (1 ≤ c → c ≤ 4 → (s.ref c).critF = true → (s.ref c).qualF = false → s.refQ c ≤ (s.ref c).heldF →
      exec (.referenceQualified c false wait) s = .next (said (s1.modRef c (fun r => { r with qualF := true })) 7 0)) ∧
    (3 ≤ c → c ≤ 7 → (s.ref c).critT = true → (s.ref c).qualT = false → s.refQ c ≤ (s.ref c).heldT →
      exec (.referenceQualified c true wait) s = .next (said (s1.modRef c (fun r => { r with qualT := true })) 7 1)) ∧
    ((s.ref c).qualF = true ∨ (s.ref c).critF = false ∨ (s.ref c).heldF < s.refQ c →
      exec (.referenceQualified c false wait) s = .next s1) ∧
    ((s.ref c).qualT = true ∨ (s.ref c).critT = false ∨ (s.ref c).heldT < s.refQ c →
      exec (.referenceQualified c true wait) s = .next s1) ∧
    (1 ≤ c → c ≤ 2 → (s.ref c).qualF = true → s.refs.freqRef ≠ c → exec (.referenceLoss c wait) s
      = .next (said (s1.modRef c (fun r => { r with qualF := false, critF := false, heldF := 0 })) 8 0)) ∧
    (c = 6 → (s.ref c).qualT = true → s.refs.timeSrc ≠ some 6 → exec (.referenceLoss c wait) s
      = .next (said (({ s1 with refs := { s.refs with tInd6 := [] } }).modRef 6
          (fun r => { r with qualT := false, critT := false, heldT := 0 })) 8 1)) ∧
    (s.refs.tstate = .holdover → s.refs.holdRef = c → s.force.refs.holdoverS.toNat * 1000 ≤ s.refs.holdTicks →
      exec (.holdoverExpiry wait) s
        = .next (said ((({ s1 with refs := { s.refs with tstate := .expired, outTicks := 0 } }).setInt .pcie 6).setInt .twoWire 6) 6 1)) ∧
    (s.refs.tstate ≠ .holdover ∨ s.refs.holdTicks < s.force.refs.holdoverS.toNat * 1000 →
      exec (.holdoverExpiry wait) s = .next s1) ∧
    (∀ p n, s.time.atPps = none → (s.ref 3).critF = true → s.refs.lastEdge = some p → s.refs.ppsTod = none →
      s.refs.ppsCount = some n → ((s1.now : Int) - p.toNat - 1000000000).natAbs ≤ 1000 →
      exec (.ppsEdge wait) s = .next (({ s1 with refs := { s.refs with
        ppsCount := some (n + 1000000000#64), lastEdge := some s1.time.dt } }).modRef 3
          (fun r => { r with critF := true, critT := true }))) ∧
    (∀ v, s.time.atPps = some v → ∃ u, exec (.ppsEdge wait) s = .next u ∧ u.time.dt = v ∧ u.time.atPps = none) ∧
    (∀ ti : TimeInd, s.sourceSlot 5 ≠ some ti.slot → s.sourceSlot 6 ≠ some ti.slot →
      exec (.timeIndication ti wait) s = .next s1) ∧
    (∀ (ti : TimeInd) (v : Service), s.slotSvc? ti.slot = some v → keyStandard v.acc.attrs.key = 7 → ti.coarse = false →
      s.sourceSlot 6 = some ti.slot → s.refs.tInd6 = [] →
      exec (.timeIndication ti wait) s = .next (({ s1 with refs := { s.refs with
        tInd6 := [(ti.stamp.toNat : Int) - ti.label.toNat] } }).modRef 6 (fun r => { r with critT := false, heldT := 0 })))

/-- With the wires enabled and no window open, COEX_REQUEST waits for GD; in a window a request without priority is
withheld and EV_COEX reason 2 says so. COEX_GRANT a GD after it asserts COEX_GNT_OUT and counts the grant; COEX_RELEASE
deasserts it and the tail runs; COEX_TAIL_EXPIRY after the tail ends the blanking, 50 ns longer. COEX_GRANT_LIMIT says
once that a grant is too long. PROTECTION_WINDOW_LEAD asserts COEX_REQ_OUT a lead before a window, PROTECTION_WINDOW_END
deasserts it and lets a withheld request wait GD; COEX_ACK_TIMEOUT and COEX_INPUT_STUCK say once that no grant came or
an input stays asserted. Too early, each changes nothing but the time. -/
def Obligations.CoexistenceWires : Prop :=
  ∀ (wait : Nat) (s : State), let s1 := s.advance wait
    let c := s.coex
    let gd := s.force.coex.nat 4 * 100
    let spent := if c.phase = .idle then 0 else s1.time.dt.toNat - c.phaseDt.toNat
    let saying (t : State) (reason : Nat) : State := { t with coex := { t.coex with
      reasons := t.coex.reasons.modify (reason - 1) (fun n => min (n + 1) 0xFFFFFFFF) } }.raise 0x8015 noSlot
        (le 1 reason ++ le 1 t.coex.wires ++ [0, 0])
    (∀ pri g, s.coexOn = true → c.reqIn = false → c.phase = .idle → (c.window = false ∨ pri = true ∧ g = false) →
      ∃ u, exec (.coexRequest pri g wait) s = .next u ∧ u.coex.phase = .waiting false ∧ u.coex.phaseDt = s1.time.dt ∧
        u.coex.reqIn = true ∧ u.coex.priIn = pri ∧ u.coex.gntIn = g ∧ u.coex.withheld = c.withheld ∧
        u.coex.grants = c.grants ∧ u = { s1 with coex := u.coex }) ∧
    (s.coexOn = true → c.reqIn = false → c.phase = .idle → c.window = true →
      ∃ u t, exec (.coexRequest false false wait) s = .next u ∧ t.coex.phase = .waiting true ∧ t.coex.phaseDt = s1.time.dt ∧
        t.coex.reqIn = true ∧ t.coex.withheld = min (c.withheld + 1) 0xFFFFFFFF ∧ t = { s1 with coex := t.coex } ∧ u = saying t 2) ∧
    (s.coexOn = false ∨ c.reqIn = true → ∀ pri g, exec (.coexRequest pri g wait) s = .next s1) ∧
    (c.phase = .waiting false → c.phaseDt.toNat + gd ≤ s1.now → c.gntOut = false → exec (.coexGrant wait) s
      = .next { s1 with
          coex := { c with phase := .granted, phaseDt := s1.time.dt, blankedNs := c.blankedNs + spent
                           grants := min (c.grants + 1) 0xFFFFFFFF, gntOut := true }
          out := s.out ++ [.pin "COEX_GNT_OUT" (!(s.force.coex.nat 3).testBit 2)] }) ∧
    (c.phase ≠ .waiting false ∨ s1.now < c.phaseDt.toNat + gd → exec (.coexGrant wait) s = .next s1) ∧
    (c.reqIn = true → ∃ u, exec (.coexRelease wait) s = .next u ∧ u.coex.phase = .tail ∧ u.coex.phaseDt = s1.time.dt ∧
      u.coex.reqIn = false ∧ u.coex.priIn = false ∧ u.coex.gntOut = false ∧ u.coex.blankedNs = c.blankedNs + spent ∧
      u = { s1 with coex := u.coex, out := u.out } ∧
      u.out = s.out ++ (if c.gntOut then [.pin "COEX_GNT_OUT" ((s.force.coex.nat 3).testBit 2)] else [])) ∧
    (c.phase = .tail → c.phaseDt.toNat + s.force.coex.nat 5 * 1000 ≤ s1.now → exec (.coexTailExpiry wait) s
      = .next { s1 with coex := { c with phase := .idle, phaseDt := s1.time.dt, blankedNs := c.blankedNs + (spent + 50) } }) ∧
    (c.phase ≠ .tail ∨ s1.now < c.phaseDt.toNat + s.force.coex.nat 5 * 1000 → exec (.coexTailExpiry wait) s = .next s1) ∧
    (c.phase = .granted → c.limitSaid = false → c.phaseDt.toNat + s.force.coex.nat 6 * 1000000 < s1.now →
      exec (.coexGrantLimit wait) s = .next (saying { s1 with coex := { c with limitSaid := true } } 1)) ∧
    (c.phase ≠ .granted ∨ c.limitSaid = true ∨ s1.now ≤ c.phaseDt.toNat + s.force.coex.nat 6 * 1000000 →
      exec (.coexGrantLimit wait) s = .next s1) ∧
    (∀ w, s.coexOn = true → s1.windowsDue (s.force.coex.nat 8 * 1000) = [w] → c.window = false → c.reqOut = false →
      exec (.protectionWindowLead wait) s = .next { s1 with
        coex := { c with window := true, windowEnd := BitVec.ofNat 64 w.2, leadDt := s1.time.dt, ackSeen := c.gntIn
                         reqOut := true }
        out := s.out ++ [.pin "COEX_REQ_OUT" (!(s.force.coex.nat 3).testBit 3)] }) ∧
    (s1.windowsDue (s.force.coex.nat 8 * 1000) = [] → exec (.protectionWindowLead wait) s = .next s1) ∧
    (c.window = true → c.windowEnd.toNat ≤ s1.now → c.reqOut = true →
      exec (.protectionWindowEnd wait) s = .next { s1 with
        coex := (if c.phase = .waiting true then { c with phase := .waiting false, phaseDt := s1.time.dt
                                                          blankedNs := c.blankedNs + spent, window := false, reqOut := false }
          else { c with window := false, reqOut := false })
        out := s.out ++ [.pin "COEX_REQ_OUT" ((s.force.coex.nat 3).testBit 3)] }) ∧
    (c.window = false ∨ s1.now < c.windowEnd.toNat → exec (.protectionWindowEnd wait) s = .next s1) ∧
    (c.window = true → c.gntIn = false → c.ackSeen = false → c.leadDt.toNat + 100000 ≤ s1.now →
      exec (.coexAckTimeout wait) s = .next (saying { s1 with coex := { c with ackSeen := true } } 3)) ∧
    (c.window = false ∨ c.gntIn = true ∨ c.ackSeen = true ∨ s1.now < c.leadDt.toNat + 100000 →
      exec (.coexAckTimeout wait) s = .next s1) ∧
    (∀ w, w < 3 → s.coexOn = true → [c.reqIn, c.priIn, c.gntIn][w]? = some true → c.stuckSaid[w]? = some false →
      (c.lastEdge.getD w 0#64).toNat + 10000000000 < s1.now →
      exec (.coexInputStuck w wait) s = .next (saying { s1 with coex := { c with stuckSaid := c.stuckSaid.set w true } } 5)) ∧
    (∀ w, s.coexOn = false ∨ c.stuckSaid[w]? = some true ∨ s1.now ≤ (c.lastEdge.getD w 0#64).toNat + 10000000000 →
      exec (.coexInputStuck w wait) s = .next s1)

/-- ENGINE_SETTLED of an admitted service, unless it waits for the first probe of a member, makes it PLACED with reason
0x02 and EV_SERVICE_STATE; of a migrating one it marks the new placement settled. MIGRATION_SWITCH of a settled
placement not yet switched puts the new reception in force and flags the next units SPLICE. MIGRATION_RELEASE after the
switch makes the service PLACED with reason 0x09, MIGRATION_ABANDON of one not settled 2 s after step 2 with reason
0x0A, the old reception kept. Of an empty slot, or too early, each changes nothing. No other service changes. -/
def Obligations.ServicesSettleAndMigrate : Prop :=
  ∀ (n wait : Nat) (s : State), let s1 := s.advance wait
    let saying (t : State) (v : Service) (reason : Nat) : State := t.raise 0x8004 v.field
      (le 1 v.state.code ++ le 1 SvcState.placed.code ++ le 1 reason ++ zeros 5 ++ le 8 v.acc.attrs.key.toNat)
    let one (f : Service → Service) : List Service := s.services.map (fun x => if x.slot == n then f x else x)
    (s.slotSvc? n = none → exec (.engineSettled n wait) s = .next s ∧ exec (.migrationSwitch n wait) s = .next s ∧
      exec (.migrationRelease n) s = .next s ∧ exec (.migrationAbandon n wait) s = .next s) ∧
    (∀ v, s.slotSvc? n = some v →
      (v.state = .admitted → s1.memberWait v = false → exec (.engineSettled n wait) s = .next (saying
        { s1 with services := one (fun x => { x with state := .placed, reason := 0x02, stateDt := s1.time.dt }) } v 0x02)) ∧
      (v.state = .admitted → s1.memberWait v = true → exec (.engineSettled n wait) s = .next s) ∧
      (v.migration = none → exec (.migrationSwitch n wait) s = .next s ∧ exec (.migrationRelease n) s = .next s ∧
        exec (.migrationAbandon n wait) s = .next s)) ∧
    (∀ v m, s.slotSvc? n = some v → v.migration = some m →
      (v.state = .migrating → exec (.engineSettled n wait) s
        = .next { s1 with services := one (fun x => { x with migration := some { m with settled := true } }) }) ∧
      (m.settled = true → m.switched = false → s.progOf v.field = none → exec (.migrationSwitch n wait) s = .next { s1 with
        streams := s.streams.map (fun x => if x.slot == v.field then { x with flags := x.flags ||| fSplice } else x)
        services := one (fun x => { x with rx := m.dest, headDecode := m.toHead, migration := some { m with switched := true } }) }) ∧
      (m.settled = false ∨ m.switched = true → exec (.migrationSwitch n wait) s = .next s) ∧
      (m.switched = true → exec (.migrationRelease n) s = .next (saying { s with
        lanes := (s.settleLanes n).lanes
        services := one (fun x => { x with migration := none, state := .placed, reason := 0x09, stateDt := s.time.dt }) } v 0x09)) ∧
      (m.switched = false → exec (.migrationRelease n) s = .next s) ∧
      (m.settled = false → m.started.toNat + 2001000000 ≤ s1.now → ∃ t, exec (.migrationAbandon n wait) s = .next (saying t v 0x0A) ∧
        t.lanes = (s.dropJoining n).lanes ∧ t.streams = s.streams ∧ t.slotSvc? n = some { v with
          migration := none, state := .placed, reason := 0x0A, stateDt := s1.time.dt
          honoured := ((t.slotSvc? n).getD v).honoured } ∧
        (∀ k, k ≠ n → t.slotSvc? k = s.slotSvc? k)) ∧
      (m.settled = true ∨ s1.now < m.started.toNat + 2001000000 → exec (.migrationAbandon n wait) s = .next s))

/-- PLAN_CHANGE with a plan due and lock within three tries puts the plan in force, ends proposal and deferral, locks
PLL-S in the band found, and raises EV_PLAN_CHANGED with both plans and the DT of stop and resumption; PLL_S_LOCK_LOST
counts the loss, keeps the plan and raises EV_REF_STATE reason 0x09; PLL_S_RETRY does the same while retries run. After
a third failure the ADC clocks stay off and retries run. DT, references, PLL-G, coexistence and the inputs stay as they
are. PLAN_DEFERRAL_END ends a deferral that is over; PLL_G_LOCK_LOST resets the device with source 6. With nothing due
each changes nothing. -/
def Obligations.PlansAndSynthesisers : Prop :=
  ∀ (lock : LockRun) (wait : Nat) (s : State), let s1 := s.advance wait
    let kept (t : State) (time : TimeSt) : Prop := t.time = time ∧ t.refs = s.refs ∧ t.rf = s.rf ∧ t.coex = s.coex ∧
      t.clk.pllG = s.clk.pllG ∧ t.acc = s.acc ∧ t.force = s.force ∧ t.power = s.power ∧ t.audio = s.audio
    let locks (t : State) : Prop := t.clk.pllS.locked = true ∧ t.clk.pllS.band = lock.band ∧ t.clk.adcOn = true ∧
      t.clk.retry = false ∧ t.place.rfLost = false
    let fails (t : State) : Prop := t.clk.pllS.locked = false ∧ t.clk.adcOn = false ∧ t.clk.retry = true ∧ t.place.rfLost = true
    let changed (t : State) (old new stop resume : Nat) : State :=
      t.raise 0x8003 noSlot (le 1 old ++ le 1 new ++ zeros 6 ++ le 8 stop ++ le 8 resume)
    let saying (t : State) : State := t.raise 0x8009 noSlot (le 1 9 ++ le 1 0 ++ le 1 s.refs.freqRef ++ le 1 s.refs.freqRef
      ++ le 1 s.refs.tstate.code ++ le 1 0xFF ++ [0, 0] ++ leInt 8 s.refs.e ++ leInt 8 s.refs.eps)
    (∀ p, s.planDue = some p →
      (lock.failures < 3 → ∃ t, exec (.planChange lock) s
          = .next (changed t s.plan.plan p s.now (BitVec.ofNat 64 (s.now + lock.durNs)).toNat) ∧
        t.plan = ⟨p, none, none, some s.time.dt, s.plan.rank, none, false⟩ ∧ locks t ∧ kept t s.time) ∧
      (3 ≤ lock.failures → ∃ u, exec (.planChange lock) s = .next u ∧
        u.plan = ⟨p, none, none, some s.time.dt, s.plan.rank, none, false⟩ ∧ fails u ∧ kept u s.time ∧
        u.clk.stopped = some (s.plan.plan, s.time.dt))) ∧
    (s.planDue = none → exec (.planChange lock) s = .next s) ∧
    (s.clk.pllS.locked = true → s.clk.adcOn = true →
      (lock.failures < 3 → ∃ t, exec (.pllSLockLost lock wait) s = .next (saying t) ∧ t.plan = s.plan ∧ locks t ∧
        kept t s1.time ∧ t.clk.pllS.losses = min (s.clk.pllS.losses + 1) 0xFFFFFFFF) ∧
      (3 ≤ lock.failures → ∃ u, exec (.pllSLockLost lock wait) s = .next u ∧ u.plan = s.plan ∧ fails u ∧ kept u s1.time ∧
        u.clk.pllS.losses = min (s.clk.pllS.losses + 1) 0xFFFFFFFF)) ∧
    (s.clk.pllS.locked = false ∨ s.clk.adcOn = false → exec (.pllSLockLost lock wait) s = .next s) ∧
    (s.clk.retry = true →
      (lock.failures < 3 → s.clk.stopped = none → ∃ t, exec (.pllSRetry lock wait) s = .next (saying t) ∧ t.plan = s.plan ∧
        locks t ∧ kept t s1.time) ∧
      (∀ old stop, lock.failures < 3 → s.clk.stopped = some (old, stop) → ∃ t, exec (.pllSRetry lock wait) s
          = .next (changed t old s.plan.plan stop.toNat (BitVec.ofNat 64 (s1.now + lock.durNs)).toNat) ∧
        t.clk.stopped = none ∧ t.plan = s.plan ∧ locks t ∧ kept t s1.time) ∧
      (3 ≤ lock.failures → ∃ u, exec (.pllSRetry lock wait) s = .next u ∧ u.plan = s.plan ∧ fails u ∧ kept u s1.time)) ∧
    (s.clk.retry = false → exec (.pllSRetry lock wait) s = .next s) ∧
    (∀ e, s.plan.deferEnd = some e → e.toNat ≤ s1.now →
      (s.power.mode ≠ .serve → s.power.mode ≠ .relay → exec (.planDeferralEnd wait) s
        = .next { s1 with plan := { s.plan with deferEnd := none } }) ∧
      (s.power.mode = .serve ∨ s.power.mode = .relay → s.force.plan.policy = 0#8 → exec (.planDeferralEnd wait) s
        = .next { s1 with plan := { s.plan with
            deferEnd := none, rank := ({ s1 with plan := { s.plan with deferEnd := none } } : State).ranking } })) ∧
    (∀ e, s.plan.deferEnd = some e → s1.now < e.toNat → exec (.planDeferralEnd wait) s = .next s) ∧
    (s.plan.deferEnd = none → exec (.planDeferralEnd wait) s = .next s) ∧
    (s.power.railsGood = true → s.power.ioUp = true → s.thermal.shutdown = false → s.clk.pllG.locked = true →
      exec .pllGLockLost s = .next (s.afterReset 6)) ∧
    (s.clk.pllG.locked = false → exec .pllGLockLost s = .next s)

/-- AUD_START_EDGE starts every port armed for that edge, a MASTER port with its first frame t_SL after it (19.99 to
20.01 us), AUDIO_PORT_TRIGGER every MASTER port whose start DT has come, with its first frame at that DT; ports not
armed for it stay as they are. SLAVE_CLOCK_CHECK of a running SLAVE port counts bad clocks as a fault and the port is in
CLOCK_FAULT, from which it runs again after 100 ms of good ones. AUDIO_UNDERRUN of a playing programme counts it, and
raises EV_PORT_UNDERRUN unless one was raised in the last 100 ticks. ZERO_CROSSING_SWITCH and ZERO_CROSSING_TIMEOUT make
the change that waits on the last channel of a programme, the timeout counting a crossfade. -/
def Obligations.AudioPortsRun : Prop :=
  ∀ (wait : Nat) (s : State), s.audio.length = 4 → let s1 := s.advance wait
    (∀ (rising : Bool),
      let on (p : Nat) : Prop := (s.audioPort p).state = 1 ∧ ∃ d, (s.audioPort p).armed = some ⟨if rising then 0 else 1, d⟩
      ∃ u, exec (.audStartEdge rising wait) s = .next u ∧ u.streams = s.streams ∧ u.host = s.host ∧ ∀ p, p < 4 →
        (on p → (u.audioPort p).state = 2 ∧ (u.audioPort p).armed = none ∧ (u.audioPort p).stopping = false ∧
          (portMaster (s.audioSet p) = true → ∃ k, 19990 ≤ k ∧ k ≤ 20010 ∧
            (u.audioPort p).firstFrame = BitVec.ofNat 64 (s1.now + k))) ∧
        (¬ on p → u.audioPort p = s.audioPort p)) ∧
    (let due (p : Nat) : Prop := (s.audioPort p).state = 1 ∧ ∃ d, (s.audioPort p).armed = some ⟨2, d⟩ ∧ d.toNat ≤ s1.now
      ∃ u, exec (.audioPortTrigger wait) s = .next u ∧ u.streams = s.streams ∧ u.host = s.host ∧ ∀ p, p < 4 →
        (due p → (u.audioPort p).state = 2 ∧ (u.audioPort p).armed = none ∧
          (portMaster (s.audioSet p) = true → some (u.audioPort p).firstFrame = (s.audioPort p).armed.map (·.dt))) ∧
        (¬ due p → u.audioPort p = s.audioPort p)) ∧
    (∀ m : SlaveClock, m.port < 4 → let a := s.audioPort m.port
      let bad : Prop := m.fsBits ≠ portF (s.audioSet m.port) ∨ 1000 < m.ppm.natAbs ∨ 10 ≤ m.missing
      (portMaster (s.audioSet m.port) = true ∨ a.state < 2 → exec (.slaveClockCheck m wait) s = .next s) ∧
      (portMaster (s.audioSet m.port) = false → a.state = 2 → ¬ bad → exec (.slaveClockCheck m wait) s = .next s1) ∧
      (portMaster (s.audioSet m.port) = false → a.state = 2 → bad → a.lastEvent = none → exec (.slaveClockCheck m wait) s
        = .next (({ s1 with audio := s.audio.set m.port { a with state := 3, goodMs := 0, faults := min (a.faults + 1) 0xFFFFFFFF, since := 0, lastEvent := some s.power.uptime } } : State).raise 0x8014 noSlot (le 1 m.port ++ [0xFF, 0, 3] ++ le 4 0 ++ le 4 (a.since + 1)))) ∧
      (portMaster (s.audioSet m.port) = false → a.state = 3 → ¬ bad → exec (.slaveClockCheck m wait) s
        = .next { s1 with audio := s.audio.set m.port (if 90 ≤ a.goodMs then { a with state := 2, goodMs := 0 }
            else { a with goodMs := a.goodMs + 10 }) }) ∧
      (portMaster (s.audioSet m.port) = false → a.state = 3 → bad → exec (.slaveClockCheck m wait) s
        = .next { s1 with audio := s.audio.set m.port { a with goodMs := 0 } })) ∧
    (∀ (u : Underrun) (g : Prog), u.port < 4 → let a := s.audioPort u.port
      a.progs.find? (fun g => g.portSlot == u.portSlot) = some g → a.state = 2 → g.playing = true → u.kind = 0 → u.cause < 2 →
      (s.excused g = true → exec (.audioUnderrun u wait) s
        = .next { s1 with audio := s.audio.set u.port { a with underruns := min (a.underruns + 1) 0xFFFFFFFF } }) ∧
      (s.excused g = false → a.lastEvent = none → exec (.audioUnderrun u wait) s
        = .next (({ s1 with audio := s.audio.set u.port { a with
            underruns := min (a.underruns + 1) 0xFFFFFFFF, since := 0, lastEvent := some s.power.uptime } } : State).raise 0x8014 g.slot
              (le 1 u.port ++ le 1 u.portSlot ++ [0] ++ le 1 u.cause ++ le 4 u.silentUs ++ le 4 (a.since + 1)))) ∧
      (∀ t, s.excused g = false → a.lastEvent = some t → s.power.uptime < t + 100 → exec (.audioUnderrun u wait) s
        = .next { s1 with audio := s.audio.set u.port { a with
            underruns := min (a.underruns + 1) 0xFFFFFFFF, since := a.since + 1 } })) ∧
    (∀ (p ch : Nat) (g : Prog) (since : W64) (k : ZcKind), p < 4 → let a := s.audioPort p
      a.changes = [⟨ch, k, since⟩] → a.progs = [g] → g.portSlot ≤ ch → ch < g.portSlot + g.channels →
      (k = .start → exec (.zeroCrossingSwitch p ch wait) s
        = .next { s1 with audio := s.audio.set p { a with changes := [], progs := [{ g with playing := true }] } }) ∧
      (∀ w, k = .path w → exec (.zeroCrossingSwitch p ch wait) s
        = .next { s1 with audio := s.audio.set p { a with changes := [], progs := [{ g with path := w }] } }) ∧
      (k = .migration → since.toNat + (s.audioSet p).nat 16 10 * 1000000 ≤ s1.now → exec (.zeroCrossingTimeout p ch wait) s
        = .next { s1 with audio := s.audio.set p { a with changes := [], fades := min (a.fades + 1) 0xFFFFFFFF } }) ∧
      (s1.now < since.toNat + (s.audioSet p).nat 16 10 * 1000000 → exec (.zeroCrossingTimeout p ch wait) s = .next s)) ∧
    (∀ p ch, (s.audioPort p).changes.any (fun c => c.channel == ch) = false →
      exec (.zeroCrossingSwitch p ch wait) s = .next s ∧ exec (.zeroCrossingTimeout p ch wait) s = .next s)

/-- UNIT_COMPLETION of an open stream of a service that holds its engine adds one unit with its generation, stamp, span,
marks and what the service takes of the content to the collector queue, and none where that is TS or ALP without a
packet. COLLECTOR_WRITE takes one unit whose ring has room: the record of Table 10.3 stands at PRODUCER, PRODUCER moves
past it, the tag is issued, SEQ advances, and no byte of host memory outside the record, its padding and the PRODUCER
word changes but those the host wrote. ENGINE_HOLD_DROP drops the oldest unit held for more than 2 ticks and marks the
next GAP_BEFORE. RING_MODERATION_TIMER signals a ring whose timer runs. PKT_PORT_PACKET of an enabled port without
pacing sends the oldest packet. Where nothing waits, each changes nothing but the time. -/
def Obligations.UnitsReachTheHost : Prop :=
  ∀ (wait : Nat) (s : State), let s1 := s.advance wait
    (∀ (u : UnitIn) (v : Service) (x : Stream), s.slotSvc? u.slot = some v → s.stream? v.field u.kind = some x →
      (v.state.costs = true → x.lastPending = false → Content_kind u.content = u.kind → u.kind ≠ 6 → v.followed = false →
        ∃ t, exec (.unitCompletion u wait) s = .next t ∧ t.services = s.services ∧ t.host = s.host ∧ t.units = s.units ++
          (if noPackets (s.chosen v u.content) then [] else
            [⟨v.field, u.kind, unitGen v u, u.stamp, u.spanNs,
              unitMarks u ||| s1.streamMarks v x u ||| (if x.gapNext then fGap else 0#32) ||| s.trustFlags,
              contentBytes (s.chosen v u.content), s1.tickNow⟩])) ∧
      (v.state.costs = false ∨ x.lastPending = true ∨ Content_kind u.content ≠ u.kind →
        exec (.unitCompletion u wait) s = .next s)) ∧
    (∀ (u : UnitIn), s.slotSvc? u.slot = none → exec (.unitCompletion u wait) s = .next s) ∧
    (∀ (ws : List (Nat × Byte)) (x : Stream) (u : OutUnit) (r tag : Nat),
      let host := Memory.writeCells ramDefault s.host ws
      let s2 : State := { s1 with host := host }
      let base := (s.ringSet r).nat 2
      let size := (s.ringSet r).nat 3 1
      let p := (s.ring r).producer
      let prod := (s.ringSet r).nat 4
      let rec_ := recordBytes tag (s.tagGen tag) (x.dress u) x.seq (tick32 u.tick) noArchive
      let n := roundUp 64 rec_.length
      s.turns = [x] → s.headUnit x = some u → s.stream? x.slot x.kind = some x → s.relays = false → x.autoRing = false →
      x.ring = some r → r < s.outRings.length → x.port = none → x.archive = false → (x.dress u).flags &&& fLast = 0#32 →
      s.nextTag = some tag → s2.ringRoom r u.payload.length = (s2, true) → p + n ≤ size →
      (prod + 8 ≤ base + p ∨ base + p + n ≤ prod) →
      ∃ t, exec (.collectorWrite ws wait) s = .next t ∧ t.units = popUnit x.slot x.kind s.units ∧ t.tags.last = tag ∧
        (t.ring r).producer = (p + n) % size ∧ (t.ring r).records = ((s.ring r).records + 1) % 2 ^ 64 ∧
        (t.stream? x.slot x.kind).map (·.seq) = some ((x.seq + 1) % 2 ^ 32) ∧
        Memory.readN ramDefault t.host (base + p) rec_.length = rec_ ∧
        Memory.readN ramDefault t.host prod 4 = le 4 ((p + n) % size) ∧
        (∀ a, (a < base + p ∨ base + p + n ≤ a) → (a < prod ∨ prod + 8 ≤ a) →
          Memory.read ramDefault t.host a = Memory.read ramDefault host a)) ∧
    (∀ ws, s.turns = [] → exec (.collectorWrite ws wait) s = .next { s1 with host := Memory.writeCells ramDefault s.host ws }) ∧
    (∀ (slot : Nat) (kind : Byte) (pre post : List OutUnit) (u : OutUnit),
      let old (w : OutUnit) : Prop := w.slot.toNat % 256 = slot ∧ w.kind = kind.toNat ∧ w.tick + 2 < s.tickNow
      s.units = pre ++ u :: post → old u → u.flags &&& fLast = 0#32 → (∀ w ∈ pre, ¬ old w) →
      exec (.engineHoldDrop slot kind) s = .next { s with
        units := pre ++ post
        streams := s.streams.map (fun x => if x.slot == u.slot && x.kind == u.kind then { x with
          drops := min (x.drops + 1) 0xFFFFFFFF
          flags := x.flags ||| (fGap ||| (u.flags &&& (fSplice ||| fDiscontinuity))) } else x) }) ∧
    ((∀ w ∈ s.units, s.tickNow ≤ w.tick + 2) → ∀ slot kind, exec (.engineHoldDrop slot kind) s = .next s) ∧
    (∀ r, r ≠ 64 → (s.ring r).timerUs.isSome = true → exec (.ringModerationTimer r wait) s
      = .next (({ s1 with outRings := s.outRings.modify r (fun x => { x with unsignalled := 0, timerUs := none }) } : State).msix
          ((s.ringSet r).nat 5 1))) ∧
    (s.rings.timerUs.isSome = true → exec (.ringModerationTimer 64 wait) s
      = .next (({ s1 with rings := { s.rings with unsignalled := 0, timerUs := none } } : State).msix 0)) ∧
    (s.rings.timerUs = none → exec (.ringModerationTimer 64 wait) s = .next s) ∧
    (∀ r, r ≠ 64 → (s.ring r).timerUs = none → exec (.ringModerationTimer r wait) s = .next s) ∧
    (∀ (port : Nat) (x : PktSt) (k : TsPacket) (rest : List TsPacket), s.pkts[port]? = some x → x.queue = k :: rest →
      (s.pktSet port).nat 1 = 1 → (s.pktSet port).nat 5 = 0 → s.power.mode = .serve → x.t0 = none →
      exec (.pktPortPacket port wait) s = .next { s1 with
        pkts := s.pkts.set port { x with
          queue := rest, t0 := some (k.dt.toNat + (s.pktSet port).nat 7 1000 * 1000000), i := 1
          sent := min (x.sent + 1) 0xFFFFFFFF, count := x.count + 1 }
        out := s.out ++ [.tsPacket port k.bytes] }) ∧
    (∀ port, (∀ x, s.pkts[port]? = some x → x.queue = []) → exec (.pktPortPacket port wait) s = .next s)

/-- At the end of a statistics interval on both of whose boundaries the interval is regular, a statistics unit covers
it, with the lane sections and items of the record, and the next interval begins. The end of a spectrum interval adds a
unit with the input, the transforms, centre, bin width and 1,024 levels. Once a whole second of an archived slot is over
and its archived streams are past it, an index unit lists every archived unit of the slot in that second, in order of
DT, and those entries leave the index. None of them changes a service but for the interval it starts, or any byte of
host memory. -/
def Obligations.IntervalUnits : Prop :=
  ∀ (s : State) (v : Service),
    let adds (t : State) (kind : Nat) (gen : W16) (dt : W64) (span : Nat) (body : List Byte) : Prop :=
      t.units = s.units ++ [⟨v.field, kind, gen, dt, span, s.trustFlags, body, s.tickNow⟩] ∧ t.host = s.host ∧ t.time = s.time ∧
      t.out = s.out
    (∀ (st : StatIn) (x : Stream), s.slotSvc? st.slot = some v → s.stream? v.field 7 = some x →
      x.flags &&& fPartial = 0#32 → s.now % (v.force.lane.nat 6 1000 * 1000000) = 0 → v.statFrom ≠ s.time.dt →
      v.statFrom.toNat % (v.force.lane.nat 6 1000 * 1000000) = 0 → v.genSince ≠ s.time.dt →
      ∃ t, exec (.statisticsIntervalEnd st) s = .next t ∧
        adds t 7 v.force.gen v.statFrom (s.now - v.statFrom.toNat)
          (le 1 st.lanes.length ++ [0] ++ le 2 (s.statItems v st.items).length ++ le 4 st.impaired
            ++ st.lanes.flatMap laneStatBytes ++ (s.statItems v st.items).flatMap StatItem_bytes) ∧
        (t.slotSvc? st.slot).map (·.statFrom) = some s.time.dt ∧ (∀ k, k ≠ st.slot → t.slotSvc? k = s.slotSvc? k)) ∧
    (∀ (st : StatIn), s.slotSvc? st.slot = none → exec (.statisticsIntervalEnd st) s = .next s) ∧
    (∀ (sp : SpectrumIn) (x : Stream), s.slotSvc? sp.slot = some v → s.stream? v.field 9 = some x → v.state.costs = true →
      ∃ t, exec (.spectrumIntervalEnd sp) s = .next t ∧
        adds t 9 v.force.gen sp.stamp sp.spanNs (le 1 v.rx.input ++ [0] ++ le 2 1024 ++ le 2 sp.transforms ++ zeros 2
          ++ le 4 sp.centreKhz.toNat ++ le 4 sp.binMhz.toNat ++ ((sp.levels ++ List.replicate 1024 0).take 1024).flatMap (leInt 2)) ∧
        t.services = s.services) ∧
    (∀ (sp : SpectrumIn), s.slotSvc? sp.slot = some v → s.stream? v.field 9 = none →
      exec (.spectrumIntervalEnd sp) s = .next s) ∧
    (∀ (n k : Nat) (x : Stream), s.slotSvc? n = some v → s.stream? v.field 0xB = some x →
      s.archive.nextSec.find? (fun y => y.1 == v.field) = some (v.field, k) → (k + 1) * 1000000000 ≤ s.now →
      s.streamsPast v.field ((k + 1) * 1000000000) = true →
      let here (e : IndexEntry) : Bool := e.slot == v.field && e.dt.toNat / 1000000000 == k
      ∃ (t : State) (es : List IndexEntry), exec (.archiveIndexUnit n) s = .next t ∧ es.Perm (s.archive.index.filter here) ∧
        es.Pairwise (fun a b => a.dt.toNat ≤ b.dt.toNat) ∧
        adds t 0xB v.force.gen (BitVec.ofNat 64 (k * 1000000000)) 1000000000 (le 4 es.length ++ zeros 4 ++ es.flatMap (fun e =>
          le 8 e.dt.toNat ++ le 8 e.archive.toNat ++ le 4 e.seq ++ le 1 e.kind ++ zeros 3 ++ le 4 e.bytes ++ zeros 4)) ∧
        t.archive.index = s.archive.index.filter (fun e => !here e) ∧ t.services = s.services) ∧
    (∀ n, s.slotSvc? n = none → exec (.archiveIndexUnit n) s = .next s)

/-- For a service that holds costs: RDS_SYNCHRONISATION and RDS_SYNC_LOSS set and clear synchronisation, a loss being
counted; PILOT_STATE_CHANGE under Stereo AUTO sets the pilot; AM_SYNC_LOCK sets the lock, with which PCM is settled.
RDS_GROUP in synchronisation corrects the blocks up to the limit in force and counts them, delivers a group with a block
heard as a side-data record with its check, and parses it where blocks A and B may be; one with no block heard is only
counted. TIMECODE_FRAME delivers one record per frame and counts it, and where the service is not the source of code 7
touches no reference. For a service without costs, or an empty slot, nothing changes. -/
def Obligations.AnalogueEnginesReport : Prop :=
  ∀ (n wait : Nat) (s : State), let s1 := s.advance wait
    let eng (f : AnalogueSt → AnalogueSt) : State :=
      { s1 with services := s.services.map (fun x => if x.slot == n then { x with analogue := f x.analogue } else x) }
    let rec_ (t : State) (v : Service) (stamp : W64) (type : Nat) (check : Bool) (body : List Byte) : State :=
      { t with side := s.side ++ (if (s.stream? v.field 6).isSome then [⟨v.field, stamp, type, check, body⟩] else []) }
    (∀ v, s.slotSvc? n = some v → v.state.costs = true →
      (fmStereo v.attrs = true → v.analogue.rdsSync = false →
        exec (.rdsSynchronisation n wait) s = .next (eng (fun a => { a with rdsSync := true }))) ∧
      (v.analogue.rdsSync = true → exec (.rdsSyncLoss n wait) s
        = .next (eng (fun a => { a with rdsSync := false, rdsLosses := min (a.rdsLosses + 1) 0xFFFFFFFF }))) ∧
      (fmStereo v.attrs = true → v.force.analogue.nat 2 = 0 → ∀ b,
        exec (.pilotStateChange n b wait) s = .next (eng (fun a => { a with pilot := b }))) ∧
      (keyStd v.attrs.key = 3 → v.force.analogue.nat 7 1 ≠ 0 →
        (v.analogue.syncLock = true → exec (.amSyncLock n false wait) s = .next (eng (fun a => { a with syncLock := false }))) ∧
        (v.analogue.syncLock = false → exec (.amSyncLock n true wait) s = .next { eng (fun a => { a with syncLock := true }) with
          streams := s.streams.map (fun x => if x.slot == v.field && x.kind == 1 then { x with settleNs := 0 } else x) })) ∧
      (fmStereo v.attrs = true → v.analogue.rdsSync = true → ∀ y : RdsGroupIn,
        let g := rdsDecode (v.force.analogue.nat 6 2) y
        let t := rec_ (eng (fun a => a.countGroup g true)) v g.stamp 1 ((List.range 4).all (rdsGood g)) (rdsBody g)
        ((∀ i, i < 4 → g.conf.getD i 3 = 3) → exec (.rdsGroup n y wait) s = .next (eng (fun a => a.countGroup g false))) ∧
        ((∃ i, i < 4 ∧ g.conf.getD i 3 ≠ 3) → exec (.rdsGroup n y wait) s = .next (t.rdsParse v g)) ∧
        ((∃ i, i < 4 ∧ g.conf.getD i 3 ≠ 3) → 1 < g.conf.getD 0 3 ∨ 1 < g.conf.getD 1 3 →
          exec (.rdsGroup n y wait) s = .next t)) ∧
      (keyStd v.attrs.key = 4 → ∀ (f : TcFrameIn) (fmt : TcFormat), s.format? (v.force.analogue.nat 11) = some fmt →
        s.sourceSlot 7 ≠ some n →
        let ms := (f.widths.map (tcClassify fmt)).map (tcMeaning fmt)
        let reason := tcReasonOf fmt f ms
        exec (.timecodeFrame n f wait) s = .next (rec_
          (eng (fun a => a.countFrame (f.widths.map (tcClassify fmt)) reason (s1.tcLabelDt fmt ms))) v f.stamp 6 (reason == 0)
          (tcBody fmt f ms reason (s1.tcLabelDt fmt ms))))) ∧
    ((∀ v, s.slotSvc? n = some v → v.state.costs = false) → exec (.rdsSynchronisation n wait) s = .next s ∧
      exec (.rdsSyncLoss n wait) s = .next s ∧ (∀ b, exec (.pilotStateChange n b wait) s = .next s) ∧
      (∀ b, exec (.amSyncLock n b wait) s = .next s) ∧ (∀ g, exec (.rdsGroup n g wait) s = .next s) ∧
      (∀ f, exec (.timecodeFrame n f wait) s = .next s))

/-- For the first engine of the carrier: DAB_SYNCHRONISED in an allowed mode synchronises it, keeping the MCI within the
hold time, and PCM is to settle again; DAB_SYNC_LOSS counts the loss, the engine acquires among the modes allowed now,
and the next units of its services carry GAP_BEFORE; DAB_SEARCH_TIMEOUT 10 s after step 4 reports NOT_IN_MCI;
DAB_RECONFIGURATION at its CIF count puts the next MCI in force and counts it. FIB_RECEIVED counts a bad FIB; a good one
goes into the MCI, into the side data of every service of the ensemble, and to the parsers. No other carrier changes,
and no service; where no engine fits, nothing changes. -/
def Obligations.EnsembleEngines : Prop :=
  ∀ (key : W64) (wait : Nat) (s : State) (pre post : List CarrierSt) (c : CarrierSt) (d : DabEngine), let s1 := s.advance wait
    let put (t : State) (x : DabEngine) : Prop := t.carriers = pre ++ { c with engine := .dab x } :: post ∧
      t.services = s.services ∧ t.units = s.units ∧ t.time = s1.time ∧ t.host = s.host
    let gapped (t : State) : Prop := ∀ v ∈ s.carrierSvcs key, ∀ x ∈ t.streams, x.slot = v.field → 1 ≤ x.kind → x.kind ≤ 5 →
      x.flags &&& fGap = fGap
    s.carriers = pre ++ c :: post → (∀ x ∈ pre, x.key ≠ key) → c.key = key → c.engine = .dab d →
    (∀ m, d.synced = false → dabModeIn d.modes m = true →
      (d.lostAt = none ∨ (∃ t, d.lostAt = some t ∧ s1.now < t.toNat + s.force.dab.nat 2 10 * 1000000000) →
        ∃ t, exec (.dabSynchronised key m wait) s = .next t ∧ put t { d with
          synced := true, txMode := m, step4 := some s1.time.dt, notInMci := false, lostAt := none }) ∧
      ((∃ t, d.lostAt = some t ∧ t.toNat + s.force.dab.nat 2 10 * 1000000000 ≤ s1.now) →
        ∃ t, exec (.dabSynchronised key m wait) s = .next t ∧ put t { d with
          synced := true, txMode := m, step4 := some s1.time.dt, notInMci := false, lostAt := none
          eid := 0#16, subChs := [], comps := [], nextMci := none, support := [] })) ∧
    (d.synced = true → ∃ t, exec (.dabSyncLoss key wait) s = .next t ∧ gapped t ∧ put t { d with
      synced := false, modes := s.force.dab.nat 1 15, notInMci := false, lostAt := some s1.time.dt
      losses := min (d.losses + 1) 0xFFFFFFFF }) ∧
    (∀ t, d.synced = true → d.step4 = some t → t.toNat + 10000000000 ≤ s1.now →
      ∃ u, exec (.dabSearchTimeout key wait) s = .next u ∧ put u { d with notInMci := true } ∧ u.streams = s.streams) ∧
    (∀ k subs comps, d.synced = true → d.nextMci = some (k, subs, comps) → subs ≠ [] → comps ≠ [] →
      ∃ t, exec (.dabReconfiguration key k wait) s = .next t ∧ put t { d with
        cif := k, subChs := subs, comps := comps, nextMci := none, reconfigs := min (d.reconfigs + 1) 0xFFFFFFFF }) ∧
    (∀ f : FibIn, f.carrier = key → d.synced = true →
      (f.good = false → ∃ t, exec (.fibReceived f wait) s = .next t ∧ put t { d with fibBad := min (d.fibBad + 1) 0xFFFFFFFF } ∧
        t.side = s.side ∧ t.streams = s.streams) ∧
      (f.good = true → ∃ t, exec (.fibReceived f wait) s = .next (f.items.foldl (State.figParse c f.stamp) t) ∧
        put t (f.items.foldl DabEngine.fig { d with fibGood := min (d.fibGood + 1) 0xFFFFFFFF }) ∧
        t.side = s.side ++ ((s.carrierSvcs key).filter (fun v => (s.stream? v.field 6).isSome)).map
          (fun v => ⟨v.field, f.stamp, 2, true, (f.raw ++ zeros 32).take 32⟩) ∧ t.streams = s.streams ∧ t.map = s.map)) ∧
    ((∀ x ∈ post, x.key ≠ key) → (d.synced = true → ∀ m, exec (.dabSynchronised key m wait) s = .next s) ∧
      (d.synced = false → exec (.dabSyncLoss key wait) s = .next s ∧ exec (.dabSearchTimeout key wait) s = .next s ∧
        (∀ k, exec (.dabReconfiguration key k wait) s = .next s) ∧
        (∀ f : FibIn, f.carrier = key → exec (.fibReceived f wait) s = .next s)))

/-- For the first engine of the carrier: TV_SYNCHRONISED synchronises it with its signalling, which its services
receive; TV_SYNC_LOSS of an engine without diversity counts the loss, and the next units of its services carry
GAP_BEFORE, while in diversity a first branch is lost without a mark and TV_SYNCHRONISED brings it back;
TV_RECONFIGURATION applies the new signalling and counts it; TV_SEARCH_TIMEOUT changes nothing but the time.
SECTION_RECEIVED delivers the section, with its check, to the side data of the services that it belongs to, and parses a
good one only. No other carrier changes; where no engine fits, nothing changes. -/
def Obligations.TelevisionEngines : Prop :=
  ∀ (key : W64) (wait : Nat) (s : State) (pre post : List CarrierSt) (c : CarrierSt) (d : TvEngine), let s1 := s.advance wait
    let put (t : State) (x : TvEngine) : Prop := t.carriers = pre ++ { c with engine := .tv x } :: post ∧
      t.units = s.units ∧ t.time = s1.time ∧ t.host = s.host
    let gapped (t : State) : Prop := ∀ v ∈ s.carrierSvcs key, ∀ x ∈ t.streams, x.slot = v.field → 1 ≤ x.kind → x.kind ≤ 5 →
      x.flags &&& fGap = fGap
    let tells (t : State) (g : TvSignal) : Prop := ∀ v ∈ t.services, v.state.costs = true → v.rx.carrier = key →
      v.rx.signal = some g
    s.carriers = pre ++ c :: post → (∀ x ∈ pre, x.key ≠ key) → c.key = key → c.engine = .tv d →
    (∀ g, d.synced = false → ∃ t, exec (.tvSynchronised key g wait) s = .next t ∧ tells t g ∧ put t { d with
      synced := true, unsupported := g.unsupported, signal := g, branchLost := 0, lostAt := none }) ∧
    (∀ g, d.synced = true → d.branchLost ≠ 0 → (∀ x ∈ post, x.key ≠ key) →
      ∃ t, exec (.tvSynchronised key g wait) s = .next t ∧ put t { d with branchLost := 0 } ∧ t.services = s.services ∧
        t.streams = s.streams) ∧
    (d.synced = true → d.branches ≤ d.branchLost + 1 → ∃ t, exec (.tvSyncLoss key wait) s = .next t ∧ gapped t ∧
      t.services = s.services ∧ put t { d with
        synced := false, branchLost := 0, lostAt := some s1.time.dt, losses := min (d.losses + 1) 0xFFFFFFFF }) ∧
    (d.synced = true → d.branchLost + 1 < d.branches → ∃ t, exec (.tvSyncLoss key wait) s = .next t ∧
      put t { d with branchLost := d.branchLost + 1 } ∧ t.services = s.services ∧ t.streams = s.streams) ∧
    (∀ g, d.synced = true → ∃ t, exec (.tvReconfiguration key g wait) s = .next t ∧ tells t g ∧ put t { d with
      signal := g, unsupported := g.unsupported, reconfigs := min (d.reconfigs + 1) 0xFFFFFFFF }) ∧
    (d.synced = false → exec (.tvSearchTimeout key wait) s = .next s1) ∧
    (∀ x : SectionIn, x.carrier = key → d.synced = true →
      let more : List SideRec :=
        (((s.carrierSvcs key).filter (fun v => sectionFor v x)).filter (fun v => (s.stream? v.field 6).isSome)).map
          (fun v => ⟨v.field, x.stamp, (sectionRec (d.signal.std == 2) x).1, x.good, (sectionRec (d.signal.std == 2) x).2⟩)
      let t : State := { s1 with side := s.side ++ more }
      (x.good = false → exec (.sectionReceived x wait) s = .next t) ∧
      (x.good = true → exec (.sectionReceived x wait) s = .next (t.secParse c x)) ∧
      (x.good = true → x.item = .other → exec (.sectionReceived x wait) s = .next t)) ∧
    ((∀ x ∈ post, x.key ≠ key) → d.synced = false → exec (.tvSyncLoss key wait) s = .next s ∧
      (∀ g, exec (.tvReconfiguration key g wait) s = .next s) ∧
      (∀ x : SectionIn, x.carrier = key → exec (.sectionReceived x wait) s = .next s))

/-- PROBE_START of discovery that may start joins the probes; one that may not changes nothing. PROBE_END ends the probe
that it names: without identity its point is noted as failed, with an identity a new entry enters the shadow in order of
key, and the end of a pass counts it and asks for a publication; of a probe that does not run it changes nothing.
MAP_PUBLICATION, where it is due at the boundary and the relinked shadow differs from the published copy, advances the
generation, publishes the shadow, and takes DT to the boundary; else it changes nothing. MAP_ENTRY_EXPIRY removes an
expired key from the shadow and its counts. -/
def Obligations.MapRows : Prop :=
  ∀ (wait : Nat) (s : State), let s1 := s.advance wait
    (∀ p : ProbeIn, p.forSlot = none →
      (s.power.mode.receives = true → s.inputBarred p.input = false → s1.probeOk p = true →
        exec (.probeStart p wait) s = .next { s1 with map := { s.map with probes := s.map.probes ++ [p] } }) ∧
      (s.power.mode.receives = false ∨ s.inputBarred p.input = true ∨ s1.probeOk p = false →
        exec (.probeStart p wait) s = .next s)) ∧
    (∀ (p : ProbeIn) (k : Nat × W64), p.forSlot = some k → s.power.mode.receives = true → s.inputBarred p.input = false →
      s1.reserveFits (s1.probeCharge p) = true → s1.probeOk p = true →
      exec (.probeStart p wait) s = .next { s1 with map := { s.map with probes := s.map.probes ++ [p] } }) ∧
    (∀ p : ProbeOut,
      let mine (x : ProbeIn) : Bool := x.standard == p.standard && x.freqKhz == p.freqKhz && x.input == p.input && x.forSlot == p.forSlot
      let rest := s.map.probes.filter (fun x => !mine x)
      (s.map.probes.any mine = false → exec (.probeEnd p wait) s = .next s) ∧
      (s.map.probes.any mine = true → p.forSlot = none → p.detected = false →
        (p.passEnd = false → exec (.probeEnd p wait) s = .next { s1 with map := { s.map with
          probes := rest, failedPoints := s.map.failedPoints ++ [(p.freqKhz, p.input)] } }) ∧
        (p.passEnd = true → exec (.probeEnd p wait) s = .next { s1 with map := { s.map with
          probes := rest, failedPoints := [], passes := min (s.map.passes + 1) 0xFFFFFFFF, passDone := true, due := true,
          refusedKeys := [] } })) ∧
      (∀ e : MapEntry, s.map.probes.any mine = true → p.forSlot = none → p.detected = true → p.entries = [e] → p.passEnd = false →
        s.isMast = false → (∀ x ∈ s.map.shadow.entries, sameKey x.key (clearKey e.key) = false) →
        s.map.shadow.entries.length < 4096 → ∃ t, exec (.probeEnd p wait) s = .next t ∧ t.map.probes = rest ∧
          t.map.shadow.entries = insertEntry { e with key := clearKey e.key, lastSeen := s1.seenNow, linkSet := 0xFF#8 }
            s.map.shadow.entries ∧ t.map.published = s.map.published ∧ t.services = s.services)) ∧
    (let r := s.dropLearned.relink;
      (s.power.ready = true → s.isMast = false → s.publishDue = true →
        (r.map.shadow ≠ s.map.published ∨ s.map.refusedIval ≠ 0) → ∃ t, exec .mapPublication s = .next t ∧
          t.map.gen = s.map.gen + 1 ∧ t.map.published = r.map.shadow ∧ t.map.refusedIval = 0 ∧ t.map.due = false ∧
          t.map.passDone = false ∧ t.time.dt = BitVec.ofNat 64 (max s.now s.time.boundary)) ∧
      (s.power.ready = false ∨ s.isMast = true ∨ s.publishDue = false ∨
        (r.map.shadow = s.map.published ∧ s.map.refusedIval = 0) → exec .mapPublication s = .next s)) ∧
    (∀ key, s.expired key = true → exec (.mapEntryExpiry key) s = .next { s with map := { s.map with
      shadow := { s.map.shadow with entries := s.map.shadow.entries.filter (fun e => e.key != key) },
      absent := s.map.absent.filter (fun x => x.1 != key), seenAt := s.map.seenAt.filter (fun x => x.1 != key) } }) ∧
    (∀ key, s.expired key = false → exec (.mapEntryExpiry key) s = .next s)

/-- SPLICE_SWITCH that alignment allows puts the target in force: the service is PLACED on the reception of the target
with reason 0x0C and no splice; a BETTER or RETURN splice whose target did not keep its lead is abandoned, the service
PLACED on its old reception. One that alignment does not allow changes nothing. SPLICE_TIMEOUT after 2 s lets a FAILURE
splice fall back, and after the splice timeout abandons any other; earlier it changes nothing. ALERT_TIMEOUT ends every
alert that has timed out and keeps every other, and ends a routing of the slot that has reached its limit. -/
def Obligations.SplicesAndAlertsEnd : Prop :=
  ∀ (n wait : Nat) (s : State), let s1 := s.advance wait
    (∀ (v : Service) (x : Splice), s.slotSvc? n = some v → v.slot = n → v.follow.splice = some x →
      let gone (t : State) : Prop := t.slotSvc? n = some { v with
        follow := { v.follow with splice := none }, state := .placed, reason := 0x0C, stateDt := s1.time.dt } ∧
        (∀ k, k ≠ n → t.slotSvc? k = s.slotSvc? k) ∧ t.streams = s.streams ∧ t.lanes = (s.dropJoining n).lanes;
      (∀ m : SpliceIn, s1.alignOk v x m = false → exec (.spliceSwitch n m wait) s = .next s) ∧
      (∀ m : SpliceIn, s1.alignOk v x m = true → x.cause ≠ 0 → m.held = false →
        ∃ t, exec (.spliceSwitch n m wait) s = .next (t.raise 0x8004 v.field (le 1 v.state.code ++ le 1 SvcState.placed.code
          ++ le 1 0x0C ++ zeros 5 ++ le 8 v.acc.attrs.key.toNat)) ∧ gone t) ∧
      (∀ m : SpliceIn, s1.alignOk v x m = true → (x.cause = 0 ∨ m.held = true) →
        ∃ t w, exec (.spliceSwitch n m wait) s = .next t ∧ t.slotSvc? n = some w ∧ w.rx = x.dest ∧ w.diversity = false ∧
          w.state = .placed ∧ w.reason = 0x0C ∧ w.follow.splice = none ∧ w.follow.margin = x.target.margin ∧ w.acc = v.acc ∧
          w.inc = v.inc) ∧
      (x.cause = 0 → x.started.toNat + 2000000000 ≤ s1.now → exec (.spliceTimeout n wait) s
        = .next { s1 with services := s.services.map (fun y => if y.slot == n then { y with
            follow := { y.follow with splice := some { x with fallback := true } } } else y) }) ∧
      (x.cause = 0 → s1.now < x.started.toNat + 2000000000 → exec (.spliceTimeout n wait) s = .next s) ∧
      (x.cause ≠ 0 → x.started.toNat + s.force.follow.nat 12 10 * 1000000000 ≤ s1.now →
        ∃ t, exec (.spliceTimeout n wait) s = .next (t.raise 0x8004 v.field (le 1 v.state.code ++ le 1 SvcState.placed.code
          ++ le 1 0x0C ++ zeros 5 ++ le 8 v.acc.attrs.key.toNat)) ∧ gone t) ∧
      (x.cause ≠ 0 → s1.now < x.started.toNat + s.force.follow.nat 12 10 * 1000000000 →
        exec (.spliceTimeout n wait) s = .next s)) ∧
    ((∀ v, s.slotSvc? n = some v → v.follow.splice = none) → (∀ m, exec (.spliceSwitch n m wait) s = .next s) ∧
      exec (.spliceTimeout n wait) s = .next s) ∧
    (∃ t, exec (.alertTimeout n wait) s = .next t ∧ (∀ a ∈ t.alerts, s1.alertTimedOut a = false) ∧
      (∀ a ∈ s.alerts, s1.alertTimedOut a = false → ∃ b ∈ t.alerts, b = { a with spent := b.spent }) ∧
      (∀ v r, s.slotSvc? n = some v → v.slot = n → v.follow.routing = some r →
        r.since.toNat + v.force.alertLimit.toNat * 1000000000 ≤ s1.now →
        ∃ w, t.slotSvc? n = some w ∧ w.follow.routing = none)) ∧
    ((∀ a ∈ s.alerts, s1.alertTimedOut a = false) → (∀ v ∈ s.services, v.follow.routing = none) →
      exec (.alertTimeout n wait) s = .next s1)

/-- ROTATION_STEP in FULL mode with usable samples: a result within its limits gives the spare its trims and swaps it
with the target; one outside them is counted and EV_CAL_RESULT says why, and at the third the spare is retired.
ESTIMATION_WINDOW of one slice moves its trims by at most a quarter of the change limits, and at the third failure in
succession the slice is interpolated and the ADC DEGRADED. FLATNESS_BURST, RTC_TRIM_MEASURE after 1,000 s of lock, and
EQUALISER_FIT put an accepted result in force, and count a rejected one. Nothing but the calibration blocks, the RTC
trim and events changes; a step that does not count changes nothing. -/
def Obligations.CalibrationResults : Prop :=
  ∀ (s : State),
    let saying (t : State) (block target outcome : Nat) (q q2 : Int) : State := t.raise 0x800B noSlot
      (le 1 block ++ le 1 target ++ le 1 outcome ++ zeros 1 ++ leInt 2 q ++ leInt 2 q2)
    (∀ r : RotationIn, r.adc < 2 → s.adcRuns = true → s.force.cal.nat 1 1 = 1 →
      let a := s.adcCal r.adc
      let tr : SliceTrim := ⟨r.offset, r.gain, r.skew⟩
      let counted : AdcCal := { a with fails := a.fails.modify a.spare (fun n => min 255 (n + 1)), target := (a.aim + 1) % 17 }
      a.mode = 0 → 25 ≤ r.usable →
      (tr.ok = true → tr.near (a.trim s.plan.plan a.spare) = true → exec (.rotationStep r) s
        = .next (s.modAdc r.adc (fun _ => { a.setTrim s.plan.plan a.spare tr with
            head := ⟨1, 0, s.time.dt, BitVec.ofInt 16 r.quality, BitVec.ofInt 16 r.quality2⟩, fails := a.fails.set a.spare 0
            status := (a.status.set a.spare 0).set a.aim 1, spare := a.aim, target := (a.aim + 1) % 17 }))) ∧
      (tr.ok = false → counted.fails.getD a.spare 0 < 3 → exec (.rotationStep r) s
        = .next (saying (s.modAdc r.adc (fun _ => counted)) (r.adc + 1) a.spare 1 r.quality r.quality2)) ∧
      (tr.ok = true → tr.near (a.trim s.plan.plan a.spare) = false → counted.fails.getD a.spare 0 < 3 → exec (.rotationStep r) s
        = .next (saying (s.modAdc r.adc (fun _ => counted)) (r.adc + 1) a.spare 2 r.quality r.quality2)) ∧
      (tr.ok = false → 3 ≤ counted.fails.getD a.spare 0 → ∃ t, exec (.rotationStep r) s
          = .next (saying t (r.adc + 1) a.spare 3 r.quality r.quality2) ∧
        t.adcCal r.adc = counted.retire a.spare ∧ t.adcCal (1 - r.adc) = s.adcCal (1 - r.adc) ∧ t.services = s.services)) ∧
    (∀ r : RotationIn, s.adcRuns = false ∨ (s.adcCal r.adc).mode ≠ 0 ∨ s.force.cal.nat 1 1 ≠ 1 ∨ r.usable < 25 →
      exec (.rotationStep r) s = .next s) ∧
    (∀ (r : EstimationIn) (sl : Nat) (o g k : Int), r.adc < 2 → s.adcRuns = true → s.force.cal.nat 1 1 = 1 → -4000 ≤ r.rms →
      r.estimates = [(sl, o, g, k)] →
      let a := s.adcCal r.adc
      let old := a.trim s.plan.plan sl
      let tr : SliceTrim := ⟨o, g, k⟩
      let counted : AdcCal := { a with
        fails := a.fails.modify sl (fun n => min 255 (n + 1)), estFails := a.estFails.set sl (a.estFails.getD sl 0 + 1) }
      a.mode ≠ 0 → a.status.getD sl 9 = 0 → a.status.count 3 < 5 →
      (tr.ok = true → tr.near old = true → exec (.estimationWindow r) s
        = .next (s.modAdc r.adc (fun _ => { a.setTrim s.plan.plan sl (old.quarter tr) with
            head := ⟨1, 0, s.time.dt, BitVec.ofInt 16 r.quality, BitVec.ofInt 16 r.quality2⟩
            fails := a.fails.set sl 0, estFails := a.estFails.set sl 0 }))) ∧
      (tr.ok = false → a.estFails.getD sl 0 + 1 < 3 → exec (.estimationWindow r) s
        = .next (saying (s.modAdc r.adc (fun _ => counted)) (r.adc + 1) sl 1 r.quality r.quality2)) ∧
      (tr.ok = false → 3 ≤ a.estFails.getD sl 0 + 1 →
        let b : AdcCal := { counted with status := a.status.set sl 3, mode := 2 }
        exec (.estimationWindow r) s = .next (saying ((s.modAdc r.adc (fun _ => b)).raise 0x800A noSlot
          (le 1 r.adc ++ le 1 sl ++ le 1 (b.status.count 3) ++ zeros 1)) (r.adc + 1) sl 4 r.quality r.quality2))) ∧
    (∀ r : EstimationIn, s.adcRuns = false ∨ (s.adcCal r.adc).mode = 0 ∨ s.force.cal.nat 1 1 ≠ 1 ∨ r.rms < -4000 →
      exec (.estimationWindow r) s = .next s) ∧
    (∀ b : BurstIn, b.input < 3 → s.burstTick b.input s.tickNow = true → s.coex.reqIn = false →
      b.lines.length = (s.flat b.input).lines.length →
      let s1 := s.advance (s.time.boundary - 450000 - s.now)
      (linesOk b.input b.lines = true → within 50 b.lines (s.flat b.input).lines = true → exec (.flatnessBurst b) s
        = .next (s1.modFlat b.input (fun f => { f with
            head := ⟨1, 0, s1.time.dt, BitVec.ofInt 16 b.quality, BitVec.ofInt 16 0⟩, lines := b.lines }))) ∧
      (linesOk b.input b.lines = false → exec (.flatnessBurst b) s
        = .next (saying (s1.modFlat b.input (fun f => { f with head := { f.head with fails := min 255 (f.head.fails + 1) } }))
            (0x10 + b.input) b.input 1 b.quality 0))) ∧
    (∀ b : BurstIn, s.burstTick b.input s.tickNow = false ∨ s.coex.reqIn = true → exec (.flatnessBurst b) s = .next s) ∧
    (∀ (e : Int) (wait : Nat), s.force.cal.nat 4 1 = 1 → s.refs.tstate = .locked → 1000000 ≤ s.cal.lockTicks →
      let s1 := s.advance wait
      (e.natAbs ≤ 10000 → exec (.rtcTrimMeasure e wait) s = .next { s1 with
        rtc := { s.rtc with trim := trimFor s.rtc.trim e }
        cal := { s.cal with lockTicks := 0, trim := ⟨⟨1, 0, s1.time.dt, BitVec.ofInt 16 e.natAbs, BitVec.ofInt 16 0⟩, trimFor s.rtc.trim e, e⟩ } }) ∧
      (10000 < e.natAbs → exec (.rtcTrimMeasure e wait) s = .next (saying { s1 with
        cal := { s.cal with lockTicks := 0, trim := { s.cal.trim with
          head := { s.cal.trim.head with fails := min 255 (s.cal.trim.head.fails + 1) } } } } 0x40 0 1 (min 65535 (e.natAbs : Int)) 0))) ∧
    (∀ e wait, s.force.cal.nat 4 1 ≠ 1 ∨ s.refs.tstate ≠ .locked ∨ s.cal.lockTicks < 1000000 →
      exec (.rtcTrimMeasure e wait) s = .next s) ∧
    (∀ (f : EqFit) (wait : Nat), let s1 := s.advance wait
      (s1.fitDue = true → s.cal.job = none → f.spread ≤ 400 → exec (.equaliserFit f wait) s = .next { s1 with
        cal := { s.cal with eq := ⟨⟨1, 0, s1.time.dt, BitVec.ofInt 16 f.ripple, BitVec.ofInt 16 0⟩,
          if s.trunk.state = .data ∧ 50 < f.change then f.stepTap else f.taps, some s1.time.dt⟩ } }) ∧
      (s1.fitDue = true → s.cal.job = none → 400 < f.spread → exec (.equaliserFit f wait) s = .next (saying { s1 with
        cal := { s.cal with eq := { s.cal.eq with
          last := some s1.time.dt, head := { s.cal.eq.head with fails := min 255 (s.cal.eq.head.fails + 1) } } } } 0x30 0 1 f.ripple 0)) ∧
      (s1.fitDue = false → exec (.equaliserFit f wait) s = .next s))

/-- MODE_TRANSITION with no change pending, with one whose effective tick has not begun, or with one under way, changes
nothing. In DORMANT, a change to a sub-state as deep or deeper applies at once and raises EV_MODE with its cause. Any
other change begins: TRANSITION is set, the mode stays in force, PLL-G is up, and INT_STATUS MODE_CHANGE is set on both
buses. MODE_TRANSITION_COMPLETE of a change under way puts the target and its sub-state in force, clears TRANSITION, and
raises EV_MODE with the old mode, the new mode and the cause; without one it changes nothing. -/
def Obligations.ModeTransitions : Prop :=
  ∀ (c : StartCal) (wait : Nat) (s : State),
    (∀ segs, s.power.change = none ∨ s.serving = false → exec (.modeTransition c segs) s = .next s) ∧
    (s.power.change = none ∨ s.serving = false → exec (.modeTransitionComplete wait) s = .next s) ∧
    (∀ m, s.power.change = some m → s.serving = true →
      (∀ segs, m.begun = true ∨ m.ticksLeft ≠ 0 → exec (.modeTransition c segs) s = .next s) ∧
      (m.begun = false → exec (.modeTransitionComplete wait) s = .next s) ∧
      (∀ segs, m.begun = false → m.ticksLeft = 0 → m.target = .dormant → s.power.mode = .dormant →
        s.power.sub.code ≤ m.sub.code →
        ∃ t : State, exec (.modeTransition c segs) s
            = .next (t.raise 0x8016 noSlot (le 1 1 ++ le 1 1 ++ le 1 m.cause ++ le 1 m.sub.code)) ∧
          t.power = { s.power with sub := m.sub, change := none } ∧ t.clk.pllG.locked = (m.sub != .cold) ∧
          (m.sub ≠ .hot → t.clk.adcOn = false ∧ t.clk.pllS.locked = false ∧ t.cal.startDone = false) ∧
          t.acc = s.acc ∧ t.rtc = s.rtc ∧
          t.busP.intStatus.getLsbD 5 = true ∧ t.busT.intStatus.getLsbD 5 = true) ∧
      (m.begun = false → m.ticksLeft = 0 →
        ¬ (m.target = .dormant ∧ s.power.mode = .dormant ∧ s.power.sub.code ≤ m.sub.code) →
        ∃ t, exec (.modeTransition c []) s = .next t ∧ t.power.change = some { m with begun := true } ∧
          t.power.mode = s.power.mode ∧ t.power.sub = s.power.sub ∧ t.inTransition = true ∧ t.clk.pllG.locked = true ∧
          t.acc = s.acc ∧ t.rtc = s.rtc) ∧
      (m.begun = true →
        ∃ t : State, exec (.modeTransitionComplete wait) s
            = .next (t.raise 0x8016 noSlot (le 1 s.power.mode.code ++ le 1 m.target.code ++ le 1 m.cause
                ++ le 1 (if m.target = .dormant then m.sub.code else 0xFF))) ∧
          t.power = { s.power with mode := m.target, sub := m.sub, change := none } ∧ t.inTransition = false ∧
          t.busP.intStatus.getLsbD 5 = true ∧ t.busT.intStatus.getLsbD 5 = true ∧
          t.acc = s.acc ∧ t.rtc = s.rtc ∧ (m.target ≠ .dormant → t.clk = s.clk ∧ t.cal = s.cal ∧ t.refs = s.refs)))

/-- IMAGE_ACTIVATION of a slot whose activation is due writes the SYSTEM record with the new boot slot, the old one as
previous and trial count 0, and resets with source 4; with none due or the device not READY it changes nothing.
TRIAL_CONFIRM 60 s after READY confirms the image and raises EV_IMAGE_STATE RUNNING with reason 0x11; earlier or without
a trial it changes nothing. TRIAL_FAILURE in a trial that has not reached READY counts the first failure; at the second
the previous slot boots and the new one is FAILED with reason 0x10; and the device starts again. JOURNAL_COMMIT of a
group with a change writes its record at the next free page of a sector with room and clears the change; of a group
without one it changes nothing (that a commit is one whole step is log entry 35). -/
def Obligations.ImagesTrialsAndJournal : Prop :=
  ∀ (s : State),
    (s.activationDue = none ∨ s.serving = false → exec .imageActivation s = .next s) ∧
    (∀ i, s.activationDue = some i → s.serving = true →
      let r := s.power.recovery
      exec .imageActivation s = .next ((s.writeSystem (fun y => { y with
        bootSlot := i, prevSlot := if r then 1 - i else s.flash.running, trialCount := 0, confirmed := r })).afterReset 4)) ∧
    (s.flash.trialTick = none ∨ s.serving = false → exec .trialConfirm s = .next s) ∧
    (∀ n, s.flash.trialTick = some n → n < 60000 → exec .trialConfirm s = .next s) ∧
    (∀ n, s.flash.trialTick = some n → 60000 ≤ n → s.serving = true →
      let x : ImgSlot := { s.slot s.flash.running with state := .running, reason := 0x11 }
      ∃ t : State, exec .trialConfirm s = .next (t.raise 0x8011 noSlot (imageParams s.flash.running x 0x11)) ∧
        t.slot s.flash.running = x ∧ t.flash.trialTick = none ∧ t.journal.sys.confirmed = true ∧
        t.flash.mem = s.flash.mem ∧ t.power = s.power ∧ t.acc = s.acc) ∧
    (s.power.startPend = false ∨ s.flash.trialTick = none → exec .trialFailure s = .next s) ∧
    (s.power.startPend = true → s.flash.trialTick ≠ none → exec .trialFailure s = .next s.trialFail.restart ∧
      s.trialFail.restart.power.lastReset = s.power.lastReset ∧ s.trialFail.restart.flash.trialHit = false ∧
      s.trialFail.restart.power.ready = false ∧
      (s.journal.sys.trialCount = 0 → s.trialFail.journal.sys.trialCount = 1 ∧ s.trialFail.flash = s.flash) ∧
      (s.journal.sys.trialCount ≠ 0 → s.trialFail.journal.sys.bootSlot = s.journal.sys.prevSlot ∧
        s.trialFail.journal.sys.prevSlot = s.journal.sys.bootSlot ∧ s.trialFail.journal.sys.confirmed = true ∧
        (s.trialFail.slot s.journal.sys.bootSlot).state = .failed ∧
        (s.trialFail.slot s.journal.sys.bootSlot).reason = 0x10)) ∧
    (∀ c : CommitIn, s.journal.dirty.any (·.1 == c.group) = false ∨ 4064 < c.len ∨ c.len % 4 ≠ 0 →
      exec (.journalCommit c) s = .next s) ∧
    (∀ c : CommitIn, s.journal.dirty.any (·.1 == c.group) = true → s.journal.readOnly = true →
      exec (.journalCommit c) s = .next s) ∧
    (∀ c : CommitIn, s.journal.dirty.any (·.1 == c.group) = true → c.len ≤ 4064 → c.len % 4 = 0 →
      s.journal.readOnly = false → c.misreads = 0 → c.crcOnes = false → c.skip = 0 →
      (s.journal.sector s.journal.current).inUse = true →
      (s.journal.sector s.journal.current).nextPage + recordPages c.len ≤ 256 →
      ∃ t, exec (.journalCommit c) s = .next t ∧ t = { s with journal := t.journal } ∧
        t.journal.sector s.journal.current = { s.journal.sector s.journal.current with
          records := (s.journal.sector s.journal.current).records
            ++ [⟨c.group, s.flash.format, s.journal.rseq, c.len, s.acc, s.journal.sys⟩]
          nextPage := (s.journal.sector s.journal.current).nextPage + (c.len + 20 + 255) / 256 } ∧
        t.journal.rseq = s.journal.rseq + 1 ∧ t.journal.sys = s.journal.sys ∧ t.journal.current = s.journal.current ∧
        t.journal.dirty = s.journal.dirty.filter (·.1 != c.group))

/-- RESET_N_ASSERTED with good rails and no shutdown, WATCHDOG_RESET of a running device, RAIL_POWER_LOSS and
POWER_ON_RESET leave every device setting at its default, no service, lane, map entry or armed step, READY 0, and every
I/O ball high-impedance; the backup domain keeps its contents behind a locked interface, and the source is that of Table
19.5. A rail loss with every rail down and VBAT good enters BACKUP. DEVICE_START with rails good, not yet started and
not shut down runs the recovery loader where BOOT says so or no slot boots, in MAINTAIN, and else the chosen image in
DORMANT or MAINTAIN; READY waits for the unlock. Each of these commands in any other state changes nothing. -/
def Obligations.ResetsAndStart : Prop :=
  ∀ (s : State),
    let wiped (t : State) (src : Nat) : Prop :=
      t.acc = Settings.default ∧ t.force = Settings.default ∧ t.sched = [] ∧ t.services = [] ∧ t.lanes = [] ∧ t.streams = [] ∧
      t.carriers = [] ∧ t.units = [] ∧ t.map = MapSt.reset ∧ t.trunk = TrunkSt.reset ∧ t.time.armed = false ∧ t.alerts = [] ∧
      t.cal = CalSt.factory 0#32 0#32 ∧ t.power.ready = false ∧ t.power.ioUp = false ∧ t.power.lastReset = src ∧
      t.busP = BusRegs.reset ∧ t.busT = BusRegs.reset ∧ t.host = s.host ∧ t.flash.mem = s.flash.mem ∧ t.flash.keys = s.flash.keys ∧
      t.rtc.cal = s.rtc.cal ∧ t.rtc.backup = s.rtc.backup ∧ t.rtc.alarm = s.rtc.alarm ∧ t.rtc.osf = s.rtc.osf ∧
      t.rtc.halt = s.rtc.halt ∧ t.rtc.trim = s.rtc.trim ∧ t.rtc.alarmFlag = s.rtc.alarmFlag ∧ t.rtc.locked = true ∧
      t.out = s.out ++ [.floated true] ∧ t.pending = s.pending
    (s.power.railsGood = true → s.thermal.shutdown = false → ∃ t, exec .resetNAsserted s = .next t ∧ wiped t 2 ∧
      t.power.railsGood = true ∧ t.diag = s.diag) ∧
    (s.power.railsGood = false ∨ s.thermal.shutdown = true → exec .resetNAsserted s = .next s) ∧
    (s.power.railsGood = true → s.power.ioUp = true → s.thermal.shutdown = false →
      ∃ t, exec .watchdogReset s = .next t ∧ wiped t 5 ∧ t.diag = s.diag ∧
        t.flash.trialHit = (s.flash.trialHit || !s.journal.sys.confirmed)) ∧
    (s.power.railsGood = false ∨ s.power.ioUp = false ∨ s.thermal.shutdown = true → exec .watchdogReset s = .next s) ∧
    (∀ allDown vbatOk, ∃ t, exec (.railPowerLoss allDown vbatOk) s = .next t ∧ wiped t 0 ∧ t.power.railsGood = false ∧
      t.power.mode = (if allDown && vbatOk then .backup else .dormant) ∧ t.rtc.onVbat = true) ∧
    (∀ allDown, s.power.railsGood = false → ∃ t, exec (.powerOnReset allDown) s = .next t ∧
      wiped t (if allDown then 1 else 8) ∧ t.power.railsGood = true ∧ t.diag = []) ∧
    (∀ allDown, s.power.railsGood = true → exec (.powerOnReset allDown) s = .next s) ∧
    (∀ inp, s.power.railsGood = false ∨ s.power.ioUp = true ∨ s.thermal.shutdown = true →
      exec (.deviceStart inp) s = .next s) ∧
    (∀ inp, s.power.railsGood = true → s.power.ioUp = false → s.thermal.shutdown = false →
      (inp.boot = 1 ∨ (s.startHard inp).bootChoice = none →
        ∃ t, exec (.deviceStart inp) s = .next t ∧ t.power.recovery = true ∧ t.power.mode = .maintain ∧ t.power.ioUp = true ∧
          t.power.startPend = true ∧ t.power.ready = s.power.ready ∧ t.rtc.locked = true ∧ t.clk.pllG.locked = true ∧
          t.flash.size = inp.sfdpSize ∧ t.tw.addrBits = inp.twAddr % 8) ∧
      (∀ i, inp.boot ≠ 1 → (s.startHard inp).bootChoice = some i → inp.segs = [] →
        ∃ t, exec (.deviceStart inp) s = .next t ∧ t.flash.running = i ∧
          t.power.mode = (if s.power.enterMaintain = true ∨ inp.boot = 2 then .maintain else .dormant) ∧
          t.power.startPend = true ∧ t.power.ready = s.power.ready ∧ t.power.ioUp = true ∧ t.rtc.locked = true ∧
          t.acc = t.force))

/-- RTC_SECOND_ROLLOVER advances the calendar by one second in the Gregorian calendar, wraps after 2199-12-31T23:59:59
to 2000-01-01T00:00:00 with OSF set, sets ALARM_FLAG where the calendar comes to equal an enabled alarm, and does
nothing under HALT; in a start with the interface locked it also unlocks and sets READY, as RTC_UNLOCK_TIMEOUT does.
RTC_WRITE_COMMIT commits the writes whose second has begun: options 0 and 1 set the calendar, HALT and clear OSF, option
2 clears HALT. RTC_DT_CORRECTION sets the calendar from DT at a whole second while LOCKED with a time source where it is
due. OSCILLATOR_STOPPED sets OSF. BACKUP_DOMAIN_RESET puts every register at its reset value. -/
def Obligations.ClockChipRows : Prop :=
  ∀ (wait : Nat) (s : State),
    let r := s.rtc
    let s1 := s.advance wait
    let idle : Prop := s.power.startPend = false ∨ r.locked = false
    let step (c : RtcCal) (o : Bool) : RtcSt :=
      { r with cal := c, osf := r.osf || o, alarmFlag := r.alarmFlag || (r.alarmEn && c == r.alarm) }
    (r.halt = true → exec .rtcSecondRollover s = .next s) ∧
    (r.halt = false → idle → r.cal ≠ ⟨2199, 12, 31, 23, 59, 59⟩ → ∃ t, exec .rtcSecondRollover s = .next t ∧
      t.rtc = step (RtcCal.ofSeconds (r.cal.seconds + 1)) false ∧ { t with rtc := s.rtc, out := s.out } = s ∧
      t.out = s.out ++ (if t.rtc.alarmFlag = r.alarmFlag then [] else [.pin "RTC_INT_N" false])) ∧
    (r.halt = false → idle → r.cal = ⟨2199, 12, 31, 23, 59, 59⟩ → ∃ t, exec .rtcSecondRollover s = .next t ∧
      t.rtc = step ⟨2000, 1, 1, 0, 0, 0⟩ true ∧ { t with rtc := s.rtc, out := s.out } = s) ∧
    (r.halt = false → s.power.startPend = true → r.locked = true → ∃ t, exec .rtcSecondRollover s = .next t ∧
      t.rtc.locked = false ∧ t.rtc.onVbat = false ∧ t.rtc.wasVbat = r.vbatSeen ∧ t.rtc.vbatSeen = false ∧
      t.power.ready = true ∧ t.power.startPend = false ∧ t.time.seeded = true) ∧
    (idle → exec .rtcUnlockTimeout s = .next s) ∧
    (s.power.startPend = true → r.locked = true → ∃ t, exec .rtcUnlockTimeout s = .next t ∧ t.rtc.cal = r.cal ∧
      t.rtc.locked = false ∧ t.rtc.wasVbat = r.vbatSeen ∧ t.power.ready = true ∧ t.power.startPend = false ∧
      (r.osf = true → t.time.dt = 0#64 ∧ t.time.rtcSeed = false)) ∧
    (r.locked = true → exec (.rtcWriteCommit wait) s = .next s1) ∧
    (∀ w, r.locked = false → r.write = [w] → w.ticksLeft ≠ 0 → exec (.rtcWriteCommit wait) s = .next s1) ∧
    (∀ w, r.locked = false → r.write = [w] → w.ticksLeft = 0 → exec (.rtcWriteCommit wait) s
      = .next { s1 with rtc := if w.option = 2 then { r with halt := false, write := [] }
          else { r with cal := w.cal, halt := w.option == 1, osf := false, write := [] } }) ∧
    (r.locked = false → r.halt = false → s.refs.tstate = .locked → s.refs.timeSrc ≠ none → s1.now % 1000000000 = 0 →
      inLeapSecond s.leapTable s1.now = false → 0 ≤ s1.utcSeconds s1.now →
      (s1.utcSeconds s1.now).toNat ≤ calendarEnd.seconds → ∀ d,
      (r.lockedDue = true ∨ (100 < d ∧ ∀ l, r.lastSet = some l → l.toNat + 3600000000000 ≤ s1.now) →
        exec (.rtcDtCorrection d wait) s = .next { s1 with rtc := { r with
          cal := RtcCal.ofSeconds (s1.utcSeconds s1.now).toNat, osf := false, lockedDue := false,
          lastSet := some s1.time.dt } }) ∧
      (r.lockedDue = false → (d ≤ 100 ∨ ∃ l, r.lastSet = some l ∧ s1.now < l.toNat + 3600000000000) →
        exec (.rtcDtCorrection d wait) s = .next s1)) ∧
    (∀ d, r.locked = true ∨ r.halt = true ∨ s.refs.tstate ≠ .locked ∨ s.refs.timeSrc = none ∨ s1.now % 1000000000 ≠ 0 ∨
      calendarEnd.seconds < (s1.utcSeconds s1.now).toNat → exec (.rtcDtCorrection d wait) s = .next s1) ∧
    exec .oscillatorStopped s = .next { s with rtc := { r with osf := true } } ∧
    (∃ t, exec .backupDomainReset s = .next t ∧ { t with rtc := s.rtc, out := s.out } = s ∧ t.rtc.osf = true ∧
      t.rtc.halt = false ∧ t.rtc.vbatSeen = false ∧ t.rtc.alarmEn = false ∧ t.rtc.alarmFlag = false ∧
      t.rtc.trim = 0x8000#16 ∧ t.rtc.backup = List.replicate 32 0#8 ∧ t.rtc.cal = ⟨2000, 1, 1, 0, 0, 0⟩ ∧
      t.rtc.locked = r.locked)

/-- With the rails good BOUNDARY_SCAN runs its TCK edges one after another, and changes nothing but the TAP, what left
TDO, and the count of free values drawn for cells whose levels the spec leaves open (log entry 5); five edges with TMS
high reach Test-Logic-Reset from every state; from there four edges with TMS 0, 1, 0, 0 and 31 more with TMS 0 shift out
the identification code 0x19484A5B, its least significant bit first. With a rail down it changes nothing. The TAP is
that of IEEE 1149.1, which the spec names. -/
def Obligations.BoundaryScan : Prop :=
  ∀ (s : State),
    (∀ es, s.power.railsGood = false → exec (.boundaryScan es) s = .next s) ∧
    exec (.boundaryScan []) s = .next s ∧
    (∀ es, ∃ t, exec (.boundaryScan es) s = .next t ∧ t = { s with jtag := t.jtag, out := t.out, freeCtr := t.freeCtr }) ∧
    (∀ a b t, exec (.boundaryScan a) s = .next t → exec (.boundaryScan (a ++ b)) s = exec (.boundaryScan b) t) ∧
    (∀ a b c d e : Bool, s.power.railsGood = true →
      ∃ t, exec (.boundaryScan [(true, a), (true, b), (true, c), (true, d), (true, e)]) s = .next t ∧
        t.jtag.tap = .testLogicReset ∧ t.jtag.ir = []) ∧
    (s.power.railsGood = true → s.jtag.tap = .testLogicReset → s.jtag.ir = [] →
      ∃ t, exec (.boundaryScan ([(false, false), (true, false), (false, false)] ++ List.replicate 32 (false, false))) s = .next t ∧
        t.out = s.out ++ List.replicate 3 (.tdo none) ++ (List.range 32).map (fun i => .tdo (some ((0x19484A5B#32).getLsbD i))))

/-- TRUNK_FRAME outside OFF takes the next frame number, and sends one control burst in SEARCH at the head, nothing at a
mast that has heard no burst, and one part of data codewords in DATA; its settings, services and backup domain stay.
CONTROL_BURST_RECEIVED with another pair identity raises EV_TRUNK_LOST with reason 3; with its own it notes the partner,
and takes a head in SEARCH to CONTROL. TRUNK_ACK removes an acknowledged codeword, marks one not received for another
sending, drops it after the third failure, and takes a mast in SEARCH that has heard a burst to CONTROL.
TRUNK_UNIT_PACKET puts the unit into the collector of the head, with GAP_BEFORE where its counter skips.
TRUNK_COMMAND_PACKET gives the packet to the interpreter of the mast. TRUNK_REPLY_EVENT_PACKET wraps an event of the
mast or answers the TRUNK_REMOTE whose SEQ it has. Outside their conditions they change nothing. -/
def Obligations.TrunkFramesAndPackets : Prop :=
  ∀ (wait : Nat) (s : State),
    let s1 := s.advance wait
    let k := s.trunk
    (∀ f, k.state = .off ∨ s.serving = false ∨ (s.isHead = true ∧ s.tickNow % 2 ≠ 0) → exec (.trunkFrame f) s = .next s) ∧
    (∀ f, k.state ≠ .off → s.serving = true → (s.isHead = true → s.tickNow % 2 = 0) →
      ∃ t, exec (.trunkFrame f) s = .next t ∧
        t.trunk.frame = (if s.isHead then s.tickNow / 2 % 2 ^ 32 else (k.frame + 1) % 2 ^ 32) ∧
        t.acc = s.acc ∧ t.rtc = s.rtc ∧ t.services = s.services ∧ t.cal = s.cal ∧ t.flash = s.flash ∧ t.journal = s.journal ∧
        (s.isHead = true → k.state = .search → t.trunk.state = .search ∧
          ∃ cw, t.out = s.out ++ [.trunkFrame true [cw]]) ∧
        (s.isHead = false → k.state = .search → k.heard = false → t.trunk.state = .search ∧ t.out = s.out) ∧
        (k.state = .data → k.useBursts = false → t.trunk.state = .data ∧ ∃ cws, t.out = s.out ++ [.trunkFrame false cws])) ∧
    (∀ b, k.state = .off ∨ (k.state = .sleep ∧ k.winOpen = false) ∨ s.serving = false →
      exec (.controlBurstReceived b wait) s = .next s) ∧
    (∀ b : ControlBurst, k.state ≠ .off → (k.state = .sleep → k.winOpen = true) → s.serving = true →
      (b.pairId.toNat ≠ s.force.trunk.nat 2 →
        exec (.controlBurstReceived b wait) s = .next (s1.raise 0x800C noSlot (le 1 3 ++ le 1 k.state.code ++ zeros 2))) ∧
      (b.pairId.toNat = s.force.trunk.nat 2 → ∃ t, exec (.controlBurstReceived b wait) s = .next t ∧
        t.trunk.profRx = b.profile ∧ t.trunk.lastHeard = s1.time.dt ∧ t.trunk.heard = true ∧
        t.acc = s.acc ∧ t.rtc = s.rtc ∧ t.services = s.services ∧
        (s.isHead = true → k.state = .search → t.trunk.state = .control) ∧
        (s.isHead = false → k.state = .search → t.trunk.state = .search ∧ (k.heard = false → s.isMast = true → t.trunk.a = 0)) ∧
        (k.state = .control ∨ k.state = .data → t.trunk.state = k.state))) ∧
    (∀ a, k.state = .off → exec (.trunkAck a wait) s = .next s) ∧
    (∀ (sp : Byte) (base : W16) (ok : Bool), k.state ≠ .off → ¬ (s.isMast = true ∧ k.state = .search ∧ k.heard = true) →
      ∃ t, exec (.trunkAck ⟨sp, base, [ok]⟩ wait) s = .next t ∧ t = { s1 with trunk := t.trunk } ∧
        t.trunk.ackFrames = 0 ∧ t.trunk.goodAcks = k.goodAcks + 1 ∧ t.trunk.useBursts = false ∧ t.trunk.answered = true ∧
        t.space (sp != 1#8) = s.space (sp != 1#8) ∧
        (ok = true → (t.space (sp == 1#8)).unacked
          = (s.space (sp == 1#8)).unacked.filter (fun c => c.seq != base.toNat % 4096)) ∧
        (ok = false → (t.space (sp == 1#8)).unacked
          = ((s.space (sp == 1#8)).unacked.filter (fun c => !(c.seq == base.toNat % 4096 && decide (2 ≤ c.retx)))).map
              (fun c => if c.seq == base.toNat % 4096 then { c with failed := true } else c))) ∧
    (∀ a, s.isMast = true → k.state = .search → k.heard = true → ∃ t, exec (.trunkAck a wait) s = .next t ∧
      t.trunk.state = .control ∧ t.trunk.data = SpaceSt.reset ∧ t.trunk.ctrl = SpaceSt.reset ∧ t.acc = s.acc) ∧
    (∀ u : TrunkUnit, s.isHead = false ∨ k.state ≠ .data ∨ u.record.length < 48 →
      exec (.trunkUnitPacket u wait) s = .next s) ∧
    (∀ u : TrunkUnit, s.isHead = true → k.state = .data → 48 ≤ u.record.length →
      let x := unitOfRecord u.record s1.tickNow
      ((s.stream? x.slot x.kind) = none → exec (.trunkUnitPacket u wait) s = .next s1) ∧
      (∀ st, s.stream? x.slot x.kind = some st →
        let was := k.unitCtrs.find? (fun c => c.1 == x.slot && c.2.1 == x.kind)
        ∃ t, exec (.trunkUnitPacket u wait) s = .next t ∧ t = { s1 with units := t.units, trunk := t.trunk } ∧
          t.units = s.units ++ [if ∃ c, was = some c ∧ (c.2.2 + 1) % 256 ≠ u.ctr.toNat then { x with flags := x.flags ||| fGap } else x] ∧
          t.trunk.unitCtrs.head? = some (x.slot, x.kind, u.ctr.toNat))) ∧
    (∀ p, s.isMast = false ∨ k.state = .off ∨ s.serves .trunk = false → exec (.trunkCommandPacket p wait) s = .next s) ∧
    (∀ p, s.isMast = true → k.state ≠ .off → s.serves .trunk = true →
      exec (.trunkCommandPacket p wait) s = .next (s1.takePacket .trunk false true 4044 p)) ∧
    (∀ p, s.isHead = false ∨ k.state = .off → exec (.trunkReplyEventPacket p wait) s = .next s) ∧
    (∀ p, s.isHead = true → k.state ≠ .off →
      (0x8000 ≤ field p 0 2 → exec (.trunkReplyEventPacket p wait) s = .next (s1.raise 0x8017 noSlot p)) ∧
      (field p 0 2 < 0x8000 → (∀ r ∈ k.remotes, r.wseq.toNat ≠ field p 4 2) →
        exec (.trunkReplyEventPacket p wait) s = .next s1) ∧
      (∀ r rest, field p 0 2 < 0x8000 → k.remotes = r :: rest → r.wseq.toNat = field p 4 2 →
        (∀ x ∈ rest, x.id ≠ r.id) → ∃ t : State, exec (.trunkReplyEventPacket p wait) s
          = .next (t.complete r.tr r.id ⟨0x0C06#16, r.seq, .ok, s.acc.gen, noTick, r.dt, p⟩) ∧
          t.trunk.remotes = rest ∧ t = { s1 with trunk := t.trunk }))

/-- TRUNK_LOADING for the mask that will be in force, naming a table ID not in use, stores the table for the direction
sent, waits for its frame, and is answered with LOADING_ACK; any other is discarded. TRUNK_LOADING_ACK of the table that
the receiver named marks it acknowledged. TRUNK_MASK at the mast in CONTROL or DATA waits for its frame. TRUNK_NOISE
stores the noise of the direction sent. TRUNK_TIME moves the advance of the mast by the measured error and gives the
head its value. LOADING_RECOMPUTE stores the SNR; in CONTROL, with no mask pending, no table named in the future and
none acknowledged, it sends for table 0 the table whose n_cw × K no other rate exceeds. A frame after the third that
R350 leaves to the receiver is a free value (log entry 5). -/
def Obligations.TrunkTablesAndMeasurements : Prop :=
  ∀ (wait : Nat) (s : State),
    let s1 := s.advance wait
    let k := s.trunk
    let open_ : Prop := k.state = .control ∨ k.state = .data
    (∀ l : LoadingIn, ¬ open_ ∨ 1 < l.tableId.toNat ∨ 3 < l.rate.toNat ∨ (k.state = .data ∧ l.tableId.toNat = s.txDir.active) →
      exec (.trunkLoading l wait) s = .next s) ∧
    (∀ l : LoadingIn, k.pendMask = none → l.maskGen ≠ k.maskGen → exec (.trunkLoading l wait) s = .next s) ∧
    (∀ l : LoadingIn, open_ → k.pendMask = none → l.maskGen = k.maskGen → l.tableId.toNat ≤ 1 → l.rate.toNat ≤ 3 →
      (k.state = .data → l.tableId.toNat ≠ s.txDir.active) →
      let table : LoadTable := ⟨l.rate.toNat, l.bits.map (fun b => min b 12), l.maskGen⟩
      ∃ t, exec (.trunkLoading l wait) s = .next t ∧ t = { s1 with trunk := t.trunk } ∧ t.rxDir = s.rxDir ∧
        t.txDir = { s.txDir with
          table0 := if l.tableId = 0#8 then table else s.txDir.table0
          table1 := if l.tableId = 1#8 then table else s.txDir.table1
          switch := some (l.tableId.toNat, l.switchF.toNat)
          acked := true } ∧
        t.trunk.toSend = k.toSend ++ [⟨1, 0, trunkPacket 6 (le 1 l.tableId.toNat ++ zeros 3 ++ le 4 l.switchF.toNat)⟩]) ∧
    (∀ l : LoadingAckIn, ¬ open_ ∨ s.rxDir.switch ≠ some (l.tableId.toNat, l.switchF.toNat) →
      exec (.trunkLoadingAck l wait) s = .next s) ∧
    (∀ l : LoadingAckIn, open_ → s.rxDir.switch = some (l.tableId.toNat, l.switchF.toNat) →
      ∃ t, exec (.trunkLoadingAck l wait) s = .next t ∧ t = { s1 with trunk := t.trunk } ∧ t.txDir = s.txDir ∧
        t.rxDir = { s.rxDir with acked := true }) ∧
    (∀ m : MaskIn, s.isMast = false ∨ ¬ open_ → exec (.trunkMaskPacket m wait) s = .next s) ∧
    (∀ m : MaskIn, s.isMast = true → open_ →
      ∃ t, exec (.trunkMaskPacket m wait) s = .next t ∧ t = { s1 with trunk := t.trunk } ∧ t.txDir = s.txDir ∧
        t.trunk.pendMask = some ⟨m.maskGen, m.switchF.toNat, (m.values ++ zeros 3921).take 3921, none, true⟩ ∧
        t.trunk.mask = k.mask ∧ t.trunk.maskGen = k.maskGen ∧
        (k.state = .control → t.trunk.toSend = k.toSend) ∧
        (k.state = .data → t.rxDir.switch = some (1 - s.rxDir.active, m.switchF.toNat) ∧ t.rxDir.active = s.rxDir.active)) ∧
    (∀ n : NoiseIn, k.state = .off → exec (.trunkNoise n wait) s = .next s) ∧
    (∀ n : NoiseIn, k.state ≠ .off → ∃ t, exec (.trunkNoise n wait) s = .next t ∧ t = { s1 with trunk := t.trunk } ∧
      t.rxDir = s.rxDir ∧ t.txDir = { s.txDir with noise := n.values, noiseF := n.frame }) ∧
    (∀ x : TrunkTimeIn, k.state = .off → exec (.trunkTime x wait) s = .next s) ∧
    (∀ x : TrunkTimeIn, k.state ≠ .off → ¬ (s.isMast = true ∧ k.state = .search ∧ k.heard = true) →
      ∃ t, exec (.trunkTime x wait) s = .next t ∧ t = { s1 with trunk := t.trunk } ∧ t.trunk.timeSeen = true ∧
        t.trunk.answered = true ∧
        (s.isHead = true → t.trunk.a = x.value ∧ t.trunk.d = k.d ∧ t.trunk.frame = k.frame) ∧
        (s.isHead = false → t.trunk.a = k.a + x.value ∧ t.trunk.d = x.d ∧ t.trunk.frame = x.frame.toNat)) ∧
    (∀ x : TrunkTimeIn, s.isMast = true → k.state = .search → k.heard = true →
      ∃ t, exec (.trunkTime x wait) s = .next t ∧ t.trunk.state = .control ∧ t.trunk.a = k.a + x.value) ∧
    (∀ r, ¬ open_ → exec (.loadingRecompute r wait) s = .next s) ∧
    (∀ r : RecomputeIn, open_ → ∃ t, exec (.loadingRecompute r wait) s = .next t ∧
      t = { s1 with trunk := t.trunk, freeCtr := t.freeCtr } ∧ t.rxDir.snr = r.snr ∧ t.txDir = s.txDir ∧
      t.rxDir.active = s.rxDir.active ∧ t.trunk.state = k.state) ∧
    (∀ r : RecomputeIn, k.state = .control → k.pendMask = none → s.rxDir.switch = none → s.rxDir.acked = false →
      let n := s.dirSyms (!s.isHead)
      ∃ t f, exec (.loadingRecompute r wait) s = .next t ∧ t.rxDir.switch = some (0, f) ∧ t.rxDir.acked = false ∧
        t.rxDir.table0.maskGen = k.maskGen ∧ t.rxDir.table0.rate ≤ 3 ∧
        f = (k.frame + 3 + Config.freeValue s.freeCtr % (2 ^ 31 - 4)) % 2 ^ 32 ∧
        t.trunk.toSend = k.toSend ++ [⟨1, 0, trunkPacket 5 (loadingBody 0 t.rxDir.table0 f)⟩] ∧
        (∀ q, q ≤ 3 → (⟨q, List.zipWith (fun c x => if (List.zip carrierNs s.maskNow).any (fun y => y.1 == c && y.2 == 0xFF#8) then 0
            else bitsFor q s.loadMargin x) dataCarriers r.snr, k.maskGen⟩ : LoadTable).codewords n * rateK q
          ≤ t.rxDir.table0.codewords n * rateK t.rxDir.table0.rate))

/-- TRUNK_LOSS after 1 s without the partner in CONTROL or DATA raises EV_TRUNK_LOST with reason 2 and returns to
SEARCH; TRUNK_ACK_TIMEOUT after 16 frames turns to control bursts; TRUNK_SLEEP_PACKET at the mast takes P, W and the
first window and puts the link to SLEEP; MEET_WINDOW_WAKE opens the window from S − g and MEET_WINDOW_END closes it from
S + W + g: the link sleeps on, searches where work is left, or goes into RECOVERY; an accepted WAKE_CALL pulses
TRUNK_WAKE_DET and leads to SEARCH; WAKE_CALL_SEND sends the call that is due; RECOVERY_TIMEOUT after 4 s raises
EV_TRUNK_LOST with reason 1 and enters LOST; LONG_CALL in LOST at the head sends a call of type 3; CARRIER_DETECTED
keeps the detector on for 300 ms; TRUNK_REMOTE_RESEND sends an unanswered command again 20 ms after its acknowledgement,
and answers NOT_FOUND after the third time. Too early, or in another state, each changes nothing. -/
def Obligations.TrunkSleepCallsAndLoss : Prop :=
  ∀ (wait : Nat) (s : State),
    let s1 := s.advance wait
    let k := s.trunk
    let open_ : Prop := k.state = .control ∨ k.state = .data
    let call (ty : Nat) : List Byte :=
      let body := be 4 (s.force.trunk.nat 2) ++ le 1 ty ++ le 1 (if s.isMast then 1 else 0)
      [0xAA#8, 0xAA#8, 0xB3#8, 0x8F#8] ++ body ++ [crc8 0x07#8 0x00#8 body]
    (¬ open_ ∨ s1.now < k.lastHeard.toNat + 1000000000 → exec (.trunkLoss wait) s = .next s) ∧
    (open_ → k.lastHeard.toNat + 1000000000 ≤ s1.now → ∃ t, exec (.trunkLoss wait) s = .next t ∧ t.trunk.state = .search ∧
      t.trunk.fromState = k.state ∧ t.trunk.estimate = 0 ∧ t.trunk.heard = false ∧ t.trunk.pendMask = none ∧
      t.trunk.remotes = k.remotes ∧ t.acc = s.acc ∧ t.rtc = s.rtc ∧
      (s.isMast = false → t = { s1.raise 0x800C noSlot (le 1 2 ++ le 1 k.state.code ++ zeros 2) with trunk := t.trunk })) ∧
    (¬ open_ ∨ k.ackFrames < 16 ∨ k.useBursts = true → exec (.trunkAckTimeout wait) s = .next s) ∧
    (open_ → 16 ≤ k.ackFrames → k.useBursts = false →
      exec (.trunkAckTimeout wait) s = .next { s1 with trunk := { k with useBursts := true } }) ∧
    (∀ p, s.isMast = false ∨ ¬ open_ → exec (.trunkSleepPacket p wait) s = .next s) ∧
    (∀ p : SleepIn, s.isMast = true → open_ →
      (p.sleep = false → exec (.trunkSleepPacket p wait) s
        = .next { s1 with trunk := { k with pS := p.pS.toNat, wMs := p.wMs.toNat } }) ∧
      (p.sleep = true → ∃ t, exec (.trunkSleepPacket p wait) s = .next t ∧ t = { s1 with trunk := t.trunk, power := t.power } ∧
        t.trunk.state = .sleep ∧ t.trunk.pS = p.pS.toNat ∧ t.trunk.wMs = p.wMs.toNat ∧ t.trunk.nextWin = p.first ∧
        t.trunk.winOpen = false ∧
        (s.power.mode ≠ .relay → t.power = s.power) ∧
        (s.power.mode = .relay → t.power = { s.power with
          change := some ⟨.dormant, s.subWanted, 3, 0, false⟩, leftRelay := true }))) ∧
    (k.state ≠ .sleep ∨ k.winOpen = true ∨ (s1.now : Int) < s.meetFrom → exec (.meetWindowWake wait) s = .next s) ∧
    (k.state = .sleep → k.winOpen = false → s.meetFrom ≤ (s1.now : Int) → exec (.meetWindowWake wait) s
      = .next { s1 with trunk := { k with winOpen := true, winOk := false, heard := false, answered := false, snrAge := 8 } }) ∧
    (k.state ≠ .sleep ∨ k.winOpen = false ∨ (s1.now : Int) < s.meetUntil → exec (.meetWindowEnd wait) s = .next s) ∧
    (k.state = .sleep → k.winOpen = true → s.meetUntil ≤ (s1.now : Int) →
      (k.winOk = false → ∃ t, exec (.meetWindowEnd wait) s = .next t ∧ t = { s1 with trunk := t.trunk } ∧
        t.trunk.state = .recovery ∧ t.trunk.winOpen = false ∧ t.trunk.callType = 1 ∧ t.trunk.callDue = some s1.time.dt) ∧
      (k.winOk = true → s.trunkWork = false → ∃ t, exec (.meetWindowEnd wait) s = .next t ∧ t = { s1 with trunk := t.trunk } ∧
        t.trunk.state = .sleep ∧ t.trunk.winOpen = false ∧
        t.trunk.nextWin = k.nextWin + BitVec.ofNat 64 (k.pS * 1000000000)) ∧
      (k.winOk = true → s.trunkWork = true → ∃ t, exec (.meetWindowEnd wait) s = .next t ∧ t.trunk.state = .search)) ∧
    (∀ c : WakeCallIn, k.listens = false ∨ s.callOk c.bytes = false → exec (.wakeCallAccepted c wait) s = .next s) ∧
    (∀ c : WakeCallIn, k.listens = true → s.callOk c.bytes = true → ∃ t, exec (.wakeCallAccepted c wait) s = .next t ∧
      t.trunk.state = .search ∧ t.trunk.callsAcc = min (k.callsAcc + 1) 0xFFFFFFFF ∧
      (s.isMast = false → t = { s1 with trunk := t.trunk, out := s.out ++ [.pin "TRUNK_WAKE_DET" true, .pin "TRUNK_WAKE_DET" false] })) ∧
    (∀ (ty : Nat) (c : WakeCallIn), ty = 1 ∨ ty = 2 ∨ ty = 3 → c.bytes = call ty → s.callOk c.bytes = true) ∧
    (k.callDue = none → exec (.wakeCallSend wait) s = .next s ∧ exec (.longCall wait) s = .next s) ∧
    (∀ d, k.callDue = some d → s1.now < d.toNat → exec (.wakeCallSend wait) s = .next s ∧ exec (.longCall wait) s = .next s) ∧
    (∀ d, k.callDue = some d → d.toNat ≤ s1.now →
      (k.state = .sleep → ∃ t, exec (.wakeCallSend wait) s = .next t ∧ t.trunk.state = .search ∧
        t.trunk.callsSent = min (k.callsSent + 1) 0xFFFFFFFF ∧
        (s.isMast = false → t = { s1 with trunk := t.trunk, out := s.out ++ [.wakeCall (call 2)] })) ∧
      (k.state = .recovery → ∃ t, exec (.wakeCallSend wait) s = .next t ∧ t.trunk.state = .recovery ∧
        t.out = s.out ++ [.wakeCall (call 1)] ∧ t.trunk.callsSent = min (k.callsSent + 1) 0xFFFFFFFF ∧ t.trunk.callDue ≠ none) ∧
      (k.state = .lost → s.isHead = true → ∃ t, exec (.longCall wait) s = .next t ∧ t.out = s.out ++ [.wakeCall (call 3)] ∧
        t.trunk.state = .lost ∧
        t.trunk.callDue = some (BitVec.ofNat 64 (d.toNat + s.force.trunk.nat 8 10 * 1000000000))) ∧
      (k.state ≠ .lost ∨ s.isHead = false → exec (.longCall wait) s = .next s)) ∧
    (k.state ≠ .recovery ∨ s1.now < k.since.toNat + 4000000000 → exec (.recoveryTimeout wait) s = .next s) ∧
    (k.state = .recovery → k.since.toNat + 4000000000 ≤ s1.now → ∃ t, exec (.recoveryTimeout wait) s = .next t ∧
      t.trunk.state = .lost ∧ t.trunk.callType = 3 ∧ t.trunk.estimate = 0 ∧ t.acc = s.acc ∧ t.rtc = s.rtc ∧
      t.trunk.callDue = (if s.isHead then some s1.time.dt else none)) ∧
    (k.state = .lost → exec (.carrierDetected wait) s = .next { s1 with trunk := { k with listenMs := 300 } }) ∧
    (k.state ≠ .lost → exec (.carrierDetected wait) s = .next s) ∧
    (∀ seq, (∀ r ∈ k.remotes, r.wseq ≠ seq) → exec (.trunkRemoteResend seq wait) s = .next s) ∧
    (∀ r, k.remotes = [r] →
      (∀ d, r.acked = some d → s1.now < d.toNat + 20000000 → exec (.trunkRemoteResend r.wseq wait) s = .next s) ∧
      (∀ d, r.acked = some d → d.toNat + 20000000 ≤ s1.now → r.sends < 3 → open_ →
        ∃ t, exec (.trunkRemoteResend r.wseq wait) s = .next t ∧ t = { s1 with trunk := t.trunk } ∧
          t.trunk.remotes = [{ r with sends := r.sends + 1, acked := none, cw := none }] ∧
          t.trunk.toSend = k.toSend ++ [⟨2, r.id + 2, trunkPacket 2 r.packet⟩]) ∧
      (∀ d, r.acked = some d → d.toNat + 20000000 ≤ s1.now → 3 ≤ r.sends →
        ∃ t : State, exec (.trunkRemoteResend r.wseq wait) s
            = .next (t.complete r.tr r.id ⟨0x0C06#16, r.seq, .notFound, s.acc.gen, noTick, r.dt, []⟩) ∧
          t = { s1 with trunk := t.trunk } ∧ t.trunk.remotes = []))

/-- For every command and state, a step of the state with the command at the front of its queue is exec of the command
on the state with the rest of the queue. That a step on an empty queue leaves the state as it is, is the choice of the
model (log entry 1). -/
def Obligations.StepTakesTheFrontCommand : Prop :=
  (∀ (c : Instr) (rest : List Instr) (s : State), step { s with pending := c :: rest } = exec c { s with pending := rest }) ∧
  (∀ s : State, s.pending = [] → step s = .next s)

/-- Right after power-on nothing waits and nothing has left; DT is 0 and the time state FREE; READY is 0 in DORMANT;
both banks of the direct registers and SCRATCH are zero; no service, lane, map entry or stream is there; the trunk is
OFF; the event masks of PCIe and the trunk have every bit set and the others none; the backup domain reads
2000-01-01T00:00:00 with OSF set, HALT and the alarm clear, TRIM 0x8000 and BACKUP zero, behind a locked interface. Its
memories are canonical, its transports keep their bounds, and its queue is well formed. -/
def Obligations.ResetLeavesTheResetState : Prop :=
  let s := State.reset
  s.pending = [] ∧ s.out = [] ∧ s.time.dt = 0#64 ∧ s.refs.tstate = .free ∧ s.power.ready = false ∧ s.power.mode = .dormant ∧
  s.power.ioUp = false ∧ s.scratch = 0#32 ∧
  (∀ b : Bus, (s.bus b).intStatus = 0#32 ∧ (s.bus b).intEnable = 0#32 ∧ (s.bus b).dtMatch = 0#64 ∧ (s.bus b).matchArmed = false) ∧
  s.services = [] ∧ s.lanes = [] ∧ s.streams = [] ∧ s.units = [] ∧ s.map.shadow.entries = [] ∧ s.map.published.entries = [] ∧
  s.trunk.state = .off ∧ s.force = s.acc ∧ s.force.evMask = [BitVec.allOnes 128, 0#128, 0#128, BitVec.allOnes 128] ∧
  s.rtc.cal = ⟨2000, 1, 1, 0, 0, 0⟩ ∧ s.rtc.osf = true ∧ s.rtc.halt = false ∧ s.rtc.alarmEn = false ∧ s.rtc.alarmFlag = false ∧
  s.rtc.trim = 0x8000#16 ∧ s.rtc.backup = List.replicate 32 0#8 ∧ s.rtc.locked = true ∧
  s.memWf = true ∧ s.portsBounded = true ∧ s.queueWf = true

/-- For every host command whose header names a slot (any SLOT but 0xFFFF) that no service occupies with the incarnation
given, be the slot free or its current incarnation another one: when the device serves its transport and the packet is
no retry, the reply is BAD_SLOT, with the device generation and no effective tick, and beside the reply nothing but the
time changes. (That the reply carries the device generation follows R395 and R62.) -/
def Obligations.AbsentSlotsAreBadSlot : Prop :=
  ∀ (i : Instr) (op : Nat) (h : CmdHdr) (p : List Byte) (s : State), encodeParams i = some (op, h, p) →
    s.serves h.tr = true → ((s.advance h.wait).port h.tr).dup? h.seq h.trailer = none → h.slot ≠ 0xFFFF#16 →
    (∀ v ∈ s.services, v.slot = h.slot.toNat % 256 → v.inc ≠ h.slot.toNat / 256) →
    RepliesGen (exec i s) op h s .badSlot s.acc.gen noTick [] (s.advance h.wait)

/-- For every host command that the device serves on its transport: when its SEQ and trailer equal an entry kept for the
transport, the command is not executed (beside the delivery of replies and events nothing but the time changes), the
kept entries stay, and exactly the kept reply joins the replies of the transport that leave. When they equal none, the
command is executed as new, whatever its SEQ: afterwards the entries kept are the last 32 of those kept before and its
own, by SEQ and trailer, and its own entry holds its reply, or none while the placement round that makes the reply is
still to come. -/
def Obligations.RetriesAreNotExecuted : Prop :=
  ∀ (i : Instr) (op : Nat) (h : CmdHdr) (p : List Byte) (s : State), encodeParams i = some (op, h, p) →
    s.serves h.tr = true →
    let s1 := s.advance h.wait
    let q := s.port h.tr
    (∀ d, q.dups.find? (fun d => d.seq == h.seq && d.trailer == h.trailer) = some d →
      ∃ t, exec i s = .next t ∧ t.core = s1.core ∧ (t.port h.tr).dups = q.dups ∧
        t = (s1.setPort h.tr { q with
          outbox := q.outbox ++ [⟨d.id, h.viaRing, h.noReply, d.reply⟩], retries := min (q.retries + 1) 0xFFFFFFFF }).flush h.tr) ∧
    (q.dups.find? (fun d => d.seq == h.seq && d.trailer == h.trailer) = none → q.dups.length ≤ 32 →
      ∃ t, exec i s = .next t ∧
        (t.port h.tr).dups.map (fun d => (d.seq, d.trailer))
          = (q.dups.map (fun d => (d.seq, d.trailer)) ++ [(h.seq, h.trailer)]).drop (q.dups.length + 1 - 32) ∧
        (∀ r d, (t.port h.tr).dups.getLast? = some d → d.reply = some r → r.seq = h.seq ∧ r.opcode = BitVec.ofNat 16 op))

/-- A mailbox doorbell or command ring doorbell while READY is 0 changes nothing but the time and the bytes that the
host itself wrote, so no INT_STATUS bit rises; so does a command ring doorbell from the two-wire bus, or while the
command ring is disabled. A command ring doorbell from PCIe with a PRODUCER that is no multiple of 64 or lies beyond the
ring size is ignored too, and the packets that DIAG_QUERY counts as refused on the PCIe transport rise by one,
saturating. The same holds of a write of the doorbell register over PCIe. -/
def Obligations.IgnoredDoorbells : Prop :=
  ∀ (s : State) (wait : Nat) (w : List (Nat × Byte)) (producer : BitVec 24),
    let s1 := s.advance wait
    let wrote : State := { s1 with host := Memory.writeCells ramDefault s.host w }
    let beyond : Prop := producer.toNat % 64 ≠ 0 ∨ s.force.cmdRing.nat 3 1 < producer.toNat
    let bell (kind : Nat) : W64 := BitVec.ofNat 64 (kind * 2 ^ 30 + producer.toNat)
    (s.power.ready = false → ∀ b, exec (.mailboxDoorbell b wait) s = .next s1 ∧
      exec (.cmdRingDoorbell b producer w wait) s = .next wrote ∧
      exec (.registerWrite .pcie 0x0080#16 4 (bell 1) true) s = .next s ∧
      exec (.registerWrite .pcie 0x0080#16 4 (bell 2) true) s = .next s) ∧
    exec (.cmdRingDoorbell .twoWire producer w wait) s = .next wrote ∧
    exec (.registerWrite .twoWire 0x0080#16 4 (bell 2) true) s = .next s ∧
    (s.force.cmdRing.nat 1 ≠ 1 → exec (.cmdRingDoorbell .pcie producer w wait) s = .next wrote ∧
      exec (.registerWrite .pcie 0x0080#16 4 (bell 2) true) s = .next s) ∧
    (s.serves .pcie = true → s.force.cmdRing.nat 1 = 1 → beyond →
      exec (.cmdRingDoorbell .pcie producer w wait) s
        = .next { wrote with pPcie := { s.pPcie with refused := min (s.pPcie.refused + 1) 0xFFFFFFFF } } ∧
      (s.power.ioUp = true → exec (.registerWrite .pcie 0x0080#16 4 (bell 2) true) s
        = .next { s with pPcie := { s.pPcie with refused := min (s.pPcie.refused + 1) 0xFFFFFFFF } }))

/-- An event that names no slot joins the two-wire, service and trunk queues whose mask includes its code, and the PCIe
queue where the reply ring takes nothing, with the next event SEQ of that transport, the generation in force, the tick
and the DT in which it is raised; the oldest event leaves a queue of 128; the queue of a transport whose mask does not
include it stays as it is; and beside delivery nothing changes. EVENT_FETCH by a mailbox answers the number of events
and the packets of the oldest eight of its transport, each padded to 4 bytes; by the two-wire mailbox they leave the
queue and the rest stay in order; by the command ring or another transport it is WRONG_MODE. -/
def Obligations.EventsAreQueuedAndFetched : Prop :=
  (∀ (s : State) (c : Nat) (ps : List Byte), 0x8000 ≤ c → c ≤ 0x807F →
    let u := s.raise c noSlot ps
    let bit (n : Nat) : Bool := (s.force.evMask.getD n 0).getLsbD (c - 0x8000)
    let ev (p : Port) : Event := ⟨BitVec.ofNat 16 c, p.evSeq, 0xFFFF#16, s.genInForce 0xFFFF#16, tick32 s.tickNow, s.time.dt, ps⟩
    let joined (p q : Port) : Prop :=
      q.events = (if 128 ≤ p.events.length then (p.events ++ [ev p]).tail else p.events ++ [ev p]) ∧ q.evSeq = p.evSeq + 1 ∧
        q.evDropped = (if 128 ≤ p.events.length then min (p.evDropped + 1) 0xFFFFFFFF else p.evDropped) ∧ q.dups = p.dups
    u.core = s.core ∧
    (bit 1 = true → joined s.pTw u.pTw) ∧ (bit 1 = false → u.pTw = s.pTw) ∧
    (bit 2 = true → joined s.pSvc u.pSvc) ∧ (bit 2 = false → u.pSvc = s.pSvc) ∧
    (bit 3 = true → s.isMast = true → joined s.pTrunk u.pTrunk) ∧ (bit 3 = false ∨ s.isMast = false → u.pTrunk = s.pTrunk) ∧
    (bit 0 = true → s.replyRingOn = false → joined s.pPcie u.pPcie) ∧ (bit 0 = false → u.pPcie = s.pPcie)) ∧
  (∀ (h : CmdHdr) (s : State), Taken ⟨0x0005, .none, allModes, .mailboxes⟩ h s →
    Reads (exec (.eventFetch h) s) 0x0005 h s
      (le 2 (min 8 (s.port h.tr).events.length) ++ [0, 0]
        ++ ((s.port h.tr).events.take 8).flatMap (fun e => pad4 e.packet)) ∧
    (h.tr = .twoWire → ∃ u, exec (.eventFetch h) s = .next u ∧ u.pTw.events = s.pTw.events.drop 8 ∧
      u.pPcie.events = s.pPcie.events ∧ u.pSvc.events = s.pSvc.events ∧ u.pTrunk.events = s.pTrunk.events ∧ u.host = s.host)) ∧
  (∀ (h : CmdHdr) (s : State), Taken (gateAll 0x0005) h s → h.tr ≠ .twoWire → (h.tr = .pcie → h.viaRing = true) →
    Replies (exec (.eventFetch h) s) 0x0005 h s .wrongMode noTick [] (s.advance h.wait))

/-- At a TICK of a device that serves, below the thermal levels and with no RESET pending, the device settings in force
become the last of those accepted whose effective tick begins there, or stay as they are where none is due. -/
def Obligations.DeviceSettingsTakeForce : Prop :=
  ∀ (inp : TickIn) (s : State), s.up = true → s.serving = true → s.time.boundary < 2 ^ 64 → s.thermal.level = 0 →
    inp.temp.toInt < 1050 → s.power.resetIn = none → s.power.recovery = false →
    ∃ t, exec (.tick inp) s = .next t ∧ t.power.ready = true ∧
      ((∀ x ∈ s.sched, 2 ≤ x.ticksLeft) → t.force = s.force) ∧
      (∀ pre x post, s.sched = pre ++ x :: post → x.ticksLeft ≤ 1 → (∀ y ∈ post, 2 ≤ y.ticksLeft) → t.force = x.value)

/-- For every well-formed host command whose trailer is the CRC32 of its packet, the packet of its opcode, header and
parameters, with the bytes received known and the limit of PARAM_LEN of its transport, passes checks 1 to 4 and spells
exactly that command with every operand. With any other trailer it is BAD_CRC. So no two well-formed commands share a
packet. The interpreter gives every host command the effect of its row. -/
def Obligations.CommandPacketsRoundTrip : Prop :=
  ∀ (i : Instr) (op : Nat) (h : CmdHdr) (p : List Byte), i.wf = true → encodeParams i = some (op, h, p) →
    let bs := commandPacket op h p
    (h.trailer = crc32 (bs.take (16 + p.length)) →
      parsePacket h.tr h.viaRing true (maxParams h.tr) h.wait bs = .command (BitVec.ofNat 16 op) h i) ∧
    (∀ x : W32, x ≠ crc32 (bs.take (16 + p.length)) →
      parsePacket h.tr h.viaRing true (maxParams h.tr) h.wait (bs.take (16 + p.length) ++ le 4 x.toNat)
        = .badCrc (BitVec.ofNat 16 op) h.seq h.slot h.noReply) ∧
    (∀ s : State, exec i s = .next (s.interpret i))

/-- In every state in which each transport keeps at most the last 32 packets for the detection of retries and holds at
most 128 events, a step that answers a next state answers one in which each transport still does. (That the state after
reset is such a state is ResetLeavesTheResetState.) -/
def Obligations.EveryStepKeepsThePortBounds : Prop :=
  ∀ s t : State, s.portsBounded = true → step s = .next t → t.portsBounded = true

/-- In every state in which host memory as the device sees it, both mailbox banks, the MSI-X table and the external
flash list their bytes at strictly rising addresses and list no byte equal to what an unlisted address reads as, a step
that answers a next state answers one in which they still do. (That the state after reset is such a state is
ResetLeavesTheResetState; what an unlisted byte reads as is log entry 6.) -/
def Obligations.EveryStepKeepsMemoriesCanonical : Prop :=
  ∀ s t : State, s.memWf = true → step s = .next t → t.memWf = true
end

