-- ==== Sys2Proof/Laws/Mem.lean ====
section
/-! SUPPORT. The laws of the sparse memories: what was written is read back, a write leaves every other address alone, and
every operation keeps the canonical form. -/

namespace Sys2Proof.Machine

/-- A write leaves every other address alone. -/
theorem Memory.read_write_ne (d : Byte) (m : Memory) (x y : Nat) (v : Byte) (h : y ≠ x) :
    Memory.read d (Memory.write d m x v) y = Memory.read d m y := by
  induction m with
  | nil => unfold Memory.write; split <;> simp [Memory.read, h]
  | cons c m ih =>
    obtain ⟨a, b⟩ := c
    simp only [Memory.write]
    split
    · subst x
      split <;> simp [Memory.read, h]
    · split
      · split <;> simp [Memory.read, h]
      · simp only [Memory.read, ih]

/-- Every address of a list lies above `a`. -/
def Memory.above (a : Nat) : Memory → Bool
  | [] => true
  | (x, _) :: m => decide (a < x) && Memory.above a m

theorem Memory.above_trans (a b : Nat) (m : Memory) (h : a < b) (hm : Memory.above b m = true) : Memory.above a m = true := by
  induction m with
  | nil => rfl
  | cons c m ih =>
    obtain ⟨x, v⟩ := c
    simp only [Memory.above, Bool.and_eq_true, decide_eq_true_eq] at hm ⊢
    exact ⟨by omega, ih hm.2⟩

/-- The canonical form of a list with a first entry. -/
theorem Memory.wf_cons (d : Byte) (a : Nat) (b : Byte) (m : Memory) :
    Memory.wf d ((a, b) :: m) = true ↔ b ≠ d ∧ Memory.above a m = true ∧ Memory.wf d m = true := by
  induction m generalizing a b with
  | nil => simp [Memory.wf, Memory.above]
  | cons c m ih =>
    obtain ⟨x, v⟩ := c
    simp only [Memory.wf, Memory.above, Bool.and_eq_true, decide_eq_true_eq, bne_iff_ne, ne_eq]
    constructor
    · rintro ⟨⟨hb, hx⟩, hw⟩
      exact ⟨hb, ⟨hx, Memory.above_trans a x m hx ((ih x v).1 hw).2.1⟩, hw⟩
    · rintro ⟨hb, ⟨hx, _⟩, hw⟩
      exact ⟨⟨hb, hx⟩, hw⟩

theorem Memory.read_above (d : Byte) (m : Memory) (x : Nat) (h : Memory.above x m = true) : Memory.read d m x = d := by
  induction m with
  | nil => rfl
  | cons c m ih =>
    obtain ⟨a, b⟩ := c
    simp only [Memory.above, Bool.and_eq_true, decide_eq_true_eq] at h
    simp only [Memory.read]
    rw [if_neg (by omega)]
    exact ih h.2

/-- What was written is read back. -/
theorem Memory.read_write_same (d : Byte) (m : Memory) (x : Nat) (v : Byte) (hw : Memory.wf d m = true) :
    Memory.read d (Memory.write d m x v) x = v := by
  induction m with
  | nil => unfold Memory.write; split <;> simp_all [Memory.read]
  | cons c m ih =>
    obtain ⟨a, b⟩ := c
    obtain ⟨_, hab, hm⟩ := (Memory.wf_cons d a b m).1 hw
    simp only [Memory.write]
    split
    · subst x
      split
      · subst v; exact Memory.read_above d m a hab
      · simp [Memory.read]
    · split
      · split
        · subst v
          exact Memory.read_above d _ x (by simpa [Memory.above, *] using Memory.above_trans x a m ‹_› hab)
        · simp [Memory.read]
      · simp only [Memory.read]
        rw [if_neg (by assumption)]
        exact ih hm

theorem Memory.above_write (d : Byte) (m : Memory) (a x : Nat) (v : Byte) (ha : Memory.above a m = true) (hx : a < x) :
    Memory.above a (Memory.write d m x v) = true := by
  induction m with
  | nil => unfold Memory.write; split <;> simp [Memory.above, hx]
  | cons c m ih =>
    obtain ⟨y, b⟩ := c
    simp only [Memory.above, Bool.and_eq_true, decide_eq_true_eq] at ha
    simp only [Memory.write]
    split
    · split <;> simp [Memory.above, ha]
    · split
      · split <;> simp [Memory.above, ha, hx]
      · simp [Memory.above, ha.1, ih ha.2]

/-- A write of one byte keeps the canonical form. -/
theorem Memory.wf_write (d : Byte) (m : Memory) (x : Nat) (v : Byte) (hw : Memory.wf d m = true) :
    Memory.wf d (Memory.write d m x v) = true := by
  induction m with
  | nil => unfold Memory.write; split <;> simp_all [Memory.wf]
  | cons c m ih =>
    obtain ⟨a, b⟩ := c
    obtain ⟨hb, hab, hm⟩ := (Memory.wf_cons d a b m).1 hw
    simp only [Memory.write]
    split
    · split
      · exact hm
      · exact (Memory.wf_cons d a v m).2 ⟨by assumption, hab, hm⟩
    · split
      · split
        · exact hw
        · refine (Memory.wf_cons d x v _).2 ⟨by assumption, ?_, hw⟩
          simpa [Memory.above, *] using Memory.above_trans x a m ‹_› hab
      · refine (Memory.wf_cons d a b _).2 ⟨hb, Memory.above_write d m a x v hab (by omega), ih hm⟩

/-- A write of a run keeps the canonical form. -/
theorem Memory.wf_writeN (d : Byte) (m : Memory) (x : Nat) (bs : List Byte) (hw : Memory.wf d m = true) :
    Memory.wf d (Memory.writeN d m x bs) = true := by
  induction bs generalizing m x with
  | nil => exact hw
  | cons b bs ih => exact ih _ _ (Memory.wf_write d m x b hw)

/-- A list of writes keeps the canonical form. -/
theorem Memory.wf_writeCells (d : Byte) (m : Memory) (cs : List Host.Cell) (hw : Memory.wf d m = true) :
    Memory.wf d (Memory.writeCells d m cs) = true := by
  unfold Memory.writeCells
  induction cs generalizing m with
  | nil => exact hw
  | cons c cs ih => exact ih _ (Memory.wf_write d m c.1 c.2 hw)

theorem Memory.above_filter (a : Nat) (m : Memory) (p : Host.Cell → Bool) (h : Memory.above a m = true) :
    Memory.above a (m.filter p) = true := by
  induction m with
  | nil => rfl
  | cons c m ih =>
    obtain ⟨x, v⟩ := c
    simp only [Memory.above, Bool.and_eq_true, decide_eq_true_eq] at h
    rw [List.filter_cons]
    split
    · simp [Memory.above, h.1, ih h.2]
    · exact ih h.2

theorem Memory.wf_filter (d : Byte) (m : Memory) (p : Host.Cell → Bool) (hw : Memory.wf d m = true) :
    Memory.wf d (m.filter p) = true := by
  induction m with
  | nil => rfl
  | cons c m ih =>
    obtain ⟨a, b⟩ := c
    obtain ⟨hb, hab, hm⟩ := (Memory.wf_cons d a b m).1 hw
    rw [List.filter_cons]
    split
    · exact (Memory.wf_cons d a b _).2 ⟨hb, Memory.above_filter a m p hab, ih hm⟩
    · exact ih hm

/-- An erased run keeps the canonical form. -/
theorem Memory.wf_clear (d : Byte) (m : Memory) (x n : Nat) (hw : Memory.wf d m = true) :
    Memory.wf d (Memory.clear m x n) = true := Memory.wf_filter d m _ hw

/-- A run of writes leaves every byte before it and after it as it was. -/
theorem Memory.read_writeN_ne (d : Byte) (m : Memory) (x y : Nat) (bs : List Byte) (h : y < x ∨ x + bs.length ≤ y) :
    Memory.read d (Memory.writeN d m x bs) y = Memory.read d m y := by
  induction bs generalizing m x with
  | nil => rfl
  | cons b bs ih =>
    rw [List.length_cons] at h
    rw [Memory.writeN, ih _ _ (by omega), Memory.read_write_ne _ _ _ _ _ (by omega)]

/-- A run of writes reads back. -/
theorem Memory.readN_writeN (d : Byte) (m : Memory) (x : Nat) (bs : List Byte) (hw : Memory.wf d m = true) :
    Memory.readN d (Memory.writeN d m x bs) x bs.length = bs := by
  induction bs generalizing m x with
  | nil => rfl
  | cons b bs ih =>
    rw [List.length_cons, Memory.readN, Memory.writeN, ih _ _ (Memory.wf_write d m x b hw),
      Memory.read_writeN_ne _ _ _ _ _ (Or.inl (by omega)), Memory.read_write_same _ _ _ _ hw]

/-- A run of bytes reads as one part and the part that follows it. -/
theorem Memory.readN_add (d : Byte) (m : Memory) (x a b : Nat) :
    Memory.readN d m x (a + b) = Memory.readN d m x a ++ Memory.readN d m (x + a) b := by
  induction a generalizing x with
  | zero => simp [Memory.readN]
  | succ a ih =>
    have e : a + 1 + b = (a + b) + 1 := by omega
    have f : x + 1 + a = x + (a + 1) := by omega
    rw [e, Memory.readN, ih, Memory.readN, f, List.cons_append]

/-- How many bytes a run of reads gives. -/
@[simp] theorem Memory.length_readN (d : Byte) (m : Memory) (x n : Nat) : (Memory.readN d m x n).length = n := by
  induction n generalizing x with
  | zero => rfl
  | succ n ih => rw [Memory.readN, List.length_cons, ih]

/-- The memories right after power-on are canonical. -/
theorem memWf_reset : State.reset.memWf = true := rfl

/-- The device's own writes into host memory keep its memories canonical. -/
theorem memWf_hostWrite (s : State) (a : Nat) (bs : List Byte) (h : s.memWf = true) : (s.hostWrite a bs).memWf = true := by
  simp only [State.memWf, State.hostWrite, Bool.and_eq_true] at h ⊢
  exact ⟨⟨⟨⟨Memory.wf_writeN _ _ _ _ h.1.1.1.1, h.1.1.1.2⟩, h.1.1.2⟩, h.1.2⟩, h.2⟩

end Sys2Proof.Machine
end

