-- ==== Sys2Proof/Laws/Ops.lean ====
section
/-! SUPPORT. What the shared operations of Machine/Ops.lean can do: delivery of replies and events touches nothing but what
`State.core` leaves out, it keeps the duplicate records, and a command packet is answered as `Replies` says. -/

namespace Sys2Proof.Machine

/-! ### Delivery leaves the core alone -/

@[simp] theorem core_emit (s : State) (o : Out) : (s.emit o).core = s.core := rfl
@[simp] theorem core_setPort (s : State) (t : Transport) (p : Port) : (s.setPort t p).core = s.core := by cases t <;> rfl
@[simp] theorem core_setBus (s : State) (b : Bus) (r : BusRegs) : (s.setBus b r).core = s.core := by cases b <;> rfl
@[simp] theorem core_hostWrite (s : State) (a : Nat) (bs : List Byte) : (s.hostWrite a bs).core = s.core := rfl
@[simp] theorem core_rings (s : State) (r : CmdRings) : ({ s with rings := r } : State).core = s.core := rfl
@[simp] theorem core_pPcie (s : State) (p : Port) : ({ s with pPcie := p } : State).core = s.core := rfl
@[simp] theorem core_nextId (s : State) (n : Nat) : ({ s with nextId := n } : State).core = s.core := rfl
@[simp] theorem core_core (s : State) : s.core.core = s.core := rfl

@[simp] theorem core_msix (s : State) (v : Nat) : (s.msix v).core = s.core := by
  unfold State.msix; dsimp only; split <;> rfl

@[simp] theorem core_intEdge (s : State) (b : Bus) (old : W32) : (s.intEdge b old).core = s.core := by
  unfold State.intEdge
  cases b
  · dsimp only; split
    · rfl
    · exact core_msix s 0
  · dsimp only; split <;> split <;> rfl

@[simp] theorem core_setIntWord (s : State) (b : Bus) (f : W32 → W32) : (s.setIntWord b f).core = s.core := by
  simp [State.setIntWord]
@[simp] theorem core_setInt (s : State) (b : Bus) (n : Nat) : (s.setInt b n).core = s.core := by simp [State.setInt]
@[simp] theorem core_setIntBoth (s : State) (n : Nat) : (s.setIntBoth n).core = s.core := by simp [State.setIntBoth]
@[simp] theorem core_ringsFault (s : State) : s.ringsFault.core = s.core := by simp [State.ringsFault]
@[simp] theorem core_signalReplyRing (s : State) : s.signalReplyRing.core = s.core := by simp [State.signalReplyRing]

@[simp] theorem core_readReplyConsumer (s : State) : s.readReplyConsumer.core = s.core := by
  unfold State.readReplyConsumer
  split
  · dsimp only; split
    · rfl
    · split
      · rfl
      · split
        · rfl
        · exact core_ringsFault s
  · rfl

@[simp] theorem core_replyRingPut (s : State) (pkt : List Byte) : (s.replyRingPut pkt).core = s.core := by
  unfold State.replyRingPut
  dsimp only
  split <;> (split <;> simp <;> split <;> simp)

@[simp] theorem core_replyRingTry (s : State) (pkt : List Byte) : (s.replyRingTry pkt).1.core = s.core := by
  unfold State.replyRingTry
  split
  · rfl
  · split
    · simp
    · dsimp only; split <;> simp

@[simp] theorem core_mailboxAnswer (s : State) (b : Bus) (e : OutEntry) (r : Reply) :
    (s.mailboxAnswer b e r).core = s.core := by simp [State.mailboxAnswer]

@[simp] theorem core_deliverOne (s : State) (t : Transport) : (s.deliverOne t).1.core = s.core := by
  unfold State.deliverOne
  dsimp only
  split
  · rfl
  · split
    · rfl
    · cases t <;> dsimp only
      · split
        · split
          · simp
          · have h := core_replyRingTry s ‹Reply›.packet
            split <;> (rename_i heq; rw [heq] at h; simpa using h)
        · simp
      · simp
      · split <;> simp
      · split <;> simp

@[simp] theorem core_deliverReplies (n : Nat) (s : State) (t : Transport) : (State.deliverReplies n s t).core = s.core := by
  induction n generalizing s with
  | zero => rfl
  | succ n ih =>
    have h := core_deliverOne s t
    unfold State.deliverReplies
    split <;> (rename_i heq; rw [heq] at h)
    · rw [ih]; exact h
    · exact h

@[simp] theorem core_deliverEvents (n : Nat) (s : State) : (State.deliverEvents n s).core = s.core := by
  induction n generalizing s with
  | zero => rfl
  | succ n ih =>
    unfold State.deliverEvents
    split
    · rfl
    · split
      · rfl
      · have h := core_replyRingTry s ‹Event›.packet
        split <;> (rename_i heq; rw [heq] at h)
        · rw [ih]; simpa using h
        · simpa using h

@[simp] theorem core_flush (s : State) (t : Transport) : (s.flush t).core = s.core := by
  unfold State.flush
  cases t <;> simp
  split <;> simp

@[simp] theorem core_post (s : State) (h : CmdHdr) (k : Bool) (r : Option Reply) : (s.post h k r).core = s.core := by
  simp [State.post]

@[simp] theorem core_finish (s : State) (dt : W64) (h : CmdHdr) (op : Nat) (a : Answer) : (s.finish dt h op a).core = s.core := by
  cases a <;> simp [State.finish]

@[simp] theorem core_resend (s : State) (h : CmdHdr) (d : DupEntry) : (s.resend h d).core = s.core := by
  simp [State.resend]

@[simp] theorem core_queueEvent (s : State) (t : Transport) (c f : W16) (ps : List Byte) :
    (s.queueEvent t c f ps).core = s.core := by
  cases t <;> simp [State.queueEvent]
  split <;> simp

theorem core_queueIf (s : State) (b : Bool) (t : Transport) (c f : W16) (ps : List Byte) :
    (if b then s.queueEvent t c f ps else s).core = s.core := by cases b <;> simp

theorem core_foldl {α : Type} (f : State → α → State) (l : List α) (h : ∀ s x, (f s x).core = s.core) (s : State) :
    (l.foldl f s).core = s.core := by
  induction l generalizing s with
  | nil => rfl
  | cons x l ih => rw [List.foldl_cons, ih, h]

/-- An event that names no slot leaves the core alone (R399, R540). -/
@[simp] theorem core_raise_noSlot (s : State) (c : Nat) (ps : List Byte) : (s.raise c noSlot ps).core = s.core := by
  refine core_foldl _ _ (fun s t => core_queueIf s _ t _ _ ps) _

@[simp] theorem core_complete (s : State) (t : Transport) (id : Nat) (r : Reply) : (s.complete t id r).core = s.core := by
  simp [State.complete]

/-! ### Delivery keeps the duplicate records -/

/-- The duplicate record of a transport. -/
def State.dups (s : State) (t : Transport) : List DupEntry := (s.port t).dups

@[simp] theorem dups_emit (s : State) (o : Out) (t : Transport) : (s.emit o).dups t = s.dups t := by cases t <;> rfl
@[simp] theorem dups_setBus (s : State) (b : Bus) (r : BusRegs) (t : Transport) : (s.setBus b r).dups t = s.dups t := by
  cases t <;> cases b <;> rfl
@[simp] theorem dups_rings (s : State) (r : CmdRings) (t : Transport) : ({ s with rings := r } : State).dups t = s.dups t := by
  cases t <;> rfl
@[simp] theorem dups_hostWrite (s : State) (a : Nat) (bs : List Byte) (t : Transport) : (s.hostWrite a bs).dups t = s.dups t := by
  cases t <;> rfl

theorem dups_setPort (s : State) (u : Transport) (p : Port) (t : Transport) (h : p.dups = s.dups u) :
    (s.setPort u p).dups t = s.dups t := by
  cases u <;> cases t <;> first | rfl | exact h

theorem dups_setPort_outbox (s : State) (u : Transport) (o : List OutEntry) (t : Transport) :
    (s.setPort u { s.port u with outbox := o }).dups t = s.dups t := dups_setPort s u _ t rfl

@[simp] theorem dups_msix (s : State) (v : Nat) (t : Transport) : (s.msix v).dups t = s.dups t := by
  unfold State.msix; dsimp only; split
  · simp
  · cases t <;> rfl

@[simp] theorem dups_intEdge (s : State) (b : Bus) (old : W32) (t : Transport) : (s.intEdge b old).dups t = s.dups t := by
  unfold State.intEdge
  cases b
  · dsimp only; split
    · rfl
    · exact dups_msix s 0 t
  · dsimp only; split <;> split <;> cases t <;> rfl

@[simp] theorem dups_setIntWord (s : State) (b : Bus) (f : W32 → W32) (t : Transport) : (s.setIntWord b f).dups t = s.dups t := by
  simp [State.setIntWord]
@[simp] theorem dups_setInt (s : State) (b : Bus) (n : Nat) (t : Transport) : (s.setInt b n).dups t = s.dups t := by
  simp [State.setInt]
@[simp] theorem dups_setIntBoth (s : State) (n : Nat) (t : Transport) : (s.setIntBoth n).dups t = s.dups t := by
  simp [State.setIntBoth]
@[simp] theorem dups_ringsFault (s : State) (t : Transport) : s.ringsFault.dups t = s.dups t := by simp [State.ringsFault]
@[simp] theorem dups_signalReplyRing (s : State) (t : Transport) : s.signalReplyRing.dups t = s.dups t := by
  simp [State.signalReplyRing]

@[simp] theorem dups_readReplyConsumer (s : State) (t : Transport) : s.readReplyConsumer.dups t = s.dups t := by
  unfold State.readReplyConsumer
  split
  · dsimp only; split
    · rfl
    · split
      · exact dups_rings _ _ _
      · split
        · exact dups_rings _ _ _
        · exact dups_ringsFault s t
  · rfl

@[simp] theorem dups_replyRingPut (s : State) (pkt : List Byte) (t : Transport) : (s.replyRingPut pkt).dups t = s.dups t := by
  unfold State.replyRingPut
  dsimp only
  split <;> (split <;> simp <;> split <;> simp)

@[simp] theorem dups_replyRingTry (s : State) (pkt : List Byte) (t : Transport) : (s.replyRingTry pkt).1.dups t = s.dups t := by
  unfold State.replyRingTry
  split
  · rfl
  · split
    · simp
    · dsimp only; split <;> simp

@[simp] theorem dups_mailboxAnswer (s : State) (b : Bus) (e : OutEntry) (r : Reply) (t : Transport) :
    (s.mailboxAnswer b e r).dups t = s.dups t := by simp [State.mailboxAnswer]

@[simp] theorem dups_deliverOne (s : State) (u t : Transport) : (s.deliverOne u).1.dups t = s.dups t := by
  unfold State.deliverOne
  dsimp only
  split
  · rfl
  · split
    · rfl
    · have hd : ∀ rest, (s.setPort u { s.port u with outbox := rest }).dups t = s.dups t :=
        fun rest => dups_setPort s u _ t rfl
      cases u <;> dsimp only
      · split
        · split
          · exact hd _
          · have h := fun t => dups_replyRingTry s ‹Reply›.packet t
            split <;> (rename_i heq; rw [heq] at h)
            · exact (dups_setPort_outbox _ .pcie _ t).trans (h t)
            · exact h t
        · simp [hd]
      · simp [hd]
      · split <;> simp [hd]
      · split <;> simp [hd]

@[simp] theorem dups_deliverReplies (n : Nat) (s : State) (u t : Transport) :
    (State.deliverReplies n s u).dups t = s.dups t := by
  induction n generalizing s with
  | zero => rfl
  | succ n ih =>
    have h := dups_deliverOne s u t
    unfold State.deliverReplies
    split <;> (rename_i heq; rw [heq] at h)
    · rw [ih]; exact h
    · exact h

@[simp] theorem dups_deliverEvents (n : Nat) (s : State) (t : Transport) : (State.deliverEvents n s).dups t = s.dups t := by
  induction n generalizing s with
  | zero => rfl
  | succ n ih =>
    unfold State.deliverEvents
    split
    · rfl
    · split
      · rfl
      · have h := fun t => dups_replyRingTry s ‹Event›.packet t
        split <;> (rename_i heq; rw [heq] at h)
        · rw [ih, ← h t]; cases t <;> rfl
        · exact h t

@[simp] theorem dups_flush (s : State) (u t : Transport) : (s.flush u).dups t = s.dups t := by
  unfold State.flush
  cases u <;> simp
  split <;> simp

@[simp] theorem dups_queueEvent (s : State) (u t : Transport) (c f : W16) (ps : List Byte) :
    (s.queueEvent u c f ps).dups t = s.dups t := by
  have hd : ∀ ev n d, (s.setPort u { s.port u with events := ev, evSeq := n, evDropped := d }).dups t = s.dups t :=
    fun _ _ _ => dups_setPort s u _ t rfl
  cases u <;> simp [State.queueEvent, hd]
  split <;> simp [hd]

theorem dups_queueIf (s : State) (b : Bool) (u t : Transport) (c f : W16) (ps : List Byte) :
    (if b then s.queueEvent u c f ps else s).dups t = s.dups t := by cases b <;> simp

theorem dups_foldl {α : Type} (f : State → α → State) (l : List α) (t : Transport)
    (h : ∀ s x, (f s x).dups t = s.dups t) (s : State) : (l.foldl f s).dups t = s.dups t := by
  induction l generalizing s with
  | nil => rfl
  | cons x l ih => rw [List.foldl_cons, ih, h]

@[simp] theorem dups_raise_noSlot (s : State) (c : Nat) (ps : List Byte) (t : Transport) :
    (s.raise c noSlot ps).dups t = s.dups t := by
  refine dups_foldl _ _ t (fun s u => dups_queueIf s _ u t _ _ ps) _

/-! ### A command packet -/

theorem getLast?_drop_append {α : Type} (l : List α) (x : α) (n : Nat) (h : n ≤ l.length) :
    ((l ++ [x]).drop n).getLast? = some x := by
  rw [List.drop_append_of_le_length h]; simp

@[simp] theorem count_dups (p : Port) (st : Status) : (p.count st).dups = p.dups := by
  unfold Port.count; split <;> rfl

theorem dups_nextId_setPort (s : State) (t : Transport) (p : Port) (n : Nat) :
    (({ s with nextId := n } : State).setPort t p).dups t = p.dups := by cases t <;> rfl

/-- The entry that `post` keeps is the last of its transport's record (R396). -/
theorem lastEntry_post (s : State) (h : CmdHdr) (r : Option Reply) :
    (s.post h true r).lastEntry h.tr = some ⟨h.seq, h.trailer, s.nextId, r⟩ := by
  have e : (s.post h true r).dups h.tr
      = ((s.port h.tr).dups ++ [(⟨h.seq, h.trailer, s.nextId, r⟩ : DupEntry)]).drop ((s.port h.tr).dups.length + 1 - 32) := by
    unfold State.post
    cases r <;> simp only [if_true, dups_flush, dups_nextId_setPort, count_dups]
  show ((s.post h true r).dups h.tr).getLast? = _
  rw [e, getLast?_drop_append _ _ _ (by omega)]

theorem lastReply_post (s : State) (h : CmdHdr) (r : Option Reply) : (s.post h true r).lastReply h.tr = r := by
  show ((s.post h true r).lastEntry h.tr).bind (·.reply) = r
  rw [lastEntry_post]; rfl

theorem lastReply_finish (s : State) (dt : W64) (h : CmdHdr) (op : Nat) (st : Status) (ps : List Byte) (g : Option W16)
    (eff : W32) : (s.finish dt h op (.now st ps g eff)).lastReply h.tr
      = some ⟨BitVec.ofNat 16 op, h.seq, st, g.getD (s.replyGen h.slot), eff, dt, ps⟩ := by
  rw [State.finish, lastReply_post]

/-- A packet that is taken runs its meaning and is answered. -/
theorem runCmd_taken (g : Gate) (h : CmdHdr) (s : State) (body : State → State × Answer) (ht : Taken g h s) :
    s.runCmd g h body
      = (body (s.advance h.wait)).1.finish (s.advance h.wait).time.dt h g.opcode (body (s.advance h.wait)).2 := by
  obtain ⟨h1, h2, h3, h4⟩ := ht
  simp only [State.runCmd, h1, h2, State.checked, h3, h4, Bool.not_true, Bool.false_eq_true, if_false]

/-- A packet that is taken is answered as its meaning says. -/
theorem runCmd_repliesGen (g : Gate) (h : CmdHdr) (s : State) (body : State → State × Answer) (t : State) (st : Status)
    (ps : List Byte) (gen : Option W16) (eff : W32) (ht : Taken g h s)
    (hb : body (s.advance h.wait) = (t, .now st ps gen eff)) :
    RepliesGen (.next (s.runCmd g h body)) g.opcode h s st (gen.getD (t.replyGen h.slot)) eff ps t := by
  refine ⟨_, rfl, ?_, ?_⟩
  · rw [runCmd_taken g h s body ht, hb, core_finish]
  · rw [runCmd_taken g h s body ht, hb, lastReply_finish]

theorem lastEntry_later (s : State) (dt : W64) (h : CmdHdr) (op : Nat) :
    (s.finish dt h op .later).lastEntry h.tr = some ⟨h.seq, h.trailer, s.nextId, none⟩ := lastEntry_post s h none

/-- A packet whose reply waits for the placement round (R23). -/
theorem runCmd_awaits (g : Gate) (h : CmdHdr) (s : State) (body : State → State × Answer) (t : State) (ht : Taken g h s)
    (hb : body (s.advance h.wait) = (t, .later)) (hn : t.nextId = s.nextId) :
    Awaits (.next (s.runCmd g h body)) h s t := by
  refine ⟨_, rfl, ?_, ?_⟩
  · rw [runCmd_taken g h s body ht, hb, core_finish]
  · rw [runCmd_taken g h s body ht, hb, lastEntry_later, hn]

/-- A packet that is taken is answered as its meaning says. -/
theorem runCmd_replies (g : Gate) (h : CmdHdr) (s : State) (body : State → State × Answer) (t : State) (st : Status)
    (ps : List Byte) (eff : W32) (ht : Taken g h s) (hb : body (s.advance h.wait) = (t, .now st ps none eff)) :
    Replies (.next (s.runCmd g h body)) g.opcode h s st eff ps t := runCmd_repliesGen g h s body t st ps none eff ht hb

/-- A refusal at check 7 changes nothing. -/
theorem runCmd_refuses (g : Gate) (h : CmdHdr) (s : State) (body : State → State × Answer) (st : Status)
    (ht : Taken g h s) (hb : body (s.advance h.wait) = refuse (s.advance h.wait) st) :
    Replies (.next (s.runCmd g h body)) g.opcode h s st noTick [] (s.advance h.wait) :=
  runCmd_replies g h s body _ st [] noTick ht hb

/-- A packet is not taken while nothing is served (R425, R466). -/
theorem runCmd_unserved (g : Gate) (h : CmdHdr) (s : State) (body : State → State × Answer) (hs : s.serves h.tr = false) :
    s.runCmd g h body = s := by simp [State.runCmd, hs]

/-! ### Settings -/

/-- A change of device settings, where something changes (R62). -/
theorem commitDev_changed (s : State) (g : Option Nat) (f : Settings → Settings) (ps : List Byte) (hc : f s.acc ≠ s.acc) :
    s.commitDev g f ps = (s.withDev g (f s.acc), .now (s.storedStatus g) ps none s.effTick) := by
  unfold State.commitDev State.withDev State.storedStatus
  rw [if_neg hc]

/-- A change of device settings that changes nothing (R62). -/
theorem commitDev_same (s : State) (g : Option Nat) (f : Settings → Settings) (ps : List Byte) (hc : f s.acc = s.acc) :
    s.commitDev g f ps = (s, .now .ok ps none noTick) := by
  unfold State.commitDev
  rw [if_pos hc]

/-- A command whose meaning is a change of device settings. -/
theorem runCmd_sets (g : Gate) (h : CmdHdr) (s : State) (body : State → State × Answer) (grp : Option Nat)
    (f : Settings → Settings) (ps : List Byte) (ht : Taken g h s)
    (hb : body (s.advance h.wait) = (s.advance h.wait).commitDev grp f ps) :
    Sets (.next (s.runCmd g h body)) g.opcode h s grp (f (s.advance h.wait).acc) ps := by
  intro hc
  rw [commitDev_changed _ _ _ _ hc] at hb
  exact runCmd_replies g h s body _ _ _ _ ht hb

end Sys2Proof.Machine
end

