-- ==== Sys2Proof/Laws/PerInstr.lean ====
section
/-! SUPPORT. The family of laws `Opcode`, stated for each row: a row that is a host command has an opcode that R414 assigns. -/

namespace Sys2Proof.Laws.Opcode

/-- The opcode of a row that is a host command is assigned (check 3 of Table 14.6). -/
def Statement (i : Instr) : Prop := ∀ op h p, encodeParams i = some (op, h, p) → assigned op = true

theorem deviceInfo (h : CmdHdr) : Statement (.deviceInfo h) := by
  intro op h' p e; cases e; rfl
theorem cmdRingConfig (h : CmdHdr) (items : List Item) : Statement (.cmdRingConfig h items) := by
  intro op h' p e; cases e; rfl
theorem nop (h : CmdHdr) (data : List Byte) : Statement (.nop h data) := by
  intro op h' p e; cases e; rfl
theorem eventRoute (h : CmdHdr) (transport : Byte) (mask : Option (BitVec 128)) : Statement (.eventRoute h transport mask) := by
  intro op h' p e; cases mask <;> (cases e; rfl)
theorem eventFetch (h : CmdHdr) : Statement (.eventFetch h) := by
  intro op h' p e; cases e; rfl
theorem modeSet (h : CmdHdr) (mode : Byte) : Statement (.modeSet h mode) := by
  intro op h' p e; cases e; rfl
theorem wakeBudget (h : CmdHdr) (budgetMs : W32) : Statement (.wakeBudget h budgetMs) := by
  intro op h' p e; cases e; rfl
theorem modeQuery (h : CmdHdr) : Statement (.modeQuery h) := by
  intro op h' p e; cases e; rfl
theorem reset (h : CmdHdr) (kind : Byte) (confirm : W16) : Statement (.reset h kind confirm) := by
  intro op h' p e; cases e; rfl
theorem thermalQuery (h : CmdHdr) : Statement (.thermalQuery h) := by
  intro op h' p e; cases e; rfl
theorem serviceAdd (h : CmdHdr) (attrs : AttrBlock) : Statement (.serviceAdd h attrs) := by
  intro op h' p e; cases e; rfl
theorem serviceRemove (h : CmdHdr) : Statement (.serviceRemove h) := by
  intro op h' p e; cases e; rfl
theorem serviceModify (h : CmdHdr) (attrs : AttrBlock) : Statement (.serviceModify h attrs) := by
  intro op h' p e; cases e; rfl
theorem serviceQuery (h : CmdHdr) (key : Option W64) : Statement (.serviceQuery h key) := by
  intro op h' p e; cases key <;> (cases e; rfl)
theorem placementPolicy (h : CmdHdr) (params : Option PlacementParams) : Statement (.placementPolicy h params) := by
  intro op h' p e; cases params <;> (cases e; rfl)
theorem placementQuery (h : CmdHdr) : Statement (.placementQuery h) := by
  intro op h' p e; cases e; rfl
theorem surveyConfig (h : CmdHdr) (params : Option SurveyParams) : Statement (.surveyConfig h params) := by
  intro op h' p e; cases params <;> (cases e; rfl)
theorem mapQuery (h : CmdHdr) : Statement (.mapQuery h) := by
  intro op h' p e; cases e; rfl
theorem mapRead (h : CmdHdr) (byKey : Byte) (first : W16) (key : W64) : Statement (.mapRead h byKey first key) := by
  intro op h' p e; cases e; rfl
theorem followPolicy (h : CmdHdr) (items : List Item) : Statement (.followPolicy h items) := by
  intro op h' p e; cases e; rfl
theorem linksetSet (h : CmdHdr) (index : Byte) (keys : List W64) : Statement (.linksetSet h index keys) := by
  intro op h' p e; cases e; rfl
theorem linksetQuery (h : CmdHdr) (index : Byte) : Statement (.linksetQuery h index) := by
  intro op h' p e; cases e; rfl
theorem followQuery (h : CmdHdr) : Statement (.followQuery h) := by
  intro op h' p e; cases e; rfl
theorem alertConfig (h : CmdHdr) (params : Option AlertParams) : Statement (.alertConfig h params) := by
  intro op h' p e; cases params <;> (cases e; rfl)
theorem ringConfig (h : CmdHdr) (ring : Byte) (items : List Item) : Statement (.ringConfig h ring items) := by
  intro op h' p e; cases e; rfl
theorem ringQuery (h : CmdHdr) (ring : Byte) : Statement (.ringQuery h ring) := by
  intro op h' p e; cases e; rfl
theorem archiveConfig (h : CmdHdr) (items : List Item) : Statement (.archiveConfig h items) := by
  intro op h' p e; cases e; rfl
theorem archiveExtentAdd (h : CmdHdr) (extents : List Extent) : Statement (.archiveExtentAdd h extents) := by
  intro op h' p e; cases e; rfl
theorem archiveQuery (h : CmdHdr) (what : Byte) (first : W16) : Statement (.archiveQuery h what first) := by
  intro op h' p e; cases e; rfl
theorem outputQuery (h : CmdHdr) (first : W16) : Statement (.outputQuery h first) := by
  intro op h' p e; cases e; rfl
theorem audioPortConfig (h : CmdHdr) (port : Byte) (items : List Item) : Statement (.audioPortConfig h port items) := by
  intro op h' p e; cases e; rfl
theorem audioPortQuery (h : CmdHdr) (port : Byte) : Statement (.audioPortQuery h port) := by
  intro op h' p e; cases e; rfl
theorem audioPortStart (h : CmdHdr) (mask trigger : Byte) (startDt : W64) : Statement (.audioPortStart h mask trigger startDt) := by
  intro op h' p e; cases e; rfl
theorem audioPortStop (h : CmdHdr) (mask : Byte) : Statement (.audioPortStop h mask) := by
  intro op h' p e; cases e; rfl
theorem pktPortConfig (h : CmdHdr) (port : Byte) (items : List Item) : Statement (.pktPortConfig h port items) := by
  intro op h' p e; cases e; rfl
theorem pktPortQuery (h : CmdHdr) (port : Byte) : Statement (.pktPortQuery h port) := by
  intro op h' p e; cases e; rfl
theorem timeSet (h : CmdHdr) (form arm : Byte) (value : W64) : Statement (.timeSet h form arm value) := by
  intro op h' p e; cases e; rfl
theorem timeQuery (h : CmdHdr) : Statement (.timeQuery h) := by
  intro op h' p e; cases e; rfl
theorem leapTableSet (h : CmdHdr) (mode : Byte) (expiry : W64) (entries : List LeapEntry) : Statement (.leapTableSet h mode expiry entries) := by
  intro op h' p e; cases e; rfl
theorem leapTableQuery (h : CmdHdr) : Statement (.leapTableQuery h) := by
  intro op h' p e; cases e; rfl
theorem clockConfig (h : CmdHdr) (body : ClockBody) : Statement (.clockConfig h body) := by
  intro op h' p e; cases e; rfl
theorem clockQuery (h : CmdHdr) : Statement (.clockQuery h) := by
  intro op h' p e; cases e; rfl
theorem refConfig (h : CmdHdr) (params : Option RefParams) : Statement (.refConfig h params) := by
  intro op h' p e; cases params <;> (cases e; rfl)
theorem refQuery (h : CmdHdr) : Statement (.refQuery h) := by
  intro op h' p e; cases e; rfl
theorem ppsTod (h : CmdHdr) (dt : W64) : Statement (.ppsTod h dt) := by
  intro op h' p e; cases e; rfl
theorem rfConfig (h : CmdHdr) (input gainMode target atten : Byte) : Statement (.rfConfig h input gainMode target atten) := by
  intro op h' p e; cases e; rfl
theorem rfQuery (h : CmdHdr) (input : Byte) : Statement (.rfQuery h input) := by
  intro op h' p e; cases e; rfl
theorem planPolicy (h : CmdHdr) (params : Option PlanPolicyParams) : Statement (.planPolicy h params) := by
  intro op h' p e; cases params <;> (cases e; rfl)
theorem planDefer (h : CmdHdr) (seconds : W16) : Statement (.planDefer h seconds) := by
  intro op h' p e; cases e; rfl
theorem planQuery (h : CmdHdr) : Statement (.planQuery h) := by
  intro op h' p e; cases e; rfl
theorem coexConfig (h : CmdHdr) (items : List Item) : Statement (.coexConfig h items) := by
  intro op h' p e; cases e; rfl
theorem coexQuery (h : CmdHdr) : Statement (.coexQuery h) := by
  intro op h' p e; cases e; rfl
theorem combTest (h : CmdHdr) (input on : Byte) : Statement (.combTest h input on) := by
  intro op h' p e; cases e; rfl
theorem firBankLoad (h : CmdHdr) (cls bank phase : Byte) (coeffs : List W32) : Statement (.firBankLoad h cls bank phase coeffs) := by
  intro op h' p e; cases e; rfl
theorem firBankQuery (h : CmdHdr) (cls bank : Byte) : Statement (.firBankQuery h cls bank) := by
  intro op h' p e; cases e; rfl
theorem laneQuery (h : CmdHdr) (first : W16) : Statement (.laneQuery h first) := by
  intro op h' p e; cases e; rfl
theorem laneConfig (h : CmdHdr) (items : List Item) : Statement (.laneConfig h items) := by
  intro op h' p e; cases e; rfl
theorem analogueConfig (h : CmdHdr) (items : List Item) : Statement (.analogueConfig h items) := by
  intro op h' p e; cases e; rfl
theorem analogueQuery (h : CmdHdr) : Statement (.analogueQuery h) := by
  intro op h' p e; cases e; rfl
theorem timecodeFormatLoad (h : CmdHdr) (fmt : TcFormat) : Statement (.timecodeFormatLoad h fmt) := by
  intro op h' p e; cases e; rfl
theorem timecodeFormatQuery (h : CmdHdr) (format : Byte) : Statement (.timecodeFormatQuery h format) := by
  intro op h' p e; cases e; rfl
theorem dabConfig (h : CmdHdr) (items : List Item) : Statement (.dabConfig h items) := by
  intro op h' p e; cases e; rfl
theorem dabQuery (h : CmdHdr) : Statement (.dabQuery h) := by
  intro op h' p e; cases e; rfl
theorem tvConfig (h : CmdHdr) (items : List Item) : Statement (.tvConfig h items) := by
  intro op h' p e; cases e; rfl
theorem tvQuery (h : CmdHdr) : Statement (.tvQuery h) := by
  intro op h' p e; cases e; rfl
theorem ldpcPolicy (h : CmdHdr) (bands : Option (List LdpcBand)) : Statement (.ldpcPolicy h bands) := by
  intro op h' p e; cases bands <;> (cases e; rfl)
theorem ldpcQuery (h : CmdHdr) : Statement (.ldpcQuery h) := by
  intro op h' p e; cases e; rfl
theorem calRun (h : CmdHdr) (target options scope : Byte) : Statement (.calRun h target options scope) := by
  intro op h' p e; cases e; rfl
theorem calQuery (h : CmdHdr) : Statement (.calQuery h) := by
  intro op h' p e; cases e; rfl
theorem calRead (h : CmdHdr) (block : Byte) : Statement (.calRead h block) := by
  intro op h' p e; cases e; rfl
theorem calWrite (h : CmdHdr) (block : CalBlock) : Statement (.calWrite h block) := by
  intro op h' p e; cases e; rfl
theorem calConfig (h : CmdHdr) (items : List Item) : Statement (.calConfig h items) := by
  intro op h' p e; cases e; rfl
theorem trunkConfig (h : CmdHdr) (items : List Item) : Statement (.trunkConfig h items) := by
  intro op h' p e; cases e; rfl
theorem trunkQuery (h : CmdHdr) : Statement (.trunkQuery h) := by
  intro op h' p e; cases e; rfl
theorem trunkSleep (h : CmdHdr) (firstDt : W64) : Statement (.trunkSleep h firstDt) := by
  intro op h' p e; cases e; rfl
theorem trunkWake (h : CmdHdr) : Statement (.trunkWake h) := by
  intro op h' p e; cases e; rfl
theorem trunkMask (h : CmdHdr) (ranges : List MaskRange) : Statement (.trunkMask h ranges) := by
  intro op h' p e; cases e; rfl
theorem trunkRemote (h : CmdHdr) (packet : List Byte) : Statement (.trunkRemote h packet) := by
  intro op h' p e; cases e; rfl
theorem trunkNoiseQuery (h : CmdHdr) (endOf : Byte) (first : W16) : Statement (.trunkNoiseQuery h endOf first) := by
  intro op h' p e; cases e; rfl
theorem imageBegin (h : CmdHdr) (slot : Byte) (length : W32) : Statement (.imageBegin h slot length) := by
  intro op h' p e; cases e; rfl
theorem imageData (h : CmdHdr) (slot : Byte) (offset : W32) (data : List Byte) : Statement (.imageData h slot offset data) := by
  intro op h' p e; cases e; rfl
theorem imageEnd (h : CmdHdr) (slot : Byte) : Statement (.imageEnd h slot) := by
  intro op h' p e; cases e; rfl
theorem imageActivate (h : CmdHdr) (slot : Byte) (dt : W64) : Statement (.imageActivate h slot dt) := by
  intro op h' p e; cases e; rfl
theorem imageQuery (h : CmdHdr) : Statement (.imageQuery h) := by
  intro op h' p e; cases e; rfl
theorem settingsQuery (h : CmdHdr) : Statement (.settingsQuery h) := by
  intro op h' p e; cases e; rfl
theorem settingsReset (h : CmdHdr) (groups : W32) (confirm : W16) : Statement (.settingsReset h groups confirm) := by
  intro op h' p e; cases e; rfl
theorem otpKey (h : CmdHdr) (action keySlot : Byte) (confirm : W16) (hash : List Byte) : Statement (.otpKey h action keySlot confirm hash) := by
  intro op h' p e; cases e; rfl
theorem chainConfig (h : CmdHdr) (enable : Byte) : Statement (.chainConfig h enable) := by
  intro op h' p e; cases e; rfl
theorem rtcSet (h : CmdHdr) (cal : Calendar) (option : Byte) : Statement (.rtcSet h cal option) := by
  intro op h' p e; cases e; rfl
theorem rtcQuery (h : CmdHdr) : Statement (.rtcQuery h) := by
  intro op h' p e; cases e; rfl
theorem backupWrite (h : CmdHdr) (offset : Byte) (data : List Byte) : Statement (.backupWrite h offset data) := by
  intro op h' p e; cases e; rfl
theorem backupRead (h : CmdHdr) (offset len : Byte) : Statement (.backupRead h offset len) := by
  intro op h' p e; cases e; rfl
theorem rtcAlarm (h : CmdHdr) (cal : Calendar) (enable : Byte) : Statement (.rtcAlarm h cal enable) := by
  intro op h' p e; cases e; rfl
theorem diagQuery (h : CmdHdr) : Statement (.diagQuery h) := by
  intro op h' p e; cases e; rfl
theorem diagLogRead (h : CmdHdr) (first : W16) : Statement (.diagLogRead h first) := by
  intro op h' p e; cases e; rfl
theorem mailboxDoorbell (bus : Bus) (wait : Nat) : Statement (.mailboxDoorbell bus wait) := nofun
theorem cmdRingDoorbell (bus : Bus) (producer : BitVec 24) (writes : List (Nat × Byte)) (wait : Nat) : Statement (.cmdRingDoorbell bus producer writes wait) := nofun
theorem intStatusWrite (bus : Bus) (value : W32) : Statement (.intStatusWrite bus value) := nofun
theorem intEnableWrite (bus : Bus) (value : W32) : Statement (.intEnableWrite bus value) := nofun
theorem dtMatchCommit (bus : Bus) (hi : W32) (wait : Nat) : Statement (.dtMatchCommit bus hi wait) := nofun
theorem multiwordSnapshotRead (bus : Bus) (addr : W16) (wait : Nat) : Statement (.multiwordSnapshotRead bus addr wait) := nofun
theorem registerWrite (bus : Bus) (addr : W16) (len : Nat) (value : W64) (enables : Bool) : Statement (.registerWrite bus addr len value enables) := nofun
theorem msixUnmask (enable funcMask : Bool) (masked : W64) : Statement (.msixUnmask enable funcMask masked) := nofun
theorem pciePowerState (d3 pme : Bool) : Statement (.pciePowerState d3 pme) := nofun
theorem perst : Statement (.perst) := nofun
theorem writePacket (bytes : List Byte) (cutOff : Bool) (wait : Nat) : Statement (.writePacket bytes cutOff wait) := nofun
theorem readStatus : Statement (.readStatus) := nofun
theorem readPacket (complete : Bool) : Statement (.readPacket complete) := nofun
theorem twWriteTransaction (addrByte : Byte) (bytes : List Byte) (stopped : Bool) (wait : Nat) : Statement (.twWriteTransaction addrByte bytes stopped wait) := nofun
theorem twReadTransaction (addrByte : Byte) (count : Nat) (wait : Nat) : Statement (.twReadTransaction addrByte count wait) := nofun
theorem twTimeout : Statement (.twTimeout) := nofun
theorem attnWrite (result : AttnResult) (wait : Nat) : Statement (.attnWrite result wait) := nofun
theorem attnWriteRetry (result : AttnResult) (wait : Nat) : Statement (.attnWriteRetry result wait) := nofun
theorem chainImageStart (f : ChainFrame) (wait : Nat) : Statement (.chainImageStart f wait) := nofun
theorem chainImageBlock (f : ChainFrame) (wait : Nat) : Statement (.chainImageBlock f wait) := nofun
theorem chainImageDone (f : ChainFrame) (wait : Nat) : Statement (.chainImageDone f wait) := nofun
theorem chainActivate (f : ChainFrame) (wait : Nat) : Statement (.chainActivate f wait) := nofun
theorem tick (inp : TickIn) : Statement (.tick inp) := nofun
theorem thermalShedStep : Statement (.thermalShedStep) := nofun
theorem thermalRestart (temp : W16) : Statement (.thermalRestart temp) := nofun
theorem engineSettled (slot : Nat) (wait : Nat) : Statement (.engineSettled slot wait) := nofun
theorem migrationSwitch (slot : Nat) (wait : Nat) : Statement (.migrationSwitch slot wait) := nofun
theorem migrationRelease (slot : Nat) : Statement (.migrationRelease slot) := nofun
theorem migrationAbandon (slot : Nat) (wait : Nat) : Statement (.migrationAbandon slot wait) := nofun
theorem planChange (lock : LockRun) : Statement (.planChange lock) := nofun
theorem planDeferralEnd (wait : Nat) : Statement (.planDeferralEnd wait) := nofun
theorem pllSLockLost (lock : LockRun) (wait : Nat) : Statement (.pllSLockLost lock wait) := nofun
theorem pllSRetry (lock : LockRun) (wait : Nat) : Statement (.pllSRetry lock wait) := nofun
theorem pllGLockLost : Statement (.pllGLockLost) := nofun
theorem ppsEdge (wait : Nat) : Statement (.ppsEdge wait) := nofun
theorem referenceQualified (code : Nat) (timeRole : Bool) (wait : Nat) : Statement (.referenceQualified code timeRole wait) := nofun
theorem referenceLoss (code : Nat) (wait : Nat) : Statement (.referenceLoss code wait) := nofun
theorem holdoverExpiry (wait : Nat) : Statement (.holdoverExpiry wait) := nofun
theorem timeStep : Statement (.timeStep) := nofun
theorem dtWrap : Statement (.dtWrap) := nofun
theorem dtMatchExpiry (bus : Bus) (wait : Nat) : Statement (.dtMatchExpiry bus wait) := nofun
theorem coexRequest (pri gntIn : Bool) (wait : Nat) : Statement (.coexRequest pri gntIn wait) := nofun
theorem coexGrant (wait : Nat) : Statement (.coexGrant wait) := nofun
theorem coexRelease (wait : Nat) : Statement (.coexRelease wait) := nofun
theorem coexTailExpiry (wait : Nat) : Statement (.coexTailExpiry wait) := nofun
theorem coexGrantLimit (wait : Nat) : Statement (.coexGrantLimit wait) := nofun
theorem protectionWindowLead (wait : Nat) : Statement (.protectionWindowLead wait) := nofun
theorem protectionWindowEnd (wait : Nat) : Statement (.protectionWindowEnd wait) := nofun
theorem coexAckTimeout (wait : Nat) : Statement (.coexAckTimeout wait) := nofun
theorem coexInputStuck (wire : Nat) (wait : Nat) : Statement (.coexInputStuck wire wait) := nofun
theorem audStartEdge (rising : Bool) (wait : Nat) : Statement (.audStartEdge rising wait) := nofun
theorem audioPortTrigger (wait : Nat) : Statement (.audioPortTrigger wait) := nofun
theorem slaveClockCheck (m : SlaveClock) (wait : Nat) : Statement (.slaveClockCheck m wait) := nofun
theorem audioUnderrun (u : Underrun) (wait : Nat) : Statement (.audioUnderrun u wait) := nofun
theorem zeroCrossingSwitch (port channel : Nat) (wait : Nat) : Statement (.zeroCrossingSwitch port channel wait) := nofun
theorem zeroCrossingTimeout (port channel : Nat) (wait : Nat) : Statement (.zeroCrossingTimeout port channel wait) := nofun
theorem unitCompletion (u : UnitIn) (wait : Nat) : Statement (.unitCompletion u wait) := nofun
theorem collectorWrite (writes : List (Nat × Byte)) (wait : Nat) : Statement (.collectorWrite writes wait) := nofun
theorem engineHoldDrop (slot : Nat) (kind : Byte) : Statement (.engineHoldDrop slot kind) := nofun
theorem ringModerationTimer (ring : Nat) (wait : Nat) : Statement (.ringModerationTimer ring wait) := nofun
theorem archiveIndexUnit (slot : Nat) : Statement (.archiveIndexUnit slot) := nofun
theorem statisticsIntervalEnd (st : StatIn) : Statement (.statisticsIntervalEnd st) := nofun
theorem spectrumIntervalEnd (sp : SpectrumIn) : Statement (.spectrumIntervalEnd sp) := nofun
theorem pktPortPacket (port : Nat) (wait : Nat) : Statement (.pktPortPacket port wait) := nofun
theorem rdsGroup (slot : Nat) (g : RdsGroupIn) (wait : Nat) : Statement (.rdsGroup slot g wait) := nofun
theorem rdsSyncLoss (slot : Nat) (wait : Nat) : Statement (.rdsSyncLoss slot wait) := nofun
theorem pilotStateChange (slot : Nat) (present : Bool) (wait : Nat) : Statement (.pilotStateChange slot present wait) := nofun
theorem amSyncLock (slot : Nat) (locked : Bool) (wait : Nat) : Statement (.amSyncLock slot locked wait) := nofun
theorem timecodeFrame (slot : Nat) (f : TcFrameIn) (wait : Nat) : Statement (.timecodeFrame slot f wait) := nofun
theorem fibReceived (f : FibIn) (wait : Nat) : Statement (.fibReceived f wait) := nofun
theorem dabReconfiguration (carrier : W64) (cif : Nat) (wait : Nat) : Statement (.dabReconfiguration carrier cif wait) := nofun
theorem dabSyncLoss (carrier : W64) (wait : Nat) : Statement (.dabSyncLoss carrier wait) := nofun
theorem dabSearchTimeout (carrier : W64) (wait : Nat) : Statement (.dabSearchTimeout carrier wait) := nofun
theorem sectionReceived (x : SectionIn) (wait : Nat) : Statement (.sectionReceived x wait) := nofun
theorem tvSyncLoss (carrier : W64) (wait : Nat) : Statement (.tvSyncLoss carrier wait) := nofun
theorem tvReconfiguration (carrier : W64) (t : TvSignal) (wait : Nat) : Statement (.tvReconfiguration carrier t wait) := nofun
theorem tvSearchTimeout (carrier : W64) (wait : Nat) : Statement (.tvSearchTimeout carrier wait) := nofun
theorem timeIndication (ti : TimeInd) (wait : Nat) : Statement (.timeIndication ti wait) := nofun
theorem alertTimeout (slot : Nat) (wait : Nat) : Statement (.alertTimeout slot wait) := nofun
theorem probeStart (p : ProbeIn) (wait : Nat) : Statement (.probeStart p wait) := nofun
theorem probeEnd (p : ProbeOut) (wait : Nat) : Statement (.probeEnd p wait) := nofun
theorem mapPublication : Statement (.mapPublication) := nofun
theorem mapEntryExpiry (key : W64) : Statement (.mapEntryExpiry key) := nofun
theorem spliceSwitch (slot : Nat) (m : SpliceIn) (wait : Nat) : Statement (.spliceSwitch slot m wait) := nofun
theorem spliceTimeout (slot : Nat) (wait : Nat) : Statement (.spliceTimeout slot wait) := nofun
theorem rotationStep (r : RotationIn) : Statement (.rotationStep r) := nofun
theorem estimationWindow (r : EstimationIn) : Statement (.estimationWindow r) := nofun
theorem flatnessBurst (b : BurstIn) : Statement (.flatnessBurst b) := nofun
theorem rtcTrimMeasure (errorCppm : Int) (wait : Nat) : Statement (.rtcTrimMeasure errorCppm wait) := nofun
theorem equaliserFit (f : EqFit) (wait : Nat) : Statement (.equaliserFit f wait) := nofun
theorem modeTransition (c : StartCal) (segs : List SegLoad) : Statement (.modeTransition c segs) := nofun
theorem modeTransitionComplete (wait : Nat) : Statement (.modeTransitionComplete wait) := nofun
theorem trunkFrame (f : TrunkFrameIn) : Statement (.trunkFrame f) := nofun
theorem controlBurstReceived (b : ControlBurst) (wait : Nat) : Statement (.controlBurstReceived b wait) := nofun
theorem trunkUnitPacket (u : TrunkUnit) (wait : Nat) : Statement (.trunkUnitPacket u wait) := nofun
theorem trunkCommandPacket (packet : List Byte) (wait : Nat) : Statement (.trunkCommandPacket packet wait) := nofun
theorem trunkReplyEventPacket (packet : List Byte) (wait : Nat) : Statement (.trunkReplyEventPacket packet wait) := nofun
theorem trunkAck (a : TrunkAckIn) (wait : Nat) : Statement (.trunkAck a wait) := nofun
theorem trunkLoading (l : LoadingIn) (wait : Nat) : Statement (.trunkLoading l wait) := nofun
theorem trunkLoadingAck (l : LoadingAckIn) (wait : Nat) : Statement (.trunkLoadingAck l wait) := nofun
theorem trunkMaskPacket (m : MaskIn) (wait : Nat) : Statement (.trunkMaskPacket m wait) := nofun
theorem trunkNoise (n : NoiseIn) (wait : Nat) : Statement (.trunkNoise n wait) := nofun
theorem trunkTime (t : TrunkTimeIn) (wait : Nat) : Statement (.trunkTime t wait) := nofun
theorem trunkSleepPacket (p : SleepIn) (wait : Nat) : Statement (.trunkSleepPacket p wait) := nofun
theorem loadingRecompute (r : RecomputeIn) (wait : Nat) : Statement (.loadingRecompute r wait) := nofun
theorem trunkAckTimeout (wait : Nat) : Statement (.trunkAckTimeout wait) := nofun
theorem trunkLoss (wait : Nat) : Statement (.trunkLoss wait) := nofun
theorem trunkRemoteResend (seq : W16) (wait : Nat) : Statement (.trunkRemoteResend seq wait) := nofun
theorem meetWindowWake (wait : Nat) : Statement (.meetWindowWake wait) := nofun
theorem meetWindowEnd (wait : Nat) : Statement (.meetWindowEnd wait) := nofun
theorem wakeCallAccepted (c : WakeCallIn) (wait : Nat) : Statement (.wakeCallAccepted c wait) := nofun
theorem wakeCallSend (wait : Nat) : Statement (.wakeCallSend wait) := nofun
theorem recoveryTimeout (wait : Nat) : Statement (.recoveryTimeout wait) := nofun
theorem longCall (wait : Nat) : Statement (.longCall wait) := nofun
theorem imageActivation : Statement (.imageActivation) := nofun
theorem trialConfirm : Statement (.trialConfirm) := nofun
theorem trialFailure : Statement (.trialFailure) := nofun
theorem journalCommit (c : CommitIn) : Statement (.journalCommit c) := nofun
theorem powerOnReset (allDown : Bool) : Statement (.powerOnReset allDown) := nofun
theorem railPowerLoss (allDown vbatOk : Bool) : Statement (.railPowerLoss allDown vbatOk) := nofun
theorem resetNAsserted : Statement (.resetNAsserted) := nofun
theorem watchdogReset : Statement (.watchdogReset) := nofun
theorem deviceStart (inp : StartIn) : Statement (.deviceStart inp) := nofun
theorem backupDomainReset : Statement (.backupDomainReset) := nofun
theorem rtcSecondRollover : Statement (.rtcSecondRollover) := nofun
theorem rtcUnlockTimeout : Statement (.rtcUnlockTimeout) := nofun
theorem rtcWriteCommit (wait : Nat) : Statement (.rtcWriteCommit wait) := nofun
theorem rtcDtCorrection (diffUs : Nat) (wait : Nat) : Statement (.rtcDtCorrection diffUs wait) := nofun
theorem oscillatorStopped : Statement (.oscillatorStopped) := nofun
theorem rdsSynchronisation (slot : Nat) (wait : Nat) : Statement (.rdsSynchronisation slot wait) := nofun
theorem dabSynchronised (carrier : W64) (mode : Nat) (wait : Nat) : Statement (.dabSynchronised carrier mode wait) := nofun
theorem tvSynchronised (carrier : W64) (t : TvSignal) (wait : Nat) : Statement (.tvSynchronised carrier t wait) := nofun
theorem carrierDetected (wait : Nat) : Statement (.carrierDetected wait) := nofun
theorem chainByteReceived (b : Byte) : Statement (.chainByteReceived b) := nofun
theorem boundaryScan (edges : List (Bool × Bool)) : Statement (.boundaryScan edges) := nofun

end Sys2Proof.Laws.Opcode
end

