-- ==== Sys2Proof/Laws/State.lean ====
section
/-! SUPPORT. What the plain updates of the state leave as it is, field by field, and what they change. -/

namespace Sys2Proof.Machine

/-! ### One field after one update -/

@[simp] theorem State.advance_pending (s : State) (n : Nat) : (s.advance n).pending = s.pending := rfl
@[simp] theorem State.advance_out (s : State) (n : Nat) : (s.advance n).out = s.out := rfl
@[simp] theorem State.advance_freeCtr (s : State) (n : Nat) : (s.advance n).freeCtr = s.freeCtr := rfl
@[simp] theorem State.advance_refs (s : State) (n : Nat) : (s.advance n).refs = s.refs := rfl
@[simp] theorem State.advance_clk (s : State) (n : Nat) : (s.advance n).clk = s.clk := rfl
@[simp] theorem State.advance_acc (s : State) (n : Nat) : (s.advance n).acc = s.acc := rfl
@[simp] theorem State.advance_force (s : State) (n : Nat) : (s.advance n).force = s.force := rfl
@[simp] theorem State.advance_sched (s : State) (n : Nat) : (s.advance n).sched = s.sched := rfl
@[simp] theorem State.advance_rf (s : State) (n : Nat) : (s.advance n).rf = s.rf := rfl
@[simp] theorem State.advance_plan (s : State) (n : Nat) : (s.advance n).plan = s.plan := rfl
@[simp] theorem State.advance_coex (s : State) (n : Nat) : (s.advance n).coex = s.coex := rfl
@[simp] theorem State.advance_pPcie (s : State) (n : Nat) : (s.advance n).pPcie = s.pPcie := rfl
@[simp] theorem State.advance_pTw (s : State) (n : Nat) : (s.advance n).pTw = s.pTw := rfl
@[simp] theorem State.advance_pSvc (s : State) (n : Nat) : (s.advance n).pSvc = s.pSvc := rfl
@[simp] theorem State.advance_pTrunk (s : State) (n : Nat) : (s.advance n).pTrunk = s.pTrunk := rfl
@[simp] theorem State.advance_nextId (s : State) (n : Nat) : (s.advance n).nextId = s.nextId := rfl
@[simp] theorem State.advance_rings (s : State) (n : Nat) : (s.advance n).rings = s.rings := rfl
@[simp] theorem State.advance_busP (s : State) (n : Nat) : (s.advance n).busP = s.busP := rfl
@[simp] theorem State.advance_busT (s : State) (n : Nat) : (s.advance n).busT = s.busT := rfl
@[simp] theorem State.advance_scratch (s : State) (n : Nat) : (s.advance n).scratch = s.scratch := rfl
@[simp] theorem State.advance_pcie (s : State) (n : Nat) : (s.advance n).pcie = s.pcie := rfl
@[simp] theorem State.advance_svc (s : State) (n : Nat) : (s.advance n).svc = s.svc := rfl
@[simp] theorem State.advance_tw (s : State) (n : Nat) : (s.advance n).tw = s.tw := rfl
@[simp] theorem State.advance_host (s : State) (n : Nat) : (s.advance n).host = s.host := rfl
@[simp] theorem State.advance_power (s : State) (n : Nat) : (s.advance n).power = s.power := rfl
@[simp] theorem State.advance_thermal (s : State) (n : Nat) : (s.advance n).thermal = s.thermal := rfl
@[simp] theorem State.advance_flash (s : State) (n : Nat) : (s.advance n).flash = s.flash := rfl
@[simp] theorem State.advance_journal (s : State) (n : Nat) : (s.advance n).journal = s.journal := rfl
@[simp] theorem State.advance_rtc (s : State) (n : Nat) : (s.advance n).rtc = s.rtc := rfl
@[simp] theorem State.advance_diag (s : State) (n : Nat) : (s.advance n).diag = s.diag := rfl
@[simp] theorem State.advance_services (s : State) (n : Nat) : (s.advance n).services = s.services := rfl
@[simp] theorem State.advance_place (s : State) (n : Nat) : (s.advance n).place = s.place := rfl
@[simp] theorem State.advance_lanes (s : State) (n : Nat) : (s.advance n).lanes = s.lanes := rfl
@[simp] theorem State.advance_carriers (s : State) (n : Nat) : (s.advance n).carriers = s.carriers := rfl
@[simp] theorem State.advance_ldpc (s : State) (n : Nat) : (s.advance n).ldpc = s.ldpc := rfl
@[simp] theorem State.advance_map (s : State) (n : Nat) : (s.advance n).map = s.map := rfl
@[simp] theorem State.advance_alerts (s : State) (n : Nat) : (s.advance n).alerts = s.alerts := rfl
@[simp] theorem State.advance_rds (s : State) (n : Nat) : (s.advance n).rds = s.rds := rfl
@[simp] theorem State.advance_streams (s : State) (n : Nat) : (s.advance n).streams = s.streams := rfl
@[simp] theorem State.advance_units (s : State) (n : Nat) : (s.advance n).units = s.units := rfl
@[simp] theorem State.advance_side (s : State) (n : Nat) : (s.advance n).side = s.side := rfl
@[simp] theorem State.advance_outRings (s : State) (n : Nat) : (s.advance n).outRings = s.outRings := rfl
@[simp] theorem State.advance_tags (s : State) (n : Nat) : (s.advance n).tags = s.tags := rfl
@[simp] theorem State.advance_archive (s : State) (n : Nat) : (s.advance n).archive = s.archive := rfl
@[simp] theorem State.advance_pkts (s : State) (n : Nat) : (s.advance n).pkts = s.pkts := rfl
@[simp] theorem State.advance_audio (s : State) (n : Nat) : (s.advance n).audio = s.audio := rfl
@[simp] theorem State.advance_trunk (s : State) (n : Nat) : (s.advance n).trunk = s.trunk := rfl
@[simp] theorem State.advance_cal (s : State) (n : Nat) : (s.advance n).cal = s.cal := rfl
@[simp] theorem State.advance_jtag (s : State) (n : Nat) : (s.advance n).jtag = s.jtag := rfl

@[simp] theorem State.emit_pending (s : State) (o : Out) : (s.emit o).pending = s.pending := rfl
@[simp] theorem State.emit_freeCtr (s : State) (o : Out) : (s.emit o).freeCtr = s.freeCtr := rfl
@[simp] theorem State.emit_time (s : State) (o : Out) : (s.emit o).time = s.time := rfl
@[simp] theorem State.emit_refs (s : State) (o : Out) : (s.emit o).refs = s.refs := rfl
@[simp] theorem State.emit_clk (s : State) (o : Out) : (s.emit o).clk = s.clk := rfl
@[simp] theorem State.emit_acc (s : State) (o : Out) : (s.emit o).acc = s.acc := rfl
@[simp] theorem State.emit_force (s : State) (o : Out) : (s.emit o).force = s.force := rfl
@[simp] theorem State.emit_sched (s : State) (o : Out) : (s.emit o).sched = s.sched := rfl
@[simp] theorem State.emit_rf (s : State) (o : Out) : (s.emit o).rf = s.rf := rfl
@[simp] theorem State.emit_plan (s : State) (o : Out) : (s.emit o).plan = s.plan := rfl
@[simp] theorem State.emit_coex (s : State) (o : Out) : (s.emit o).coex = s.coex := rfl
@[simp] theorem State.emit_pPcie (s : State) (o : Out) : (s.emit o).pPcie = s.pPcie := rfl
@[simp] theorem State.emit_pTw (s : State) (o : Out) : (s.emit o).pTw = s.pTw := rfl
@[simp] theorem State.emit_pSvc (s : State) (o : Out) : (s.emit o).pSvc = s.pSvc := rfl
@[simp] theorem State.emit_pTrunk (s : State) (o : Out) : (s.emit o).pTrunk = s.pTrunk := rfl
@[simp] theorem State.emit_nextId (s : State) (o : Out) : (s.emit o).nextId = s.nextId := rfl
@[simp] theorem State.emit_rings (s : State) (o : Out) : (s.emit o).rings = s.rings := rfl
@[simp] theorem State.emit_busP (s : State) (o : Out) : (s.emit o).busP = s.busP := rfl
@[simp] theorem State.emit_busT (s : State) (o : Out) : (s.emit o).busT = s.busT := rfl
@[simp] theorem State.emit_scratch (s : State) (o : Out) : (s.emit o).scratch = s.scratch := rfl
@[simp] theorem State.emit_pcie (s : State) (o : Out) : (s.emit o).pcie = s.pcie := rfl
@[simp] theorem State.emit_svc (s : State) (o : Out) : (s.emit o).svc = s.svc := rfl
@[simp] theorem State.emit_tw (s : State) (o : Out) : (s.emit o).tw = s.tw := rfl
@[simp] theorem State.emit_host (s : State) (o : Out) : (s.emit o).host = s.host := rfl
@[simp] theorem State.emit_power (s : State) (o : Out) : (s.emit o).power = s.power := rfl
@[simp] theorem State.emit_thermal (s : State) (o : Out) : (s.emit o).thermal = s.thermal := rfl
@[simp] theorem State.emit_flash (s : State) (o : Out) : (s.emit o).flash = s.flash := rfl
@[simp] theorem State.emit_journal (s : State) (o : Out) : (s.emit o).journal = s.journal := rfl
@[simp] theorem State.emit_rtc (s : State) (o : Out) : (s.emit o).rtc = s.rtc := rfl
@[simp] theorem State.emit_diag (s : State) (o : Out) : (s.emit o).diag = s.diag := rfl
@[simp] theorem State.emit_services (s : State) (o : Out) : (s.emit o).services = s.services := rfl
@[simp] theorem State.emit_place (s : State) (o : Out) : (s.emit o).place = s.place := rfl
@[simp] theorem State.emit_lanes (s : State) (o : Out) : (s.emit o).lanes = s.lanes := rfl
@[simp] theorem State.emit_carriers (s : State) (o : Out) : (s.emit o).carriers = s.carriers := rfl
@[simp] theorem State.emit_ldpc (s : State) (o : Out) : (s.emit o).ldpc = s.ldpc := rfl
@[simp] theorem State.emit_map (s : State) (o : Out) : (s.emit o).map = s.map := rfl
@[simp] theorem State.emit_alerts (s : State) (o : Out) : (s.emit o).alerts = s.alerts := rfl
@[simp] theorem State.emit_rds (s : State) (o : Out) : (s.emit o).rds = s.rds := rfl
@[simp] theorem State.emit_streams (s : State) (o : Out) : (s.emit o).streams = s.streams := rfl
@[simp] theorem State.emit_units (s : State) (o : Out) : (s.emit o).units = s.units := rfl
@[simp] theorem State.emit_side (s : State) (o : Out) : (s.emit o).side = s.side := rfl
@[simp] theorem State.emit_outRings (s : State) (o : Out) : (s.emit o).outRings = s.outRings := rfl
@[simp] theorem State.emit_tags (s : State) (o : Out) : (s.emit o).tags = s.tags := rfl
@[simp] theorem State.emit_archive (s : State) (o : Out) : (s.emit o).archive = s.archive := rfl
@[simp] theorem State.emit_pkts (s : State) (o : Out) : (s.emit o).pkts = s.pkts := rfl
@[simp] theorem State.emit_audio (s : State) (o : Out) : (s.emit o).audio = s.audio := rfl
@[simp] theorem State.emit_trunk (s : State) (o : Out) : (s.emit o).trunk = s.trunk := rfl
@[simp] theorem State.emit_cal (s : State) (o : Out) : (s.emit o).cal = s.cal := rfl
@[simp] theorem State.emit_jtag (s : State) (o : Out) : (s.emit o).jtag = s.jtag := rfl

@[simp] theorem State.setPort_pending (s : State) (t : Transport) (p : Port) : (s.setPort t p).pending = s.pending := by cases t <;> rfl
@[simp] theorem State.setPort_out (s : State) (t : Transport) (p : Port) : (s.setPort t p).out = s.out := by cases t <;> rfl
@[simp] theorem State.setPort_freeCtr (s : State) (t : Transport) (p : Port) : (s.setPort t p).freeCtr = s.freeCtr := by cases t <;> rfl
@[simp] theorem State.setPort_time (s : State) (t : Transport) (p : Port) : (s.setPort t p).time = s.time := by cases t <;> rfl
@[simp] theorem State.setPort_refs (s : State) (t : Transport) (p : Port) : (s.setPort t p).refs = s.refs := by cases t <;> rfl
@[simp] theorem State.setPort_clk (s : State) (t : Transport) (p : Port) : (s.setPort t p).clk = s.clk := by cases t <;> rfl
@[simp] theorem State.setPort_acc (s : State) (t : Transport) (p : Port) : (s.setPort t p).acc = s.acc := by cases t <;> rfl
@[simp] theorem State.setPort_force (s : State) (t : Transport) (p : Port) : (s.setPort t p).force = s.force := by cases t <;> rfl
@[simp] theorem State.setPort_sched (s : State) (t : Transport) (p : Port) : (s.setPort t p).sched = s.sched := by cases t <;> rfl
@[simp] theorem State.setPort_rf (s : State) (t : Transport) (p : Port) : (s.setPort t p).rf = s.rf := by cases t <;> rfl
@[simp] theorem State.setPort_plan (s : State) (t : Transport) (p : Port) : (s.setPort t p).plan = s.plan := by cases t <;> rfl
@[simp] theorem State.setPort_coex (s : State) (t : Transport) (p : Port) : (s.setPort t p).coex = s.coex := by cases t <;> rfl
@[simp] theorem State.setPort_nextId (s : State) (t : Transport) (p : Port) : (s.setPort t p).nextId = s.nextId := by cases t <;> rfl
@[simp] theorem State.setPort_rings (s : State) (t : Transport) (p : Port) : (s.setPort t p).rings = s.rings := by cases t <;> rfl
@[simp] theorem State.setPort_busP (s : State) (t : Transport) (p : Port) : (s.setPort t p).busP = s.busP := by cases t <;> rfl
@[simp] theorem State.setPort_busT (s : State) (t : Transport) (p : Port) : (s.setPort t p).busT = s.busT := by cases t <;> rfl
@[simp] theorem State.setPort_scratch (s : State) (t : Transport) (p : Port) : (s.setPort t p).scratch = s.scratch := by cases t <;> rfl
@[simp] theorem State.setPort_pcie (s : State) (t : Transport) (p : Port) : (s.setPort t p).pcie = s.pcie := by cases t <;> rfl
@[simp] theorem State.setPort_svc (s : State) (t : Transport) (p : Port) : (s.setPort t p).svc = s.svc := by cases t <;> rfl
@[simp] theorem State.setPort_tw (s : State) (t : Transport) (p : Port) : (s.setPort t p).tw = s.tw := by cases t <;> rfl
@[simp] theorem State.setPort_host (s : State) (t : Transport) (p : Port) : (s.setPort t p).host = s.host := by cases t <;> rfl
@[simp] theorem State.setPort_power (s : State) (t : Transport) (p : Port) : (s.setPort t p).power = s.power := by cases t <;> rfl
@[simp] theorem State.setPort_thermal (s : State) (t : Transport) (p : Port) : (s.setPort t p).thermal = s.thermal := by cases t <;> rfl
@[simp] theorem State.setPort_flash (s : State) (t : Transport) (p : Port) : (s.setPort t p).flash = s.flash := by cases t <;> rfl
@[simp] theorem State.setPort_journal (s : State) (t : Transport) (p : Port) : (s.setPort t p).journal = s.journal := by cases t <;> rfl
@[simp] theorem State.setPort_rtc (s : State) (t : Transport) (p : Port) : (s.setPort t p).rtc = s.rtc := by cases t <;> rfl
@[simp] theorem State.setPort_diag (s : State) (t : Transport) (p : Port) : (s.setPort t p).diag = s.diag := by cases t <;> rfl
@[simp] theorem State.setPort_services (s : State) (t : Transport) (p : Port) : (s.setPort t p).services = s.services := by cases t <;> rfl
@[simp] theorem State.setPort_place (s : State) (t : Transport) (p : Port) : (s.setPort t p).place = s.place := by cases t <;> rfl
@[simp] theorem State.setPort_lanes (s : State) (t : Transport) (p : Port) : (s.setPort t p).lanes = s.lanes := by cases t <;> rfl
@[simp] theorem State.setPort_carriers (s : State) (t : Transport) (p : Port) : (s.setPort t p).carriers = s.carriers := by cases t <;> rfl
@[simp] theorem State.setPort_ldpc (s : State) (t : Transport) (p : Port) : (s.setPort t p).ldpc = s.ldpc := by cases t <;> rfl
@[simp] theorem State.setPort_map (s : State) (t : Transport) (p : Port) : (s.setPort t p).map = s.map := by cases t <;> rfl
@[simp] theorem State.setPort_alerts (s : State) (t : Transport) (p : Port) : (s.setPort t p).alerts = s.alerts := by cases t <;> rfl
@[simp] theorem State.setPort_rds (s : State) (t : Transport) (p : Port) : (s.setPort t p).rds = s.rds := by cases t <;> rfl
@[simp] theorem State.setPort_streams (s : State) (t : Transport) (p : Port) : (s.setPort t p).streams = s.streams := by cases t <;> rfl
@[simp] theorem State.setPort_units (s : State) (t : Transport) (p : Port) : (s.setPort t p).units = s.units := by cases t <;> rfl
@[simp] theorem State.setPort_side (s : State) (t : Transport) (p : Port) : (s.setPort t p).side = s.side := by cases t <;> rfl
@[simp] theorem State.setPort_outRings (s : State) (t : Transport) (p : Port) : (s.setPort t p).outRings = s.outRings := by cases t <;> rfl
@[simp] theorem State.setPort_tags (s : State) (t : Transport) (p : Port) : (s.setPort t p).tags = s.tags := by cases t <;> rfl
@[simp] theorem State.setPort_archive (s : State) (t : Transport) (p : Port) : (s.setPort t p).archive = s.archive := by cases t <;> rfl
@[simp] theorem State.setPort_pkts (s : State) (t : Transport) (p : Port) : (s.setPort t p).pkts = s.pkts := by cases t <;> rfl
@[simp] theorem State.setPort_audio (s : State) (t : Transport) (p : Port) : (s.setPort t p).audio = s.audio := by cases t <;> rfl
@[simp] theorem State.setPort_trunk (s : State) (t : Transport) (p : Port) : (s.setPort t p).trunk = s.trunk := by cases t <;> rfl
@[simp] theorem State.setPort_cal (s : State) (t : Transport) (p : Port) : (s.setPort t p).cal = s.cal := by cases t <;> rfl
@[simp] theorem State.setPort_jtag (s : State) (t : Transport) (p : Port) : (s.setPort t p).jtag = s.jtag := by cases t <;> rfl

@[simp] theorem State.setBus_pending (s : State) (b : Bus) (r : BusRegs) : (s.setBus b r).pending = s.pending := by cases b <;> rfl
@[simp] theorem State.setBus_out (s : State) (b : Bus) (r : BusRegs) : (s.setBus b r).out = s.out := by cases b <;> rfl
@[simp] theorem State.setBus_freeCtr (s : State) (b : Bus) (r : BusRegs) : (s.setBus b r).freeCtr = s.freeCtr := by cases b <;> rfl
@[simp] theorem State.setBus_time (s : State) (b : Bus) (r : BusRegs) : (s.setBus b r).time = s.time := by cases b <;> rfl
@[simp] theorem State.setBus_refs (s : State) (b : Bus) (r : BusRegs) : (s.setBus b r).refs = s.refs := by cases b <;> rfl
@[simp] theorem State.setBus_clk (s : State) (b : Bus) (r : BusRegs) : (s.setBus b r).clk = s.clk := by cases b <;> rfl
@[simp] theorem State.setBus_acc (s : State) (b : Bus) (r : BusRegs) : (s.setBus b r).acc = s.acc := by cases b <;> rfl
@[simp] theorem State.setBus_force (s : State) (b : Bus) (r : BusRegs) : (s.setBus b r).force = s.force := by cases b <;> rfl
@[simp] theorem State.setBus_sched (s : State) (b : Bus) (r : BusRegs) : (s.setBus b r).sched = s.sched := by cases b <;> rfl
@[simp] theorem State.setBus_rf (s : State) (b : Bus) (r : BusRegs) : (s.setBus b r).rf = s.rf := by cases b <;> rfl
@[simp] theorem State.setBus_plan (s : State) (b : Bus) (r : BusRegs) : (s.setBus b r).plan = s.plan := by cases b <;> rfl
@[simp] theorem State.setBus_coex (s : State) (b : Bus) (r : BusRegs) : (s.setBus b r).coex = s.coex := by cases b <;> rfl
@[simp] theorem State.setBus_pPcie (s : State) (b : Bus) (r : BusRegs) : (s.setBus b r).pPcie = s.pPcie := by cases b <;> rfl
@[simp] theorem State.setBus_pTw (s : State) (b : Bus) (r : BusRegs) : (s.setBus b r).pTw = s.pTw := by cases b <;> rfl
@[simp] theorem State.setBus_pSvc (s : State) (b : Bus) (r : BusRegs) : (s.setBus b r).pSvc = s.pSvc := by cases b <;> rfl
@[simp] theorem State.setBus_pTrunk (s : State) (b : Bus) (r : BusRegs) : (s.setBus b r).pTrunk = s.pTrunk := by cases b <;> rfl
@[simp] theorem State.setBus_nextId (s : State) (b : Bus) (r : BusRegs) : (s.setBus b r).nextId = s.nextId := by cases b <;> rfl
@[simp] theorem State.setBus_rings (s : State) (b : Bus) (r : BusRegs) : (s.setBus b r).rings = s.rings := by cases b <;> rfl
@[simp] theorem State.setBus_scratch (s : State) (b : Bus) (r : BusRegs) : (s.setBus b r).scratch = s.scratch := by cases b <;> rfl
@[simp] theorem State.setBus_pcie (s : State) (b : Bus) (r : BusRegs) : (s.setBus b r).pcie = s.pcie := by cases b <;> rfl
@[simp] theorem State.setBus_svc (s : State) (b : Bus) (r : BusRegs) : (s.setBus b r).svc = s.svc := by cases b <;> rfl
@[simp] theorem State.setBus_tw (s : State) (b : Bus) (r : BusRegs) : (s.setBus b r).tw = s.tw := by cases b <;> rfl
@[simp] theorem State.setBus_host (s : State) (b : Bus) (r : BusRegs) : (s.setBus b r).host = s.host := by cases b <;> rfl
@[simp] theorem State.setBus_power (s : State) (b : Bus) (r : BusRegs) : (s.setBus b r).power = s.power := by cases b <;> rfl
@[simp] theorem State.setBus_thermal (s : State) (b : Bus) (r : BusRegs) : (s.setBus b r).thermal = s.thermal := by cases b <;> rfl
@[simp] theorem State.setBus_flash (s : State) (b : Bus) (r : BusRegs) : (s.setBus b r).flash = s.flash := by cases b <;> rfl
@[simp] theorem State.setBus_journal (s : State) (b : Bus) (r : BusRegs) : (s.setBus b r).journal = s.journal := by cases b <;> rfl
@[simp] theorem State.setBus_rtc (s : State) (b : Bus) (r : BusRegs) : (s.setBus b r).rtc = s.rtc := by cases b <;> rfl
@[simp] theorem State.setBus_diag (s : State) (b : Bus) (r : BusRegs) : (s.setBus b r).diag = s.diag := by cases b <;> rfl
@[simp] theorem State.setBus_services (s : State) (b : Bus) (r : BusRegs) : (s.setBus b r).services = s.services := by cases b <;> rfl
@[simp] theorem State.setBus_place (s : State) (b : Bus) (r : BusRegs) : (s.setBus b r).place = s.place := by cases b <;> rfl
@[simp] theorem State.setBus_lanes (s : State) (b : Bus) (r : BusRegs) : (s.setBus b r).lanes = s.lanes := by cases b <;> rfl
@[simp] theorem State.setBus_carriers (s : State) (b : Bus) (r : BusRegs) : (s.setBus b r).carriers = s.carriers := by cases b <;> rfl
@[simp] theorem State.setBus_ldpc (s : State) (b : Bus) (r : BusRegs) : (s.setBus b r).ldpc = s.ldpc := by cases b <;> rfl
@[simp] theorem State.setBus_map (s : State) (b : Bus) (r : BusRegs) : (s.setBus b r).map = s.map := by cases b <;> rfl
@[simp] theorem State.setBus_alerts (s : State) (b : Bus) (r : BusRegs) : (s.setBus b r).alerts = s.alerts := by cases b <;> rfl
@[simp] theorem State.setBus_rds (s : State) (b : Bus) (r : BusRegs) : (s.setBus b r).rds = s.rds := by cases b <;> rfl
@[simp] theorem State.setBus_streams (s : State) (b : Bus) (r : BusRegs) : (s.setBus b r).streams = s.streams := by cases b <;> rfl
@[simp] theorem State.setBus_units (s : State) (b : Bus) (r : BusRegs) : (s.setBus b r).units = s.units := by cases b <;> rfl
@[simp] theorem State.setBus_side (s : State) (b : Bus) (r : BusRegs) : (s.setBus b r).side = s.side := by cases b <;> rfl
@[simp] theorem State.setBus_outRings (s : State) (b : Bus) (r : BusRegs) : (s.setBus b r).outRings = s.outRings := by cases b <;> rfl
@[simp] theorem State.setBus_tags (s : State) (b : Bus) (r : BusRegs) : (s.setBus b r).tags = s.tags := by cases b <;> rfl
@[simp] theorem State.setBus_archive (s : State) (b : Bus) (r : BusRegs) : (s.setBus b r).archive = s.archive := by cases b <;> rfl
@[simp] theorem State.setBus_pkts (s : State) (b : Bus) (r : BusRegs) : (s.setBus b r).pkts = s.pkts := by cases b <;> rfl
@[simp] theorem State.setBus_audio (s : State) (b : Bus) (r : BusRegs) : (s.setBus b r).audio = s.audio := by cases b <;> rfl
@[simp] theorem State.setBus_trunk (s : State) (b : Bus) (r : BusRegs) : (s.setBus b r).trunk = s.trunk := by cases b <;> rfl
@[simp] theorem State.setBus_cal (s : State) (b : Bus) (r : BusRegs) : (s.setBus b r).cal = s.cal := by cases b <;> rfl
@[simp] theorem State.setBus_jtag (s : State) (b : Bus) (r : BusRegs) : (s.setBus b r).jtag = s.jtag := by cases b <;> rfl

@[simp] theorem State.hostWrite_pending (s : State) (a : Nat) (bs : List Byte) : (s.hostWrite a bs).pending = s.pending := rfl
@[simp] theorem State.hostWrite_out (s : State) (a : Nat) (bs : List Byte) : (s.hostWrite a bs).out = s.out := rfl
@[simp] theorem State.hostWrite_freeCtr (s : State) (a : Nat) (bs : List Byte) : (s.hostWrite a bs).freeCtr = s.freeCtr := rfl
@[simp] theorem State.hostWrite_time (s : State) (a : Nat) (bs : List Byte) : (s.hostWrite a bs).time = s.time := rfl
@[simp] theorem State.hostWrite_refs (s : State) (a : Nat) (bs : List Byte) : (s.hostWrite a bs).refs = s.refs := rfl
@[simp] theorem State.hostWrite_clk (s : State) (a : Nat) (bs : List Byte) : (s.hostWrite a bs).clk = s.clk := rfl
@[simp] theorem State.hostWrite_acc (s : State) (a : Nat) (bs : List Byte) : (s.hostWrite a bs).acc = s.acc := rfl
@[simp] theorem State.hostWrite_force (s : State) (a : Nat) (bs : List Byte) : (s.hostWrite a bs).force = s.force := rfl
@[simp] theorem State.hostWrite_sched (s : State) (a : Nat) (bs : List Byte) : (s.hostWrite a bs).sched = s.sched := rfl
@[simp] theorem State.hostWrite_rf (s : State) (a : Nat) (bs : List Byte) : (s.hostWrite a bs).rf = s.rf := rfl
@[simp] theorem State.hostWrite_plan (s : State) (a : Nat) (bs : List Byte) : (s.hostWrite a bs).plan = s.plan := rfl
@[simp] theorem State.hostWrite_coex (s : State) (a : Nat) (bs : List Byte) : (s.hostWrite a bs).coex = s.coex := rfl
@[simp] theorem State.hostWrite_pPcie (s : State) (a : Nat) (bs : List Byte) : (s.hostWrite a bs).pPcie = s.pPcie := rfl
@[simp] theorem State.hostWrite_pTw (s : State) (a : Nat) (bs : List Byte) : (s.hostWrite a bs).pTw = s.pTw := rfl
@[simp] theorem State.hostWrite_pSvc (s : State) (a : Nat) (bs : List Byte) : (s.hostWrite a bs).pSvc = s.pSvc := rfl
@[simp] theorem State.hostWrite_pTrunk (s : State) (a : Nat) (bs : List Byte) : (s.hostWrite a bs).pTrunk = s.pTrunk := rfl
@[simp] theorem State.hostWrite_nextId (s : State) (a : Nat) (bs : List Byte) : (s.hostWrite a bs).nextId = s.nextId := rfl
@[simp] theorem State.hostWrite_rings (s : State) (a : Nat) (bs : List Byte) : (s.hostWrite a bs).rings = s.rings := rfl
@[simp] theorem State.hostWrite_busP (s : State) (a : Nat) (bs : List Byte) : (s.hostWrite a bs).busP = s.busP := rfl
@[simp] theorem State.hostWrite_busT (s : State) (a : Nat) (bs : List Byte) : (s.hostWrite a bs).busT = s.busT := rfl
@[simp] theorem State.hostWrite_scratch (s : State) (a : Nat) (bs : List Byte) : (s.hostWrite a bs).scratch = s.scratch := rfl
@[simp] theorem State.hostWrite_pcie (s : State) (a : Nat) (bs : List Byte) : (s.hostWrite a bs).pcie = s.pcie := rfl
@[simp] theorem State.hostWrite_svc (s : State) (a : Nat) (bs : List Byte) : (s.hostWrite a bs).svc = s.svc := rfl
@[simp] theorem State.hostWrite_tw (s : State) (a : Nat) (bs : List Byte) : (s.hostWrite a bs).tw = s.tw := rfl
@[simp] theorem State.hostWrite_power (s : State) (a : Nat) (bs : List Byte) : (s.hostWrite a bs).power = s.power := rfl
@[simp] theorem State.hostWrite_thermal (s : State) (a : Nat) (bs : List Byte) : (s.hostWrite a bs).thermal = s.thermal := rfl
@[simp] theorem State.hostWrite_flash (s : State) (a : Nat) (bs : List Byte) : (s.hostWrite a bs).flash = s.flash := rfl
@[simp] theorem State.hostWrite_journal (s : State) (a : Nat) (bs : List Byte) : (s.hostWrite a bs).journal = s.journal := rfl
@[simp] theorem State.hostWrite_rtc (s : State) (a : Nat) (bs : List Byte) : (s.hostWrite a bs).rtc = s.rtc := rfl
@[simp] theorem State.hostWrite_diag (s : State) (a : Nat) (bs : List Byte) : (s.hostWrite a bs).diag = s.diag := rfl
@[simp] theorem State.hostWrite_services (s : State) (a : Nat) (bs : List Byte) : (s.hostWrite a bs).services = s.services := rfl
@[simp] theorem State.hostWrite_place (s : State) (a : Nat) (bs : List Byte) : (s.hostWrite a bs).place = s.place := rfl
@[simp] theorem State.hostWrite_lanes (s : State) (a : Nat) (bs : List Byte) : (s.hostWrite a bs).lanes = s.lanes := rfl
@[simp] theorem State.hostWrite_carriers (s : State) (a : Nat) (bs : List Byte) : (s.hostWrite a bs).carriers = s.carriers := rfl
@[simp] theorem State.hostWrite_ldpc (s : State) (a : Nat) (bs : List Byte) : (s.hostWrite a bs).ldpc = s.ldpc := rfl
@[simp] theorem State.hostWrite_map (s : State) (a : Nat) (bs : List Byte) : (s.hostWrite a bs).map = s.map := rfl
@[simp] theorem State.hostWrite_alerts (s : State) (a : Nat) (bs : List Byte) : (s.hostWrite a bs).alerts = s.alerts := rfl
@[simp] theorem State.hostWrite_rds (s : State) (a : Nat) (bs : List Byte) : (s.hostWrite a bs).rds = s.rds := rfl
@[simp] theorem State.hostWrite_streams (s : State) (a : Nat) (bs : List Byte) : (s.hostWrite a bs).streams = s.streams := rfl
@[simp] theorem State.hostWrite_units (s : State) (a : Nat) (bs : List Byte) : (s.hostWrite a bs).units = s.units := rfl
@[simp] theorem State.hostWrite_side (s : State) (a : Nat) (bs : List Byte) : (s.hostWrite a bs).side = s.side := rfl
@[simp] theorem State.hostWrite_outRings (s : State) (a : Nat) (bs : List Byte) : (s.hostWrite a bs).outRings = s.outRings := rfl
@[simp] theorem State.hostWrite_tags (s : State) (a : Nat) (bs : List Byte) : (s.hostWrite a bs).tags = s.tags := rfl
@[simp] theorem State.hostWrite_archive (s : State) (a : Nat) (bs : List Byte) : (s.hostWrite a bs).archive = s.archive := rfl
@[simp] theorem State.hostWrite_pkts (s : State) (a : Nat) (bs : List Byte) : (s.hostWrite a bs).pkts = s.pkts := rfl
@[simp] theorem State.hostWrite_audio (s : State) (a : Nat) (bs : List Byte) : (s.hostWrite a bs).audio = s.audio := rfl
@[simp] theorem State.hostWrite_trunk (s : State) (a : Nat) (bs : List Byte) : (s.hostWrite a bs).trunk = s.trunk := rfl
@[simp] theorem State.hostWrite_cal (s : State) (a : Nat) (bs : List Byte) : (s.hostWrite a bs).cal = s.cal := rfl
@[simp] theorem State.hostWrite_jtag (s : State) (a : Nat) (bs : List Byte) : (s.hostWrite a bs).jtag = s.jtag := rfl

@[simp] theorem State.modSvc_pending (s : State) (n : Nat) (f : Service → Service) : (s.modSvc n f).pending = s.pending := rfl
@[simp] theorem State.modSvc_out (s : State) (n : Nat) (f : Service → Service) : (s.modSvc n f).out = s.out := rfl
@[simp] theorem State.modSvc_freeCtr (s : State) (n : Nat) (f : Service → Service) : (s.modSvc n f).freeCtr = s.freeCtr := rfl
@[simp] theorem State.modSvc_time (s : State) (n : Nat) (f : Service → Service) : (s.modSvc n f).time = s.time := rfl
@[simp] theorem State.modSvc_refs (s : State) (n : Nat) (f : Service → Service) : (s.modSvc n f).refs = s.refs := rfl
@[simp] theorem State.modSvc_clk (s : State) (n : Nat) (f : Service → Service) : (s.modSvc n f).clk = s.clk := rfl
@[simp] theorem State.modSvc_acc (s : State) (n : Nat) (f : Service → Service) : (s.modSvc n f).acc = s.acc := rfl
@[simp] theorem State.modSvc_force (s : State) (n : Nat) (f : Service → Service) : (s.modSvc n f).force = s.force := rfl
@[simp] theorem State.modSvc_sched (s : State) (n : Nat) (f : Service → Service) : (s.modSvc n f).sched = s.sched := rfl
@[simp] theorem State.modSvc_rf (s : State) (n : Nat) (f : Service → Service) : (s.modSvc n f).rf = s.rf := rfl
@[simp] theorem State.modSvc_plan (s : State) (n : Nat) (f : Service → Service) : (s.modSvc n f).plan = s.plan := rfl
@[simp] theorem State.modSvc_coex (s : State) (n : Nat) (f : Service → Service) : (s.modSvc n f).coex = s.coex := rfl
@[simp] theorem State.modSvc_pPcie (s : State) (n : Nat) (f : Service → Service) : (s.modSvc n f).pPcie = s.pPcie := rfl
@[simp] theorem State.modSvc_pTw (s : State) (n : Nat) (f : Service → Service) : (s.modSvc n f).pTw = s.pTw := rfl
@[simp] theorem State.modSvc_pSvc (s : State) (n : Nat) (f : Service → Service) : (s.modSvc n f).pSvc = s.pSvc := rfl
@[simp] theorem State.modSvc_pTrunk (s : State) (n : Nat) (f : Service → Service) : (s.modSvc n f).pTrunk = s.pTrunk := rfl
@[simp] theorem State.modSvc_nextId (s : State) (n : Nat) (f : Service → Service) : (s.modSvc n f).nextId = s.nextId := rfl
@[simp] theorem State.modSvc_rings (s : State) (n : Nat) (f : Service → Service) : (s.modSvc n f).rings = s.rings := rfl
@[simp] theorem State.modSvc_busP (s : State) (n : Nat) (f : Service → Service) : (s.modSvc n f).busP = s.busP := rfl
@[simp] theorem State.modSvc_busT (s : State) (n : Nat) (f : Service → Service) : (s.modSvc n f).busT = s.busT := rfl
@[simp] theorem State.modSvc_scratch (s : State) (n : Nat) (f : Service → Service) : (s.modSvc n f).scratch = s.scratch := rfl
@[simp] theorem State.modSvc_pcie (s : State) (n : Nat) (f : Service → Service) : (s.modSvc n f).pcie = s.pcie := rfl
@[simp] theorem State.modSvc_svc (s : State) (n : Nat) (f : Service → Service) : (s.modSvc n f).svc = s.svc := rfl
@[simp] theorem State.modSvc_tw (s : State) (n : Nat) (f : Service → Service) : (s.modSvc n f).tw = s.tw := rfl
@[simp] theorem State.modSvc_host (s : State) (n : Nat) (f : Service → Service) : (s.modSvc n f).host = s.host := rfl
@[simp] theorem State.modSvc_power (s : State) (n : Nat) (f : Service → Service) : (s.modSvc n f).power = s.power := rfl
@[simp] theorem State.modSvc_thermal (s : State) (n : Nat) (f : Service → Service) : (s.modSvc n f).thermal = s.thermal := rfl
@[simp] theorem State.modSvc_flash (s : State) (n : Nat) (f : Service → Service) : (s.modSvc n f).flash = s.flash := rfl
@[simp] theorem State.modSvc_journal (s : State) (n : Nat) (f : Service → Service) : (s.modSvc n f).journal = s.journal := rfl
@[simp] theorem State.modSvc_rtc (s : State) (n : Nat) (f : Service → Service) : (s.modSvc n f).rtc = s.rtc := rfl
@[simp] theorem State.modSvc_diag (s : State) (n : Nat) (f : Service → Service) : (s.modSvc n f).diag = s.diag := rfl
@[simp] theorem State.modSvc_place (s : State) (n : Nat) (f : Service → Service) : (s.modSvc n f).place = s.place := rfl
@[simp] theorem State.modSvc_lanes (s : State) (n : Nat) (f : Service → Service) : (s.modSvc n f).lanes = s.lanes := rfl
@[simp] theorem State.modSvc_carriers (s : State) (n : Nat) (f : Service → Service) : (s.modSvc n f).carriers = s.carriers := rfl
@[simp] theorem State.modSvc_ldpc (s : State) (n : Nat) (f : Service → Service) : (s.modSvc n f).ldpc = s.ldpc := rfl
@[simp] theorem State.modSvc_map (s : State) (n : Nat) (f : Service → Service) : (s.modSvc n f).map = s.map := rfl
@[simp] theorem State.modSvc_alerts (s : State) (n : Nat) (f : Service → Service) : (s.modSvc n f).alerts = s.alerts := rfl
@[simp] theorem State.modSvc_rds (s : State) (n : Nat) (f : Service → Service) : (s.modSvc n f).rds = s.rds := rfl
@[simp] theorem State.modSvc_streams (s : State) (n : Nat) (f : Service → Service) : (s.modSvc n f).streams = s.streams := rfl
@[simp] theorem State.modSvc_units (s : State) (n : Nat) (f : Service → Service) : (s.modSvc n f).units = s.units := rfl
@[simp] theorem State.modSvc_side (s : State) (n : Nat) (f : Service → Service) : (s.modSvc n f).side = s.side := rfl
@[simp] theorem State.modSvc_outRings (s : State) (n : Nat) (f : Service → Service) : (s.modSvc n f).outRings = s.outRings := rfl
@[simp] theorem State.modSvc_tags (s : State) (n : Nat) (f : Service → Service) : (s.modSvc n f).tags = s.tags := rfl
@[simp] theorem State.modSvc_archive (s : State) (n : Nat) (f : Service → Service) : (s.modSvc n f).archive = s.archive := rfl
@[simp] theorem State.modSvc_pkts (s : State) (n : Nat) (f : Service → Service) : (s.modSvc n f).pkts = s.pkts := rfl
@[simp] theorem State.modSvc_audio (s : State) (n : Nat) (f : Service → Service) : (s.modSvc n f).audio = s.audio := rfl
@[simp] theorem State.modSvc_trunk (s : State) (n : Nat) (f : Service → Service) : (s.modSvc n f).trunk = s.trunk := rfl
@[simp] theorem State.modSvc_cal (s : State) (n : Nat) (f : Service → Service) : (s.modSvc n f).cal = s.cal := rfl
@[simp] theorem State.modSvc_jtag (s : State) (n : Nat) (f : Service → Service) : (s.modSvc n f).jtag = s.jtag := rfl

@[simp] theorem State.modStream_pending (s : State) (f : W16) (k : Nat) (g : Stream → Stream) : (s.modStream f k g).pending = s.pending := rfl
@[simp] theorem State.modStream_out (s : State) (f : W16) (k : Nat) (g : Stream → Stream) : (s.modStream f k g).out = s.out := rfl
@[simp] theorem State.modStream_freeCtr (s : State) (f : W16) (k : Nat) (g : Stream → Stream) : (s.modStream f k g).freeCtr = s.freeCtr := rfl
@[simp] theorem State.modStream_time (s : State) (f : W16) (k : Nat) (g : Stream → Stream) : (s.modStream f k g).time = s.time := rfl
@[simp] theorem State.modStream_refs (s : State) (f : W16) (k : Nat) (g : Stream → Stream) : (s.modStream f k g).refs = s.refs := rfl
@[simp] theorem State.modStream_clk (s : State) (f : W16) (k : Nat) (g : Stream → Stream) : (s.modStream f k g).clk = s.clk := rfl
@[simp] theorem State.modStream_acc (s : State) (f : W16) (k : Nat) (g : Stream → Stream) : (s.modStream f k g).acc = s.acc := rfl
@[simp] theorem State.modStream_force (s : State) (f : W16) (k : Nat) (g : Stream → Stream) : (s.modStream f k g).force = s.force := rfl
@[simp] theorem State.modStream_sched (s : State) (f : W16) (k : Nat) (g : Stream → Stream) : (s.modStream f k g).sched = s.sched := rfl
@[simp] theorem State.modStream_rf (s : State) (f : W16) (k : Nat) (g : Stream → Stream) : (s.modStream f k g).rf = s.rf := rfl
@[simp] theorem State.modStream_plan (s : State) (f : W16) (k : Nat) (g : Stream → Stream) : (s.modStream f k g).plan = s.plan := rfl
@[simp] theorem State.modStream_coex (s : State) (f : W16) (k : Nat) (g : Stream → Stream) : (s.modStream f k g).coex = s.coex := rfl
@[simp] theorem State.modStream_pPcie (s : State) (f : W16) (k : Nat) (g : Stream → Stream) : (s.modStream f k g).pPcie = s.pPcie := rfl
@[simp] theorem State.modStream_pTw (s : State) (f : W16) (k : Nat) (g : Stream → Stream) : (s.modStream f k g).pTw = s.pTw := rfl
@[simp] theorem State.modStream_pSvc (s : State) (f : W16) (k : Nat) (g : Stream → Stream) : (s.modStream f k g).pSvc = s.pSvc := rfl
@[simp] theorem State.modStream_pTrunk (s : State) (f : W16) (k : Nat) (g : Stream → Stream) : (s.modStream f k g).pTrunk = s.pTrunk := rfl
@[simp] theorem State.modStream_nextId (s : State) (f : W16) (k : Nat) (g : Stream → Stream) : (s.modStream f k g).nextId = s.nextId := rfl
@[simp] theorem State.modStream_rings (s : State) (f : W16) (k : Nat) (g : Stream → Stream) : (s.modStream f k g).rings = s.rings := rfl
@[simp] theorem State.modStream_busP (s : State) (f : W16) (k : Nat) (g : Stream → Stream) : (s.modStream f k g).busP = s.busP := rfl
@[simp] theorem State.modStream_busT (s : State) (f : W16) (k : Nat) (g : Stream → Stream) : (s.modStream f k g).busT = s.busT := rfl
@[simp] theorem State.modStream_scratch (s : State) (f : W16) (k : Nat) (g : Stream → Stream) : (s.modStream f k g).scratch = s.scratch := rfl
@[simp] theorem State.modStream_pcie (s : State) (f : W16) (k : Nat) (g : Stream → Stream) : (s.modStream f k g).pcie = s.pcie := rfl
@[simp] theorem State.modStream_svc (s : State) (f : W16) (k : Nat) (g : Stream → Stream) : (s.modStream f k g).svc = s.svc := rfl
@[simp] theorem State.modStream_tw (s : State) (f : W16) (k : Nat) (g : Stream → Stream) : (s.modStream f k g).tw = s.tw := rfl
@[simp] theorem State.modStream_host (s : State) (f : W16) (k : Nat) (g : Stream → Stream) : (s.modStream f k g).host = s.host := rfl
@[simp] theorem State.modStream_power (s : State) (f : W16) (k : Nat) (g : Stream → Stream) : (s.modStream f k g).power = s.power := rfl
@[simp] theorem State.modStream_thermal (s : State) (f : W16) (k : Nat) (g : Stream → Stream) : (s.modStream f k g).thermal = s.thermal := rfl
@[simp] theorem State.modStream_flash (s : State) (f : W16) (k : Nat) (g : Stream → Stream) : (s.modStream f k g).flash = s.flash := rfl
@[simp] theorem State.modStream_journal (s : State) (f : W16) (k : Nat) (g : Stream → Stream) : (s.modStream f k g).journal = s.journal := rfl
@[simp] theorem State.modStream_rtc (s : State) (f : W16) (k : Nat) (g : Stream → Stream) : (s.modStream f k g).rtc = s.rtc := rfl
@[simp] theorem State.modStream_diag (s : State) (f : W16) (k : Nat) (g : Stream → Stream) : (s.modStream f k g).diag = s.diag := rfl
@[simp] theorem State.modStream_services (s : State) (f : W16) (k : Nat) (g : Stream → Stream) : (s.modStream f k g).services = s.services := rfl
@[simp] theorem State.modStream_place (s : State) (f : W16) (k : Nat) (g : Stream → Stream) : (s.modStream f k g).place = s.place := rfl
@[simp] theorem State.modStream_lanes (s : State) (f : W16) (k : Nat) (g : Stream → Stream) : (s.modStream f k g).lanes = s.lanes := rfl
@[simp] theorem State.modStream_carriers (s : State) (f : W16) (k : Nat) (g : Stream → Stream) : (s.modStream f k g).carriers = s.carriers := rfl
@[simp] theorem State.modStream_ldpc (s : State) (f : W16) (k : Nat) (g : Stream → Stream) : (s.modStream f k g).ldpc = s.ldpc := rfl
@[simp] theorem State.modStream_map (s : State) (f : W16) (k : Nat) (g : Stream → Stream) : (s.modStream f k g).map = s.map := rfl
@[simp] theorem State.modStream_alerts (s : State) (f : W16) (k : Nat) (g : Stream → Stream) : (s.modStream f k g).alerts = s.alerts := rfl
@[simp] theorem State.modStream_rds (s : State) (f : W16) (k : Nat) (g : Stream → Stream) : (s.modStream f k g).rds = s.rds := rfl
@[simp] theorem State.modStream_units (s : State) (f : W16) (k : Nat) (g : Stream → Stream) : (s.modStream f k g).units = s.units := rfl
@[simp] theorem State.modStream_side (s : State) (f : W16) (k : Nat) (g : Stream → Stream) : (s.modStream f k g).side = s.side := rfl
@[simp] theorem State.modStream_outRings (s : State) (f : W16) (k : Nat) (g : Stream → Stream) : (s.modStream f k g).outRings = s.outRings := rfl
@[simp] theorem State.modStream_tags (s : State) (f : W16) (k : Nat) (g : Stream → Stream) : (s.modStream f k g).tags = s.tags := rfl
@[simp] theorem State.modStream_archive (s : State) (f : W16) (k : Nat) (g : Stream → Stream) : (s.modStream f k g).archive = s.archive := rfl
@[simp] theorem State.modStream_pkts (s : State) (f : W16) (k : Nat) (g : Stream → Stream) : (s.modStream f k g).pkts = s.pkts := rfl
@[simp] theorem State.modStream_audio (s : State) (f : W16) (k : Nat) (g : Stream → Stream) : (s.modStream f k g).audio = s.audio := rfl
@[simp] theorem State.modStream_trunk (s : State) (f : W16) (k : Nat) (g : Stream → Stream) : (s.modStream f k g).trunk = s.trunk := rfl
@[simp] theorem State.modStream_cal (s : State) (f : W16) (k : Nat) (g : Stream → Stream) : (s.modStream f k g).cal = s.cal := rfl
@[simp] theorem State.modStream_jtag (s : State) (f : W16) (k : Nat) (g : Stream → Stream) : (s.modStream f k g).jtag = s.jtag := rfl

@[simp] theorem State.pushUnit_pending (s : State) (f : W16) (k : Nat) (g : W16) (d : W64) (n : Nat) (fl : W32) (p : List Byte) : (s.pushUnit f k g d n fl p).pending = s.pending := rfl
@[simp] theorem State.pushUnit_out (s : State) (f : W16) (k : Nat) (g : W16) (d : W64) (n : Nat) (fl : W32) (p : List Byte) : (s.pushUnit f k g d n fl p).out = s.out := rfl
@[simp] theorem State.pushUnit_freeCtr (s : State) (f : W16) (k : Nat) (g : W16) (d : W64) (n : Nat) (fl : W32) (p : List Byte) : (s.pushUnit f k g d n fl p).freeCtr = s.freeCtr := rfl
@[simp] theorem State.pushUnit_time (s : State) (f : W16) (k : Nat) (g : W16) (d : W64) (n : Nat) (fl : W32) (p : List Byte) : (s.pushUnit f k g d n fl p).time = s.time := rfl
@[simp] theorem State.pushUnit_refs (s : State) (f : W16) (k : Nat) (g : W16) (d : W64) (n : Nat) (fl : W32) (p : List Byte) : (s.pushUnit f k g d n fl p).refs = s.refs := rfl
@[simp] theorem State.pushUnit_clk (s : State) (f : W16) (k : Nat) (g : W16) (d : W64) (n : Nat) (fl : W32) (p : List Byte) : (s.pushUnit f k g d n fl p).clk = s.clk := rfl
@[simp] theorem State.pushUnit_acc (s : State) (f : W16) (k : Nat) (g : W16) (d : W64) (n : Nat) (fl : W32) (p : List Byte) : (s.pushUnit f k g d n fl p).acc = s.acc := rfl
@[simp] theorem State.pushUnit_force (s : State) (f : W16) (k : Nat) (g : W16) (d : W64) (n : Nat) (fl : W32) (p : List Byte) : (s.pushUnit f k g d n fl p).force = s.force := rfl
@[simp] theorem State.pushUnit_sched (s : State) (f : W16) (k : Nat) (g : W16) (d : W64) (n : Nat) (fl : W32) (p : List Byte) : (s.pushUnit f k g d n fl p).sched = s.sched := rfl
@[simp] theorem State.pushUnit_rf (s : State) (f : W16) (k : Nat) (g : W16) (d : W64) (n : Nat) (fl : W32) (p : List Byte) : (s.pushUnit f k g d n fl p).rf = s.rf := rfl
@[simp] theorem State.pushUnit_plan (s : State) (f : W16) (k : Nat) (g : W16) (d : W64) (n : Nat) (fl : W32) (p : List Byte) : (s.pushUnit f k g d n fl p).plan = s.plan := rfl
@[simp] theorem State.pushUnit_coex (s : State) (f : W16) (k : Nat) (g : W16) (d : W64) (n : Nat) (fl : W32) (p : List Byte) : (s.pushUnit f k g d n fl p).coex = s.coex := rfl
@[simp] theorem State.pushUnit_pPcie (s : State) (f : W16) (k : Nat) (g : W16) (d : W64) (n : Nat) (fl : W32) (p : List Byte) : (s.pushUnit f k g d n fl p).pPcie = s.pPcie := rfl
@[simp] theorem State.pushUnit_pTw (s : State) (f : W16) (k : Nat) (g : W16) (d : W64) (n : Nat) (fl : W32) (p : List Byte) : (s.pushUnit f k g d n fl p).pTw = s.pTw := rfl
@[simp] theorem State.pushUnit_pSvc (s : State) (f : W16) (k : Nat) (g : W16) (d : W64) (n : Nat) (fl : W32) (p : List Byte) : (s.pushUnit f k g d n fl p).pSvc = s.pSvc := rfl
@[simp] theorem State.pushUnit_pTrunk (s : State) (f : W16) (k : Nat) (g : W16) (d : W64) (n : Nat) (fl : W32) (p : List Byte) : (s.pushUnit f k g d n fl p).pTrunk = s.pTrunk := rfl
@[simp] theorem State.pushUnit_nextId (s : State) (f : W16) (k : Nat) (g : W16) (d : W64) (n : Nat) (fl : W32) (p : List Byte) : (s.pushUnit f k g d n fl p).nextId = s.nextId := rfl
@[simp] theorem State.pushUnit_rings (s : State) (f : W16) (k : Nat) (g : W16) (d : W64) (n : Nat) (fl : W32) (p : List Byte) : (s.pushUnit f k g d n fl p).rings = s.rings := rfl
@[simp] theorem State.pushUnit_busP (s : State) (f : W16) (k : Nat) (g : W16) (d : W64) (n : Nat) (fl : W32) (p : List Byte) : (s.pushUnit f k g d n fl p).busP = s.busP := rfl
@[simp] theorem State.pushUnit_busT (s : State) (f : W16) (k : Nat) (g : W16) (d : W64) (n : Nat) (fl : W32) (p : List Byte) : (s.pushUnit f k g d n fl p).busT = s.busT := rfl
@[simp] theorem State.pushUnit_scratch (s : State) (f : W16) (k : Nat) (g : W16) (d : W64) (n : Nat) (fl : W32) (p : List Byte) : (s.pushUnit f k g d n fl p).scratch = s.scratch := rfl
@[simp] theorem State.pushUnit_pcie (s : State) (f : W16) (k : Nat) (g : W16) (d : W64) (n : Nat) (fl : W32) (p : List Byte) : (s.pushUnit f k g d n fl p).pcie = s.pcie := rfl
@[simp] theorem State.pushUnit_svc (s : State) (f : W16) (k : Nat) (g : W16) (d : W64) (n : Nat) (fl : W32) (p : List Byte) : (s.pushUnit f k g d n fl p).svc = s.svc := rfl
@[simp] theorem State.pushUnit_tw (s : State) (f : W16) (k : Nat) (g : W16) (d : W64) (n : Nat) (fl : W32) (p : List Byte) : (s.pushUnit f k g d n fl p).tw = s.tw := rfl
@[simp] theorem State.pushUnit_host (s : State) (f : W16) (k : Nat) (g : W16) (d : W64) (n : Nat) (fl : W32) (p : List Byte) : (s.pushUnit f k g d n fl p).host = s.host := rfl
@[simp] theorem State.pushUnit_power (s : State) (f : W16) (k : Nat) (g : W16) (d : W64) (n : Nat) (fl : W32) (p : List Byte) : (s.pushUnit f k g d n fl p).power = s.power := rfl
@[simp] theorem State.pushUnit_thermal (s : State) (f : W16) (k : Nat) (g : W16) (d : W64) (n : Nat) (fl : W32) (p : List Byte) : (s.pushUnit f k g d n fl p).thermal = s.thermal := rfl
@[simp] theorem State.pushUnit_flash (s : State) (f : W16) (k : Nat) (g : W16) (d : W64) (n : Nat) (fl : W32) (p : List Byte) : (s.pushUnit f k g d n fl p).flash = s.flash := rfl
@[simp] theorem State.pushUnit_journal (s : State) (f : W16) (k : Nat) (g : W16) (d : W64) (n : Nat) (fl : W32) (p : List Byte) : (s.pushUnit f k g d n fl p).journal = s.journal := rfl
@[simp] theorem State.pushUnit_rtc (s : State) (f : W16) (k : Nat) (g : W16) (d : W64) (n : Nat) (fl : W32) (p : List Byte) : (s.pushUnit f k g d n fl p).rtc = s.rtc := rfl
@[simp] theorem State.pushUnit_diag (s : State) (f : W16) (k : Nat) (g : W16) (d : W64) (n : Nat) (fl : W32) (p : List Byte) : (s.pushUnit f k g d n fl p).diag = s.diag := rfl
@[simp] theorem State.pushUnit_services (s : State) (f : W16) (k : Nat) (g : W16) (d : W64) (n : Nat) (fl : W32) (p : List Byte) : (s.pushUnit f k g d n fl p).services = s.services := rfl
@[simp] theorem State.pushUnit_place (s : State) (f : W16) (k : Nat) (g : W16) (d : W64) (n : Nat) (fl : W32) (p : List Byte) : (s.pushUnit f k g d n fl p).place = s.place := rfl
@[simp] theorem State.pushUnit_lanes (s : State) (f : W16) (k : Nat) (g : W16) (d : W64) (n : Nat) (fl : W32) (p : List Byte) : (s.pushUnit f k g d n fl p).lanes = s.lanes := rfl
@[simp] theorem State.pushUnit_carriers (s : State) (f : W16) (k : Nat) (g : W16) (d : W64) (n : Nat) (fl : W32) (p : List Byte) : (s.pushUnit f k g d n fl p).carriers = s.carriers := rfl
@[simp] theorem State.pushUnit_ldpc (s : State) (f : W16) (k : Nat) (g : W16) (d : W64) (n : Nat) (fl : W32) (p : List Byte) : (s.pushUnit f k g d n fl p).ldpc = s.ldpc := rfl
@[simp] theorem State.pushUnit_map (s : State) (f : W16) (k : Nat) (g : W16) (d : W64) (n : Nat) (fl : W32) (p : List Byte) : (s.pushUnit f k g d n fl p).map = s.map := rfl
@[simp] theorem State.pushUnit_alerts (s : State) (f : W16) (k : Nat) (g : W16) (d : W64) (n : Nat) (fl : W32) (p : List Byte) : (s.pushUnit f k g d n fl p).alerts = s.alerts := rfl
@[simp] theorem State.pushUnit_rds (s : State) (f : W16) (k : Nat) (g : W16) (d : W64) (n : Nat) (fl : W32) (p : List Byte) : (s.pushUnit f k g d n fl p).rds = s.rds := rfl
@[simp] theorem State.pushUnit_streams (s : State) (f : W16) (k : Nat) (g : W16) (d : W64) (n : Nat) (fl : W32) (p : List Byte) : (s.pushUnit f k g d n fl p).streams = s.streams := rfl
@[simp] theorem State.pushUnit_side (s : State) (f : W16) (k : Nat) (g : W16) (d : W64) (n : Nat) (fl : W32) (p : List Byte) : (s.pushUnit f k g d n fl p).side = s.side := rfl
@[simp] theorem State.pushUnit_outRings (s : State) (f : W16) (k : Nat) (g : W16) (d : W64) (n : Nat) (fl : W32) (p : List Byte) : (s.pushUnit f k g d n fl p).outRings = s.outRings := rfl
@[simp] theorem State.pushUnit_tags (s : State) (f : W16) (k : Nat) (g : W16) (d : W64) (n : Nat) (fl : W32) (p : List Byte) : (s.pushUnit f k g d n fl p).tags = s.tags := rfl
@[simp] theorem State.pushUnit_archive (s : State) (f : W16) (k : Nat) (g : W16) (d : W64) (n : Nat) (fl : W32) (p : List Byte) : (s.pushUnit f k g d n fl p).archive = s.archive := rfl
@[simp] theorem State.pushUnit_pkts (s : State) (f : W16) (k : Nat) (g : W16) (d : W64) (n : Nat) (fl : W32) (p : List Byte) : (s.pushUnit f k g d n fl p).pkts = s.pkts := rfl
@[simp] theorem State.pushUnit_audio (s : State) (f : W16) (k : Nat) (g : W16) (d : W64) (n : Nat) (fl : W32) (p : List Byte) : (s.pushUnit f k g d n fl p).audio = s.audio := rfl
@[simp] theorem State.pushUnit_trunk (s : State) (f : W16) (k : Nat) (g : W16) (d : W64) (n : Nat) (fl : W32) (p : List Byte) : (s.pushUnit f k g d n fl p).trunk = s.trunk := rfl
@[simp] theorem State.pushUnit_cal (s : State) (f : W16) (k : Nat) (g : W16) (d : W64) (n : Nat) (fl : W32) (p : List Byte) : (s.pushUnit f k g d n fl p).cal = s.cal := rfl
@[simp] theorem State.pushUnit_jtag (s : State) (f : W16) (k : Nat) (g : W16) (d : W64) (n : Nat) (fl : W32) (p : List Byte) : (s.pushUnit f k g d n fl p).jtag = s.jtag := rfl

@[simp] theorem State.free_pending (s : State) : (s.free.1).pending = s.pending := rfl
@[simp] theorem State.free_out (s : State) : (s.free.1).out = s.out := rfl
@[simp] theorem State.free_time (s : State) : (s.free.1).time = s.time := rfl
@[simp] theorem State.free_refs (s : State) : (s.free.1).refs = s.refs := rfl
@[simp] theorem State.free_clk (s : State) : (s.free.1).clk = s.clk := rfl
@[simp] theorem State.free_acc (s : State) : (s.free.1).acc = s.acc := rfl
@[simp] theorem State.free_force (s : State) : (s.free.1).force = s.force := rfl
@[simp] theorem State.free_sched (s : State) : (s.free.1).sched = s.sched := rfl
@[simp] theorem State.free_rf (s : State) : (s.free.1).rf = s.rf := rfl
@[simp] theorem State.free_plan (s : State) : (s.free.1).plan = s.plan := rfl
@[simp] theorem State.free_coex (s : State) : (s.free.1).coex = s.coex := rfl
@[simp] theorem State.free_pPcie (s : State) : (s.free.1).pPcie = s.pPcie := rfl
@[simp] theorem State.free_pTw (s : State) : (s.free.1).pTw = s.pTw := rfl
@[simp] theorem State.free_pSvc (s : State) : (s.free.1).pSvc = s.pSvc := rfl
@[simp] theorem State.free_pTrunk (s : State) : (s.free.1).pTrunk = s.pTrunk := rfl
@[simp] theorem State.free_nextId (s : State) : (s.free.1).nextId = s.nextId := rfl
@[simp] theorem State.free_rings (s : State) : (s.free.1).rings = s.rings := rfl
@[simp] theorem State.free_busP (s : State) : (s.free.1).busP = s.busP := rfl
@[simp] theorem State.free_busT (s : State) : (s.free.1).busT = s.busT := rfl
@[simp] theorem State.free_scratch (s : State) : (s.free.1).scratch = s.scratch := rfl
@[simp] theorem State.free_pcie (s : State) : (s.free.1).pcie = s.pcie := rfl
@[simp] theorem State.free_svc (s : State) : (s.free.1).svc = s.svc := rfl
@[simp] theorem State.free_tw (s : State) : (s.free.1).tw = s.tw := rfl
@[simp] theorem State.free_host (s : State) : (s.free.1).host = s.host := rfl
@[simp] theorem State.free_power (s : State) : (s.free.1).power = s.power := rfl
@[simp] theorem State.free_thermal (s : State) : (s.free.1).thermal = s.thermal := rfl
@[simp] theorem State.free_flash (s : State) : (s.free.1).flash = s.flash := rfl
@[simp] theorem State.free_journal (s : State) : (s.free.1).journal = s.journal := rfl
@[simp] theorem State.free_rtc (s : State) : (s.free.1).rtc = s.rtc := rfl
@[simp] theorem State.free_diag (s : State) : (s.free.1).diag = s.diag := rfl
@[simp] theorem State.free_services (s : State) : (s.free.1).services = s.services := rfl
@[simp] theorem State.free_place (s : State) : (s.free.1).place = s.place := rfl
@[simp] theorem State.free_lanes (s : State) : (s.free.1).lanes = s.lanes := rfl
@[simp] theorem State.free_carriers (s : State) : (s.free.1).carriers = s.carriers := rfl
@[simp] theorem State.free_ldpc (s : State) : (s.free.1).ldpc = s.ldpc := rfl
@[simp] theorem State.free_map (s : State) : (s.free.1).map = s.map := rfl
@[simp] theorem State.free_alerts (s : State) : (s.free.1).alerts = s.alerts := rfl
@[simp] theorem State.free_rds (s : State) : (s.free.1).rds = s.rds := rfl
@[simp] theorem State.free_streams (s : State) : (s.free.1).streams = s.streams := rfl
@[simp] theorem State.free_units (s : State) : (s.free.1).units = s.units := rfl
@[simp] theorem State.free_side (s : State) : (s.free.1).side = s.side := rfl
@[simp] theorem State.free_outRings (s : State) : (s.free.1).outRings = s.outRings := rfl
@[simp] theorem State.free_tags (s : State) : (s.free.1).tags = s.tags := rfl
@[simp] theorem State.free_archive (s : State) : (s.free.1).archive = s.archive := rfl
@[simp] theorem State.free_pkts (s : State) : (s.free.1).pkts = s.pkts := rfl
@[simp] theorem State.free_audio (s : State) : (s.free.1).audio = s.audio := rfl
@[simp] theorem State.free_trunk (s : State) : (s.free.1).trunk = s.trunk := rfl
@[simp] theorem State.free_cal (s : State) : (s.free.1).cal = s.cal := rfl
@[simp] theorem State.free_jtag (s : State) : (s.free.1).jtag = s.jtag := rfl

@[simp] theorem State.enterState_pending (s : State) (n : Nat) (x : SvcState) (r : Nat) : (s.enterState n x r).pending = s.pending := rfl
@[simp] theorem State.enterState_out (s : State) (n : Nat) (x : SvcState) (r : Nat) : (s.enterState n x r).out = s.out := rfl
@[simp] theorem State.enterState_freeCtr (s : State) (n : Nat) (x : SvcState) (r : Nat) : (s.enterState n x r).freeCtr = s.freeCtr := rfl
@[simp] theorem State.enterState_time (s : State) (n : Nat) (x : SvcState) (r : Nat) : (s.enterState n x r).time = s.time := rfl
@[simp] theorem State.enterState_refs (s : State) (n : Nat) (x : SvcState) (r : Nat) : (s.enterState n x r).refs = s.refs := rfl
@[simp] theorem State.enterState_clk (s : State) (n : Nat) (x : SvcState) (r : Nat) : (s.enterState n x r).clk = s.clk := rfl
@[simp] theorem State.enterState_acc (s : State) (n : Nat) (x : SvcState) (r : Nat) : (s.enterState n x r).acc = s.acc := rfl
@[simp] theorem State.enterState_force (s : State) (n : Nat) (x : SvcState) (r : Nat) : (s.enterState n x r).force = s.force := rfl
@[simp] theorem State.enterState_sched (s : State) (n : Nat) (x : SvcState) (r : Nat) : (s.enterState n x r).sched = s.sched := rfl
@[simp] theorem State.enterState_rf (s : State) (n : Nat) (x : SvcState) (r : Nat) : (s.enterState n x r).rf = s.rf := rfl
@[simp] theorem State.enterState_plan (s : State) (n : Nat) (x : SvcState) (r : Nat) : (s.enterState n x r).plan = s.plan := rfl
@[simp] theorem State.enterState_coex (s : State) (n : Nat) (x : SvcState) (r : Nat) : (s.enterState n x r).coex = s.coex := rfl
@[simp] theorem State.enterState_pPcie (s : State) (n : Nat) (x : SvcState) (r : Nat) : (s.enterState n x r).pPcie = s.pPcie := rfl
@[simp] theorem State.enterState_pTw (s : State) (n : Nat) (x : SvcState) (r : Nat) : (s.enterState n x r).pTw = s.pTw := rfl
@[simp] theorem State.enterState_pSvc (s : State) (n : Nat) (x : SvcState) (r : Nat) : (s.enterState n x r).pSvc = s.pSvc := rfl
@[simp] theorem State.enterState_pTrunk (s : State) (n : Nat) (x : SvcState) (r : Nat) : (s.enterState n x r).pTrunk = s.pTrunk := rfl
@[simp] theorem State.enterState_nextId (s : State) (n : Nat) (x : SvcState) (r : Nat) : (s.enterState n x r).nextId = s.nextId := rfl
@[simp] theorem State.enterState_rings (s : State) (n : Nat) (x : SvcState) (r : Nat) : (s.enterState n x r).rings = s.rings := rfl
@[simp] theorem State.enterState_busP (s : State) (n : Nat) (x : SvcState) (r : Nat) : (s.enterState n x r).busP = s.busP := rfl
@[simp] theorem State.enterState_busT (s : State) (n : Nat) (x : SvcState) (r : Nat) : (s.enterState n x r).busT = s.busT := rfl
@[simp] theorem State.enterState_scratch (s : State) (n : Nat) (x : SvcState) (r : Nat) : (s.enterState n x r).scratch = s.scratch := rfl
@[simp] theorem State.enterState_pcie (s : State) (n : Nat) (x : SvcState) (r : Nat) : (s.enterState n x r).pcie = s.pcie := rfl
@[simp] theorem State.enterState_svc (s : State) (n : Nat) (x : SvcState) (r : Nat) : (s.enterState n x r).svc = s.svc := rfl
@[simp] theorem State.enterState_tw (s : State) (n : Nat) (x : SvcState) (r : Nat) : (s.enterState n x r).tw = s.tw := rfl
@[simp] theorem State.enterState_host (s : State) (n : Nat) (x : SvcState) (r : Nat) : (s.enterState n x r).host = s.host := rfl
@[simp] theorem State.enterState_power (s : State) (n : Nat) (x : SvcState) (r : Nat) : (s.enterState n x r).power = s.power := rfl
@[simp] theorem State.enterState_thermal (s : State) (n : Nat) (x : SvcState) (r : Nat) : (s.enterState n x r).thermal = s.thermal := rfl
@[simp] theorem State.enterState_flash (s : State) (n : Nat) (x : SvcState) (r : Nat) : (s.enterState n x r).flash = s.flash := rfl
@[simp] theorem State.enterState_journal (s : State) (n : Nat) (x : SvcState) (r : Nat) : (s.enterState n x r).journal = s.journal := rfl
@[simp] theorem State.enterState_rtc (s : State) (n : Nat) (x : SvcState) (r : Nat) : (s.enterState n x r).rtc = s.rtc := rfl
@[simp] theorem State.enterState_diag (s : State) (n : Nat) (x : SvcState) (r : Nat) : (s.enterState n x r).diag = s.diag := rfl
@[simp] theorem State.enterState_place (s : State) (n : Nat) (x : SvcState) (r : Nat) : (s.enterState n x r).place = s.place := rfl
@[simp] theorem State.enterState_lanes (s : State) (n : Nat) (x : SvcState) (r : Nat) : (s.enterState n x r).lanes = s.lanes := rfl
@[simp] theorem State.enterState_carriers (s : State) (n : Nat) (x : SvcState) (r : Nat) : (s.enterState n x r).carriers = s.carriers := rfl
@[simp] theorem State.enterState_ldpc (s : State) (n : Nat) (x : SvcState) (r : Nat) : (s.enterState n x r).ldpc = s.ldpc := rfl
@[simp] theorem State.enterState_map (s : State) (n : Nat) (x : SvcState) (r : Nat) : (s.enterState n x r).map = s.map := rfl
@[simp] theorem State.enterState_alerts (s : State) (n : Nat) (x : SvcState) (r : Nat) : (s.enterState n x r).alerts = s.alerts := rfl
@[simp] theorem State.enterState_rds (s : State) (n : Nat) (x : SvcState) (r : Nat) : (s.enterState n x r).rds = s.rds := rfl
@[simp] theorem State.enterState_streams (s : State) (n : Nat) (x : SvcState) (r : Nat) : (s.enterState n x r).streams = s.streams := rfl
@[simp] theorem State.enterState_units (s : State) (n : Nat) (x : SvcState) (r : Nat) : (s.enterState n x r).units = s.units := rfl
@[simp] theorem State.enterState_side (s : State) (n : Nat) (x : SvcState) (r : Nat) : (s.enterState n x r).side = s.side := rfl
@[simp] theorem State.enterState_outRings (s : State) (n : Nat) (x : SvcState) (r : Nat) : (s.enterState n x r).outRings = s.outRings := rfl
@[simp] theorem State.enterState_tags (s : State) (n : Nat) (x : SvcState) (r : Nat) : (s.enterState n x r).tags = s.tags := rfl
@[simp] theorem State.enterState_archive (s : State) (n : Nat) (x : SvcState) (r : Nat) : (s.enterState n x r).archive = s.archive := rfl
@[simp] theorem State.enterState_pkts (s : State) (n : Nat) (x : SvcState) (r : Nat) : (s.enterState n x r).pkts = s.pkts := rfl
@[simp] theorem State.enterState_audio (s : State) (n : Nat) (x : SvcState) (r : Nat) : (s.enterState n x r).audio = s.audio := rfl
@[simp] theorem State.enterState_trunk (s : State) (n : Nat) (x : SvcState) (r : Nat) : (s.enterState n x r).trunk = s.trunk := rfl
@[simp] theorem State.enterState_cal (s : State) (n : Nat) (x : SvcState) (r : Nat) : (s.enterState n x r).cal = s.cal := rfl
@[simp] theorem State.enterState_jtag (s : State) (n : Nat) (x : SvcState) (r : Nat) : (s.enterState n x r).jtag = s.jtag := rfl

@[simp] theorem State.modSlot_pending (s : State) (i : Nat) (f : ImgSlot → ImgSlot) : (s.modSlot i f).pending = s.pending := rfl
@[simp] theorem State.modSlot_out (s : State) (i : Nat) (f : ImgSlot → ImgSlot) : (s.modSlot i f).out = s.out := rfl
@[simp] theorem State.modSlot_freeCtr (s : State) (i : Nat) (f : ImgSlot → ImgSlot) : (s.modSlot i f).freeCtr = s.freeCtr := rfl
@[simp] theorem State.modSlot_time (s : State) (i : Nat) (f : ImgSlot → ImgSlot) : (s.modSlot i f).time = s.time := rfl
@[simp] theorem State.modSlot_refs (s : State) (i : Nat) (f : ImgSlot → ImgSlot) : (s.modSlot i f).refs = s.refs := rfl
@[simp] theorem State.modSlot_clk (s : State) (i : Nat) (f : ImgSlot → ImgSlot) : (s.modSlot i f).clk = s.clk := rfl
@[simp] theorem State.modSlot_acc (s : State) (i : Nat) (f : ImgSlot → ImgSlot) : (s.modSlot i f).acc = s.acc := rfl
@[simp] theorem State.modSlot_force (s : State) (i : Nat) (f : ImgSlot → ImgSlot) : (s.modSlot i f).force = s.force := rfl
@[simp] theorem State.modSlot_sched (s : State) (i : Nat) (f : ImgSlot → ImgSlot) : (s.modSlot i f).sched = s.sched := rfl
@[simp] theorem State.modSlot_rf (s : State) (i : Nat) (f : ImgSlot → ImgSlot) : (s.modSlot i f).rf = s.rf := rfl
@[simp] theorem State.modSlot_plan (s : State) (i : Nat) (f : ImgSlot → ImgSlot) : (s.modSlot i f).plan = s.plan := rfl
@[simp] theorem State.modSlot_coex (s : State) (i : Nat) (f : ImgSlot → ImgSlot) : (s.modSlot i f).coex = s.coex := rfl
@[simp] theorem State.modSlot_pPcie (s : State) (i : Nat) (f : ImgSlot → ImgSlot) : (s.modSlot i f).pPcie = s.pPcie := rfl
@[simp] theorem State.modSlot_pTw (s : State) (i : Nat) (f : ImgSlot → ImgSlot) : (s.modSlot i f).pTw = s.pTw := rfl
@[simp] theorem State.modSlot_pSvc (s : State) (i : Nat) (f : ImgSlot → ImgSlot) : (s.modSlot i f).pSvc = s.pSvc := rfl
@[simp] theorem State.modSlot_pTrunk (s : State) (i : Nat) (f : ImgSlot → ImgSlot) : (s.modSlot i f).pTrunk = s.pTrunk := rfl
@[simp] theorem State.modSlot_nextId (s : State) (i : Nat) (f : ImgSlot → ImgSlot) : (s.modSlot i f).nextId = s.nextId := rfl
@[simp] theorem State.modSlot_rings (s : State) (i : Nat) (f : ImgSlot → ImgSlot) : (s.modSlot i f).rings = s.rings := rfl
@[simp] theorem State.modSlot_busP (s : State) (i : Nat) (f : ImgSlot → ImgSlot) : (s.modSlot i f).busP = s.busP := rfl
@[simp] theorem State.modSlot_busT (s : State) (i : Nat) (f : ImgSlot → ImgSlot) : (s.modSlot i f).busT = s.busT := rfl
@[simp] theorem State.modSlot_scratch (s : State) (i : Nat) (f : ImgSlot → ImgSlot) : (s.modSlot i f).scratch = s.scratch := rfl
@[simp] theorem State.modSlot_pcie (s : State) (i : Nat) (f : ImgSlot → ImgSlot) : (s.modSlot i f).pcie = s.pcie := rfl
@[simp] theorem State.modSlot_svc (s : State) (i : Nat) (f : ImgSlot → ImgSlot) : (s.modSlot i f).svc = s.svc := rfl
@[simp] theorem State.modSlot_tw (s : State) (i : Nat) (f : ImgSlot → ImgSlot) : (s.modSlot i f).tw = s.tw := rfl
@[simp] theorem State.modSlot_host (s : State) (i : Nat) (f : ImgSlot → ImgSlot) : (s.modSlot i f).host = s.host := rfl
@[simp] theorem State.modSlot_power (s : State) (i : Nat) (f : ImgSlot → ImgSlot) : (s.modSlot i f).power = s.power := rfl
@[simp] theorem State.modSlot_thermal (s : State) (i : Nat) (f : ImgSlot → ImgSlot) : (s.modSlot i f).thermal = s.thermal := rfl
@[simp] theorem State.modSlot_journal (s : State) (i : Nat) (f : ImgSlot → ImgSlot) : (s.modSlot i f).journal = s.journal := rfl
@[simp] theorem State.modSlot_rtc (s : State) (i : Nat) (f : ImgSlot → ImgSlot) : (s.modSlot i f).rtc = s.rtc := rfl
@[simp] theorem State.modSlot_diag (s : State) (i : Nat) (f : ImgSlot → ImgSlot) : (s.modSlot i f).diag = s.diag := rfl
@[simp] theorem State.modSlot_services (s : State) (i : Nat) (f : ImgSlot → ImgSlot) : (s.modSlot i f).services = s.services := rfl
@[simp] theorem State.modSlot_place (s : State) (i : Nat) (f : ImgSlot → ImgSlot) : (s.modSlot i f).place = s.place := rfl
@[simp] theorem State.modSlot_lanes (s : State) (i : Nat) (f : ImgSlot → ImgSlot) : (s.modSlot i f).lanes = s.lanes := rfl
@[simp] theorem State.modSlot_carriers (s : State) (i : Nat) (f : ImgSlot → ImgSlot) : (s.modSlot i f).carriers = s.carriers := rfl
@[simp] theorem State.modSlot_ldpc (s : State) (i : Nat) (f : ImgSlot → ImgSlot) : (s.modSlot i f).ldpc = s.ldpc := rfl
@[simp] theorem State.modSlot_map (s : State) (i : Nat) (f : ImgSlot → ImgSlot) : (s.modSlot i f).map = s.map := rfl
@[simp] theorem State.modSlot_alerts (s : State) (i : Nat) (f : ImgSlot → ImgSlot) : (s.modSlot i f).alerts = s.alerts := rfl
@[simp] theorem State.modSlot_rds (s : State) (i : Nat) (f : ImgSlot → ImgSlot) : (s.modSlot i f).rds = s.rds := rfl
@[simp] theorem State.modSlot_streams (s : State) (i : Nat) (f : ImgSlot → ImgSlot) : (s.modSlot i f).streams = s.streams := rfl
@[simp] theorem State.modSlot_units (s : State) (i : Nat) (f : ImgSlot → ImgSlot) : (s.modSlot i f).units = s.units := rfl
@[simp] theorem State.modSlot_side (s : State) (i : Nat) (f : ImgSlot → ImgSlot) : (s.modSlot i f).side = s.side := rfl
@[simp] theorem State.modSlot_outRings (s : State) (i : Nat) (f : ImgSlot → ImgSlot) : (s.modSlot i f).outRings = s.outRings := rfl
@[simp] theorem State.modSlot_tags (s : State) (i : Nat) (f : ImgSlot → ImgSlot) : (s.modSlot i f).tags = s.tags := rfl
@[simp] theorem State.modSlot_archive (s : State) (i : Nat) (f : ImgSlot → ImgSlot) : (s.modSlot i f).archive = s.archive := rfl
@[simp] theorem State.modSlot_pkts (s : State) (i : Nat) (f : ImgSlot → ImgSlot) : (s.modSlot i f).pkts = s.pkts := rfl
@[simp] theorem State.modSlot_audio (s : State) (i : Nat) (f : ImgSlot → ImgSlot) : (s.modSlot i f).audio = s.audio := rfl
@[simp] theorem State.modSlot_trunk (s : State) (i : Nat) (f : ImgSlot → ImgSlot) : (s.modSlot i f).trunk = s.trunk := rfl
@[simp] theorem State.modSlot_cal (s : State) (i : Nat) (f : ImgSlot → ImgSlot) : (s.modSlot i f).cal = s.cal := rfl
@[simp] theorem State.modSlot_jtag (s : State) (i : Nat) (f : ImgSlot → ImgSlot) : (s.modSlot i f).jtag = s.jtag := rfl

@[simp] theorem State.modRef_pending (s : State) (c : Nat) (f : RefState → RefState) : (s.modRef c f).pending = s.pending := rfl
@[simp] theorem State.modRef_out (s : State) (c : Nat) (f : RefState → RefState) : (s.modRef c f).out = s.out := rfl
@[simp] theorem State.modRef_freeCtr (s : State) (c : Nat) (f : RefState → RefState) : (s.modRef c f).freeCtr = s.freeCtr := rfl
@[simp] theorem State.modRef_time (s : State) (c : Nat) (f : RefState → RefState) : (s.modRef c f).time = s.time := rfl
@[simp] theorem State.modRef_clk (s : State) (c : Nat) (f : RefState → RefState) : (s.modRef c f).clk = s.clk := rfl
@[simp] theorem State.modRef_acc (s : State) (c : Nat) (f : RefState → RefState) : (s.modRef c f).acc = s.acc := rfl
@[simp] theorem State.modRef_force (s : State) (c : Nat) (f : RefState → RefState) : (s.modRef c f).force = s.force := rfl
@[simp] theorem State.modRef_sched (s : State) (c : Nat) (f : RefState → RefState) : (s.modRef c f).sched = s.sched := rfl
@[simp] theorem State.modRef_rf (s : State) (c : Nat) (f : RefState → RefState) : (s.modRef c f).rf = s.rf := rfl
@[simp] theorem State.modRef_plan (s : State) (c : Nat) (f : RefState → RefState) : (s.modRef c f).plan = s.plan := rfl
@[simp] theorem State.modRef_coex (s : State) (c : Nat) (f : RefState → RefState) : (s.modRef c f).coex = s.coex := rfl
@[simp] theorem State.modRef_pPcie (s : State) (c : Nat) (f : RefState → RefState) : (s.modRef c f).pPcie = s.pPcie := rfl
@[simp] theorem State.modRef_pTw (s : State) (c : Nat) (f : RefState → RefState) : (s.modRef c f).pTw = s.pTw := rfl
@[simp] theorem State.modRef_pSvc (s : State) (c : Nat) (f : RefState → RefState) : (s.modRef c f).pSvc = s.pSvc := rfl
@[simp] theorem State.modRef_pTrunk (s : State) (c : Nat) (f : RefState → RefState) : (s.modRef c f).pTrunk = s.pTrunk := rfl
@[simp] theorem State.modRef_nextId (s : State) (c : Nat) (f : RefState → RefState) : (s.modRef c f).nextId = s.nextId := rfl
@[simp] theorem State.modRef_rings (s : State) (c : Nat) (f : RefState → RefState) : (s.modRef c f).rings = s.rings := rfl
@[simp] theorem State.modRef_busP (s : State) (c : Nat) (f : RefState → RefState) : (s.modRef c f).busP = s.busP := rfl
@[simp] theorem State.modRef_busT (s : State) (c : Nat) (f : RefState → RefState) : (s.modRef c f).busT = s.busT := rfl
@[simp] theorem State.modRef_scratch (s : State) (c : Nat) (f : RefState → RefState) : (s.modRef c f).scratch = s.scratch := rfl
@[simp] theorem State.modRef_pcie (s : State) (c : Nat) (f : RefState → RefState) : (s.modRef c f).pcie = s.pcie := rfl
@[simp] theorem State.modRef_svc (s : State) (c : Nat) (f : RefState → RefState) : (s.modRef c f).svc = s.svc := rfl
@[simp] theorem State.modRef_tw (s : State) (c : Nat) (f : RefState → RefState) : (s.modRef c f).tw = s.tw := rfl
@[simp] theorem State.modRef_host (s : State) (c : Nat) (f : RefState → RefState) : (s.modRef c f).host = s.host := rfl
@[simp] theorem State.modRef_power (s : State) (c : Nat) (f : RefState → RefState) : (s.modRef c f).power = s.power := rfl
@[simp] theorem State.modRef_thermal (s : State) (c : Nat) (f : RefState → RefState) : (s.modRef c f).thermal = s.thermal := rfl
@[simp] theorem State.modRef_flash (s : State) (c : Nat) (f : RefState → RefState) : (s.modRef c f).flash = s.flash := rfl
@[simp] theorem State.modRef_journal (s : State) (c : Nat) (f : RefState → RefState) : (s.modRef c f).journal = s.journal := rfl
@[simp] theorem State.modRef_rtc (s : State) (c : Nat) (f : RefState → RefState) : (s.modRef c f).rtc = s.rtc := rfl
@[simp] theorem State.modRef_diag (s : State) (c : Nat) (f : RefState → RefState) : (s.modRef c f).diag = s.diag := rfl
@[simp] theorem State.modRef_services (s : State) (c : Nat) (f : RefState → RefState) : (s.modRef c f).services = s.services := rfl
@[simp] theorem State.modRef_place (s : State) (c : Nat) (f : RefState → RefState) : (s.modRef c f).place = s.place := rfl
@[simp] theorem State.modRef_lanes (s : State) (c : Nat) (f : RefState → RefState) : (s.modRef c f).lanes = s.lanes := rfl
@[simp] theorem State.modRef_carriers (s : State) (c : Nat) (f : RefState → RefState) : (s.modRef c f).carriers = s.carriers := rfl
@[simp] theorem State.modRef_ldpc (s : State) (c : Nat) (f : RefState → RefState) : (s.modRef c f).ldpc = s.ldpc := rfl
@[simp] theorem State.modRef_map (s : State) (c : Nat) (f : RefState → RefState) : (s.modRef c f).map = s.map := rfl
@[simp] theorem State.modRef_alerts (s : State) (c : Nat) (f : RefState → RefState) : (s.modRef c f).alerts = s.alerts := rfl
@[simp] theorem State.modRef_rds (s : State) (c : Nat) (f : RefState → RefState) : (s.modRef c f).rds = s.rds := rfl
@[simp] theorem State.modRef_streams (s : State) (c : Nat) (f : RefState → RefState) : (s.modRef c f).streams = s.streams := rfl
@[simp] theorem State.modRef_units (s : State) (c : Nat) (f : RefState → RefState) : (s.modRef c f).units = s.units := rfl
@[simp] theorem State.modRef_side (s : State) (c : Nat) (f : RefState → RefState) : (s.modRef c f).side = s.side := rfl
@[simp] theorem State.modRef_outRings (s : State) (c : Nat) (f : RefState → RefState) : (s.modRef c f).outRings = s.outRings := rfl
@[simp] theorem State.modRef_tags (s : State) (c : Nat) (f : RefState → RefState) : (s.modRef c f).tags = s.tags := rfl
@[simp] theorem State.modRef_archive (s : State) (c : Nat) (f : RefState → RefState) : (s.modRef c f).archive = s.archive := rfl
@[simp] theorem State.modRef_pkts (s : State) (c : Nat) (f : RefState → RefState) : (s.modRef c f).pkts = s.pkts := rfl
@[simp] theorem State.modRef_audio (s : State) (c : Nat) (f : RefState → RefState) : (s.modRef c f).audio = s.audio := rfl
@[simp] theorem State.modRef_trunk (s : State) (c : Nat) (f : RefState → RefState) : (s.modRef c f).trunk = s.trunk := rfl
@[simp] theorem State.modRef_cal (s : State) (c : Nat) (f : RefState → RefState) : (s.modRef c f).cal = s.cal := rfl
@[simp] theorem State.modRef_jtag (s : State) (c : Nat) (f : RefState → RefState) : (s.modRef c f).jtag = s.jtag := rfl

@[simp] theorem State.flagStreams_pending (s : State) (f : W16) (fl : W32) : (s.flagStreams f fl).pending = s.pending := rfl
@[simp] theorem State.flagStreams_out (s : State) (f : W16) (fl : W32) : (s.flagStreams f fl).out = s.out := rfl
@[simp] theorem State.flagStreams_freeCtr (s : State) (f : W16) (fl : W32) : (s.flagStreams f fl).freeCtr = s.freeCtr := rfl
@[simp] theorem State.flagStreams_time (s : State) (f : W16) (fl : W32) : (s.flagStreams f fl).time = s.time := rfl
@[simp] theorem State.flagStreams_refs (s : State) (f : W16) (fl : W32) : (s.flagStreams f fl).refs = s.refs := rfl
@[simp] theorem State.flagStreams_clk (s : State) (f : W16) (fl : W32) : (s.flagStreams f fl).clk = s.clk := rfl
@[simp] theorem State.flagStreams_acc (s : State) (f : W16) (fl : W32) : (s.flagStreams f fl).acc = s.acc := rfl
@[simp] theorem State.flagStreams_force (s : State) (f : W16) (fl : W32) : (s.flagStreams f fl).force = s.force := rfl
@[simp] theorem State.flagStreams_sched (s : State) (f : W16) (fl : W32) : (s.flagStreams f fl).sched = s.sched := rfl
@[simp] theorem State.flagStreams_rf (s : State) (f : W16) (fl : W32) : (s.flagStreams f fl).rf = s.rf := rfl
@[simp] theorem State.flagStreams_plan (s : State) (f : W16) (fl : W32) : (s.flagStreams f fl).plan = s.plan := rfl
@[simp] theorem State.flagStreams_coex (s : State) (f : W16) (fl : W32) : (s.flagStreams f fl).coex = s.coex := rfl
@[simp] theorem State.flagStreams_pPcie (s : State) (f : W16) (fl : W32) : (s.flagStreams f fl).pPcie = s.pPcie := rfl
@[simp] theorem State.flagStreams_pTw (s : State) (f : W16) (fl : W32) : (s.flagStreams f fl).pTw = s.pTw := rfl
@[simp] theorem State.flagStreams_pSvc (s : State) (f : W16) (fl : W32) : (s.flagStreams f fl).pSvc = s.pSvc := rfl
@[simp] theorem State.flagStreams_pTrunk (s : State) (f : W16) (fl : W32) : (s.flagStreams f fl).pTrunk = s.pTrunk := rfl
@[simp] theorem State.flagStreams_nextId (s : State) (f : W16) (fl : W32) : (s.flagStreams f fl).nextId = s.nextId := rfl
@[simp] theorem State.flagStreams_rings (s : State) (f : W16) (fl : W32) : (s.flagStreams f fl).rings = s.rings := rfl
@[simp] theorem State.flagStreams_busP (s : State) (f : W16) (fl : W32) : (s.flagStreams f fl).busP = s.busP := rfl
@[simp] theorem State.flagStreams_busT (s : State) (f : W16) (fl : W32) : (s.flagStreams f fl).busT = s.busT := rfl
@[simp] theorem State.flagStreams_scratch (s : State) (f : W16) (fl : W32) : (s.flagStreams f fl).scratch = s.scratch := rfl
@[simp] theorem State.flagStreams_pcie (s : State) (f : W16) (fl : W32) : (s.flagStreams f fl).pcie = s.pcie := rfl
@[simp] theorem State.flagStreams_svc (s : State) (f : W16) (fl : W32) : (s.flagStreams f fl).svc = s.svc := rfl
@[simp] theorem State.flagStreams_tw (s : State) (f : W16) (fl : W32) : (s.flagStreams f fl).tw = s.tw := rfl
@[simp] theorem State.flagStreams_host (s : State) (f : W16) (fl : W32) : (s.flagStreams f fl).host = s.host := rfl
@[simp] theorem State.flagStreams_power (s : State) (f : W16) (fl : W32) : (s.flagStreams f fl).power = s.power := rfl
@[simp] theorem State.flagStreams_thermal (s : State) (f : W16) (fl : W32) : (s.flagStreams f fl).thermal = s.thermal := rfl
@[simp] theorem State.flagStreams_flash (s : State) (f : W16) (fl : W32) : (s.flagStreams f fl).flash = s.flash := rfl
@[simp] theorem State.flagStreams_journal (s : State) (f : W16) (fl : W32) : (s.flagStreams f fl).journal = s.journal := rfl
@[simp] theorem State.flagStreams_rtc (s : State) (f : W16) (fl : W32) : (s.flagStreams f fl).rtc = s.rtc := rfl
@[simp] theorem State.flagStreams_diag (s : State) (f : W16) (fl : W32) : (s.flagStreams f fl).diag = s.diag := rfl
@[simp] theorem State.flagStreams_services (s : State) (f : W16) (fl : W32) : (s.flagStreams f fl).services = s.services := rfl
@[simp] theorem State.flagStreams_place (s : State) (f : W16) (fl : W32) : (s.flagStreams f fl).place = s.place := rfl
@[simp] theorem State.flagStreams_lanes (s : State) (f : W16) (fl : W32) : (s.flagStreams f fl).lanes = s.lanes := rfl
@[simp] theorem State.flagStreams_carriers (s : State) (f : W16) (fl : W32) : (s.flagStreams f fl).carriers = s.carriers := rfl
@[simp] theorem State.flagStreams_ldpc (s : State) (f : W16) (fl : W32) : (s.flagStreams f fl).ldpc = s.ldpc := rfl
@[simp] theorem State.flagStreams_map (s : State) (f : W16) (fl : W32) : (s.flagStreams f fl).map = s.map := rfl
@[simp] theorem State.flagStreams_alerts (s : State) (f : W16) (fl : W32) : (s.flagStreams f fl).alerts = s.alerts := rfl
@[simp] theorem State.flagStreams_rds (s : State) (f : W16) (fl : W32) : (s.flagStreams f fl).rds = s.rds := rfl
@[simp] theorem State.flagStreams_units (s : State) (f : W16) (fl : W32) : (s.flagStreams f fl).units = s.units := rfl
@[simp] theorem State.flagStreams_side (s : State) (f : W16) (fl : W32) : (s.flagStreams f fl).side = s.side := rfl
@[simp] theorem State.flagStreams_outRings (s : State) (f : W16) (fl : W32) : (s.flagStreams f fl).outRings = s.outRings := rfl
@[simp] theorem State.flagStreams_tags (s : State) (f : W16) (fl : W32) : (s.flagStreams f fl).tags = s.tags := rfl
@[simp] theorem State.flagStreams_archive (s : State) (f : W16) (fl : W32) : (s.flagStreams f fl).archive = s.archive := rfl
@[simp] theorem State.flagStreams_pkts (s : State) (f : W16) (fl : W32) : (s.flagStreams f fl).pkts = s.pkts := rfl
@[simp] theorem State.flagStreams_audio (s : State) (f : W16) (fl : W32) : (s.flagStreams f fl).audio = s.audio := rfl
@[simp] theorem State.flagStreams_trunk (s : State) (f : W16) (fl : W32) : (s.flagStreams f fl).trunk = s.trunk := rfl
@[simp] theorem State.flagStreams_cal (s : State) (f : W16) (fl : W32) : (s.flagStreams f fl).cal = s.cal := rfl
@[simp] theorem State.flagStreams_jtag (s : State) (f : W16) (fl : W32) : (s.flagStreams f fl).jtag = s.jtag := rfl

/-! ### The markers of a journal group -/

@[simp] theorem State.markDirty_pending (s : State) (g : Option Nat) : (s.markDirty g).pending = s.pending := by
  unfold State.markDirty; split
  · rfl
  · split <;> rfl
@[simp] theorem State.markDirty_out (s : State) (g : Option Nat) : (s.markDirty g).out = s.out := by
  unfold State.markDirty; split
  · rfl
  · split <;> rfl
@[simp] theorem State.markDirty_freeCtr (s : State) (g : Option Nat) : (s.markDirty g).freeCtr = s.freeCtr := by
  unfold State.markDirty; split
  · rfl
  · split <;> rfl
@[simp] theorem State.markDirty_time (s : State) (g : Option Nat) : (s.markDirty g).time = s.time := by
  unfold State.markDirty; split
  · rfl
  · split <;> rfl
@[simp] theorem State.markDirty_refs (s : State) (g : Option Nat) : (s.markDirty g).refs = s.refs := by
  unfold State.markDirty; split
  · rfl
  · split <;> rfl
@[simp] theorem State.markDirty_clk (s : State) (g : Option Nat) : (s.markDirty g).clk = s.clk := by
  unfold State.markDirty; split
  · rfl
  · split <;> rfl
@[simp] theorem State.markDirty_acc (s : State) (g : Option Nat) : (s.markDirty g).acc = s.acc := by
  unfold State.markDirty; split
  · rfl
  · split <;> rfl
@[simp] theorem State.markDirty_force (s : State) (g : Option Nat) : (s.markDirty g).force = s.force := by
  unfold State.markDirty; split
  · rfl
  · split <;> rfl
@[simp] theorem State.markDirty_sched (s : State) (g : Option Nat) : (s.markDirty g).sched = s.sched := by
  unfold State.markDirty; split
  · rfl
  · split <;> rfl
@[simp] theorem State.markDirty_rf (s : State) (g : Option Nat) : (s.markDirty g).rf = s.rf := by
  unfold State.markDirty; split
  · rfl
  · split <;> rfl
@[simp] theorem State.markDirty_plan (s : State) (g : Option Nat) : (s.markDirty g).plan = s.plan := by
  unfold State.markDirty; split
  · rfl
  · split <;> rfl
@[simp] theorem State.markDirty_coex (s : State) (g : Option Nat) : (s.markDirty g).coex = s.coex := by
  unfold State.markDirty; split
  · rfl
  · split <;> rfl
@[simp] theorem State.markDirty_pPcie (s : State) (g : Option Nat) : (s.markDirty g).pPcie = s.pPcie := by
  unfold State.markDirty; split
  · rfl
  · split <;> rfl
@[simp] theorem State.markDirty_pTw (s : State) (g : Option Nat) : (s.markDirty g).pTw = s.pTw := by
  unfold State.markDirty; split
  · rfl
  · split <;> rfl
@[simp] theorem State.markDirty_pSvc (s : State) (g : Option Nat) : (s.markDirty g).pSvc = s.pSvc := by
  unfold State.markDirty; split
  · rfl
  · split <;> rfl
@[simp] theorem State.markDirty_pTrunk (s : State) (g : Option Nat) : (s.markDirty g).pTrunk = s.pTrunk := by
  unfold State.markDirty; split
  · rfl
  · split <;> rfl
@[simp] theorem State.markDirty_nextId (s : State) (g : Option Nat) : (s.markDirty g).nextId = s.nextId := by
  unfold State.markDirty; split
  · rfl
  · split <;> rfl
@[simp] theorem State.markDirty_rings (s : State) (g : Option Nat) : (s.markDirty g).rings = s.rings := by
  unfold State.markDirty; split
  · rfl
  · split <;> rfl
@[simp] theorem State.markDirty_busP (s : State) (g : Option Nat) : (s.markDirty g).busP = s.busP := by
  unfold State.markDirty; split
  · rfl
  · split <;> rfl
@[simp] theorem State.markDirty_busT (s : State) (g : Option Nat) : (s.markDirty g).busT = s.busT := by
  unfold State.markDirty; split
  · rfl
  · split <;> rfl
@[simp] theorem State.markDirty_scratch (s : State) (g : Option Nat) : (s.markDirty g).scratch = s.scratch := by
  unfold State.markDirty; split
  · rfl
  · split <;> rfl
@[simp] theorem State.markDirty_pcie (s : State) (g : Option Nat) : (s.markDirty g).pcie = s.pcie := by
  unfold State.markDirty; split
  · rfl
  · split <;> rfl
@[simp] theorem State.markDirty_svc (s : State) (g : Option Nat) : (s.markDirty g).svc = s.svc := by
  unfold State.markDirty; split
  · rfl
  · split <;> rfl
@[simp] theorem State.markDirty_tw (s : State) (g : Option Nat) : (s.markDirty g).tw = s.tw := by
  unfold State.markDirty; split
  · rfl
  · split <;> rfl
@[simp] theorem State.markDirty_host (s : State) (g : Option Nat) : (s.markDirty g).host = s.host := by
  unfold State.markDirty; split
  · rfl
  · split <;> rfl
@[simp] theorem State.markDirty_power (s : State) (g : Option Nat) : (s.markDirty g).power = s.power := by
  unfold State.markDirty; split
  · rfl
  · split <;> rfl
@[simp] theorem State.markDirty_thermal (s : State) (g : Option Nat) : (s.markDirty g).thermal = s.thermal := by
  unfold State.markDirty; split
  · rfl
  · split <;> rfl
@[simp] theorem State.markDirty_flash (s : State) (g : Option Nat) : (s.markDirty g).flash = s.flash := by
  unfold State.markDirty; split
  · rfl
  · split <;> rfl
@[simp] theorem State.markDirty_rtc (s : State) (g : Option Nat) : (s.markDirty g).rtc = s.rtc := by
  unfold State.markDirty; split
  · rfl
  · split <;> rfl
@[simp] theorem State.markDirty_diag (s : State) (g : Option Nat) : (s.markDirty g).diag = s.diag := by
  unfold State.markDirty; split
  · rfl
  · split <;> rfl
@[simp] theorem State.markDirty_services (s : State) (g : Option Nat) : (s.markDirty g).services = s.services := by
  unfold State.markDirty; split
  · rfl
  · split <;> rfl
@[simp] theorem State.markDirty_place (s : State) (g : Option Nat) : (s.markDirty g).place = s.place := by
  unfold State.markDirty; split
  · rfl
  · split <;> rfl
@[simp] theorem State.markDirty_lanes (s : State) (g : Option Nat) : (s.markDirty g).lanes = s.lanes := by
  unfold State.markDirty; split
  · rfl
  · split <;> rfl
@[simp] theorem State.markDirty_carriers (s : State) (g : Option Nat) : (s.markDirty g).carriers = s.carriers := by
  unfold State.markDirty; split
  · rfl
  · split <;> rfl
@[simp] theorem State.markDirty_ldpc (s : State) (g : Option Nat) : (s.markDirty g).ldpc = s.ldpc := by
  unfold State.markDirty; split
  · rfl
  · split <;> rfl
@[simp] theorem State.markDirty_map (s : State) (g : Option Nat) : (s.markDirty g).map = s.map := by
  unfold State.markDirty; split
  · rfl
  · split <;> rfl
@[simp] theorem State.markDirty_alerts (s : State) (g : Option Nat) : (s.markDirty g).alerts = s.alerts := by
  unfold State.markDirty; split
  · rfl
  · split <;> rfl
@[simp] theorem State.markDirty_rds (s : State) (g : Option Nat) : (s.markDirty g).rds = s.rds := by
  unfold State.markDirty; split
  · rfl
  · split <;> rfl
@[simp] theorem State.markDirty_streams (s : State) (g : Option Nat) : (s.markDirty g).streams = s.streams := by
  unfold State.markDirty; split
  · rfl
  · split <;> rfl
@[simp] theorem State.markDirty_units (s : State) (g : Option Nat) : (s.markDirty g).units = s.units := by
  unfold State.markDirty; split
  · rfl
  · split <;> rfl
@[simp] theorem State.markDirty_side (s : State) (g : Option Nat) : (s.markDirty g).side = s.side := by
  unfold State.markDirty; split
  · rfl
  · split <;> rfl
@[simp] theorem State.markDirty_outRings (s : State) (g : Option Nat) : (s.markDirty g).outRings = s.outRings := by
  unfold State.markDirty; split
  · rfl
  · split <;> rfl
@[simp] theorem State.markDirty_tags (s : State) (g : Option Nat) : (s.markDirty g).tags = s.tags := by
  unfold State.markDirty; split
  · rfl
  · split <;> rfl
@[simp] theorem State.markDirty_archive (s : State) (g : Option Nat) : (s.markDirty g).archive = s.archive := by
  unfold State.markDirty; split
  · rfl
  · split <;> rfl
@[simp] theorem State.markDirty_pkts (s : State) (g : Option Nat) : (s.markDirty g).pkts = s.pkts := by
  unfold State.markDirty; split
  · rfl
  · split <;> rfl
@[simp] theorem State.markDirty_audio (s : State) (g : Option Nat) : (s.markDirty g).audio = s.audio := by
  unfold State.markDirty; split
  · rfl
  · split <;> rfl
@[simp] theorem State.markDirty_trunk (s : State) (g : Option Nat) : (s.markDirty g).trunk = s.trunk := by
  unfold State.markDirty; split
  · rfl
  · split <;> rfl
@[simp] theorem State.markDirty_cal (s : State) (g : Option Nat) : (s.markDirty g).cal = s.cal := by
  unfold State.markDirty; split
  · rfl
  · split <;> rfl
@[simp] theorem State.markDirty_jtag (s : State) (g : Option Nat) : (s.markDirty g).jtag = s.jtag := by
  unfold State.markDirty; split
  · rfl
  · split <;> rfl

/-! ### What an update sets -/

@[simp] theorem State.emit_out (s : State) (o : Out) : (s.emit o).out = s.out ++ [o] := rfl
@[simp] theorem State.hostWrite_host (s : State) (a : Nat) (bs : List Byte) :
    (s.hostWrite a bs).host = Memory.writeN ramDefault s.host a bs := rfl
@[simp] theorem State.setPort_port (s : State) (t : Transport) (p : Port) : (s.setPort t p).port t = p := by cases t <;> rfl
@[simp] theorem State.setBus_bus (s : State) (b : Bus) (r : BusRegs) : (s.setBus b r).bus b = r := by cases b <;> rfl
@[simp] theorem State.advance_port (s : State) (n : Nat) (t : Transport) : (s.advance n).port t = s.port t := by cases t <;> rfl
@[simp] theorem State.advance_bus (s : State) (n : Nat) (b : Bus) : (s.advance n).bus b = s.bus b := by cases b <;> rfl
@[simp] theorem State.advance_svc? (s : State) (n : Nat) (f : W16) : (s.advance n).svc? f = s.svc? f := rfl
@[simp] theorem State.advance_boundary (s : State) (n : Nat) : (s.advance n).time.boundary = s.time.boundary := rfl
@[simp] theorem State.advance_serves (s : State) (n : Nat) (t : Transport) : (s.advance n).serves t = s.serves t := rfl
@[simp] theorem State.advance_role (s : State) (n : Nat) : (s.advance n).role = s.role := rfl
@[simp] theorem State.free_2 (s : State) : s.free.2 = Config.freeValue s.freeCtr := rfl
@[simp] theorem State.free_freeCtr (s : State) : s.free.1.freeCtr = s.freeCtr + 1 := rfl

/-- Time does not pass the end of the tick in progress, and never runs back (log entry 8). -/
theorem State.advance_now (s : State) (n : Nat) (hd : s.now < s.time.boundary) (hb : s.time.boundary ≤ 2 ^ 64) :
    (s.advance n).now = min (s.now + n) (s.time.boundary - 1) := by
  simp only [State.advance, State.now] at *
  simp only [BitVec.toNat_ofNat]
  rw [Nat.mod_eq_of_lt] <;> omega

/-- A parameter in range passes check 7. -/
theorem State.refuseIf_false (s : State) (c : Bool) (st : Status) (k : State × Answer) (h : c = false) :
    s.refuseIf c st k = k := by subst h; rfl
/-- A parameter out of range is refused. -/
theorem State.refuseIf_true (s : State) (c : Bool) (st : Status) (k : State × Answer) (h : c = true) :
    s.refuseIf c st k = refuse s st := by subst h; rfl

end Sys2Proof.Machine
end

