-- ==== Sys2Proof/Tests/Slice0.lean ====
section
/-! SUPPORT. Tests: ill-formed terms are refused, packets and computations of the spec's own examples, and a witness for the
hypotheses of every statement. -/

namespace Sys2Proof.Tests

open Sys2Proof Sys2Proof.Machine

-- One theorem after another: many long kernel checks at once would hold a thread each.
set_option Elab.async false

/-! ### The states that the tests run on -/

/-- A device that serves in a mode. -/
def dev (m : Mode) : State := { State.reset with
  power := { State.reset.power with ready := true, ioUp := true, mode := m }
  rtc := { State.reset.rtc with locked := false } }

/-- A command packet of the service port that names no slot. -/
def cmd : CmdHdr := ⟨.service, false, 0xFFFF#16, 7#16, false, 0x12345678#32, 0⟩

/-- A command packet of the PCIe mailbox. -/
def cmdP : CmdHdr := { cmd with tr := .pcie }

/-- A command packet that names slot 3 with incarnation 7. -/
def cmd3 : CmdHdr := { cmd with slot := 0x0703#16 }

/-- FM at 98.5 MHz, with PCM to ring 0. -/
def fmAttrs : AttrBlock := ⟨0x2000_0000_0001_80C4#64, 4#8, 0#8, 0#8, 0#8, 0#8, 0#8, 0#8, 0#8, 0#8, 0#8, [⟨1#8, 0#8, 0xFF#8, 0#8, 0#8⟩]⟩

/-- A service in slot 3 with incarnation 7. -/
def svc3 : Service := newService 3 7 .placed false 0 fmAttrs 0#64

/-- A device with that service. -/
def devS (m : Mode) : State := { dev m with services := [svc3] }

/-- A device in head or mast role with its link in a state. -/
def devT (role : Nat) (m : Mode) (st : LinkState) : State := { dev m with
  acc := { Settings.default with trunk := Settings.default.trunk.set 0 (.num role) }
  force := { Settings.default with trunk := Settings.default.trunk.set 0 (.num role) }
  trunk := { TrunkSt.reset with state := st } }

/-- The items of one number of `n` bytes. -/
def num (i n v : Nat) : Item := ⟨BitVec.ofNat 8 i, le n v⟩

/-! ### Witnesses: every hypothesis of a statement is met somewhere -/

/-- A command of no slot is taken. -/
theorem witness_SystemQueriesAnswer :
    Taken (gateAll 0x0001) cmd (dev .serve) ∧ Taken (gateAll 0x0003) cmd (dev .dormant) ∧ Taken (gateAll 0x0103) cmd (dev .relay) ∧
    Taken (gateAll 0x0105) cmd (dev .maintain) ∧ Taken (gateAll 0x0F01) cmd (dev .survey) ∧ Taken (gateAll 0x0F02) cmdP (dev .serve) := by
  unfold Taken; and_intros <;> decide +kernel

theorem witness_SystemSettingsTakeForceLater :
    (Taken (gateAll 0x0004) cmd (devT 1 .serve .off) ∧ (3#8).toNat ≤ 3 ∧ (devT 1 .serve .off).role = 1) ∧
    (Taken ⟨0x0002, .none, allModes, .pcieMailbox⟩ cmdP (dev .serve) ∧
      applyItems tbl143 (fun _ => true) (dev .serve).acc.cmdRing [num 1 4 0] = some ((dev .serve).acc.cmdRing) ∧
      cmdRingIncomplete (dev .serve).acc.cmdRing = false ∧ (dev .serve).acc.cmdRing.nat 1 = 0 ∧
      (dev .serve).force.cmdRing.nat 1 = 0 ∧ (dev .serve).acc.cmdRing.nat 4 = 0 ∧ (dev .serve).force.cmdRing.nat 4 = 0) ∧
    (Taken (gateAll 0x0102) cmd (dev .serve) ∧ 1 ≤ (1#32).toNat ∧ (600000#32).toNat ≤ 600000 ∧ (dev .serve).power.mode ≠ .dormant) ∧
    (Taken (gateAll 0x0102) cmd (dev .dormant) ∧ (dev .dormant).power.change = none ∧ (dev .dormant).role = 0 ∧
      (dev .dormant).power.sub ≠ subForBudget 1 ∧ (dev .dormant).acc.wakeBudget ≠ 1#32) ∧
    Taken (gateAll 0x0D09) cmd (dev .serve) ∧
    (Taken ⟨0x0D07, .none, [.dormant, .maintain], .none⟩ cmd (devT 1 .maintain .off) ∧ (devT 1 .maintain .off).nvOff = false ∧
      groupCopy 0 Settings.default (devT 1 .maintain .off).acc ≠ (devT 1 .maintain .off).acc) := by
  unfold Taken; and_intros <;> decide +kernel

/-- A device with a change of mode under way. -/
def devChange : State := { dev .serve with power := { (dev .serve).power with change := some ⟨.dormant, .warm, 0, 0, true⟩ } }

theorem witness_ModeSetAndResetAnswer :
    (Taken (gateAll 0x0101) cmd (dev .dormant) ∧ modeOf 3 = some .serve ∧ Mode.serve ≠ (dev .dormant).power.mode ∧
      (dev .dormant).role ≠ 1 ∧ (dev .dormant).power.segFailed = false ∧ (dev .dormant).inTransition = false ∧
      (dev .dormant).thermal.level = 0) ∧
    (Taken (gateAll 0x0101) cmd (dev .survey) ∧ modeOf 2 = some (dev .survey).power.mode ∧ (dev .survey).inTransition = false ∧
      (dev .survey).role ≠ 1 ∧ (dev .survey).power.segFailed = false) ∧
    (Taken (gateAll 0x0101) cmd (devT 1 .dormant .off) ∧ (devT 1 .dormant .off).role = 1) ∧
    (Taken (gateAll 0x0101) cmd (dev .dormant) ∧ modeOf 4 = some .relay ∧ (dev .dormant).role ≠ 1) ∧
    (Taken (gateAll 0x0101) cmd devChange ∧ devChange.power.segFailed = false ∧ devChange.inTransition = true) ∧
    Taken (gateAll 0x0104) cmd (dev .serve) := by
  unfold Taken; and_intros <;> decide +kernel

/-- A device whose shadow copy holds the key of an RDS station. -/
def devShadow : State := { dev .serve with map := { MapSt.reset with
  shadow := ⟨[blankEntry 0x1000_E100_0000_1234#64 0x2000_0000_0001_80C4#64 98500 0 0#16 0#16], [], [], []⟩ } }

/-- The same station by its key 0x1. -/
def rdsAttrs : AttrBlock := { fmAttrs with key := 0x1000_E100_0000_1234#64 }

theorem witness_ServicesComeAndGo :
    (Taken (gateNotRelay 0x0201) cmd (dev .serve) ∧ (dev .serve).attrsOk (cleanAttrs fmAttrs) = true ∧
      (dev .serve).services = [] ∧ (dev .serve).portsBusy (cleanAttrs fmAttrs) none = false ∧
      (dev .serve).freeSlot.isSome = true ∧ identityKey (cleanAttrs fmAttrs).key = false) ∧
    (Taken (gateNotRelay 0x0201) cmd devShadow ∧ devShadow.attrsOk (cleanAttrs rdsAttrs) = true ∧ devShadow.services = [] ∧
      devShadow.portsBusy (cleanAttrs rdsAttrs) none = false ∧ devShadow.freeSlot.isSome = true ∧
      identityKey (cleanAttrs rdsAttrs).key = true ∧ (devShadow.mapEntry (cleanAttrs rdsAttrs).key).isNone = true ∧
      (devShadow.shadowEntry (cleanAttrs rdsAttrs).key).isSome = true) ∧
    (Taken (gateNotRelay 0x0201) cmd (devS .serve) ∧ (devS .serve).attrsOk (cleanAttrs fmAttrs) = true ∧
      ((devS .serve).services.find? (fun v => v.acc.attrs.key == (cleanAttrs fmAttrs).key)).isSome = true) ∧
    (Taken ⟨0x0203, .service, notRelay, .none⟩ cmd3 (devS .serve) ∧ (devS .serve).svc? cmd3.slot = some svc3 ∧
      (cleanAttrs fmAttrs).key = svc3.acc.attrs.key ∧ svc3.bindBusy (cleanAttrs fmAttrs) = false ∧
      (devS .serve).portsBusy { cleanAttrs fmAttrs with bindings := [] } (some 3) = false) ∧
    Taken ⟨0x0202, .service, notRelay, .none⟩ cmd3 (devS .serve) ∧
    ((dev .serve).serves cmd3.tr = true ∧ cmd3.slot ≠ noSlot ∧ ((dev .serve).svc? cmd3.slot).isNone = true) := by
  unfold Taken; and_intros <;> decide +kernel

/-- A device whose published map holds a station, with link set 63 of the host and 62 learned. -/
def devMap : State := { devS .serve with
  force := { Settings.default with links := [⟨63, [0x1000_E100_0000_1234#64, 0x1000_E100_0000_1235#64]⟩] }
  acc := { Settings.default with links := [⟨63, [0x1000_E100_0000_1234#64, 0x1000_E100_0000_1235#64]⟩] }
  map := { MapSt.reset with
    published := ⟨[blankEntry 0x1000_E100_0000_1234#64 0x2000_0000_0001_80C4#64 98500 0 0#16 0#16], [], [⟨62, [], 0#64⟩], []⟩ } }

theorem witness_ServiceAndMapQueriesAnswer :
    (Taken ⟨0x0204, .either, notRelay, .none⟩ cmd3 devMap ∧ devMap.svc? cmd3.slot = some svc3) ∧
    (Taken ⟨0x0204, .either, notRelay, .none⟩ cmd devMap ∧
      (devMap.services.find? (fun v => v.acc.attrs.key == clearKey fmAttrs.key)).isSome = true ∧
      (devMap.services.find? (fun v => v.acc.attrs.key == clearKey 0#64)).isNone = true) ∧
    Taken (gateAll 0x0206) cmd (dev .relay) ∧ Taken (gateNotRelay 0x0302) cmd devMap ∧
    (Taken (gateNotRelay 0x0303) cmd devMap ∧
      (findEntry devMap.map.published.entries (clearKey 0x1000_E100_0000_1234#64)).isSome = true ∧
      (findEntry devMap.map.published.entries (clearKey 0#64)).isNone = true) ∧
    (Taken (gateNotRelay 0x0403) cmd devMap ∧ (devMap.force.links.find? (fun x => x.index == 63)).isSome = true) ∧
    ((devMap.force.links.find? (fun x => x.index == 62)).isNone = true ∧
      (devMap.map.published.learned.find? (fun x => x.index == 62)).isSome = true) ∧
    (Taken ⟨0x0404, .either, notRelay, .none⟩ cmd devMap ∧ (devMap.svc? cmd.slot).isNone = true) ∧
    Taken ⟨0x0404, .either, notRelay, .none⟩ cmd3 devMap := by
  unfold Taken; and_intros <;> decide +kernel

theorem witness_PlacementSurveyAndFollowSettings :
    Taken (gateNotRelay 0x0205) cmd (dev .serve) ∧ (5 ≤ (5#8).toNat ∧ (25#8).toNat ≤ 25) ∧ ((4#8).toNat < 5 ∧ 25 < (26#8).toNat) ∧
    (Taken (gateNotRelay 0x0301) cmd (dev .serve) ∧ defaultSurvey.ranges.length ≤ 16 ∧ defaultSurvey.ranges.all surveyRangeOk = true ∧
      100 ≤ defaultSurvey.interval.toNat ∧ defaultSurvey.interval.toNat ≤ 60000) ∧
    (Taken (gateNotRelay 0x0401) cmd (dev .serve) ∧
      (applyItems tbl97 (fun _ => true) (dev .serve).acc.follow [num 12 4 30]).isSome = true) ∧
    (Taken (gateNotRelay 0x0402) cmd devMap ∧ ([0x1000_E100_0000_4321#64].map clearKey).all linkKeyOk = true ∧
      devMap.acc.links.map (·.keys) = [[0x1000_E100_0000_1234#64, 0x1000_E100_0000_1235#64]] ∧
      [0x1000_E100_0000_4321#64].map clearKey = [0x1000_E100_0000_4321#64] ∧
      [0x1000_E100_0000_1234#64].map clearKey = [0x1000_E100_0000_1234#64] ∧
      ([0x1000_E100_0000_1234#64].map clearKey).all linkKeyOk = true) ∧
    (Taken ⟨0x0405, .either, notRelay, .none⟩ cmd devMap ∧ (devMap.svc? cmd.slot).isNone = true) ∧
    (Taken ⟨0x0405, .either, notRelay, .none⟩ cmd3 devMap ∧ devMap.svc? cmd3.slot = some svc3 ∧ devMap.slotSvc? 3 = some svc3 ∧
      bound svc3.acc.attrs 1 = true ∧ (2047#64).toNat < 2048 ∧
      svc3.acc.alertMask ≠ 2047#64 ∧ 10 ≤ (10#32).toNat ∧ (3600#32).toNat ≤ 3600) := by
  unfold Taken; and_intros <;> decide +kernel

theorem witness_OutputQueriesAnswer :
    Taken (gateNotRelay 0x0502) cmd (dev .serve) ∧ (63#8).toNat ≤ 63 ∧ 63 < (64#8).toNat ∧
    Taken (gateNotRelay 0x0505) cmd (dev .serve) ∧ Taken (gateNotRelay 0x0506) cmd (dev .serve) ∧
    Taken (gateNotRelay 0x0602) cmd (dev .serve) ∧ Taken (gateNotRelay 0x0702) cmd (dev .serve) ∧ (3#8).toNat ≤ 3 ∧ 3 < (4#8).toNat := by
  unfold Taken; and_intros <;> decide +kernel

/-- A device whose ring 0 is enabled. -/
def devRing : State :=
  let t := ((applyItems (tbl101 0) (fun _ => true) (Settings.default.rings.getD 0 [])
    [num 1 4 1, num 2 8 0x1000_0000, num 3 4 0x40_0000, num 4 8 0x2000_0000]).getD [])
  { dev .serve with
    acc := { Settings.default with rings := Settings.default.rings.set 0 t }
    force := { Settings.default with rings := Settings.default.rings.set 0 t } }

theorem witness_OutputSettings :
    Taken (gateNotRelay 0x0501) cmd (dev .serve) ∧
    ((∀ r ∈ [0#8, 63#8], (applyItems (tbl101 r.toNat) (fun _ => true) ((dev .serve).acc.rings.getD r.toNat []) [num 6 4 1024]).isSome = true ∧
        ((dev .serve).acc.rings.getD r.toNat []).nat 1 = 0 ∧ ((dev .serve).ringSet r.toNat).nat 1 = 0) ∧
      ((applyItems (tbl101 0) (fun _ => true) ((dev .serve).acc.rings.getD 0 []) [num 6 4 1024]).getD []).nat 1 = 0) ∧
    (Taken (gateNotRelay 0x0501) cmd devRing ∧ (devRing.acc.rings.getD 0 []).nat 1 = 1 ∧ (devRing.acc.rings.getD 0 []).at 3 = .num 0x40_0000 ∧
      ((applyItems (tbl101 0) (fun _ => true) (devRing.acc.rings.getD 0 []) [num 3 4 0x80_0000]).getD []).at 3 = .num 0x80_0000 ∧
      ringIncomplete ((applyItems (tbl101 0) (fun _ => true) (devRing.acc.rings.getD 0 []) [num 3 4 0x80_0000]).getD []) = false) ∧
    (Taken (gateNotRelay 0x0503) cmd (dev .serve) ∧
      (applyItems tbl109 (fun _ => true) (dev .serve).acc.archive [num 1 4 256, num 2 4 64]).isSome = true) ∧
    (Taken (gateNotRelay 0x0601) cmd (dev .serve) ∧ ((dev .serve).audioPort 3).state = 0 ∧
      (applyItems tbl111 (fun _ => true) ((dev .serve).acc.audio.getD 3 []) [num 6 4 1]).isSome = true ∧
      audioItemsOk ((applyItems tbl111 (fun _ => true) ((dev .serve).acc.audio.getD 3 []) [num 6 4 1]).getD []) = true) ∧
    (Taken (gateNotRelay 0x0701) cmd (dev .serve) ∧
      (applyItems tbl1010 (fun _ => true) ((dev .serve).acc.pkt.getD 3 []) [num 1 4 1]).isSome = true ∧
      (let t := (applyItems tbl1010 (fun _ => true) ((dev .serve).acc.pkt.getD 3 []) [num 1 4 1]).getD []
       1228800000 * 2 ^ 32 ≤ 135000000 * (field (t.raw 2) 0 4 * 2 ^ 32 + field (t.raw 2) 4 4))) := by
  unfold Taken; and_intros <;> decide +kernel

/-- An extent of 1 MiB. -/
def extent0 : Extent := ⟨0#64, 0x10_0000#64⟩

/-- A device that holds 4,096 extents. -/
def devFull : State := { dev .serve with archive := { (dev .serve).archive with extents := List.replicate 4096 ⟨0x10_0000, 0⟩ } }

theorem witness_ArchiveAndAudioActions :
    (Taken (gateNotRelay 0x0504) cmd (dev .serve) ∧ extentsOk (dev .serve).archive.extents [extent0] = true) ∧
    (Taken (gateNotRelay 0x0504) cmd devFull ∧ extentsOk devFull.archive.extents [extent0] = true ∧
      4096 < devFull.archive.extents.length + [extent0].length) ∧
    (Taken (gateNotRelay 0x0603) cmd (dev .serve) ∧ maskPorts 9#8 = [0, 3] ∧
      (∀ p ∈ maskPorts 9#8, ((dev .serve).audioPort p).state < 2) ∧ (dev .serve).audio.length = 4 ∧
      ((dev .serve).advance cmd.wait).effTickIdx * 1000000 ≤ (0x1000_0000#64).toNat) ∧
    Taken (gateNotRelay 0x0604) cmd (dev .serve) := by
  unfold Taken; and_intros <;> decide +kernel

theorem witness_TimeAndRfQueriesAnswer :
    Taken (gateAll 0x0802) cmd (dev .serve) ∧ Taken (gateAll 0x0804) cmd (dev .relay) ∧ Taken (gateAll 0x0806) cmd (dev .survey) ∧
    Taken (gateAll 0x0808) cmd (dev .maintain) ∧ Taken (gateAll 0x0902) cmd (dev .dormant) ∧ (2#8).toNat ≤ 2 ∧ 2 < (3#8).toNat ∧
    Taken (gateAll 0x0905) cmd (dev .serve) ∧ Taken (gateAll 0x0907) cmd (dev .serve) := by
  unfold Taken; and_intros <;> decide +kernel

/-- References 1 to 4 as REF_CONFIG names them, with 3 preferred. -/
def refPar : RefParams := ⟨604800#32, 1#8, [⟨1#8, 2#8, 0#8, 2#8, 0#8, 0xFFFF#16⟩, ⟨4#8, 1#8, 1#8, 10#8, 0#8, 0xFFFF#16⟩]⟩

theorem witness_TimeAndRfSettings :
    (Taken (gateAll 0x0803) cmd (dev .serve) ∧ leapEntriesOk [⟨1000000000#64, 0#8, 1#16⟩] = true ∧
      (let tab := mergeLeap ((hostLeapAfter 0 (dev .serve).acc.leapHost [⟨1000000000#64, 0#8, 1#16⟩]).map leapRow) (dev .serve).time.learned
         (dev .serve).time.image
       leapStepsOk 0 tab = true ∧ tab.length ≤ 32)) ∧
    (Taken (gateAll 0x0805) cmd (dev .serve) ∧ clockBodyAdc (.lock true 1#16 64#16) = false ∧ clockBodyOk (.lock true 1#16 64#16) = true ∧
      clockBodyOk (.clkout 1#8 4095#16 1024#32 7#32) = true ∧ clockBodyOk (.ppsOut 1#8 1#8 500#16) = true) ∧
    (Taken ⟨0x0805, .none, [.maintain], .none⟩ cmd (dev .maintain) ∧ clockBodyAdc (.adc true 16#8 2047#16) = true ∧
      clockBodyOk (.adc true 16#8 2047#16) = true) ∧
    (Taken (gateAll 0x0807) cmd (dev .serve) ∧ 60 ≤ refPar.holdoverS.toNat ∧ refPar.holdoverS.toNat ≤ 604800 ∧ refPar.xoKind.toNat ≤ 1 ∧
      1 ≤ refPar.entries.length ∧ refPar.entries.length ≤ 7 ∧ (∀ e ∈ refPar.entries, (dev .serve).refEntryOk e = true) ∧
      (refPar.entries.map (·.code)).Nodup) ∧
    (Taken (gateAll 0x0901) cmd (dev .serve) ∧ -24 ≤ (0xF6#8).toInt ∧ (0xF6#8).toInt ≤ -10 ∧ (30#8).toNat ≤ 30 ∧ (30#8).toNat % 3 = 0) ∧
    (Taken (gateNotRelay 0x0903) cmd (dev .serve) ∧ (9#8 &&& 0x0F#8 : Byte) = 9#8 ∧ (3#8).toNat ≤ 3 ∧ (9#8).getLsbD (3#8).toNat = true) ∧
    (Taken (gateAll 0x0906) cmd (dev .serve) ∧ (applyItems tbl39 (fun _ => true) (dev .serve).acc.coex [num 4 4 1000]).isSome = true) := by
  unfold Taken; and_intros <;> decide +kernel

/-- A device with armed time, and one with a proposal. -/
def devArmed : State := { dev .serve with time := { (dev .serve).time with armed := true } }
def devProposal : State := { dev .serve with plan := { (dev .serve).plan with proposal := some ⟨1, 0, 5, true⟩ } }

theorem witness_TimeAndRfActions :
    (Taken (gateAll 0x0801) cmd (dev .serve) ∧ (1000000000#64).toNat % 1000000000 = 0 ∧ (dev .serve).time.armed = false) ∧
    (1000000001#64).toNat % 1000000000 ≠ 0 ∧ (Taken (gateAll 0x0801) cmd devArmed ∧ devArmed.time.armed = true) ∧
    Taken (gateAll 0x0809) cmd (dev .serve) ∧
    (Taken (gateNotRelay 0x0904) cmd devProposal ∧ devProposal.plan.proposal.isSome = true ∧ (600#16).toNat ≤ 600) ∧
    (Taken (gateNotRelay 0x0904) cmd (dev .serve) ∧ (dev .serve).plan.proposal = none ∧ (dev .serve).plan.deferEnd = none) ∧
    Taken ⟨0x0908, .none, [.maintain], .none⟩ cmd (dev .maintain) := by
  unfold Taken; and_intros <;> decide +kernel

/-- A service of a standard in slot 3, received on a carrier. -/
def svcOf (key : Nat) : Service :=
  let v := newService 3 7 .placed false 0 { fmAttrs with key := BitVec.ofNat 64 key } 0#64
  { v with rx := ⟨0, 220352, 0x9000_0000_0000_0001#64, none, 128, 2, 480⟩ }

/-- A DAB engine and a television engine. -/
def dabEng : DabEngine := ⟨true, 15, false, 1, 0x1001#16, 7, [⟨3, 0, 84, 0x23, 128⟩], [], none, [], 0#64, some 5#64, none, 0, 0, 0, 0⟩
def tvSig : TvSignal := ⟨1, 8, 0x1234#64, 33000, [], false, [1#8, 2#8]⟩
def tvEng : TvEngine := ⟨true, false, tvSig, 1, 0, 0#64, none, 0, 0⟩

/-- A device with one service on a carrier. -/
def devOn (key : Nat) (es : List Engine) : State := { dev .serve with
  services := [svcOf key], carriers := es.map (fun e => ⟨0x9000_0000_0000_0001#64, 220352, 0, e, none⟩) }

/-- The keys of a DAB programme and of a television one, by carrier. -/
def dabKey : Nat := 0x5000_1001_0000_1234
def tvKey : Nat := 0x6000_1001_0000_1234

/-- A bank and a format that the host loads. -/
def fir2 : FirBank := ⟨0, 2, 0, [0x8000#32]⟩
def fmt2 : TcFormat := { format0 with format := 2#8 }
def devLoaded : State := { devS .serve with
  acc := { Settings.default with fir := [fir2], formats := [fmt2] }
  force := { Settings.default with fir := [fir2], formats := [fmt2] } }

theorem witness_EngineQueriesAnswer :
    (Taken (gateAll 0x0A02) cmd (dev .serve) ∧ ((dev .serve).bank? 1 7).isNone = true ∧ (devLoaded.bank? 0 2).isSome = true) ∧
    (Taken ⟨0x0A03, .either, allModes, .none⟩ cmd3 (devS .serve) ∧ ((devS .serve).svc? cmd3.slot).isSome = true) ∧
    (Taken ⟨0x0A03, .either, allModes, .none⟩ cmd (devS .serve) ∧ ((devS .serve).svc? cmd.slot).isNone = true) ∧
    (Taken ⟨0x0A06, .service, allModes, .none⟩ cmd3 (devS .serve) ∧ keyStd svc3.acc.attrs.key = 2) ∧
    (Taken ⟨0x0A06, .service, allModes, .none⟩ cmd3 (devOn dabKey []) ∧ keyStd (svcOf dabKey).acc.attrs.key = 5 ∧
      ((devOn dabKey []).svc? cmd3.slot).isSome = true) ∧
    (Taken (gateAll 0x0A08) cmd devLoaded ∧ (devLoaded.format? 2).isSome = true ∧ (devLoaded.format? 7).isNone = true) ∧
    (Taken ⟨0x0A0A, .service, allModes, .none⟩ cmd3 (devOn dabKey [.dab dabEng]) ∧ keyRxStd (svcOf dabKey).acc.attrs.key = 5 ∧
      (devOn dabKey [.dab dabEng]).engineOf (svcOf dabKey) = some (.dab dabEng) ∧ ((devOn dabKey []).engineOf (svcOf dabKey)).isNone = true) ∧
    (Taken ⟨0x0A0C, .service, allModes, .none⟩ cmd3 (devOn tvKey [.tv tvEng]) ∧ keyRxStd (svcOf tvKey).acc.attrs.key = 6 ∧
      (devOn tvKey [.tv tvEng]).engineOf (svcOf tvKey) = some (.tv tvEng) ∧ tvEng.lostAt = none) ∧
    Taken ⟨0x0A0C, .service, allModes, .none⟩ cmd3 (devOn dabKey []) ∧ Taken (gateAll 0x0A0E) cmd (dev .serve) := by
  unfold Taken; and_intros <;> decide +kernel

theorem witness_EngineSettings :
    (Taken (gateNotRelay 0x0A01) cmd (dev .serve) ∧ builtinBank 0 2 = false ∧ builtinBank 1 7 = false ∧ coeffOk 0x8000#32 = true ∧
      [0x8000#32] = [0x8000#32].reverse ∧ ([0x8000#32].foldl (fun a x => a + x.toInt) (0 : Int)) = 32768 ∧ (dev .serve).bankUsers 0 2 = 0) ∧
    (Taken ⟨0x0A04, .either, notRelay, .none⟩ cmd (devS .serve) ∧ ((devS .serve).svc? cmd.slot).isNone = true ∧
      (applyItems tbl57 (fun i => i != 1) (devS .serve).acc.lane [num 3 4 64]).isSome = true) ∧
    (Taken ⟨0x0A04, .either, notRelay, .none⟩ cmd3 (devS .serve) ∧ (devS .serve).svc? cmd3.slot = some svc3 ∧
      (devS .serve).slotSvc? svc3.slot = some svc3 ∧ (applyItems tbl57 (fun _ => true) svc3.acc.lane [num 3 4 64]).isSome = true ∧
      (devS .serve).bankItemOk svc3.acc.attrs.key ((applyItems tbl57 (fun _ => true) svc3.acc.lane [num 3 4 64]).getD []) = true) ∧
    (Taken ⟨0x0A05, .service, notRelay, .none⟩ cmd3 (devS .serve) ∧
      (applyItems tbl61 (analogueApplies svc3.acc.attrs) svc3.acc.analogue [num 3 4 50]).isSome = true ∧
      analogueOk svc3.acc.attrs ((applyItems tbl61 (analogueApplies svc3.acc.attrs) svc3.acc.analogue [num 3 4 50]).getD []) = true) ∧
    (Taken (gateNotRelay 0x0A07) cmd (devS .serve) ∧ tcFormatOk fmt2 = true ∧ (∀ v ∈ (devS .serve).services, v.namesFormat 2 = false)) ∧
    (Taken ⟨0x0A09, .either, notRelay, .none⟩ cmd (dev .serve) ∧
      (applyItems tbl73 (fun i => decide (i ≤ 2)) (dev .serve).acc.dab [num 2 4 60]).isSome = true) ∧
    (Taken ⟨0x0A09, .either, notRelay, .none⟩ cmd3 (devOn dabKey []) ∧ (devOn dabKey []).slotSvc? 3 = some (svcOf dabKey) ∧
      (applyItems tbl73 (dabApplies (svcOf dabKey).acc.attrs) (svcOf dabKey).acc.dab [num 3 4 1]).isSome = true) ∧
    (Taken ⟨0x0A0B, .either, notRelay, .none⟩ cmd (dev .serve) ∧
      (applyItems tbl87 (fun i => i == 1) (dev .serve).acc.tv [num 1 4 60]).isSome = true) ∧
    (Taken ⟨0x0A0B, .either, notRelay, .none⟩ cmd3 (devOn tvKey []) ∧ (devOn tvKey []).slotSvc? 3 = some (svcOf tvKey) ∧
      (applyItems tbl87 (tvApplies (svcOf tvKey).acc.attrs) (svcOf tvKey).acc.tv [num 4 4 1]).isSome = true) ∧
    Taken (gateNotRelay 0x0A0D) cmd (dev .serve) := by
  unfold Taken; and_intros <;> decide +kernel

/-- A device whose service names channel bank 4. -/
def devBank : State := { dev .serve with services := [{ svc3 with force := { svc3.force with lane := svc3.force.lane.set 0 (.num 4) } }] }

theorem witness_EngineSettings_busy :
    Taken (gateNotRelay 0x0A01) cmd devBank ∧ builtinBank 1 4 = false ∧ 0 < devBank.bankUsers 1 4 := by
  unfold Taken; and_intros <;> decide +kernel

/-- A trim block of this unit. -/
def trimBlock : CalBlock := ⟨0x40#8, 1#8, 0#8, 0#8, 0#64, Config.unitId, 0#16, 0#16, zeros 8⟩

theorem witness_CalibrationCommands :
    Taken (gateAll 0x0B02) cmd (dev .serve) ∧ Taken (gateAll 0x0B03) cmd (dev .serve) ∧
    ((0x40#8).toNat ∈ [0x01, 0x02, 0x10, 0x11, 0x12, 0x20, 0x30, 0x40] ∧ (0x03#8).toNat ∉ [0x01, 0x02, 0x10, 0x11, 0x12, 0x20, 0x30, 0x40]) ∧
    (Taken (gateAll 0x0B05) cmd (dev .serve) ∧ (applyItems tbl136 (fun _ => true) (dev .serve).acc.cal [num 3 4 600]).isSome = true) ∧
    (Taken ⟨0x0B01, .none, [.maintain], .none⟩ cmd (dev .maintain) ∧ (dev .maintain).thermal.level = 0 ∧ (dev .maintain).cal.job = none) ∧
    Taken ⟨0x0B01, .none, [.maintain], .none⟩ cmd { dev .maintain with thermal := { (dev .maintain).thermal with level := 1 } } ∧
    (Taken ⟨0x0B04, .none, [.dormant, .maintain], .none⟩ cmd (dev .dormant) ∧ trimBlock.body.length = calLen 0x40 ∧
      calValuesOk trimBlock = true) := by
  unfold Taken; and_intros <;> decide +kernel

/-- The block of another unit. -/
theorem witness_CalibrationCommands_other : ({ trimBlock with unit := Config.unitId + 1 } : CalBlock).unit ≠ Config.unitId := by
  show Config.unitId + 1#64 ≠ Config.unitId
  bv_omega

theorem witness_TrunkCommands :
    (Taken (gateAll 0x0C01) cmd (dev .serve) ∧ (applyItems tbl121 (fun _ => true) (dev .serve).acc.trunk [num 3 4 38]).isSome = true ∧
      ((applyItems tbl121 (fun _ => true) (dev .serve).acc.trunk [num 3 4 38]).getD []).nat 1 = (dev .serve).acc.trunk.nat 1) ∧
    (((applyItems tbl121 (fun _ => true) (dev .serve).acc.trunk [num 2 4 9, num 1 4 1]).getD []).nat 1 = 1 ∧
      (dev .serve).acc.trunk.nat 1 = 0 ∧ Taken (gateAll 0x0C01) cmd (dev .dormant)) ∧
    Taken (gateAll 0x0C02) cmd (dev .serve) ∧
    (Taken (gateHead 0x0C05) cmd (devT 2 .serve .off) ∧ maskRangesOk [⟨80#16, 80#16, 40#8⟩, ⟨4000#16, 4000#16, 0xFF#8⟩] = true) ∧
    (Taken (gateHead 0x0C07) cmd (devT 2 .serve .data) ∧ (80#16).toNat ≤ 4000 ∧ (devT 2 .serve .data).trunk.state = .data) ∧
    (Taken (gateHead 0x0C03) cmd (devT 2 .serve .data) ∧
      ((devT 2 .serve .data).advance cmd.wait).effTickIdx * 1000000 ≤ (0x1000_0000#64).toNat) ∧
    (Taken (gateHead 0x0C03) cmd (devT 2 .serve .lost) ∧ Taken (gateHead 0x0C04) cmd (devT 2 .serve .lost) ∧
      Taken (gateHead 0x0C06) cmd (devT 2 .serve .off)) ∧
    Taken (gateHead 0x0C04) cmd (devT 2 .serve .sleep) ∧ Taken (gateHead 0x0C06) cmd (devT 2 .serve .data) := by
  unfold Taken; and_intros <;> decide +kernel

/-- A header that names a body of no bytes, with the SHA-256 of the empty string (FIPS 180-4) as its digest. -/
def headOf : List Byte := zeros 28 ++ le 4 384 ++ zeros 200 ++
  [0xe3, 0xb0, 0xc4, 0x42, 0x98, 0xfc, 0x1c, 0x14, 0x9a, 0xfb, 0xf4, 0xc8, 0x99, 0x6f, 0xb9, 0x24,
   0x27, 0xae, 0x41, 0xe4, 0x64, 0x9b, 0x93, 0x4c, 0xa4, 0x95, 0x99, 0x1b, 0x78, 0x52, 0xb8, 0x55] ++ zeros 120

/-- A device with slot 1 in a state, the other slot running. -/
def devSlot (x : ImgSlot) : State := { dev .serve with flash := { (dev .serve).flash with size := 0x100_0000, slot1 := x } }

/-- A transfer of the service port. -/
def xfer (len next : Nat) (hd : List Byte) : ImgTransfer := ⟨.transport .service, len, next, hd, 0#8⟩

theorem witness_ImageAndKeyCommands :
    (Taken (gateAll 0x0D01) cmd (dev .serve) ∧ (dev .serve).runs 1 = false ∧ (dev .serve).runs 0 = true ∧
      ((dev .serve).slot 1).state = .empty ∧ ((dev .serve).slot 1).heldFrom (.transport cmd.tr) = false ∧ (dev .serve).thermal.level = 0) ∧
    (let s := devSlot ⟨.receiving, 0, 0#32, 0, none, some (xfer 1000 0 [])⟩
     Taken (gateAll 0x0D02) cmd s ∧ (s.slot 1).transfer = some (xfer 1000 0 []) ∧ (xfer 1000 0 []).owner = .transport cmd.tr ∧
      (s.slot 1).state = .receiving ∧ Taken (gateAll 0x0D03) cmd s) ∧
    (let s := devSlot ⟨.receiving, 0, 0#32, 0, none, some (xfer 384 384 headOf)⟩
     Taken (gateAll 0x0D03) cmd s ∧ (s.slot 1).transfer = some (xfer 384 384 headOf) ∧ 384 ≤ headOf.length ∧ s.digestOk 1 headOf = true) ∧
    (let s := devSlot ⟨.bootable, 0, 0#32, 0, none, none⟩
     Taken (gateAll 0x0D04) cmd s ∧ s.runs 1 = false ∧ (s.advance cmd.wait).effTickIdx * 1000000 < (0x1000_0000#64).toNat ∧
      s.power.recovery = false ∧ (s.slot 0).state = .empty ∧ (s.slot 1).state = .bootable ∧ s.journal.readOnly = false) ∧
    Taken (gateAll 0x0D05) cmd (dev .serve) ∧ Taken (gateAll 0x0D06) cmd (dev .serve) ∧
    (Taken ⟨0x0D08, .none, [.maintain], .none⟩ cmd (dev .maintain) ∧ ((dev .maintain).flash.keys[3]?.map (·.hash)) = some none ∧
      ((dev .maintain).flash.keys[0]?.map (·.hash.isSome)) = some true) := by
  unfold Taken; and_intros <;> decide +kernel

/-- A calendar value in range, at the last second of the range of the year. -/
def calendarMax : Calendar := ⟨2099#16, 12#8, 31#8, 23#8, 59#8, 59#8⟩

theorem witness_ClockAndBackupCommands :
    Taken (gateAll 0x0E01) cmd (dev .serve) ∧ (dev .serve).rtc.locked = false ∧ calendarOk calendarMax = true ∧
    Taken (gateAll 0x0E02) cmd (dev .serve) ∧ Taken (gateAll 0x0E05) cmd (dev .serve) ∧ Taken (gateAll 0x0E03) cmd (dev .serve) ∧
    Taken (gateAll 0x0E04) cmd (dev .serve) ∧ (31#8).toNat + [0xAA#8].length ≤ 32 ∧ 32 < (31#8).toNat + (2#8).toNat ∧
    (let s : State := { dev .serve with rtc := { (dev .serve).rtc with locked := true } }
     s.rtc.locked = true ∧ Taken (gateAll 0x0E01) cmd s ∧ Taken (gateAll 0x0E02) cmd s ∧ Taken (gateAll 0x0E05) cmd s ∧
      Taken (gateAll 0x0E03) cmd s ∧ Taken (gateAll 0x0E04) cmd s) := by
  unfold Taken; and_intros <;> decide +kernel

/-- A device whose RESET_STARTUP condition waits to be enabled, with MSI-X on or off. -/
def devInt (on : Bool) : State := { dev .serve with
  busP := { BusRegs.reset with intStatus := 0x10#32 }, pcie := { (dev .serve).pcie with msixOn := on, masked := 0#64 } }

theorem witness_InterruptRegistersOfABus :
    ((devInt true).intStatus .pcie &&& (0x10#32 &&& 0x3F3#32) &&& ~~~ (devInt true).intActive .pcie) = 0x10#32 ∧
    (devInt true).pcie.msixOn = true ∧ (devInt true).pcie.funcMask = false ∧ (devInt true).pcie.masked.getLsbD 0 = false ∧
    (devInt true).pcie.d3 = false ∧ (devInt false).pcie.msixOn = false ∧
    ((devInt false).intStatus .pcie &&& (0x10#32 &&& 0x3F3#32) &&& ~~~ (devInt false).intActive .pcie) = 0x10#32 ∧
    ((devInt true).intStatus .pcie &&& (0x20#32 &&& 0x3F3#32) &&& ~~~ (devInt true).intActive .pcie) = 0#32 := by
  and_intros <;> decide +kernel

/-- A device whose two-wire match is armed for 5 ns, at DT 10 and at DT 1. -/
def devMatch (dt : Nat) : State := { dev .serve with
  time := { (dev .serve).time with dt := BitVec.ofNat 64 dt, seeded := true }
  busT := { BusRegs.reset with stage := 5#32, dtMatch := 5#64, matchArmed := true } }

theorem witness_DtMatchArmsFiresAndDisarms :
    ((0#32 ++ ((devMatch 1).bus .twoWire).stage : W64) = 5#64 ∧ ((devMatch 1).advance 0).now < (5#64).toNat) ∧
    ((0#32 ++ ((devMatch 1).bus .pcie).stage : W64) = 0#64) ∧
    ((5#64).toNat ≤ ((devMatch 5).advance 0).now ∧ ((devMatch 5).bus .twoWire).matchArmed = true ∧
      ((devMatch 5).bus .twoWire).dtMatch.toNat ≤ ((devMatch 5).advance 0).now) ∧
    ((devMatch 1).bus .pcie).matchArmed = false ∧ ((devMatch 1).advance 0).now < ((devMatch 1).bus .twoWire).dtMatch.toNat := by
  and_intros <;> decide +kernel

theorem witness_RegisterReads : (devMatch 1).time.seeded = true ∧ State.reset.power.ready = false ∧
    (0x1FFC#16).toNat < 0x2000 ∧ (0x1FFC#16).toNat % 4 = 0 ∧ (0x0FFC#16).toNat < 0x1000 ∧ 0x2000 ≤ (0xFFFC#16).toNat := by
  and_intros <;> decide +kernel

theorem witness_RegisterWrites : (dev .serve).power.ioUp = true ∧ State.reset.power.ioUp = false ∧ (0x4000_0007#32).toNat / 2 ^ 30 = 1 ∧
    (0xC000_0000#32).toNat / 2 ^ 30 = 3 ∧ (0x3FF8#16).toNat % 8 = 0 ∧ (0x3FF8#16).toNat < 0x4000 := by
  and_intros <;> decide +kernel

/-- A NOP packet with no data. -/
def nopBytes : List Byte := commandPacket 0x0003 { cmd with trailer := 0#32 } []

/-- The packet with the trailer that it needs. -/
def nopPkt : List Byte := nopBytes.take 16 ++ le 4 (crc32 (nopBytes.take 16)).toNat

/-- The header that its reader finds. -/
def nopHdr (tr : Transport) (ring : Bool) : CmdHdr := { cmd with tr := tr, viaRing := ring, trailer := crc32 (nopBytes.take 16) }

/-- A device with the packet in its PCIe mailbox. -/
def devMail : State := { dev .serve with busP := { BusRegs.reset with bank := Memory.writeN ramDefault [] 0 nopPkt } }

/-- A device with its rings enabled and the packet at the start of the command ring. -/
def devRings : State :=
  let t := ((applyItems tbl143 (fun _ => true) Settings.default.cmdRing
    [num 1 4 1, num 2 8 0x1_0000, num 3 4 4096, num 4 4 1, num 5 8 0x10_0000, num 6 4 0x1_0000, num 7 8 0x20_0000]).getD [])
  { dev .serve with
    acc := { Settings.default with cmdRing := t }, force := { Settings.default with cmdRing := t }
    host := Memory.writeN ramDefault [] 0x1_0000 nopPkt }

theorem witness_DoorsLeadToTheInterpreter_mailbox :
    devMail.serves (busTransport .pcie) = true ∧ (devMail.bus .pcie).bankBusy = false ∧
    parsePacket .pcie false false 4072 0 (devMail.bankBytes .pcie) = .command 3#16 (nopHdr .pcie false) (.nop (nopHdr .pcie false) []) ∧
    State.reset.serves .twoWire = false := by
  and_intros <;> decide +kernel

theorem witness_DoorsLeadToTheInterpreter_ring :
    let s2 : State := { (devRings.advance 0).hostCells [] with rings := { devRings.rings with cmdProducer := 64 } }
    devRings.force.cmdRing.nat 1 = 1 ∧ s2.cmdRingOn = true ∧ 4096 ≤ s2.replyFree ∧ 64 < devRings.cmdSize ∧ devRings.rings.cmdConsumer = 0 ∧
    field (Memory.readN ramDefault s2.host 0x1_0000 16) 6 2 = 0 ∧ roundUp 64 20 = 64 ∧
    parsePacket .pcie true true 4072 0 (Memory.readN ramDefault s2.host 0x1_0000 20)
      = .command 3#16 (nopHdr .pcie true) (.nop (nopHdr .pcie true) []) := by
  and_intros <;> decide +kernel

theorem witness_DoorsLeadToTheInterpreter_service :
    (dev .serve).power.ioUp = true ∧ (dev .serve).serves .service = true ∧
    parsePacket .service false true 4072 0 nopPkt = .command 3#16 (nopHdr .service false) (.nop (nopHdr .service false) []) := by
  and_intros <;> decide +kernel

/-- A reply and an event. -/
def reply0 : Reply := ⟨3#16, 7#16, .ok, 0#16, 0xFFFFFFFF#32, 0#64, []⟩
def event0 : Event := ⟨0x8001#16, 0#16, 0xFFFF#16, 0#16, 0#32, 0#64, []⟩

theorem witness_ServicePortReads : (dev .serve).power.ioUp = true ∧ (dev .serve).pSvc.outbox = [] ∧ (dev .serve).pSvc.events = [] ∧
    ({ dev .serve with pSvc := { Port.reset with outbox := [⟨0, false, false, some reply0⟩] } } : State).pSvc.outbox
      = [⟨0, false, false, some reply0⟩] ∧
    ({ dev .serve with pSvc := { Port.reset with events := [event0] } } : State).pSvc.events = [event0] := by
  and_intros <;> decide +kernel

/-- A device with an ATTN write at DT 0. -/
def devAttn (a n : Nat) : State := { dev .serve with tw := { (dev .serve).tw with attn := some ⟨0#64, a, n⟩, pointer := 0xF0#16 } }

theorem witness_TwoWirePort :
    ((0xB1#8).toNat ≠ 2 * (0x58 + (dev .serve).tw.addrBits % 8) ∧ (0xB0#8).toNat = 2 * (0x58 + (dev .serve).tw.addrBits % 8) ∧
      (0xB1#8).toNat = 2 * (0x58 + (dev .serve).tw.addrBits % 8) + 1 ∧ (dev .serve).power.ioUp = true ∧ (devAttn 0 0).tw.pointer = 0x00F0#16 ∧
      (0x1F#8 ++ 0xFC#8 : W16).toNat % 4 = 0 ∧ (0x1F#8 ++ 0xFC#8 : W16).toNat < 0x2000 ∧ State.reset.power.ioUp = false ∧
      0x2000 ≤ ({ dev .serve with tw := { (dev .serve).tw with pointer := 0x2000#16 } } : State).tw.pointer.toNat) ∧
    ((devAttn 0 0).tw.attn = some ⟨0#64, 0, 0⟩ ∧ (0#64).toNat ≤ ((devAttn 0 0).advance 0).now) ∧
    (devAttn 7 2).tw.attn = some ⟨0#64, 7, 2⟩ ∧ (devAttn 6 1).tw.attn = some ⟨0#64, 6, 1⟩ ∧ (dev .serve).tw.attn = none := by
  and_intros <;> decide +kernel

theorem witness_PcieEndpoint : (dev .serve).pcie.d3 = false ∧
    ({ dev .serve with pcie := { (dev .serve).pcie with d3 := true } } : State).pcie.d3 = true := by and_intros <;> decide +kernel

/-- A device with its chain port on and slot 1 in a state. -/
def devChain (x : ImgSlot) : State :=
  { devSlot x with acc := { Settings.default with chain := true }, force := { Settings.default with chain := true } }

/-- A frame of a type whose CRC holds. -/
def frame (type : Nat) (seq : Byte) (p : List Byte) : ChainFrame :=
  ⟨seq, 0x9484#16, p, crc16 (le 1 type ++ [seq] ++ le 2 p.length ++ le 2 0x9484 ++ p)⟩

theorem witness_ChainPort :
    (devChain .reset).chainOn = true ∧ (dev .serve).chainOn = false ∧ (devChain .reset).power.recovery = false ∧
    (devChain .reset).flash.running = 0 ∧ (devChain .reset).thermal.level = 0 ∧
    (ChainFrame_ok (frame 1 0#8 (le 4 1000)) 1 = true ∧ ((devChain .reset).slot 1).state = .empty ∧
      ((devChain .reset).slot 1).heldFrom .chain = false) ∧
    (let s := devChain ⟨.receiving, 0, 0#32, 0, none, some ⟨.chain, 1000, 0, [], 0#8⟩⟩
     s.chainOn = true ∧ (s.slot 1).transfer = some ⟨.chain, 1000, 0, [], 0#8⟩ ∧
      ChainFrame_ok (frame 2 1#8 (le 4 0 ++ [0xAA#8])) 2 = true ∧ ChainFrame_ok (frame 2 2#8 (le 4 0 ++ [0xAA#8])) 2 = true) ∧
    (let s := devChain ⟨.receiving, 0, 0#32, 0, none, some ⟨.chain, 384, 384, headOf, 5#8⟩⟩
     s.chainOn = true ∧ (s.slot 1).transfer = some ⟨.chain, 384, 384, headOf, 5#8⟩ ∧ s.digestOk 1 headOf = true ∧
      ChainFrame_ok (frame 3 6#8 []) 3 = true) ∧
    (let s := devChain ⟨.bootable, 0, 0#32, 0, none, none⟩
     s.chainOn = true ∧ ChainFrame_ok (frame 4 7#8 (le 2 60)) 4 = true ∧ (s.slot 1).state = .bootable ∧ (s.slot 0).state = .empty ∧
      s.journal.readOnly = false ∧ (s.advance 0).effTickIdx * 1000000 < (s.advance 0).now + unle (le 2 60) * 1000000000) := by
  and_intros <;> decide +kernel

/-- A tick that measures a temperature of 25 °C or 125 °C and nothing else. -/
def tickAt (w : W16) : TickIn := ⟨w, [], [], false, false, [], 0, false, [], [], [], [], [], [], [], [], []⟩

theorem witness_TicksAndStepsOfTime :
    State.reset.up = false ∧ (dev .serve).up = true ∧ (dev .serve).serving = true ∧ (dev .serve).time.boundary < 2 ^ 64 ∧
    (dev .serve).thermal.level = 0 ∧ (tickAt 250#16).temp.toInt < 1050 ∧ (dev .serve).power.resetIn = none ∧
    (dev .serve).power.recovery = false ∧
    (let s : State := { dev .serve with power := { (dev .serve).power with ready := false } }
     s.up = true ∧ s.serving = false) ∧
    (let s : State := { dev .serve with time := { (dev .serve).time with stepDue := some 5#64, boundary := 2 ^ 64 } }
     s.time.stepDue = some 5#64 ∧ 2 ^ 64 ≤ s.time.boundary ∧ s.masked .service 0x8008#16 = false ∧ s.masked .pcie 0x8008#16 = true) ∧
    (dev .serve).time.stepDue = none := by and_intros <;> decide +kernel

/-- A device at a level of heat. -/
def devHot (level ticks steps cold : Nat) (down : Bool) : State :=
  { dev .serve with thermal := { (dev .serve).thermal with level := level, shedTicks := ticks, shedSteps := steps, coldReads := cold, shutdown := down } }

theorem witness_TemperatureAndShedding :
    (devHot 2 1000 9 0 false).thermal.shedTicks = 1000 ∧ (devHot 2 1000 10 0 false).thermal.shedSteps = 10 ∧
    (devHot 1 10000 1 0 false).thermal.level = 1 ∧ (devHot 2 999 0 0 false).thermal.shedTicks < 1000 ∧
    (devHot 2 0 0 0 true).thermal.shutdown = true ∧ (999#16).toInt < 1000 ∧ (devHot 2 0 0 1 true).thermal.coldReads = 1 ∧
    1000 ≤ (1000#16).toInt ∧ (devHot 0 0 0 0 false).thermal.shutdown = false ∧
    (dev .serve).up = true ∧ (dev .serve).serving = true ∧ 1250 ≤ (tickAt 1250#16).temp.toInt := by and_intros <;> decide +kernel

/-- A device whose reference has a state, with the time state and holdover ticks. -/
def devRef (c : Nat) (r : RefState) (t : TState) (hold : Nat) : State := { dev .serve with
  refs := { RefSt.reset with
    refs := RefSt.reset.refs.set c r, tstate := t, holdTicks := hold, holdRef := c, lastEdge := some 0#64, ppsCount := some 0#64 } }

theorem witness_ReferencesComeAndGo :
    (let s := devRef 1 ⟨false, false, true, false, 2000, 0⟩ .free 0
     (s.ref 1).critF = true ∧ (s.ref 1).qualF = false ∧ s.refQ 1 ≤ (s.ref 1).heldF) ∧
    (let s := devRef 7 ⟨false, false, false, true, 0, 2000⟩ .free 0
     (s.ref 7).critT = true ∧ (s.ref 7).qualT = false ∧ s.refQ 7 ≤ (s.ref 7).heldT) ∧
    (let s := devRef 1 ⟨false, false, true, false, 1999, 0⟩ .free 0
     (s.ref 1).heldF < s.refQ 1 ∧ (s.ref 1).critT = false) ∧
    (let s := devRef 2 ⟨true, false, true, false, 0, 0⟩ .free 0
     (s.ref 2).qualF = true ∧ s.refs.freqRef = 0) ∧
    (let s := devRef 6 ⟨false, true, false, true, 0, 0⟩ .free 0
     (s.ref 6).qualT = true ∧ s.refs.timeSrc = none) ∧
    (let s := devRef 3 ⟨true, true, true, true, 0, 0⟩ .holdover 3600000
     s.refs.tstate = .holdover ∧ s.force.refs.holdoverS.toNat * 1000 ≤ s.refs.holdTicks) ∧
    (let s : State := { devRef 3 ⟨true, true, true, true, 0, 0⟩ .locked 0 with
       time := { (dev .serve).time with dt := 1000001000#64, boundary := 1001000000 } }
     s.time.atPps = none ∧ (s.ref 3).critF = true ∧ s.refs.lastEdge = some 0#64 ∧ s.refs.ppsTod = none ∧ s.refs.ppsCount = some 0#64 ∧
      (((s.advance 0).now : Int) - (0#64 : W64).toNat - 1000000000).natAbs ≤ 1000) ∧
    ((dev .serve).sourceSlot 5 = none ∧ (dev .serve).sourceSlot 6 = none) ∧
    (let s := devOn 0x7000_0000_0000_1234 []
     s.slotSvc? 3 = some (svcOf 0x7000_0000_0000_1234) ∧ keyStandard (svcOf 0x7000_0000_0000_1234).acc.attrs.key = 7 ∧
      s.sourceSlot 6 = some 3 ∧ s.refs.tInd6 = []) := by and_intros <;> decide +kernel

/-- A device with its wires enabled and in a state, at DT 10 s less 1 ns. -/
def devCoex (f : CoexSt → CoexSt) : State :=
  let t := ((applyItems tbl39 (fun _ => true) Settings.default.coex [num 1 4 1, ⟨7#8, le 8 10000000000 ++ le 4 100 ++ le 4 60000⟩]).getD [])
  { dev .serve with
    time := { (dev .serve).time with dt := 10000000001#64, boundary := 10001000000 }
    acc := { Settings.default with coex := t }, force := { Settings.default with coex := t }, coex := f CoexSt.reset }

theorem witness_CoexistenceWires :
    ((devCoex id).coexOn = true ∧ (devCoex id).coex.reqIn = false ∧ (devCoex id).coex.phase = .idle ∧ (devCoex id).coex.window = false) ∧
    ((devCoex (fun c => { c with window := true })).coex.window = true ∧ (dev .serve).coexOn = false) ∧
    (let s := devCoex (fun c => { c with phase := .waiting false, reqIn := true })
     s.coex.phase = .waiting false ∧ s.coex.phaseDt.toNat + s.force.coex.nat 4 * 100 ≤ (s.advance 0).now ∧ s.coex.gntOut = false) ∧
    (let s := devCoex (fun c => { c with phase := .tail })
     s.coex.phase = .tail ∧ s.coex.phaseDt.toNat + s.force.coex.nat 5 * 1000 ≤ (s.advance 0).now) ∧
    (let s := devCoex (fun c => { c with phase := .granted })
     s.coex.phase = .granted ∧ s.coex.limitSaid = false ∧ s.coex.phaseDt.toNat + s.force.coex.nat 6 * 1000000 < (s.advance 0).now) ∧
    (((devCoex id).advance 0).windowsDue ((devCoex id).force.coex.nat 8 * 1000) = [(10000000000, 10010000000)] ∧
      (devCoex id).coex.reqOut = false ∧ ((dev .serve).advance 0).windowsDue ((dev .serve).force.coex.nat 8 * 1000) = []) ∧
    (let s := devCoex (fun c => { c with window := true, reqOut := true, phase := .waiting true })
     s.coex.window = true ∧ s.coex.windowEnd.toNat ≤ (s.advance 0).now ∧ s.coex.reqOut = true ∧ s.coex.gntIn = false ∧
      s.coex.ackSeen = false ∧ s.coex.leadDt.toNat + 100000 ≤ (s.advance 0).now) ∧
    (let s := devCoex (fun c => { c with gntIn := true })
     [s.coex.reqIn, s.coex.priIn, s.coex.gntIn][2]? = some true ∧ s.coex.stuckSaid[2]? = some false ∧
      (s.coex.lastEdge.getD 2 0#64).toNat + 10000000000 < (s.advance 0).now) := by and_intros <;> decide +kernel

/-- A device at DT 2.001 s whose service is in a state, with a migration. -/
def devMig (st : SvcState) (m : Option Migration) : State := { dev .serve with
  time := { (dev .serve).time with dt := 2001000000#64, boundary := 2002000000 }
  services := [{ svc3 with state := st, migration := m }] }

theorem witness_ServicesSettleAndMigrate :
    ((dev .serve).slotSvc? 3).isNone = true ∧
    (let s := devMig .admitted none
     (s.slotSvc? 3).isSome = true ∧ (s.advance 0).memberWait { svc3 with state := .admitted } = false) ∧
    (let v : Service := { svc3 with state := .admitted, stateDt := 2001000000#64, acc := { svc3.acc with attrs := { rdsAttrs with follow := 2#8 } }
                                    force := { svc3.force with attrs := { rdsAttrs with follow := 2#8 } }
                                    follow := { svc3.follow with cands := [⟨0x1000_E100_0000_1235#64, 99000, 0, .unknown, 0, 0#64, 0#64, none, 0#64⟩] } }
     let s : State := { devMap with map := { MapSt.reset with published := ⟨[], [⟨63, [0x1000_E100_0000_1234#64, 0x1000_E100_0000_1235#64]⟩], [], []⟩ }
                                    services := [v], time := (devMig .admitted none).time }
     (s.slotSvc? 3).isSome = true ∧ (s.advance 0).memberWait v = true) ∧
    (let s := devMig .migrating (some ⟨svc3.rx, false, 0#64, true, false⟩)
     (s.slotSvc? 3).map (·.migration) = some (some ⟨svc3.rx, false, 0#64, true, false⟩) ∧ (s.progOf svc3.field).isNone = true) ∧
    (let s := devMig .migrating (some ⟨svc3.rx, false, 0#64, true, true⟩)
     (s.slotSvc? 3).map (·.migration) = some (some ⟨svc3.rx, false, 0#64, true, true⟩)) ∧
    (let s := devMig .migrating (some ⟨svc3.rx, false, 0#64, false, false⟩)
     (s.slotSvc? 3).map (·.migration) = some (some ⟨svc3.rx, false, 0#64, false, false⟩) ∧
      (0#64 : W64).toNat + 2001000000 ≤ (s.advance 0).now) := by and_intros <;> decide +kernel

theorem witness_PlansAndSynthesisers :
    ({ dev .serve with plan := { (dev .serve).plan with forced := some 2 } } : State).planDue = some 2 ∧ (dev .serve).planDue = none ∧
    (let s : State := { dev .serve with clk := { (dev .serve).clk with pllS := ⟨true, 3, 0⟩, adcOn := true, retry := true, stopped := some (1, 0#64) } }
     s.clk.pllS.locked = true ∧ s.clk.adcOn = true ∧ s.clk.retry = true ∧ s.clk.stopped = some (1, 0#64)) ∧
    ((dev .serve).clk.pllS.locked = false ∧ (dev .serve).clk.retry = false ∧ (dev .serve).clk.pllG.locked = false) ∧
    (let s : State := { dev .survey with plan := { (dev .survey).plan with deferEnd := some 0#64 } }
     s.plan.deferEnd = some 0#64 ∧ (0#64 : W64).toNat ≤ (s.advance 0).now ∧ s.power.mode = .survey) ∧
    (let s : State := { dev .serve with
       force := { Settings.default with plan := ⟨0#8, 15#8, 0#8⟩ }, plan := { (dev .serve).plan with deferEnd := some 9#64 }
       clk := { (dev .serve).clk with pllG := ⟨true, 1, 0⟩ } }
     s.force.plan.policy = 0#8 ∧ (s.advance 0).now < (9#64 : W64).toNat ∧ s.power.railsGood = true ∧ s.power.ioUp = true ∧
      s.thermal.shutdown = false ∧ s.clk.pllG.locked = true) := by and_intros <;> decide +kernel

/-- An audio port's run-time state. -/
def aud (st : Nat) (ar : Option Arming) (ps : List Prog) (zs : List ZcChange) : AudioSt :=
  { AudioSt.reset with state := st, armed := ar, progs := ps, changes := zs }

/-- A device with port 0 in a state. -/
def devAud (a : AudioSt) (master : Bool) : State :=
  let t := if master then Settings.default.audio.getD 0 [] else (Settings.default.audio.getD 0 []).set 0 (.num 1)
  { dev .serve with
    audio := (dev .serve).audio.set 0 a
    acc := { Settings.default with audio := Settings.default.audio.set 0 t }
    force := { Settings.default with audio := Settings.default.audio.set 0 t } }

/-- A programme of slot 3 on port slots 0 and 1. -/
def prog0 : Prog := ⟨svc3.field, 0, 2, 0, 0, false, true, false⟩

/-- The PCM stream of slot 3, and its other streams. -/
def strm (kind : Nat) (ring : Option Nat) (arch : Bool) : Stream :=
  ⟨svc3.field, kind, 4, ring, false, none, 0, arch, 0, 0, 0, 0#32, false, 0#64, 0, 0, none, none, 0, 0, false⟩

theorem witness_AudioPortsRun :
    ((devAud (aud 1 (some ⟨0, 0#64⟩) [] []) true).audio.length = 4 ∧ ((devAud (aud 1 (some ⟨0, 0#64⟩) [] []) true).audioPort 0).state = 1 ∧
      ((devAud (aud 1 (some ⟨0, 0#64⟩) [] []) true).audioPort 0).armed = some ⟨0, 0#64⟩) ∧
    ((devAud (aud 1 (some ⟨2, 0#64⟩) [] []) true).audioPort 0).armed = some ⟨2, 0#64⟩ ∧
    (portMaster ((devAud (aud 2 none [] []) true).audioSet 0) = portMaster (tableDefaults tbl111) ∧
      portMaster ((devAud (aud 2 none [] []) false).audioSet 0) ≠ portMaster (tableDefaults tbl111)) ∧
    ((devAud (aud 2 none [prog0] []) true).audioPort 0).progs.find? (fun g => g.portSlot == 0) = some prog0 ∧
    (devAud (aud 2 none [prog0] []) true).excused prog0 = true ∧
    (let s : State := { devAud (aud 2 none [prog0] []) true with services := [svc3], streams := [strm 1 none false] }
     s.excused prog0 = false ∧ (s.audioPort 0).lastEvent = none) ∧
    (let s := devAud (aud 2 none [prog0] [⟨1, .start, 0#64⟩]) true
     (s.audioPort 0).changes = [⟨1, .start, 0#64⟩] ∧ (s.audioPort 0).progs = [prog0] ∧
      (s.advance 0).now < (0#64 : W64).toNat + (s.audioSet 0).nat 16 10 * 1000000) ∧
    (let s : State := { devAud (aud 2 none [prog0] [⟨1, .migration, 0#64⟩]) true with
       time := { (dev .serve).time with dt := 10000000#64, boundary := 11000000 } }
     (s.audioPort 0).changes = [⟨1, .migration, 0#64⟩] ∧ (0#64 : W64).toNat + (s.audioSet 0).nat 16 10 * 1000000 ≤ (s.advance 0).now) := by
  and_intros <;> decide +kernel

/-- A unit that an engine finished. -/
def unitIn : UnitIn := ⟨3, 1, 0#64, 1000000, none, false, false, false, false, false, false, false, false, .pcm 2 48000 0 []⟩

/-- A unit in the queue of the collector. -/
def outUnit (kind tick : Nat) : OutUnit := ⟨svc3.field, kind, 0#16, 0#64, 1000000, 0#32, [1#8, 2#8, 3#8, 4#8], tick⟩

/-- A device that collects a unit of slot 3 into ring 0. -/
def devOut : State := { devRing with
  services := [svc3], streams := [strm 1 (some 0) false], units := [outUnit 1 0]
  outRings := (dev .serve).outRings.set 0 ⟨true, false, 0, 0, 0, 0, [], 0, some 250⟩ }

theorem witness_UnitsReachTheHost :
    (devOut.slotSvc? 3 = some svc3 ∧ devOut.stream? svc3.field 1 = some (strm 1 (some 0) false) ∧ svc3.state.costs = true ∧
      (strm 1 (some 0) false).lastPending = false ∧ Content_kind unitIn.content = unitIn.kind ∧ svc3.followed = false) ∧
    ((dev .serve).slotSvc? 3).isNone = true ∧
    (devOut.turns = [strm 1 (some 0) false] ∧ devOut.headUnit (strm 1 (some 0) false) = some (outUnit 1 0) ∧ devOut.relays = false ∧
      0 < devOut.outRings.length ∧ ((strm 1 (some 0) false).dress (outUnit 1 0)).flags &&& fLast = 0#32 ∧
      (devOut.ring 0).live = true ∧ devOut.ringNeed 0 (outUnit 1 0).payload.length ≤ devOut.ringFree 0) ∧
    ((devOut.ring 0).producer = 0 ∧ (devOut.ringSet 0).nat 2 = 0x1000_0000 ∧ (devOut.ringSet 0).nat 4 = 0x2000_0000) ∧
    ((dev .serve).turns = [] ∧ ({ devOut with time := { devOut.time with dt := 3000000#64 } } : State).tickNow = 3 ∧ devOut.tickNow = 0) ∧
    ((devOut.ring 0).timerUs.isSome = true ∧ (devOut.ring 1).timerUs = none ∧ devOut.rings.timerUs = none) ∧
    (let k : TsPacket := ⟨[0x47#8], 0#64, 0#64, false⟩
     let t := (tableDefaults tbl1010).set 0 (.num 1)
     let s : State := { dev .serve with
       force := { Settings.default with pkt := [t] }, pkts := [⟨[k], none, 0, 0, 0, 0, 0, 0⟩] }
     (s.pktSet 0).nat 1 = 1 ∧ (s.pktSet 0).nat 5 = 0 ∧ s.power.mode = .serve ∧ (s.pkts[0]?.map (·.queue)) = some [k]) := by
  and_intros <;> decide +kernel

/-- The tag that the device issues first. -/
theorem witness_UnitsReachTheHost_tag : devOut.nextTag = some 0 := by decide +kernel

/-- A device at a whole second with a service whose interval began at 0. -/
def devInt1 : State := { dev .serve with
  time := { (dev .serve).time with dt := 1000000000#64, boundary := 1001000000 }
  services := [{ svc3 with genSince := 5#64 }]
  streams := [strm 7 none false, strm 9 none false, strm 0xB none true]
  archive := { (dev .serve).archive with nextSec := [(svc3.field, 0)], index := [⟨svc3.field, 3#64, 0#64, 0, 1, 4⟩] } }

theorem witness_IntervalUnits :
    (devInt1.slotSvc? 3).isSome = true ∧ (devInt1.stream? svc3.field 7).isSome = true ∧ (strm 7 none false).flags &&& fPartial = 0#32 ∧
    devInt1.now % (svc3.force.lane.nat 6 1000 * 1000000) = 0 ∧ svc3.statFrom = 0#64 ∧ devInt1.time.dt = 1000000000#64 ∧
    (devInt1.stream? svc3.field 9).isSome = true ∧ (devS .serve).stream? svc3.field 9 = none ∧
    (devInt1.stream? svc3.field 0xB).isSome = true ∧ devInt1.archive.nextSec.find? (fun y => y.1 == svc3.field) = some (svc3.field, 0) ∧
    (0 + 1) * 1000000000 ≤ devInt1.now ∧ devInt1.streamsPast svc3.field ((0 + 1) * 1000000000) = true ∧
    ((dev .serve).slotSvc? 3).isNone = true := by and_intros <;> decide +kernel

/-- An FM service with or without RDS lock, an AM service with SYNC, and an LF time code. -/
def svcFm (sync : Bool) : Service := { svc3 with analogue := { svc3.analogue with rdsSync := sync } }

theorem witness_AnalogueEnginesReport :
    ((devS .serve).slotSvc? 3 = some svc3 ∧ svc3.state.costs = true ∧ fmStereo svc3.attrs = true ∧ svc3.analogue.rdsSync = false) ∧
    ((svcFm true).analogue.rdsSync = true ∧ fmStereo (svcFm true).attrs = true) ∧
    (keyStd (svcOf 0x3000_0000_0000_0381).attrs.key = 3 ∧ (svcOf 0x3000_0000_0000_0381).force.analogue.nat 7 1 = 1 ∧
      (svcOf 0x3000_0000_0000_0381).analogue.syncLock = false) ∧
    (keyStd (svcOf 0x4000_0000_0000_0001).attrs.key = 4 ∧
      ((devOn 0x4000_0000_0000_0001 []).format? ((svcOf 0x4000_0000_0000_0001).force.analogue.nat 11)) = some format0 ∧
      ({ dev .serve with services := [{ svcOf 0x4000_0000_0000_0002 with slot := 2 }, svcOf 0x4000_0000_0000_0001] } : State).sourceSlot 7 = some 2) ∧
    ({ svc3 with state := .parked } : Service).state.costs = false := by and_intros <;> decide +kernel

theorem witness_AnalogueEnginesReport_stereo : svc3.force.analogue.nat 2 = 0 := by decide +kernel

/-- An RDS group laid out by IEC 62106 outside the model: block A whole, one bit of B wrong, two adjacent bits of C′, three of D. -/
def rdsIn : RdsGroupIn := ⟨[(0x34F0B28#26, 0#26), (0x172100#26, 0#26), (0x34F3884#26, 0#26), (0x11500C2#26, 0#26)], 0, 0#64⟩

/-- Table 6.2 and R170: the confidences at limits 2 and 0, the words, and a block whose wrong bit is an erasure. -/
theorem test_rds_group :
    rdsDecode 2 rdsIn = ⟨0xD3C2#16, 0x0548#16, 0xD3C2#16, 0#16, [0, 1, 2, 3], true, 0, 0#64⟩ ∧
    (rdsDecode 0 rdsIn).conf = [0, 3, 3, 3] ∧ rdsBlock 0x198 0 (0x172100#26, 0x20000#26) = (0, 0x152100#26) := by
  and_intros <;> decide +kernel

theorem witness_AnalogueEnginesReport_groups :
    (∀ i, i < 4 → (rdsDecode 2 ⟨[], 0, 0#64⟩).conf.getD i 3 = 3) ∧ (∃ i, i < 4 ∧ (rdsDecode 2 rdsIn).conf.getD i 3 ≠ 3) ∧
    ((∃ i, i < 4 ∧ (rdsDecode 2 { rdsIn with blocks := rdsIn.blocks.set 0 (0#26, 7#26) }).conf.getD i 3 ≠ 3) ∧
      1 < (rdsDecode 2 { rdsIn with blocks := rdsIn.blocks.set 0 (0#26, 7#26) }).conf.getD 0 3) :=
  ⟨by decide +kernel, ⟨0, by decide +kernel⟩, ⟨1, by decide +kernel⟩, by decide +kernel⟩

/-- The carrier of the tests, with an engine. -/
def carr (e : Engine) : CarrierSt := ⟨0x9000_0000_0000_0001#64, 220352, 0, e, none⟩

theorem witness_EnsembleEngines :
    (devOn dabKey [.dab dabEng]).carriers = [] ++ carr (.dab dabEng) :: [] ∧ (carr (.dab dabEng)).key = 0x9000_0000_0000_0001#64 ∧
    dabModeIn 15 1 = true ∧ dabEng.synced = true ∧ dabEng.step4 = some 5#64 ∧
    (let s : State := { dev .serve with time := { (dev .serve).time with dt := 10000000005#64, boundary := 10001000000 } }
     (5#64 : W64).toNat + 10000000000 ≤ (s.advance 0).now ∧ (0#64 : W64).toNat + s.force.dab.nat 2 10 * 1000000000 ≤ (s.advance 0).now ∧
      ((dev .serve).advance 0).now < (0#64 : W64).toNat + s.force.dab.nat 2 10 * 1000000000) ∧
    ({ dabEng with nextMci := some (9, dabEng.subChs, [⟨0x1234#32, 0, 3, false, 0⟩]) } : DabEngine).nextMci.isSome = true ∧
    ({ dabEng with synced := false, lostAt := some 0#64 } : DabEngine).lostAt = some 0#64 := by and_intros <;> decide +kernel

theorem witness_TelevisionEngines :
    (devOn tvKey [.tv tvEng]).carriers = [] ++ carr (.tv tvEng) :: [] ∧ tvEng.synced = true ∧ tvEng.branches ≤ tvEng.branchLost + 1 ∧
    ({ tvEng with branches := 2 } : TvEngine).branchLost + 1 < 2 ∧ ({ tvEng with branchLost := 1 } : TvEngine).branchLost ≠ 0 ∧
    ({ tvEng with synced := false } : TvEngine).synced = false := by and_intros <;> decide +kernel

/-- A probe of discovery and one for slot 3. -/
def probe0 : ProbeIn := ⟨0, 98500, 0, none, false⟩

theorem witness_MapRows :
    ((dev .survey).power.mode.receives = true ∧ (dev .dormant).power.mode.receives = false ∧ ((dev .survey).advance 0).probeOk probe0 = true) ∧
    (let s : State := { dev .survey with map := { MapSt.reset with probes := [probe0] } }
     s.map.probes.any (fun x => x.standard == 0 && x.freqKhz == 98500 && x.input == 0 && x.forSlot == none) = true ∧ s.isMast = false ∧
      s.map.shadow.entries.length < 4096) ∧
    (devShadow.power.ready = true ∧ devShadow.isMast = false ∧
      (let s : State := { devShadow with map := { devShadow.map with due := true } }
       s.publishDue = true ∧ (s.dropLearned.relink.map.shadow == s.map.published) = false)) ∧
    ((dev .serve).publishDue = false ∧ State.reset.power.ready = false) ∧
    (let s : State := { devShadow with map := { devShadow.map with absent := [(0x1000_E100_0000_1234#64, 60000)] } }
     s.expired 0x1000_E100_0000_1234#64 = true) ∧ devShadow.expired 0x1000_E100_0000_1234#64 = false := by
  and_intros <;> decide +kernel

/-- A splice to another station, of a cause, begun at DT 0. -/
def splice0 (cause : Nat) (fb : Bool) : Splice :=
  ⟨cause, ⟨0x2000_0000_0001_8000#64, 98304, 0, .valid, 50, 0#64, 0#64, none, 0#64⟩, svc3.rx, 0#64, fb⟩

theorem witness_SplicesAndAlertsEnd :
    (let v : Service := { svc3 with follow := { svc3.follow with splice := some (splice0 1 false) } }
     let s : State := { dev .serve with services := [v], time := { (dev .serve).time with dt := 10000000000#64, boundary := 10001000000 } }
     (s.slotSvc? 3).map (·.follow.splice) = some (some (splice0 1 false)) ∧ v.slot = 3 ∧
      (s.advance 0).alignOk v (splice0 1 false) ⟨1, 0, 500, false⟩ = true ∧ (s.advance 0).alignOk v (splice0 1 false) ⟨1, 0, 499, false⟩ = false ∧
      (s.advance 0).alignOk v (splice0 0 true) ⟨3, 0, 0, true⟩ = true ∧
      (0#64 : W64).toNat + s.force.follow.nat 12 10 * 1000000000 ≤ (s.advance 0).now) ∧
    ((devS .serve).slotSvc? 3 = some svc3 ∧ svc3.follow.splice.isNone = true) ∧
    (let s : State := { dev .serve with alerts := [⟨0x20, 0x9000_0000_0000_0001#64, 0#64, 0, 0, 0, 0#32, 0#64, 0#64, []⟩] }
     s.alerts.all (s.advance 0).alertTimedOut = true) ∧ (dev .serve).alerts = [] := by and_intros <;> decide +kernel

/-- An ADC block whose spare is slice 16, with every trim 0. -/
def adc0 (mode fails estFails : Nat) : AdcCal :=
  ⟨⟨0, 0, 0#64, 0#16, 0#16⟩, mode, 16, 0#32, List.replicate 4 (List.replicate 17 ⟨0, 0, 0⟩), List.replicate 16 0 ++ [if mode = 0 then 1 else 0],
    List.replicate 17 fails, 0, List.replicate 17 estFails⟩

/-- A device that samples, with that block for ADC 0. -/
def devAdc (mode fails estFails : Nat) : State := { dev .serve with
  clk := { (dev .serve).clk with adcOn := true }, cal := { (dev .serve).cal with adcA := adc0 mode fails estFails } }

/-- Results within all limits, within the value limits only, and outside them. -/
def rot (offset : Int) : RotationIn := ⟨0, 25, offset, 0, 0, 0, 0⟩

theorem witness_CalibrationResults_rotation :
    ((devAdc 0 0 0).adcRuns = true ∧ (devAdc 0 0 0).force.cal.nat 1 1 = 1 ∧ ((devAdc 0 0 0).adcCal 0).mode = 0) ∧
    ((⟨64, 32, 20⟩ : SliceTrim).ok = true ∧ (⟨64, 32, 20⟩ : SliceTrim).near (((devAdc 0 0 0).adcCal 0).trim 0 16) = true) ∧
    ((⟨65, 0, 0⟩ : SliceTrim).ok = true ∧ (⟨65, 0, 0⟩ : SliceTrim).near (((devAdc 0 0 0).adcCal 0).trim 0 16) = false) ∧
    ((⟨1025, 0, 0⟩ : SliceTrim).ok = false ∧ (⟨1024, 655, 200⟩ : SliceTrim).ok = true) ∧
    (((adc0 0 0 0).fails.modify 16 (fun n => min 255 (n + 1))).getD 16 0 = 1 ∧
      ((adc0 0 2 0).fails.modify 16 (fun n => min 255 (n + 1))).getD 16 0 = 3) ∧
    (dev .dormant).adcRuns = false := by and_intros <;> decide +kernel

theorem witness_CalibrationResults_estimation :
    ((devAdc 1 0 0).adcRuns = true ∧ ((devAdc 1 0 0).adcCal 0).mode = 1 ∧ ((devAdc 1 0 0).adcCal 0).status.getD 5 9 = 0 ∧
      ((devAdc 1 0 0).adcCal 0).status.count 3 = 0 ∧ ((devAdc 1 0 0).adcCal 0).estFails.getD 5 0 + 1 < 3) ∧
    3 ≤ ((devAdc 1 0 2).adcCal 0).estFails.getD 5 0 + 1 := by and_intros <;> decide +kernel

/-- A list is within any limit of itself. -/
theorem within_self (m : Nat) (xs : List Int) : within m xs xs = true := by
  simp only [within, List.all_eq_true]
  intro x hx
  have h : x.1 = x.2 := by
    induction xs with
    | nil => simp at hx
    | cons a as ih =>
      rw [List.zip_cons_cons, List.mem_cons] at hx
      rcases hx with rfl | hx
      · rfl
      · exact ih hx
  simp [h]

/-- A device in whose ticks flatness bursts begin, and a burst that gives the factory lines. -/
def devBurst : State := { dev .serve with lanes := [⟨0, 0, 0, 7, 0, none, 0, 0, 0, 0, 0, 0, 0, [], [3], [], false, 0#64⟩] }

theorem witness_CalibrationResults_burst :
    devBurst.burstTick 0 devBurst.tickNow = true ∧ devBurst.coex.reqIn = false ∧ (dev .dormant).burstTick 0 (dev .dormant).tickNow = false := by
  and_intros <;> decide +kernel

theorem witness_CalibrationResults_lines :
    linesOk 0 (factoryLines 0) = true ∧ within 50 (factoryLines 0) (devBurst.flat 0).lines = true ∧
      (factoryLines 0).length = (devBurst.flat 0).lines.length :=
  ⟨within_self _ _, within_self _ _, rfl⟩

/-- Lines 3.01 dB above the factory's break the limit. -/
theorem witness_CalibrationResults_refused : linesOk 0 ((factoryLines 0).map (· + 301)) = false := by
  have h : ∀ x xs, factoryLines 0 = x :: xs → linesOk 0 ((factoryLines 0).map (· + 301)) = false := by
    intro x xs e
    simp only [linesOk, within, e, List.map_cons, List.zip_cons_cons, List.all_cons, Bool.and_eq_false_imp, decide_eq_true_eq]
    omega
  have n : (factoryLines 0).length = 335 := by simp [factoryLines, flatBlock, flatSizes, FlatCal.factory]
  match e : factoryLines 0 with
  | [] => rw [e] at n; exact absurd n (by decide)
  | x :: xs => rw [← e]; exact h x xs e

/-- A head whose first 16 bursts have come, with no fit yet. -/
def devFit (st : LinkState) (b : Nat) : State :=
  let s := devT 2 .serve st
  { s with trunk := { s.trunk with bursts := b }, cal := { s.cal with eq := ⟨⟨0, 0, 0#64, 0#16, 0#16⟩, [], none⟩, lockTicks := 1000000 }
           refs := { s.refs with tstate := .locked } }

theorem witness_CalibrationResults_fit :
    ((devFit .control 16).advance 0).fitDue = true ∧ (devFit .control 16).cal.job = none ∧ ((devFit .control 15).advance 0).fitDue = false ∧
    (devFit .control 0).force.cal.nat 4 1 = 1 ∧ (devFit .control 0).refs.tstate = .locked ∧ 1000000 ≤ (devFit .control 0).cal.lockTicks := by
  and_intros <;> decide +kernel

/-- A device whose change of mode or sub-state has come to its tick, or is under way. -/
def devGoing (m : Mode) (sub : SubState) (target : Mode) (goal : SubState) (begun : Bool) : State := { dev m with
  power := { (dev m).power with sub := sub, change := some ⟨target, goal, 0, 0, begun⟩ } }

theorem witness_ModeTransitions :
    (dev .serve).power.change = none ∧
    ((devGoing .dormant .warm .serve .warm false).power.change = some ⟨.serve, .warm, 0, 0, false⟩ ∧
      (devGoing .dormant .warm .serve .warm false).serving = true) ∧
    ((devGoing .dormant .warm .dormant .cold false).power.mode = .dormant ∧ SubState.warm.code ≤ SubState.cold.code) ∧
    (devGoing .dormant .warm .serve .warm true).power.change = some ⟨.serve, .warm, 0, 0, true⟩ := by and_intros <;> decide +kernel

/-- A device in a trial that has lasted some ticks, and whose journal has a change of group 0 to store. -/
def devTrial (n cnt : Nat) : State := { dev .serve with
  flash := { (dev .serve).flash with trialTick := some n }, power := { (dev .serve).power with startPend := true }
  journal := { JournalSt.reset with
    sys := ⟨1, 0, cnt, false, 0#32, 0#32, 0⟩, dirty := [(0, 5)]
    sectors := ⟨false, false, true, 1, 1, 255, []⟩ :: JournalSt.reset.sectors.tail } }

theorem witness_ImagesTrialsAndJournal :
    ((dev .serve).activationDue = none ∧ (devSlot ⟨.scheduled, 0, 0#32, 0, some 0#64, none⟩).activationDue = some 1 ∧
      (dev .serve).flash.trialTick = none) ∧
    ((devTrial 59999 0).flash.trialTick = some 59999 ∧ (devTrial 60000 0).serving = true ∧ (devTrial 0 0).power.startPend = true ∧
      (devTrial 0 0).journal.sys.trialCount = 0 ∧ (devTrial 0 1).journal.sys.trialCount = 1) ∧
    ((devTrial 0 0).journal.dirty.any (·.1 == 0) = true ∧ (devTrial 0 0).journal.readOnly = false ∧
      ((devTrial 0 0).journal.sector (devTrial 0 0).journal.current).inUse = true ∧
      ((devTrial 0 0).journal.sector (devTrial 0 0).journal.current).nextPage + recordPages 236 ≤ 256 ∧ recordPages 236 = 1) ∧
    (devTrial 0 0).journal.dirty.any (·.1 == 1) = false := by and_intros <;> decide +kernel

/-- What a start meets: BOOT 0, no segment to load. -/
def start0 : StartIn := ⟨0, 0, 0x100_0000, [], 3, 0⟩

theorem witness_ResetsAndStart :
    ((dev .serve).power.railsGood = true ∧ (dev .serve).thermal.shutdown = false ∧ (dev .serve).power.ioUp = true) ∧
    ({ dev .serve with power := { (dev .serve).power with railsGood := false } } : State).power.railsGood = false ∧
    (State.reset.power.railsGood = true ∧ State.reset.power.ioUp = false ∧ State.reset.thermal.shutdown = false ∧
      (State.reset.startHard start0).bootChoice = none) := by and_intros <;> decide +kernel

/-- The key of RFC 6979, A.2.5, and a signature under it over `imgHead`, made outside the model. -/
def imgKey : List Byte := be 32 0x60FED4BA255A9D31C961EB74C6356D68C049B8923B61FA6CE669622E60F29FB6
  ++ be 32 0x7903FE1008B8BC99A41AE9E95628BC64F2F1B20C2D7E9F5177A3C294D4462299
def imgSigR : List Byte := be 32 0x19245b617dab6939e4072b538e9aebac0183f2850ca324bb67ce0461d68365e7
def imgSigS : List Byte := be 32 0xc3c872af195f74e1036ddb11340bf87c5494e0a03f20d719a8aed56fb1a70ed5

/-- Bytes 0 to 263 of an image header by Table 18.2: version 1.2.3, format 5, key slot 1, one segment of 4 bytes at 384. -/
def imgHead : List Byte :=
  [0x4C#8, 0x58#8, 0x46#8, 0x57#8] ++ le 2 1 ++ le 2 384 ++ le 2 0x9484 ++ le 2 1 ++ le 2 1 ++ zeros 10 ++ le 4 0x01020003 ++ le 4 388
    ++ le 2 5 ++ le 2 3 ++ [1#8, 1#8, 0#8, 0#8] ++ ([0#8, 0#8] ++ le 2 1 ++ le 4 384 ++ le 4 4 ++ zeros 4) ++ zeros 112 ++ imgKey
    ++ be 32 0x4f832505defd22734dacf092b64b408d96b812b45ed1360323a63fd050165ded

/-- The image: its header, and a body of 4 bytes. -/
def imgBytes : List Byte := imgHead ++ imgSigR ++ imgSigS ++ zeros 56 ++ [0x94#8, 0x84#8, 0x01#8, 0x02#8]

/-- A reset device that holds the image in slot 0, and the hash of its key in key slot 1. -/
def devImage : State := { State.reset with flash := { State.reset.flash with
  mem := Memory.writeN flashDefault [] 0 imgBytes
  keys := [⟨none, false⟩, ⟨some (be 32 0xd6c23e2744a840cb3a5a14b6554cce7c070057c4e3298cb93577de687eece659), false⟩, ⟨none, false⟩, ⟨none, false⟩] } }

/-- The state with the flash that a start finds. -/
def devBoot : State := { devImage with flash := { devImage.flash with size := 0x100_0000 } }

theorem test_image_form : devBoot.headerForm (imgBytes.take 384) none = 0 := by decide +kernel
theorem test_image_digest : sha256 (imgBytes.drop 384) = (imgBytes.drop 232).take 32 := by decide +kernel
theorem test_image_key : sha256 imgKey = be 32 0xd6c23e2744a840cb3a5a14b6554cce7c070057c4e3298cb93577de687eece659 := by decide +kernel
theorem test_image_signature : ecdsaValid imgKey imgSigR imgSigS imgHead = true := by decide +kernel

/-- The header and the body as the start reads them. -/
theorem test_image_halves : devBoot.slotBytes 0 0 384 = imgBytes.take 384 ∧ devBoot.slotBytes 0 384 4 = imgBytes.drop 384 := by
  have q := Memory.readN_writeN flashDefault [] 0 imgBytes rfl
  have n : imgBytes.length = 384 + 4 := by decide +kernel
  rw [n] at q
  have b : devBoot.slotBase 0 + 0 = 0 := by decide +kernel
  have h : devBoot.slotBytes 0 0 (384 + 4) = imgBytes := by
    unfold State.slotBytes
    rw [b, show devBoot.flash.mem = Memory.writeN flashDefault [] 0 imgBytes by simp only [devBoot, devImage], q]
  have a : devBoot.slotBytes 0 0 (384 + 4) = devBoot.slotBytes 0 0 384 ++ devBoot.slotBytes 0 384 4 := Memory.readN_add ..
  have l : (devBoot.slotBytes 0 0 384).length = 384 := Memory.length_readN ..
  rw [h] at a
  constructor
  · rw [a, List.take_left' l]
  · rw [a, List.drop_left' l]

theorem test_image_reason : devBoot.slotReason 0 = 0 := by
  have hd := test_image_halves.1
  have n : field (imgBytes.take 384) 28 4 - 384 = 4 := by decide +kernel
  have bd : devBoot.slotBytes 0 384 (field (imgBytes.take 384) 28 4 - 384) = imgBytes.drop 384 := by rw [n]; exact test_image_halves.2
  have dg : ((imgBytes.take 384).drop 232).take 32 = (imgBytes.drop 232).take 32 := by decide +kernel
  have pb : ((imgBytes.take 384).drop 168).take 64 = imgKey := by decide +kernel
  have rr : ((imgBytes.take 384).drop 264).take 32 = imgSigR := by decide +kernel
  have ss : ((imgBytes.take 384).drop 296).take 32 = imgSigS := by decide +kernel
  have ms : (imgBytes.take 384).take 264 = imgHead := by decide +kernel
  have ky : devBoot.flash.keys[field (imgBytes.take 384) 36 1]?.getD ⟨none, false⟩
      = ⟨some (be 32 0xd6c23e2744a840cb3a5a14b6554cce7c070057c4e3298cb93577de687eece659), false⟩ := by decide +kernel
  simp [State.slotReason, State.headerReason, State.headerKeys, State.digestOk, hd, bd, dg, pb, rr, ss, ms, ky, test_image_form,
    test_image_digest, test_image_key, test_image_signature]

/-- A slot at a start depends on the flash and on the loader only. -/
theorem slotAtStart_congr (s t : State) (i : Nat) (f : s.flash = t.flash) (r : s.power.recovery = t.power.recovery) :
    s.slotAtStart i = t.slotAtStart i := by
  have h (l : Option Nat) (hd : List Byte) : s.headerReason hd l = t.headerReason hd l := by
    have e : s.headerForm hd l = t.headerForm hd l := by unfold State.headerForm State.slotSize; rw [f]
    have k : s.headerKeys hd = t.headerKeys hd := by unfold State.headerKeys; rw [f]
    unfold State.headerReason; rw [e, k, f, r]
  have b (o n : Nat) : s.slotBytes i o n = t.slotBytes i o n := by simp only [State.slotBytes, State.slotBase, State.slotSize, f]
  have g : s.slotReason i = t.slotReason i := by
    unfold State.slotReason State.digestOk
    simp only [b]
    rw [h]
  have o : s.slot i = t.slot i := by simp only [State.slot, f]
  unfold State.slotAtStart
  rw [b, g, o]

/-- What a start finds in slot 0. -/
theorem startHard_slot0 (s : State) (inp : StartIn) (h : s.flash.trialHit = false) :
    (s.startHard inp).flash.slot0 = ({ s with flash := { s.flash with size := inp.sfdpSize } } : State).slotAtStart 0 ∧
      (s.startHard inp).journal = s.journal := by
  simp only [State.startHard, State.emit, State.modCal, h]
  exact ⟨slotAtStart_congr _ _ 0 rfl rfl, rfl⟩

theorem test_image_start : (devBoot.slotAtStart 0).state = .bootable := by
  have nb : (devBoot.slotBytes 0 0 384).all (· == flashDefault) = false := by rw [test_image_halves.1]; decide +kernel
  have ns : (devBoot.slot 0).state = .empty := by decide +kernel
  simp [State.slotAtStart, nb, test_image_reason, ns]

theorem witness_ResetsAndStart_image : start0.boot ≠ 1 ∧ (devImage.startHard start0).bootChoice = some 0 ∧ start0.segs = [] := by
  have h := startHard_slot0 devImage start0 (by decide +kernel)
  have b : (devImage.startHard start0).journal.sys.bootSlot = 0 := by rw [h.2]; decide +kernel
  have e : ({ devImage with flash := { devImage.flash with size := start0.sfdpSize } } : State) = devBoot := rfl
  rw [e] at h
  have z : (devImage.startHard start0).slot 0 = devBoot.slotAtStart 0 := by rw [State.slot, if_pos rfl]; exact h.1
  exact ⟨by decide, by simp [State.bootChoice, b, z, test_image_start], rfl⟩

/-- A device whose backup domain has a calendar value, interface, and HALT. -/
def devRtc (c : RtcCal) (locked halt : Bool) (w : List RtcWrite) : State := { dev .serve with
  time := { (dev .serve).time with dt := 1000000000#64, boundary := 1001000000 }
  rtc := { RtcSt.reset with cal := c, locked := locked, halt := halt, write := w, osf := false } }

theorem witness_ClockChipRows :
    ((devRtc ⟨2199, 12, 31, 23, 59, 59⟩ false false []).rtc.cal = ⟨2199, 12, 31, 23, 59, 59⟩ ∧
      (devRtc ⟨2000, 1, 1, 0, 0, 0⟩ false true []).rtc.halt = true ∧ (dev .serve).power.startPend = false) ∧
    ({ State.reset with power := { State.reset.power with startPend := true } } : State).rtc.locked = true ∧
    (devRtc ⟨2000, 1, 1, 0, 0, 0⟩ false false [⟨2, ⟨2000, 1, 1, 0, 0, 0⟩, 0⟩]).rtc.write = [⟨2, ⟨2000, 1, 1, 0, 0, 0⟩, 0⟩] ∧
    (let s : State := { devRtc ⟨2000, 1, 1, 0, 0, 0⟩ false false [] with refs := { RefSt.reset with tstate := .locked, timeSrc := some 4 } }
     s.refs.tstate = .locked ∧ s.refs.timeSrc = some 4 ∧ (s.advance 0).now % 1000000000 = 0 ∧ inLeapSecond s.leapTable (s.advance 0).now = false ∧
      0 ≤ (s.advance 0).utcSeconds (s.advance 0).now ∧ ((s.advance 0).utcSeconds (s.advance 0).now).toNat ≤ calendarEnd.seconds ∧
      s.rtc.lockedDue = false ∧ s.rtc.lastSet.isNone = true) := by and_intros <;> decide +kernel

theorem witness_BoundaryScan : State.reset.power.railsGood = true ∧ State.reset.jtag.tap = .testLogicReset ∧ State.reset.jtag.ir = [] := by
  and_intros <;> decide +kernel

/-- A burst of the link's own pair, 9. -/
def burst9 : ControlBurst := ⟨2, 9#32, 100, 20, []⟩

/-- A device of a role with its link in a state and pair identity 9. -/
def devPair (role : Nat) (m : Mode) (st : LinkState) (f : TrunkSt → TrunkSt) : State :=
  let t := (Settings.default.trunk.set 0 (.num role)).set 1 (.num 9)
  { devT role m st with
    acc := { Settings.default with trunk := t }, force := { Settings.default with trunk := t }, trunk := f { TrunkSt.reset with state := st } }

/-- A command that waits for the mast. -/
def remote0 (sends : Nat) : Remote := ⟨4, .service, 7#16, 5#16, nopPkt, sends, 0#64, none, some 0#64⟩

/-- The 48 bytes of a record header for a unit of slot 3. -/
def record0 : List Byte := recordBytes 0 0 (outUnit 1 0) 0 0#32 noArchive

theorem witness_TrunkFramesAndPackets :
    ((devPair 2 .serve .search id).serving = true ∧ (devPair 2 .serve .search id).isHead = true ∧ (devPair 2 .serve .search id).tickNow % 2 = 0 ∧
      burst9.pairId.toNat = (devPair 2 .serve .search id).force.trunk.nat 2 ∧ (10#32).toNat ≠ (devPair 2 .serve .search id).force.trunk.nat 2) ∧
    ((devPair 1 .relay .search (fun t => { t with heard := true })).isMast = true ∧
      (devPair 1 .relay .search (fun t => { t with heard := true })).trunk.heard = true) ∧
    (devPair 2 .serve .data id).trunk.useBursts = false ∧ 48 ≤ record0.length ∧
    (let x := unitOfRecord record0 ((devPair 2 .serve .data id).advance 0).tickNow
     let s : State := { devPair 2 .serve .data id with streams := [strm 1 none false] }
     (s.stream? x.slot x.kind).isSome = true ∧ ((devPair 2 .serve .data id).stream? x.slot x.kind).isNone = true) ∧
    (devPair 1 .relay .control id).serves .trunk = true ∧
    (0x8000 ≤ field (le 2 0x8009 ++ zeros 18) 0 2 ∧ field (le 2 3 ++ le 2 0 ++ le 2 5 ++ zeros 14) 4 2 = 5 ∧
      (devPair 2 .serve .data (fun t => { t with remotes := [remote0 0] })).trunk.remotes = [remote0 0]) := by
  and_intros <;> decide +kernel

theorem witness_TrunkTablesAndMeasurements :
    (let s := devPair 2 .serve .control id
     s.trunk.state = .control ∧ s.trunk.pendMask = none ∧ s.trunk.maskGen = 0#16 ∧ s.rxDir.switch = none ∧ s.rxDir.acked = false ∧ s.isMast = false) ∧
    (let s := devPair 2 .serve .data (fun t => { t with mh := { t.mh with switch := some (1, 9) } })
     s.txDir.active = 0 ∧ s.rxDir.switch = some (1, 9)) ∧
    ((devPair 1 .relay .data id).isMast = true ∧ (devPair 1 .relay .data id).isHead = false) ∧
    (devPair 1 .relay .search (fun t => { t with heard := true })).trunk.heard = true := by and_intros <;> decide +kernel

/-- A link whose window begins at DT 0, at DT 1 s. -/
def devWin (role : Nat) (st : LinkState) (f : TrunkSt → TrunkSt) : State := { devPair role .serve st f with
  time := { (dev .serve).time with dt := 4000000000#64, boundary := 4001000000 } }

theorem witness_TrunkSleepCallsAndLoss :
    ((devWin 2 .data id).trunk.lastHeard.toNat + 1000000000 ≤ ((devWin 2 .data id).advance 0).now) ∧
    (devWin 2 .data (fun t => { t with ackFrames := 16 })).trunk.useBursts = false ∧ (devPair 1 .relay .data id).power.mode = .relay ∧
    ((devWin 2 .sleep id).meetFrom ≤ (((devWin 2 .sleep id).advance 0).now : Int) ∧ (devWin 2 .sleep id).trunk.winOpen = false) ∧
    (let s := devWin 2 .sleep (fun t => { t with winOpen := true, winOk := true })
     s.meetUntil ≤ ((s.advance 0).now : Int) ∧ s.trunkWork = false ∧ s.trunk.listens = true) ∧
    ((devWin 2 .sleep (fun t => { t with winOpen := true, winOk := true, remotes := [remote0 0] })).trunkWork = true) ∧
    (devWin 2 .sleep id).callOk (wakeCallBytes 9 1 1) = true ∧ (devWin 2 .sleep id).callOk (wakeCallBytes 8 1 1) = false ∧
    ((devWin 2 .recovery (fun t => { t with callDue := some 0#64 })).trunk.callDue = some 0#64 ∧
      (devWin 2 .recovery id).trunk.since.toNat + 4000000000 ≤ ((devWin 2 .recovery id).advance 0).now) ∧
    ((devWin 2 .lost id).isHead = true ∧ (devWin 2 .data (fun t => { t with remotes := [remote0 2] })).trunk.remotes = [remote0 2] ∧
      (remote0 2).acked = some 0#64 ∧ (0#64 : W64).toNat + 20000000 ≤ ((devWin 2 .data id).advance 0).now ∧ 3 ≤ (remote0 3).sends) := by
  and_intros <;> decide +kernel

/-- A parked command. -/
def nop7 : Instr := .nop cmd []

theorem witness_StepTakesTheFrontCommand : ({ State.reset with pending := [nop7] } : State).pending = [nop7] ∧ State.reset.pending = [] := by
  and_intros <;> decide +kernel

theorem witness_AbsentSlotsAreBadSlot :
    encodeParams (.serviceRemove cmd3) = some (0x0202, cmd3, []) ∧ (dev .serve).serves cmd3.tr = true ∧
    ((dev .serve).advance cmd3.wait).port cmd3.tr = Port.reset ∧ cmd3.slot ≠ 0xFFFF#16 ∧ (dev .serve).services = [] ∧
    ({ svc3 with inc := 8 } : Service).inc ≠ cmd3.slot.toNat / 256 := by and_intros <;> decide +kernel

theorem witness_RetriesAreNotExecuted :
    encodeParams (.nop cmd []) = some (0x0003, cmd, []) ∧ (dev .serve).serves cmd.tr = true ∧
    (let s : State := { dev .serve with pSvc := { Port.reset with dups := [⟨cmd.seq, cmd.trailer, 0, some reply0⟩] } }
     (s.port cmd.tr).dups.find? (fun d => d.seq == cmd.seq && d.trailer == cmd.trailer) = some ⟨cmd.seq, cmd.trailer, 0, some reply0⟩) ∧
    ((dev .serve).port cmd.tr).dups.length ≤ 32 := by and_intros <;> decide +kernel

theorem witness_IgnoredDoorbells :
    State.reset.power.ready = false ∧ (dev .serve).force.cmdRing.nat 1 ≠ 1 ∧ devRings.serves .pcie = true ∧ devRings.force.cmdRing.nat 1 = 1 ∧
    (63#24).toNat % 64 ≠ 0 ∧ devRings.force.cmdRing.nat 3 1 < (4160#24).toNat ∧ devRings.power.ioUp = true := by and_intros <;> decide +kernel

theorem witness_EventsAreQueuedAndFetched :
    (let s := devPair 1 .serve .data id
     (s.force.evMask.getD 0 0).getLsbD 3 = true ∧ s.replyRingOn = false ∧ (s.force.evMask.getD 3 0).getLsbD 3 = true ∧ s.isMast = true ∧
      (s.force.evMask.getD 1 0).getLsbD 3 = false) ∧
    ({ dev .serve with force := { Settings.default with evMask := [0#128, 0x8#128, 0x8#128, 0#128] } } : State).force.evMask.length = 4 ∧
    (Taken ⟨0x0005, .none, allModes, .mailboxes⟩ cmdP (dev .serve) ∧ Taken ⟨0x0005, .none, allModes, .mailboxes⟩ { cmd with tr := .twoWire } (dev .serve)) ∧
    (Taken (gateAll 0x0005) cmd (dev .serve) ∧ cmd.tr ≠ .twoWire ∧ cmd.tr ≠ .pcie) := by
  unfold Taken; and_intros <;> decide +kernel

theorem witness_DeviceSettingsTakeForce :
    (dev .serve).up = true ∧ (dev .serve).serving = true ∧ (dev .serve).time.boundary < 2 ^ 64 ∧ (dev .serve).thermal.level = 0 ∧
    (tickAt 250#16).temp.toInt < 1050 ∧ (dev .serve).power.resetIn = none ∧ (dev .serve).power.recovery = false ∧
    ({ dev .serve with sched := [⟨1, Settings.default⟩] } : State).sched.map (·.ticksLeft) = [1] := by and_intros <;> decide +kernel

theorem witness_CommandPacketsRoundTrip :
    nop7.wf = true ∧ encodeParams nop7 = some (0x0003, cmd, []) ∧
    (nopHdr .service false).trailer = crc32 ((commandPacket 0x0003 (nopHdr .service false) []).take 16) ∧
    (0#32 : W32) ≠ crc32 ((commandPacket 0x0003 (nopHdr .service false) []).take 16) := by and_intros <;> decide +kernel

theorem witness_invariants :
    State.reset.portsBounded = true ∧ State.reset.memWf = true ∧
    (match step State.reset with | .next _ => true | _ => false) = true := by and_intros <;> decide +kernel

/-! ### Ill-formed terms are refused -/

theorem test_wf_count : (Instr.nop cmd (List.replicate 65 0#8)).wf = false ∧ (Instr.nop cmd (List.replicate 64 0#8)).wf = true := by
  and_intros <;> decide +kernel
theorem test_wf_hash : (Instr.otpKey cmd 0#8 0#8 0#16 []).wf = false := by decide +kernel
theorem test_wf_remote : (Instr.trunkRemote cmd (zeros 19)).wf = false ∧ (Instr.trunkRemote cmd nopPkt).wf = true := by
  and_intros <;> decide +kernel
theorem test_wf_names : (Instr.referenceLoss 9 0).wf = false ∧ (Instr.ringModerationTimer 65 0).wf = false ∧
    (Instr.coexInputStuck 3 0).wf = false ∧ (Instr.engineSettled 256 0).wf = false ∧ (Instr.engineSettled 255 0).wf = true := by
  and_intros <;> decide +kernel
theorem test_wf_length : (Instr.imageData { cmd with tr := .trunk } 0#8 0#32 (zeros 4037)).wf = false ∧
    (Instr.imageData cmd 0#8 0#32 (zeros 4037)).wf = true := by and_intros <;> decide +kernel

/-! ### Known answers from outside the model -/

/-- What leaves a state that an outcome answers. -/
def outOf (r : Res) : List Out := match r with | .next t => t.out | _ => []

/-- The bytes of a string of ASCII characters. -/
def ascii (s : String) : List Byte := s.toList.map (fun c => BitVec.ofNat 8 c.toNat)

/-- The check values of CRC-32 and CRC-16/CCITT-FALSE over the digits 1 to 9. -/
theorem test_crc : crc32 (ascii "123456789") = 0xCBF43926#32 ∧ crc16 (ascii "123456789") = 0x29B1#16 ∧
    crc8 0x07#8 0x00#8 (ascii "123456789") = 0xF4#8 := by and_intros <;> decide +kernel

/-- SHA-256 of "abc" (FIPS 180-4). -/
theorem test_sha256 : sha256 (ascii "abc") = be 32 0xba7816bf8f01cfea414140de5dae2223b00361a396177a9cb410ff61f20015ad := by decide +kernel

/-- Chapter 2, converting a stamp: B + 400 ms falls in 2025-01-01T00:00:00 UTC with L = 5; 59.999 s before, in 2024. -/
theorem test_stamp_to_utc :
    let s : State := { dev .serve with time := { (dev .serve).time with image := builtinLeap } }
    leapL s.leapTable 789004805400000000 = 5 ∧ s.utcSeconds 789004805400000000 = 789004800 ∧
    inLeapSecond s.leapTable 536544004000000000 = true ∧ inLeapSecond s.leapTable 536544005000000000 = false := by
  and_intros <;> decide +kernel


/-- Chapter 6, a format 0 frame: 2025-03-14T10:27 with weekday 5 is DT 795,263,225 s. -/
theorem test_timecode_example :
    let bit (b : Nat) : Nat := if b = 1 then 200 else 100
    let widths := [500] ++ ([1,1,1,0,0,1,0, 0, 0, 0,0,0,0,1,0, 1, 0,0,0, 0,0,1,0,1,0, 1,1,0,0,0, 1,0,1,0,0,1,0,0, 1, 1,0,1, 0, 0].map bit)
      ++ List.replicate 14 100 ++ [0]
    let ms := (widths.map (tcClassify format0)).map (tcMeaning format0)
    let s : State := { dev .serve with time := { (dev .serve).time with image := builtinLeap } }
    widths.length = 60 ∧ tcReasonOf format0 ⟨widths, 0#64, false⟩ ms = 0 ∧ s.tcLabelDt format0 ms = 795263225000000000#64 ∧
    tcReasonOf format0 ⟨widths, 0#64, false⟩ (ms.set 2 0) = 4 := by and_intros <;> decide +kernel

/-- Chapter 8: a PLP of 50 Mbit/s at rate 2/3 is 4 tiles at I = 12, and 25 tiles are 24,494,400 edge-iterations. -/
theorem test_ldpc_budget :
    plpTiles ⟨0, 50000, 2, 3, 64800, 0, 0, false, 0#16, 0#16, false⟩ 12 = 4 ∧ tilesOf 244944000 = 25 := by and_intros <;> decide +kernel

/-- Chapter 12: the guard of an hourly meeting is 5.96 ms at σ = 0.6 ppm, and 183.8 ms (twice that) at 50 ppm. -/
theorem test_guard :
    ({ TrunkSt.reset with pS := 3600, rhos := [600, 0, 300] } : TrunkSt).guard = 5960000 ∧
    ({ TrunkSt.reset with pS := 3600 } : TrunkSt).guard = 183800000 ∧
    ({ TrunkSt.reset with pS := 3600, doubled := 8 } : TrunkSt).guard = 367600000 := by and_intros <;> decide +kernel

/-- Chapter 15: the parameters of a LANE_CONFIG that sets items 2 and 3. -/
theorem test_lane_config_bytes :
    encodeParams (.laneConfig cmd3 [num 2 4 3, num 3 4 20]) = some (0x0A04, cmd3,
      [0x02, 0x00, 0x04, 0x00, 0x03, 0x00, 0x00, 0x00, 0x03, 0x00, 0x04, 0x00, 0x14, 0x00, 0x00, 0x00]) ∧
    decodeParams 0x0A04 cmd3 [0x02, 0x00, 0x04, 0x00, 0x03, 0x00, 0x00, 0x00, 0x03, 0x00, 0x04, 0x00, 0x14, 0x00, 0x00, 0x00]
      = some (.laneConfig cmd3 [num 2 4 3, num 3 4 20]) ∧
    decodeParams 0x0A04 cmd3 [0x02, 0x00, 0x05, 0x00, 0x03, 0x00, 0x00, 0x00] = none := by and_intros <;> decide +kernel

/-- Chapter 16: a read across a carry. -/
theorem test_read_across_carry :
    let s : State := { dev .serve with time := { (dev .serve).time with dt := 0x0AF31BB1FFFFFFF0#64, boundary := 0x0AF31BB200000000 + 500000, seeded := true } }
    outOf (exec (.multiwordSnapshotRead .pcie 0x0040#16 0) s) = [.readData [0xF0, 0xFF, 0xFF, 0xFF]] ∧
    (match exec (.multiwordSnapshotRead .pcie 0x0040#16 0) s with
      | .next t => outOf (exec (.multiwordSnapshotRead .pcie 0x0044#16 16) t)
      | _ => []) = [.readData [0xF0, 0xFF, 0xFF, 0xFF], .readData [0xB1, 0x1B, 0xF3, 0x0A]] := by and_intros <;> decide +kernel

/-- Chapter 17: the ATTN write of a device at 0x5A with MBOX_REPLY and EVENT_PENDING set. -/
theorem test_attn_write :
    let s : State := { dev .serve with
      tw := { (dev .serve).tw with addrBits := 2, attn := some ⟨0#64, 0, 0⟩ }
      busT := { BusRegs.reset with intStatus := 0x1#32, intEnable := 0x3#32 }, pTw := { Port.reset with events := [event0] } }
    outOf (exec (.attnWrite .sent 0) s) = [.attnWrite [0x10, 0xB4, 0x03, 0x00]] := by decide +kernel

/-- Chapter 19: the sub-state for a budget of 150 ms, and those at the limits. -/
theorem test_budget : subForBudget 150 = .warm ∧ subForBudget 400 = .cool ∧ subForBudget 119 = .hot ∧ subForBudget 1500 = .cold := by
  and_intros <;> decide +kernel

/-- A NOP packet laid out by Table 14.1, byte by byte, is the NOP of the service port with SEQ 7 and SLOT 0xFFFF. -/
theorem test_nop_packet :
    nopBytes.take 16 = [0x03, 0x00, 0x01, 0x00, 0x07, 0x00, 0x00, 0x00, 0xFF, 0xFF, 0x00, 0x00, 0x00, 0x00, 0x00, 0x00] := by decide +kernel

/-- A wake call: 16 bits of preamble, the synchronisation word, and the pair identity, type and sender under their CRC. -/
theorem test_wake_call : (wakeCallBytes 9 1 0).take 10 = [0xAA, 0xAA, 0xB3, 0x8F, 0x00, 0x00, 0x00, 0x09, 0x01, 0x00] := by decide +kernel

/-- The calendar: 2000-02-29 exists, and 2100-02-29 does not. -/
theorem test_calendar : (RtcCal.ofSeconds 5097600) = ⟨2000, 2, 29, 0, 0, 0⟩ ∧ monthDays 2100 2 = 28 ∧
    calendarOk ⟨2100#16, 2#8, 29#8, 0#8, 0#8, 0#8⟩ = false := by and_intros <;> decide +kernel

/-- Twice the base point of P-256 (the point multiplication vectors of SEC). -/
theorem test_p256 : ecAdd (some p256g) (some p256g)
    = some (0x7CF27B188D034F7E8A52380304B51AC3C08969E277F21B35A60B48FC47669978,
      0x07775510DB8ED040293D9AC69F7430DBBA7DADE63CE982299E04B79D227873D1) := by decide +kernel

/-- Tables 5.8 and 5.9: unsettled outputs, and latencies in 0.1 ns, of the FM, DAB and DVB-T2 lanes under plan A. -/
theorem test_lane_tables :
    settleCount false 7 0 31 5 = 64 ∧ settleCount true 6 0 95 5 = 128 ∧ settleCount true 6 0 48 5 = 81 ∧ settleCount true 1 0 31 5 = 59 ∧
    settleCount true 6 64 95 5 = 129 ∧ laneLatency 0 3686400000 0 7 15000 5 = 11503 ∧ laneLatency 2 3686400000 7 6 47000 5 = 1421681 ∧
    laneLatency 2 3686400000 7 6 8300 5 = 561681 ∧ laneLatency 2 3686400000 6 4 15000 5 = 88868 ∧
    laneLatency 0 3686400000 0 8 15000 5 = 22614 := by and_intros <;> decide +kernel

/-- R159 at S = 8: full scale is 2^10, ties go to even, and what passes 2^15 − 1 saturates. -/
theorem test_raw_sample : rawSample 8 262144 = 1024 ∧ rawSample 8 128 = 0 ∧ rawSample 8 384 = 2 ∧ rawSample 8 (-384) = -2 ∧
    rawSample 8 8388607 = 32767 ∧ rawSample 0 (-40000) = -32767 := by and_intros <;> decide +kernel

/-- A TS packet of a PID, with or without its error indicator. -/
def tsIn (pid : Nat) (bad : Bool) : Bool × List Byte := (false, [0x47, BitVec.ofNat 8 (pid / 256 + if bad then 128 else 0), BitVec.ofNat 8 pid])

/-- R231 and R230: a key 0x6 takes the PAT, its own PID and PID 0x0011, and drops errored packets only under DROP. -/
theorem test_ts_choice :
    let v := svcOf tvKey
    let w := { v with force := { v.force with tv := v.force.tv.set 6 (.num 1) } }
    let c : Content := .ts [0x100] [tsIn 0 false, tsIn 0x11 false, tsIn 0x15 false, tsIn 0x100 true, tsIn 0x101 false, tsIn 0x1FFF false]
    State.reset.chosen v c = .ts [0x100] [tsIn 0 false, tsIn 0x11 false, tsIn 0x100 true] ∧ v.dropped c = false ∧
    State.reset.chosen w c = .ts [0x100] [tsIn 0 false, tsIn 0x11 false] ∧ w.dropped c = true := by and_intros <;> decide +kernel

end Sys2Proof.Tests
end

section
/-! PROOFS. Host commands as packets: every one of them runs through `State.runCmd` with the opcode of its layout, and one
that names an absent slot stops at check 5 (R39, R395). -/

namespace Sys2Proof.Machine

/-- Every host command is a packet of its opcode: what it does is a gate and a body under `runCmd` (R395). -/
theorem exec_hostCommand {i : Instr} {op : Nat} {h : CmdHdr} {p : List Byte} (e : encodeParams i = some (op, h, p)) :
    ∃ (g : Gate) (body : State → State × Answer), g.opcode = op ∧ ∀ s, exec i s = .next (s.runCmd g h body) := by
  unfold encodeParams at e
  split at e <;> cases e
  all_goals exact ⟨_, _, by rfl, fun _ => rfl⟩

/-- A slot field names no service where no occupied slot has its number and its incarnation (R39). -/
theorem State.svc?_eq_none {s : State} {f : W16}
    (h : ∀ v ∈ s.services, v.slot = f.toNat % 256 → v.inc ≠ f.toNat / 256) : s.svc? f = none := by
  refine List.find?_eq_none.2 fun v hv hm => ?_
  simp only [Bool.and_eq_true, beq_iff_eq] at hm
  exact h v hv hm.1 hm.2

/-- Check 5 fails for a slot that no service has, whatever use the command makes of the field (R406). -/
theorem State.slotOk_absent {s : State} {f : W16} (u : SlotUse) (hf : f ≠ noSlot) (hs : s.svc? f = none) :
    s.slotOk u f = false := by
  cases u <;> simp [State.slotOk, hf, hs]

/-- A packet that fails check 5 is BAD_SLOT with the device generation, and changes nothing but the time (R39). -/
theorem runCmd_badSlot (g : Gate) (h : CmdHdr) (s : State) (body : State → State × Answer) (hserves : s.serves h.tr = true)
    (hnew : ((s.advance h.wait).port h.tr).dup? h.seq h.trailer = none) (hslot : h.slot ≠ noSlot) (hfree : s.svc? h.slot = none) :
    RepliesGen (.next (s.runCmd g h body)) g.opcode h s .badSlot s.acc.gen noTick [] (s.advance h.wait) := by
  have hfree' : (s.advance h.wait).svc? h.slot = none := hfree
  have hrun : s.runCmd g h body
      = (s.advance h.wait).finish (s.advance h.wait).time.dt h g.opcode (.now .badSlot [] none noTick) := by
    simp only [State.runCmd, hserves, hnew, State.checked, State.slotOk_absent _ hslot hfree', Bool.not_true, Bool.not_false,
      Bool.false_eq_true, if_false, if_true, answer]
  have hgen : (s.advance h.wait).replyGen h.slot = s.acc.gen := by
    simp only [State.replyGen, hfree', State.advance_acc]
  refine ⟨_, rfl, ?_, ?_⟩
  · rw [hrun, core_finish]
  · rw [hrun, lastReply_finish, hgen, Option.getD_none]

/-- Settles O53: every host command is a packet under `runCmd`, whose check 5 no absent slot passes. -/
theorem absentSlotsAreBadSlot : Obligations.AbsentSlotsAreBadSlot := by
  unfold Obligations.AbsentSlotsAreBadSlot
  intro i op h p s e hserves hnew hslot habsent
  obtain ⟨g, body, rfl, hrun⟩ := exec_hostCommand e
  rw [hrun]
  exact runCmd_badSlot g h s body hserves hnew hslot (State.svc?_eq_none habsent)

end Sys2Proof.Machine
end

section
/-! PROOFS. The commands of families 0x00 and 0x01 that set device settings (O2). -/

namespace Sys2Proof.Machine

/-! ### Shared operations of the settings commands -/

/-- An item list in range is committed (R410). -/
theorem itemCmd_put {s : State} {tbl : List ItemSpec} {applies : Nat → Bool} {pre : List Byte} {force acc t : ItemTable}
    {items : List Item} {put : ItemTable → State × Answer} (hne : items ≠ []) (ha : applyItems tbl applies acc items = some t) :
    s.itemCmd tbl applies pre force acc items put = put t := by
  have : items.isEmpty = false := by simpa using hne
  rw [State.itemCmd, this, ha]; rfl

/-- A group that is marked, or that will not be persisted, is not marked again (R468). -/
theorem State.markDirty_marked {s : State} {g : Nat} (h : (s.nvOff || s.journal.dirty.any (·.1 == g)) = true) :
    s.markDirty (some g) = s := if_pos h

/-- A group is marked once, however often its settings change (R468). -/
theorem State.markDirty_twice (s : State) (g : Nat) : (s.markDirty (some g)).markDirty (some g) = s.markDirty (some g) := by
  by_cases h : (s.nvOff || s.journal.dirty.any (·.1 == g)) = true
  · rw [State.markDirty_marked h, State.markDirty_marked h]
  · refine State.markDirty_marked ?_
    have : s.markDirty (some g) = { s with journal := { s.journal with dirty := s.journal.dirty ++ [(g, 0)] } } := if_neg h
    rw [this]; simp

/-- Accepting device settings leaves the power state and the settings in force alone, and steps the generation (R62). -/
@[simp] theorem State.withDev_power (s : State) (g : Option Nat) (a : Settings) : (s.withDev g a).power = s.power :=
  State.markDirty_power _ g
@[simp] theorem State.withDev_force (s : State) (g : Option Nat) (a : Settings) : (s.withDev g a).force = s.force :=
  State.markDirty_force _ g
@[simp] theorem State.withDev_acc (s : State) (g : Option Nat) (a : Settings) :
    (s.withDev g a).acc = { a with gen := s.acc.gen + 1 } := State.markDirty_acc _ g

/-! ### EVENT_ROUTE and CMD_RING_CONFIG -/

/-- The selector of EVENT_ROUTE is in range: a transport of Table 15.3, the trunk in mast role only. -/
theorem eventRoute_inRange {s : State} {t : Byte} (ht : t.toNat ≤ 3) (hr : t = 3#8 → s.role = 1) :
    (decide (3 < t.toNat) || (t.toNat == 3 && !s.isMast)) = false := by
  have h3 : t.toNat = 3 → s.isMast = true := fun h => by simp [State.isMast, hr (BitVec.eq_of_toNat_eq h)]
  by_cases h : t.toNat = 3
  · simp [h, h3 h]
  · simp [h]; omega

theorem eventRoute_sets {h : CmdHdr} {s : State} {t : Byte} {m : BitVec 128} (hk : Taken (gateAll 0x0004) h s)
    (ht : t.toNat ≤ 3) (hr : t = 3#8 → s.role = 1) :
    Sets (exec (.eventRoute h t (some m)) s) 0x0004 h s (some 5) { s.acc with evMask := s.acc.evMask.set t.toNat m } :=
  runCmd_sets _ h s _ (some 5) (fun a => { a with evMask := a.evMask.set t.toNat m }) [] hk
    (State.refuseIf_false _ _ _ _ (eventRoute_inRange (s := s.advance h.wait) ht hr))

theorem eventRoute_reads {h : CmdHdr} {s : State} {t : Byte} (hk : Taken (gateAll 0x0004) h s) (ht : t.toNat ≤ 3)
    (hr : t = 3#8 → s.role = 1) :
    Reads (exec (.eventRoute h t none) s) 0x0004 h s ([t, 0, 0, 0] ++ le 16 (s.force.evMask.getD t.toNat 0).toNat) :=
  runCmd_replies _ h s _ _ _ _ _ hk (State.refuseIf_false _ _ _ _ (eventRoute_inRange (s := s.advance h.wait) ht hr))

/-- No ring setting counts as touched while neither ring is enabled (R390). -/
theorem cmdRingBusy_off (old new : ItemTable) : cmdRingBusy false false old new = false := by simp [cmdRingBusy]

theorem cmdRingConfig_sets {h : CmdHdr} {s : State} {items : List Item} {tbl : ItemTable}
    (hk : Taken ⟨0x0002, .none, allModes, .pcieMailbox⟩ h s) (hne : items ≠ [])
    (ha : applyItems tbl143 (fun _ => true) s.acc.cmdRing items = some tbl) (hc : cmdRingIncomplete tbl = false)
    (a1 : s.acc.cmdRing.nat 1 = 0) (f1 : s.force.cmdRing.nat 1 = 0) (a4 : s.acc.cmdRing.nat 4 = 0)
    (f4 : s.force.cmdRing.nat 4 = 0) :
    Sets (exec (.cmdRingConfig h items) s) 0x0002 h s none { s.acc with cmdRing := tbl } := by
  refine runCmd_sets _ h s _ none (fun a => { a with cmdRing := tbl }) [] hk ?_
  have hbusy : cmdRingBusy (s.acc.cmdRing.nat 1 == 1 || s.force.cmdRing.nat 1 == 1)
      (s.acc.cmdRing.nat 4 == 1 || s.force.cmdRing.nat 4 == 1) s.acc.cmdRing tbl = false := by
    rw [a1, f1, a4, f4]; exact cmdRingBusy_off _ _
  exact (itemCmd_put hne ha).trans ((State.refuseIf_false _ _ _ _ hc).trans (State.refuseIf_false _ _ _ _ hbusy))

/-! ### WAKE_BUDGET, CHAIN_CONFIG and SETTINGS_RESET -/

theorem wakeBudget_inRange {ms : W32} (h1 : 1 ≤ ms.toNat) (h2 : ms.toNat ≤ 600000) :
    (decide (ms.toNat < 1) || decide (600000 < ms.toNat)) = false := by
  simp; omega

/-- Outside DORMANT, WAKE_BUDGET only accepts the budget (R484). -/
theorem wakeBudget_sets {h : CmdHdr} {s : State} {ms : W32} (hk : Taken (gateAll 0x0102) h s) (h1 : 1 ≤ ms.toNat)
    (h2 : ms.toNat ≤ 600000) (hm : s.power.mode ≠ .dormant) :
    Sets (exec (.wakeBudget h ms) s) 0x0102 h s (some 7) { s.acc with wakeBudget := ms }
      (le 1 (subForBudget ms.toNat).code ++ zeros 3) := by
  intro hne
  refine runCmd_replies _ h s _ _ _ _ _ hk ((State.refuseIf_false _ _ _ _ (wakeBudget_inRange h1 h2)).trans ?_)
  rw [commitDev_changed _ _ _ _ hne]
  refine if_neg ?_
  rintro ⟨hd, -⟩
  rw [State.withDev_power] at hd
  exact hm hd

/-- The trunk keeps nothing awake while the role is OFF (R486). -/
theorem State.trunkAwake_of_role_zero {s : State} (h : s.role = 0) : s.trunkAwake = false := by simp [State.trunkAwake, h]

/-- In DORMANT with the trunk OFF, WAKE_BUDGET also starts the change to the sub-state of the budget (R484). -/
theorem wakeBudget_dormant {h : CmdHdr} {s s1 : State} {ms : W32} (hs1 : s1 = s.advance h.wait) (hk : Taken (gateAll 0x0102) h s)
    (h1 : 1 ≤ ms.toNat) (h2 : ms.toNat ≤ 600000) (hm : s1.power.mode = .dormant) (hc : s1.power.change = none)
    (hr : s1.role = 0) (hs : s1.power.sub ≠ subForBudget ms.toNat) (hne : s1.acc.wakeBudget ≠ ms) :
    Replies (exec (.wakeBudget h ms) s) 0x0102 h s (s1.storedStatus (some 7)) s1.effTick
      (le 1 (subForBudget ms.toNat).code ++ zeros 3)
      { s1.withDev (some 7) { s1.acc with wakeBudget := ms } with
        power := { s1.power with change := some ⟨.dormant, subForBudget ms.toNat, 1, s1.effTicks, false⟩ } } := by
  subst hs1
  have hne' : ({ (s.advance h.wait).acc with wakeBudget := ms } : Settings) ≠ (s.advance h.wait).acc :=
    fun e => hne (congrArg Settings.wakeBudget e).symm
  refine runCmd_replies _ h s _ _ _ _ _ hk ((State.refuseIf_false _ _ _ _ (wakeBudget_inRange h1 h2)).trans ?_)
  rw [commitDev_changed _ _ _ _ hne']
  have hrole : ((s.advance h.wait).withDev (some 7) { (s.advance h.wait).acc with wakeBudget := ms }).role = 0 := by
    rw [State.role, State.withDev_force]; exact hr
  simp only [State.trunkAwake_of_role_zero hrole, Bool.false_and, Bool.false_eq_true, if_false, State.withDev_power]
  exact if_pos ⟨hm, by rw [hc]; rfl, hs.symm⟩

theorem chainConfig_sets {h : CmdHdr} {s : State} {on : Byte} (hk : Taken (gateAll 0x0D09) h s) (h1 : on.toNat ≤ 1) :
    Sets (exec (.chainConfig h on) s) 0x0D09 h s (some 6) { s.acc with chain := on == 1#8 } :=
  runCmd_sets _ h s _ (some 6) (fun a => { a with chain := on == 1#8 }) [] hk
    (State.refuseIf_false _ _ _ _ (by simpa using h1))

/-- One group whose settings differ from its defaults is accepted with them (R477). -/
theorem resetGroup_changed {s : State} {g : Nat} (hne : groupCopy g Settings.default s.acc ≠ s.acc) :
    s.resetGroup g = s.withDev (some g) (groupCopy g Settings.default s.acc) := by
  rw [State.resetGroup, commitDev_changed _ _ _ _ hne]
  exact State.markDirty_twice _ g

/-- The mask of one group names just that group. -/
theorem settingGroups_single {g : Nat} (hg : g ≤ 7) :
    settingGroups.filter (fun k => (BitVec.ofNat 32 (2 ^ g)).getLsbD k) = [g] := by
  interval_cases g <;> decide

theorem settingsReset_one {h : CmdHdr} {s : State} {g : Nat} (hk : Taken ⟨0x0D07, .none, [.dormant, .maintain], .none⟩ h s)
    (hg : g ≤ 7) (hnv : s.nvOff = false) (hne : groupCopy g Settings.default s.acc ≠ s.acc) :
    Replies (exec (.settingsReset h (BitVec.ofNat 32 (2 ^ g)) 0x9484#16) s) 0x0D07 h s .ok (s.advance h.wait).effTick []
      ((s.advance h.wait).withDev (some g) (groupCopy g Settings.default s.acc)) := by
  have hrange : (decide (255 < (BitVec.ofNat 32 (2 ^ g)).toNat) || (0x9484#16 != 0x9484#16)) = false := by
    interval_cases g <;> decide
  have hnv' : (s.advance h.wait).nvOff = false := hnv
  have hgen : s.acc.gen + 1 ≠ s.acc.gen := by bv_omega
  refine runCmd_replies _ h s _ _ _ _ _ hk ((State.refuseIf_false _ _ _ _ hrange).trans ?_)
  have hfold : [g].foldl State.resetGroup (s.advance h.wait) = (s.advance h.wait).withDev (some g) (groupCopy g Settings.default s.acc) :=
    resetGroup_changed (s := s.advance h.wait) hne
  simp only [settingGroups_single hg, hfold, State.withDev_acc, State.advance_acc, hnv', Bool.false_and, Bool.false_eq_true,
    if_false, if_neg hgen]

/-- Settles O2: each command's body is a commit of device settings, or a read-back of those in force. -/
theorem systemSettingsTakeForceLater : Obligations.SystemSettingsTakeForceLater := by
  unfold Obligations.SystemSettingsTakeForceLater
  intro h s
  refine ⟨?_, ?_, ?_, ?_, ?_, ?_, ?_, ?_⟩
  · exact fun t m hk ht hr => eventRoute_sets hk ht hr
  · exact fun t hk ht hr => eventRoute_reads hk ht hr
  · exact fun items tbl hk hne ha hc a1 f1 a4 f4 => cmdRingConfig_sets hk hne ha hc a1 f1 a4 f4
  · exact fun hk => runCmd_replies _ h s _ _ _ _ _ hk rfl
  · exact fun ms hk h1 h2 hm => wakeBudget_sets hk h1 h2 hm
  · exact fun ms hk h1 h2 hm hc hr hs hne => wakeBudget_dormant rfl hk h1 h2 hm hc hr hs hne
  · exact fun on hk h1 => chainConfig_sets hk h1
  · exact fun g hk hg hnv hne => settingsReset_one hk hg hnv hne

end Sys2Proof.Machine
end

section
/-! PROOFS. The settings and the queries of placement, survey, following and alerts (O5, O6). -/

namespace Sys2Proof.Machine

/-! ### A service after its settings change -/

/-- The service of a slot number after the service in one slot has changed, its slot kept. -/
theorem State.slotSvc?_modSvc {s : State} {n k : Nat} {f : Service → Service} (hf : ∀ v, (f v).slot = v.slot) :
    (s.modSvc n f).slotSvc? k = (s.slotSvc? k).map (fun v => if v.slot == n then f v else v) := by
  have hp : (fun v : Service => v.slot == k) ∘ (fun v => if v.slot == n then f v else v) = fun v => v.slot == k := by
    funext v; simp only [Function.comp]; split <;> simp [hf]
  simp only [State.slotSvc?, State.modSvc, List.find?_map, hp]

/-- The service that a slot field names after the service in one slot has changed, its slot and incarnation kept. -/
theorem State.svc?_modSvc {s : State} {n : Nat} {w : W16} {f : Service → Service} (hf : ∀ v, (f v).slot = v.slot)
    (hi : ∀ v, (f v).inc = v.inc) : (s.modSvc n f).svc? w = (s.svc? w).map (fun v => if v.slot == n then f v else v) := by
  have hp : (fun v : Service => v.slot == w.toNat % 256 && v.inc == w.toNat / 256) ∘ (fun v => if v.slot == n then f v else v)
      = fun v => v.slot == w.toNat % 256 && v.inc == w.toNat / 256 := by
    funext v; simp only [Function.comp]; split <;> simp [hf, hi]
  simp only [State.svc?, State.modSvc, List.find?_map, hp]

/-- The slot number of the service in a slot. -/
theorem State.slot_of_slotSvc? {s : State} {n : Nat} {v : Service} (h : s.slotSvc? n = some v) : v.slot = n := by
  simpa using List.find?_some h

/-- A change of a service's settings, where something changes (R61). -/
theorem commitSvc_changed {s : State} {n : Nat} {v : Service} {f : SvcSettings → SvcSettings} (ps : List Byte)
    (hv : s.slotSvc? n = some v) (hg : (f v.acc).gen = v.acc.gen) (hc : f v.acc ≠ v.acc) :
    s.commitSvc n f ps = (s.withSvc n (f v.acc), .now .ok ps none s.effTick) := by
  unfold State.commitSvc State.withSvc
  rw [hv]
  simp only [if_neg hc, hg]

/-- The reply to a slot whose service has accepted new settings carries its next generation (R61). -/
theorem State.replyGen_withSvc {s : State} {w : W16} {v : Service} (a : SvcSettings) (hv : s.svc? w = some v) :
    (s.withSvc v.slot a).replyGen w = a.gen + 1 := by
  have hsvc := State.svc?_modSvc (s := s) (n := v.slot) (w := w)
    (f := fun x => { x with acc := { a with gen := a.gen + 1 }, sched := x.sched ++ [⟨s.effTicks, { a with gen := a.gen + 1 }⟩] })
    (fun _ => rfl) (fun _ => rfl)
  rw [hv, Option.map_some, if_pos (beq_self_eq_true _)] at hsvc
  simp only [State.replyGen, State.withSvc, hsvc]

/-! ### PLACEMENT_POLICY, SURVEY_CONFIG and FOLLOW_POLICY -/

theorem placementPolicy_sets {h : CmdHdr} {s : State} {p : PlacementParams} (hk : Taken (gateNotRelay 0x0205) h s)
    (h5 : 5 ≤ p.reserve.toNat) (h25 : p.reserve.toNat ≤ 25) (hp : p.preempt.toNat ≤ 1) (hh : p.headReception.toNat ≤ 1) :
    Sets (exec (.placementPolicy h (some p)) s) 0x0205 h s (some 3) { s.acc with placement := p } :=
  runCmd_sets _ h s _ (some 3) (fun a => { a with placement := p }) [] hk
    (State.refuseIf_false _ _ _ _ (by simp [h5, h25, hp, hh]))

theorem placementPolicy_badReserve {h : CmdHdr} {s : State} {p : PlacementParams} (hk : Taken (gateNotRelay 0x0205) h s)
    (hr : p.reserve.toNat < 5 ∨ 25 < p.reserve.toNat) :
    Replies (exec (.placementPolicy h (some p)) s) 0x0205 h s .badParam noTick [] (s.advance h.wait) :=
  runCmd_refuses _ h s _ _ hk (State.refuseIf_true _ _ _ _ (by
    simp only [Bool.not_eq_true', decide_eq_false_iff_not]; omega))

theorem surveyConfig_sets {h : CmdHdr} {s : State} {p : SurveyParams} (hk : Taken (gateNotRelay 0x0301) h s)
    (h1 : 100 ≤ p.interval.toNat) (h2 : p.interval.toNat ≤ 60000) (hn : p.ranges.length ≤ 16)
    (hr : p.ranges.all surveyRangeOk = true) :
    Sets (exec (.surveyConfig h (some p)) s) 0x0301 h s (some 3) { s.acc with survey := p } :=
  runCmd_sets _ h s _ (some 3) (fun a => { a with survey := p }) [] hk
    (State.refuseIf_false _ _ _ _ (by simp only [h1, h2, hn, hr, and_self, decide_true, Bool.and_self, Bool.not_true]))

theorem followPolicy_sets {h : CmdHdr} {s : State} {items : List Item} {t : ItemTable} (hk : Taken (gateNotRelay 0x0401) h s)
    (hne : items ≠ []) (ha : applyItems tbl97 (fun _ => true) s.acc.follow items = some t) :
    Sets (exec (.followPolicy h items) s) 0x0401 h s (some 3) { s.acc with follow := t } :=
  runCmd_sets _ h s _ (some 3) (fun a => { a with follow := t }) [] hk (itemCmd_put hne ha)

/-! ### LINKSET_SET -/

/-- The parameters of LINKSET_SET in range (R247, Table 15.11). -/
theorem linksetSet_inRange {i : Byte} {keys : List W64} (hi : i.toNat ≤ 63) (hn : keys.length ≤ 8)
    (hok : (keys.map clearKey).all linkKeyOk = true) (hd : (keys.map clearKey).Nodup) :
    (!(decide (i.toNat ≤ 63 ∧ (keys.map clearKey).length ≤ 8) && (keys.map clearKey).all linkKeyOk
      && decide (keys.map clearKey).Nodup)) = false := by
  simp only [List.length_map, hi, hn, hok, hd, and_self, decide_true, Bool.and_self, Bool.not_true]

/-- A change of settings that makes a publication due answers as one that does not. -/
theorem commitDev_due {s : State} {f : Settings → Settings} (hc : f s.acc ≠ s.acc) :
    ({ s with map := { s.map with due := true } } : State).commitDev (some 3) f
      = ({ s with map := { s.map with due := true } }.withDev (some 3) (f s.acc), .now (s.storedStatus (some 3)) [] none s.effTick) :=
  commitDev_changed _ _ _ _ hc

theorem linksetSet_sets {h : CmdHdr} {s : State} {i : Byte} {keys : List W64} (hk : Taken (gateNotRelay 0x0402) h s)
    (hi : i.toNat ≤ 63) (h1 : 1 ≤ keys.length) (hn : keys.length ≤ 8) (hok : (keys.map clearKey).all linkKeyOk = true)
    (hd : (keys.map clearKey).Nodup)
    (hfree : ∀ x ∈ s.acc.links, x.index ≠ i.toNat → ∀ k ∈ x.keys, k ∉ keys.map clearKey) {a : Settings}
    (ha : a = { s.acc with links := s.acc.links.filter (fun x => x.index < i.toNat) ++ [⟨i.toNat, keys.map clearKey⟩]
      ++ s.acc.links.filter (fun x => x.index > i.toNat) }) (hne : a ≠ s.acc) :
    Replies (exec (.linksetSet h i keys) s) 0x0402 h s ((s.advance h.wait).storedStatus (some 3)) (s.advance h.wait).effTick []
      ({ s.advance h.wait with map := { s.map with due := true } }.withDev (some 3) a) := by
  subst ha
  have hbusy : ((s.acc.links.filter (fun x => x.index != i.toNat)).any
      (fun x => x.keys.any (fun k => (keys.map clearKey).contains k))) = false := by
    refine List.any_eq_false.2 fun x hx hc => ?_
    obtain ⟨hx, hxi⟩ := List.mem_filter.1 hx
    obtain ⟨k, hkx, hkc⟩ := List.any_eq_true.1 hc
    exact hfree x hx (by simpa using hxi) k hkx (List.contains_iff_mem.1 hkc)
  have hempty : (keys.map clearKey).isEmpty = false := by
    cases keys
    · exact absurd h1 (by simp)
    · rfl
  refine runCmd_replies _ h s _ _ _ _ _ hk ((State.refuseIf_false _ _ _ _ (linksetSet_inRange hi hn hok hd)).trans
    ((State.refuseIf_false _ _ _ _ hbusy).trans ?_))
  simp only [hempty, Bool.false_eq_true, if_false]
  exact commitDev_due (s := s.advance h.wait) hne

theorem linksetSet_busy {h : CmdHdr} {s : State} {i : Byte} {keys : List W64} {x : LinkCfg} {k : W64}
    (hk : Taken (gateNotRelay 0x0402) h s) (hi : i.toNat ≤ 63) (hn : keys.length ≤ 8)
    (hok : (keys.map clearKey).all linkKeyOk = true) (hd : (keys.map clearKey).Nodup) (hx : x ∈ s.acc.links)
    (hxi : x.index ≠ i.toNat) (hkx : k ∈ x.keys) (hkk : k ∈ keys.map clearKey) :
    Replies (exec (.linksetSet h i keys) s) 0x0402 h s .busyRunning noTick [] (s.advance h.wait) := by
  have hbusy : ((s.acc.links.filter (fun x => x.index != i.toNat)).any
      (fun x => x.keys.any (fun k => (keys.map clearKey).contains k))) = true := by
    refine List.any_eq_true.2 ⟨x, List.mem_filter.2 ⟨hx, by simpa using hxi⟩, ?_⟩
    exact List.any_eq_true.2 ⟨k, hkx, List.contains_iff_mem.2 hkk⟩
  exact runCmd_refuses _ h s _ _ hk ((State.refuseIf_false _ _ _ _ (linksetSet_inRange hi hn hok hd)).trans
    (State.refuseIf_true _ _ _ _ hbusy))

/-! ### ALERT_CONFIG -/

theorem alertConfig_reads_device {h : CmdHdr} {s : State} (hk : Taken ⟨0x0405, .either, notRelay, .none⟩ h s)
    (hv : s.svc? h.slot = none) :
    Reads (exec (.alertConfig h none) s) 0x0405 h s (le 8 s.force.alertMask.toNat ++ le 4 0) := by
  refine runCmd_replies _ h s _ _ _ _ _ hk ?_
  simp only [State.advance_svc?, hv]
  rfl

theorem alertConfig_reads_service {h : CmdHdr} {s : State} {v : Service} (hk : Taken ⟨0x0405, .either, notRelay, .none⟩ h s)
    (hv : s.svc? h.slot = some v) :
    Reads (exec (.alertConfig h none) s) 0x0405 h s (le 8 v.force.alertMask.toNat ++ le 4 v.force.alertLimit.toNat) := by
  refine runCmd_replies _ h s _ _ _ _ _ hk ?_
  simp only [State.advance_svc?, hv]
  rfl

theorem alertConfig_sets_device {h : CmdHdr} {s : State} {p : AlertParams} (hk : Taken ⟨0x0405, .either, notRelay, .none⟩ h s)
    (hv : s.svc? h.slot = none) :
    Sets (exec (.alertConfig h (some p)) s) 0x0405 h s (some 3) { s.acc with alertMask := p.mask } := by
  refine runCmd_sets _ h s _ (some 3) (fun a => { a with alertMask := p.mask }) [] hk ?_
  simp only [State.advance_svc?, hv]

theorem alertConfig_sets_service {h : CmdHdr} {s : State} {v : Service} {p : AlertParams}
    (hk : Taken ⟨0x0405, .either, notRelay, .none⟩ h s) (hv : s.svc? h.slot = some v) (hn : s.slotSvc? v.slot = some v)
    (hb : bound v.acc.attrs 1 = true) (hm : p.mask.toNat < 2048) (h10 : 10 ≤ p.limitS.toNat) (h3600 : p.limitS.toNat ≤ 3600)
    {a : SvcSettings} (ha : a = { v.acc with alertMask := p.mask, alertLimit := p.limitS }) (hne : a ≠ v.acc) :
    RepliesGen (exec (.alertConfig h (some p)) s) 0x0405 h s .ok (v.acc.gen + 1) (s.advance h.wait).effTick []
      ((s.advance h.wait).withSvc v.slot a) := by
  have hrange : (!bound v.acc.attrs 1 || decide (2048 ≤ p.mask.toNat ∨ p.limitS.toNat < 10 ∨ 3600 < p.limitS.toNat)) = false := by
    simp only [hb, Bool.not_true, Bool.false_or, decide_eq_false_iff_not]; omega
  have hgen : ((s.advance h.wait).withSvc v.slot a).replyGen h.slot = v.acc.gen + 1 := by
    rw [State.replyGen_withSvc (s := s.advance h.wait) a hv, ha]
  rw [← hgen]
  refine runCmd_replies _ h s _ _ _ _ _ hk ?_
  simp only [State.advance_svc?, hv]
  subst ha
  exact (State.refuseIf_false _ _ _ _ hrange).trans (commitSvc_changed (s := s.advance h.wait) [] hn rfl hne)

/-- Settles O6: each body is a commit of settings under checks of its parameters, or a read-back. -/
theorem placementSurveyAndFollowSettings : Obligations.PlacementSurveyAndFollowSettings := by
  unfold Obligations.PlacementSurveyAndFollowSettings
  intro h s
  refine ⟨?_, ?_, ?_, ?_, ?_, ?_, ?_, ?_, ?_, ?_, ?_, ?_, ?_⟩
  · exact fun p hk h5 h25 hp hh => placementPolicy_sets hk h5 h25 hp hh
  · exact fun p hk hr => placementPolicy_badReserve hk hr
  · exact fun hk => runCmd_replies _ h s _ _ _ _ _ hk rfl
  · exact fun p hk h1 h2 hn hr => surveyConfig_sets hk h1 h2 hn hr
  · exact fun hk => runCmd_replies _ h s _ _ _ _ _ hk rfl
  · exact fun items t hk hne ha => followPolicy_sets hk hne ha
  · exact fun hk => runCmd_replies _ h s _ _ _ _ _ hk rfl
  · exact fun i keys hk hi h1 hn hok hd hfree hne => linksetSet_sets hk hi h1 hn hok hd hfree rfl hne
  · exact fun i keys x k hk hi hn hok hd hx hxi hkx hkk => linksetSet_busy hk hi hn hok hd hx hxi hkx hkk
  · exact fun p hk hv => alertConfig_sets_device hk hv
  · exact fun hk hv => alertConfig_reads_device hk hv
  · exact fun v hk hv => alertConfig_reads_service hk hv
  · exact fun v p hk hv hn hb hm h10 h3600 hne => alertConfig_sets_service hk hv hn hb hm h10 h3600 rfl hne

end Sys2Proof.Machine
end

section
/-! PROOFS. The queries of services, placement, the map and following (O5). -/

namespace Sys2Proof.Machine

/-- A query's body answers `ps` and leaves the state as it is: it reads. -/
theorem runCmd_reads (g : Gate) (h : CmdHdr) (s : State) (body : State → State × Answer) (ps : List Byte) (hk : Taken g h s)
    (hb : body (s.advance h.wait) = (s.advance h.wait, answer .ok ps)) : Reads (.next (s.runCmd g h body)) g.opcode h s ps :=
  runCmd_replies g h s body _ _ _ _ hk hb

/-! ### SERVICE_QUERY -/

/-- The row that SERVICE_QUERY gives of a service (Table 15.8). -/
def State.serviceRow (s : State) (v : Service) : List Byte :=
  le 1 v.slot ++ le 1 v.inc ++ le 1 v.state.code ++ le 1 v.reason ++ le 2 v.hintRefused ++ [0, 0] ++ le 8 v.stateDt.toNat
    ++ attrBytes v.force.attrs
    ++ (s.serviceCost v (if v.rx.freqKhz = 0 then freqRx v.attrs.key ((freqInputs v.attrs.key).headD 0) else v.rx)).flatMap (le 4)

theorem serviceQuery_reads_slot {h : CmdHdr} {s : State} {v : Service} (hk : Taken ⟨0x0204, .either, notRelay, .none⟩ h s)
    (hv : s.svc? h.slot = some v) :
    Reads (exec (.serviceQuery h none) s) 0x0204 h s ((s.advance h.wait).serviceRow v) := by
  refine runCmd_reads _ h s _ _ hk ?_
  simp only [State.advance_svc?, hv]
  rfl

theorem serviceQuery_reads_key {h : CmdHdr} {s : State} {k : W64} {v : Service}
    (hk : Taken ⟨0x0204, .either, notRelay, .none⟩ h s)
    (hv : s.services.find? (fun v => v.acc.attrs.key == clearKey k) = some v) :
    Reads (exec (.serviceQuery h (some k)) s) 0x0204 h s ((s.advance h.wait).serviceRow v) := by
  refine runCmd_reads _ h s _ _ hk ?_
  simp only [State.advance_services, hv]
  rfl

theorem serviceQuery_notFound {h : CmdHdr} {s : State} {k : W64} (hk : Taken ⟨0x0204, .either, notRelay, .none⟩ h s)
    (hv : s.services.find? (fun v => v.acc.attrs.key == clearKey k) = none) :
    Replies (exec (.serviceQuery h (some k)) s) 0x0204 h s .notFound noTick [] (s.advance h.wait) := by
  refine runCmd_refuses _ h s _ _ hk ?_
  simp only [State.advance_services, hv]

/-! ### MAP_READ -/

theorem mapRead_reads_key {h : CmdHdr} {s : State} {first : W16} {k : W64} {e : MapEntry} (hk : Taken (gateNotRelay 0x0303) h s)
    (he : findEntry s.map.published.entries (clearKey k) = some e) :
    Reads (exec (.mapRead h 1#8 first k) s) 0x0303 h s (le 4 s.map.gen.toNat ++ le 2 1 ++ le 2 0xFFFF ++ mapEntryBytes e) := by
  refine runCmd_reads _ h s _ _ hk ?_
  simp only [if_true, State.mapEntry, State.advance_map, he]

theorem mapRead_notFound {h : CmdHdr} {s : State} {first : W16} {k : W64} (hk : Taken (gateNotRelay 0x0303) h s)
    (he : findEntry s.map.published.entries (clearKey k) = none) :
    Replies (exec (.mapRead h 1#8 first k) s) 0x0303 h s .notFound noTick [] (s.advance h.wait) := by
  refine runCmd_refuses _ h s _ _ hk ?_
  simp only [if_true, State.mapEntry, State.advance_map, he]

/-! ### LINKSET_QUERY -/

/-- What LINKSET_QUERY answers of a set: its index, where it is from, and its members with their offsets (Table 15.11). -/
def State.linksetRow (s : State) (i : Byte) (origin : Nat) (keys : List W64) : List Byte :=
  [i] ++ le 1 origin ++ le 1 keys.length ++ [0] ++ le 4 s.map.learnRefused
    ++ keys.flatMap (fun k => le 8 k.toNat ++ leInt 8 (s.memberOffset k))

/-- The set of the host comes before what the map has learned (R261). -/
theorem linksetQuery_reads_host {h : CmdHdr} {s : State} {i : Byte} {x : LinkCfg} (hk : Taken (gateNotRelay 0x0403) h s)
    (hi : i.toNat ≤ 63) (hx : s.force.links.find? (fun x => x.index == i.toNat) = some x) :
    Reads (exec (.linksetQuery h i) s) 0x0403 h s ((s.advance h.wait).linksetRow i 1 x.keys) := by
  refine runCmd_reads _ h s _ _ hk ?_
  simp only [State.advance_force, hx]
  exact State.refuseIf_false _ _ _ _ (by simp [hi])

theorem linksetQuery_reads_learned {h : CmdHdr} {s : State} {i : Byte} {x : LearnedSet} (hk : Taken (gateNotRelay 0x0403) h s)
    (hi : i.toNat ≤ 63) (hx : s.force.links.find? (fun x => x.index == i.toNat) = none)
    (hl : s.map.published.learned.find? (fun x => x.index == i.toNat) = some x) :
    Reads (exec (.linksetQuery h i) s) 0x0403 h s ((s.advance h.wait).linksetRow i 2 x.keys) := by
  refine runCmd_reads _ h s _ _ hk ?_
  simp only [State.advance_force, State.advance_map, hx, hl]
  exact State.refuseIf_false _ _ _ _ (by simp [hi])

/-! ### FOLLOW_QUERY -/

theorem followQuery_reads_device {h : CmdHdr} {s : State} (hk : Taken ⟨0x0404, .either, notRelay, .none⟩ h s)
    (hv : s.svc? h.slot = none) :
    Reads (exec (.followQuery h) s) 0x0404 h s (readTable tbl97 s.force.follow) := by
  refine runCmd_reads _ h s _ _ hk ?_
  simp only [State.advance_svc?, hv]
  rfl

theorem followQuery_reads_service {h : CmdHdr} {s : State} {v : Service} (hk : Taken ⟨0x0404, .either, notRelay, .none⟩ h s)
    (hv : s.svc? h.slot = some v) :
    Reads (exec (.followQuery h) s) 0x0404 h s
      (le 1 (followMode v.force.attrs) ++ [if followReturn v.force.attrs then 1 else 0] ++ le 1 v.follow.cands.length
        ++ le 1 (if v.follow.splice.isSome then 1 else if v.follow.routing.isSome then 2 else 0) ++ zeros 4
        ++ le 8 (if v.followed then v.follow.delay else 0) ++ v.follow.cands.flatMap (s.advance h.wait).candEntry) := by
  refine runCmd_reads _ h s _ _ hk ?_
  simp only [State.advance_svc?, hv]

/-- Settles O5: every query's body answers from the state it is given and hands it back. -/
theorem serviceAndMapQueriesAnswer : Obligations.ServiceAndMapQueriesAnswer := by
  unfold Obligations.ServiceAndMapQueriesAnswer
  intro h s
  refine ⟨?_, ?_, ?_, ?_, ?_, ?_, ?_, ?_, ?_, ?_, ?_, ?_⟩
  · exact fun v hk hv => serviceQuery_reads_slot hk hv
  · exact fun k v hk hv => serviceQuery_reads_key hk hv
  · exact fun k hk hv => serviceQuery_notFound hk hv
  · exact fun hk => runCmd_reads _ h s _ _ hk rfl
  · exact fun hk => runCmd_reads _ h s _ _ hk rfl
  · exact fun first k e hk he => mapRead_reads_key hk he
  · exact fun first k hk he => mapRead_notFound hk he
  · exact fun first k hk => runCmd_reads _ h s _ _ hk rfl
  · exact fun i x hk hi hx => linksetQuery_reads_host hk hi hx
  · exact fun i x hk hi hx hl => linksetQuery_reads_learned hk hi hx hl
  · exact fun hk hv => followQuery_reads_device hk hv
  · exact fun v hk hv => followQuery_reads_service hk hv

end Sys2Proof.Machine
end

section
/-! PROOFS. SERVICE_ADD, SERVICE_MODIFY and SERVICE_REMOVE (O4). -/

namespace Sys2Proof.Machine

/-! ### SERVICE_ADD -/

/-- The checks of SERVICE_ADD before a slot is taken: the block in range, its key unused, its ports free (R415). -/
structure AddOk (s : State) (a : AttrBlock) (slot inc : Nat) : Prop where
  attrs : s.attrsOk a = true
  fresh : ∀ x ∈ s.services, x.acc.attrs.key ≠ a.key
  ports : s.portsBusy a none = false
  free  : s.freeSlot = some (slot, inc)

/-- No service holds the key of a block that may be added. -/
theorem AddOk.keyFree {s : State} {a : AttrBlock} {slot inc : Nat} (ok : AddOk s a slot inc) :
    s.services.find? (fun v => v.acc.attrs.key == a.key) = none :=
  List.find?_eq_none.2 fun x hx => by simpa using ok.fresh x hx

/-- A key that is a frequency or a published map entry waits for its round (R13, R23). -/
theorem serviceAdd_awaits {h : CmdHdr} {attrs : AttrBlock} {s : State} {slot inc : Nat} (hk : Taken (gateNotRelay 0x0201) h s)
    (ok : AddOk s (cleanAttrs attrs) slot inc)
    (hkey : identityKey (cleanAttrs attrs).key = false ∨ (s.mapEntry (cleanAttrs attrs).key).isSome = true) :
    Awaits (exec (.serviceAdd h attrs) s) h s ((s.advance h.wait).takeSlot h (cleanAttrs attrs) slot inc).1 := by
  refine runCmd_awaits _ h s _ _ hk ?_ rfl
  have hround : (!identityKey (cleanAttrs attrs).key || ((s.advance h.wait).mapEntry (cleanAttrs attrs).key).isSome) = true := by
    rcases hkey with hi | hm
    · rw [hi]; rfl
    · have : ((s.advance h.wait).mapEntry (cleanAttrs attrs).key).isSome = true := hm
      rw [this, Bool.or_true]
  have hattrs : (s.advance h.wait).attrsOk (cleanAttrs attrs) = true := ok.attrs
  have hports : (s.advance h.wait).portsBusy (cleanAttrs attrs) none = false := ok.ports
  have hfree : (s.advance h.wait).freeSlot = some (slot, inc) := ok.free
  simp only [hattrs, hports, hfree, State.advance_services, ok.keyFree, Bool.not_true, State.refuseIf, Bool.false_eq_true,
    if_false, if_pos hround]
  rfl

/-- A key that only the shadow copy of the map holds waits for discovery (R23, Table 1.5). -/
theorem serviceAdd_pending {h : CmdHdr} {attrs : AttrBlock} {s : State} {slot inc : Nat} (hk : Taken (gateNotRelay 0x0201) h s)
    (ok : AddOk s (cleanAttrs attrs) slot inc) (hid : identityKey (cleanAttrs attrs).key = true)
    (hm : s.mapEntry (cleanAttrs attrs).key = none) (hsh : (s.shadowEntry (cleanAttrs attrs).key).isSome = true) :
    RepliesGen (exec (.serviceAdd h attrs) s) 0x0201 h s .okPending 0#16 noTick
      (addReply slot inc .awaiting (hintsBarred (cleanAttrs attrs)) (cleanAttrs attrs).key)
      ((s.advance h.wait).awaitSlot (cleanAttrs attrs) slot inc).1 := by
  refine runCmd_repliesGen _ h s _ _ _ _ (some 0#16) _ hk ?_
  have hround : (!identityKey (cleanAttrs attrs).key || ((s.advance h.wait).mapEntry (cleanAttrs attrs).key).isSome) = false := by
    have : (s.advance h.wait).mapEntry (cleanAttrs attrs).key = none := hm
    rw [hid, this]; rfl
  have hshadow : (((s.advance h.wait).shadowEntry (cleanAttrs attrs).key).isSome || attrBit (cleanAttrs attrs) 2) = true := by
    have : ((s.advance h.wait).shadowEntry (cleanAttrs attrs).key).isSome = true := hsh
    rw [this, Bool.true_or]
  have hattrs : (s.advance h.wait).attrsOk (cleanAttrs attrs) = true := ok.attrs
  have hports : (s.advance h.wait).portsBusy (cleanAttrs attrs) none = false := ok.ports
  have hfree : (s.advance h.wait).freeSlot = some (slot, inc) := ok.free
  simp only [hattrs, hports, hfree, State.advance_services, ok.keyFree, Bool.not_true, State.refuseIf, Bool.false_eq_true,
    if_false, hround, if_pos hshadow]
  rfl

/-- A key that an occupied slot holds answers with that slot (R9). -/
theorem serviceAdd_busy {h : CmdHdr} {attrs : AttrBlock} {s : State} {x : Service} (hk : Taken (gateNotRelay 0x0201) h s)
    (hattrs : s.attrsOk (cleanAttrs attrs) = true)
    (hx : s.services.find? (fun v => v.acc.attrs.key == (cleanAttrs attrs).key) = some x) :
    RepliesGen (exec (.serviceAdd h attrs) s) 0x0201 h s .busyRunning x.acc.gen noTick
      (addReply x.slot x.inc x.state x.hintRefused (cleanAttrs attrs).key) (s.advance h.wait) := by
  refine runCmd_repliesGen _ h s _ _ _ _ (some x.acc.gen) _ hk ?_
  have hattrs' : (s.advance h.wait).attrsOk (cleanAttrs attrs) = true := hattrs
  refine (State.refuseIf_false _ _ _ _ (by rw [hattrs']; rfl)).trans ?_
  simp only [State.advance_services, hx]

/-! ### SERVICE_MODIFY -/

theorem serviceModify_awaits {h : CmdHdr} {attrs : AttrBlock} {s : State} {v : Service}
    (hk : Taken ⟨0x0203, .service, notRelay, .none⟩ h s) (hv : s.svc? h.slot = some v)
    (hkey : (cleanAttrs attrs).key = v.acc.attrs.key) (hattrs : s.attrsOk (cleanAttrs attrs) = true)
    (hbind : v.bindBusy (cleanAttrs attrs) = false)
    {fresh : AttrBlock}
    (hfresh : fresh = { cleanAttrs attrs with
      bindings := (cleanAttrs attrs).bindings.filter (fun b => !v.acc.attrs.bindings.any (fun o => o.kind == b.kind)) })
    (hports : s.portsBusy fresh (some v.slot) = false) :
    Awaits (exec (.serviceModify h attrs) s) h s
      { s.advance h.wait with place := { s.place with
          pending := s.place.pending ++ [⟨s.nextId, h.tr, h.seq, true, h.slot, cleanAttrs attrs, v.acc.gen, (s.advance h.wait).time.dt⟩] } } := by
  subst hfresh
  refine runCmd_awaits _ h s _ _ hk ?_ rfl
  have hrange : ((cleanAttrs attrs).key != v.acc.attrs.key || !(s.advance h.wait).attrsOk (cleanAttrs attrs)) = false := by
    have : (s.advance h.wait).attrsOk (cleanAttrs attrs) = true := hattrs
    rw [this, hkey, bne_self_eq_false]; rfl
  simp only [State.advance_svc?, hv]
  refine (State.refuseIf_false _ _ _ _ hrange).trans ((State.refuseIf_false _ _ _ _ ?_).trans rfl)
  exact Bool.or_eq_false_iff.2 ⟨hbind, hports⟩

/-! ### SERVICE_REMOVE: the streams of the slot end -/

/-- What ending a stream leaves alone: everything but units and streams, of which it only sets LAST_OF_INCARNATION. -/
theorem State.endStream_frame (s : State) (f : W16) (k : Nat) :
    s.endStream f k = { s with units := (s.endStream f k).units, streams := (s.endStream f k).streams } := by
  unfold State.endStream
  split
  · rfl
  · dsimp only; split <;> rfl

/-- The streams after one stream has ended: the one named has its last unit to come, or is not there. -/
theorem State.endStream_streams (s : State) (f : W16) (k : Nat) :
    (s.endStream f k).streams = s.streams.map (fun x => if x.slot == f && x.kind == k then { x with lastPending := true } else x) := by
  unfold State.endStream
  split
  · next hnone =>
    refine (List.map_id' s.streams).symm.trans (List.map_congr_left fun x hx => ?_)
    rw [if_neg (List.find?_eq_none.1 hnone x hx)]
  · dsimp only; split <;> rfl

/-- The streams after the streams of several kinds of a slot have ended. -/
theorem State.endStream_foldl_streams (f : W16) (ks : List Nat) (s : State) :
    (ks.foldl (fun s k => s.endStream f k) s).streams
      = s.streams.map (fun x => if x.slot == f && ks.contains x.kind then { x with lastPending := true } else x) := by
  induction ks generalizing s with
  | nil => simp
  | cons k ks ih =>
    rw [List.foldl_cons, ih, State.endStream_streams, List.map_map]
    refine List.map_congr_left fun x _ => ?_
    by_cases hs : x.slot = f <;> by_cases hk : x.kind = k <;> simp [hs, hk]

theorem State.endStream_foldl_frame (f : W16) (ks : List Nat) (s : State) :
    ks.foldl (fun s k => s.endStream f k) s = { s with
      units := (ks.foldl (fun s k => s.endStream f k) s).units, streams := (ks.foldl (fun s k => s.endStream f k) s).streams } := by
  induction ks generalizing s with
  | nil => rfl
  | cons k ks ih => rw [List.foldl_cons, ih, State.endStream_frame]

/-- Ending the streams of a slot leaves everything alone but units, streams and programmes. -/
theorem State.endStreams_frame (s : State) (f : W16) :
    s.endStreams f = { s with units := (s.endStreams f).units, streams := (s.endStreams f).streams, audio := (s.endStreams f).audio } := by
  unfold State.endStreams
  dsimp only
  rw [State.endStream_foldl_frame]

/-- Every stream of the slot has its last unit to come, and the others are as they were (R37). -/
theorem State.endStreams_streams (s : State) (f : W16) :
    (s.endStreams f).streams = s.streams.map (fun x => if x.slot == f then { x with lastPending := true } else x) := by
  refine (State.endStream_foldl_streams f _ s).trans (List.map_congr_left fun x hx => ?_)
  by_cases hs : x.slot = f
  · have : ((s.streams.filter (fun x => x.slot == f)).map (·.kind)).contains x.kind = true :=
      List.contains_iff_mem.2 (List.mem_map_of_mem (List.mem_filter.2 ⟨hx, by simpa using hs⟩))
    rw [if_pos (by rw [this, hs, beq_self_eq_true]; rfl), if_pos (by rw [hs, beq_self_eq_true])]
  · simp [hs]

theorem State.endStreams_ending {s : State} {f : W16} {x : Stream} (hx : x ∈ (s.endStreams f).streams) (hs : x.slot = f) :
    x.lastPending = true := by
  rw [State.endStreams_streams] at hx
  obtain ⟨y, -, rfl⟩ := List.mem_map.1 hx
  by_cases hy : y.slot = f <;> simp_all

/-- No lane has a service that has left its lanes. -/
theorem State.leaveLanes_not_mem {s : State} {n : Nat} {l : Lane} (hl : l ∈ (s.leaveLanes n).lanes) :
    n ∉ l.users ∧ n ∉ l.joining := by
  obtain ⟨m, -, rfl⟩ := List.mem_map.1 (List.mem_filter.1 hl).1
  simp

/-- The state that SERVICE_REMOVE of a service leaves (R37). -/
def State.removed (s : State) (f : W16) (v : Service) : State :=
  let s1 := (s.endStreams f).leaveLanes v.slot
  let pend := s1.place.pending.map (fun p => if p.slot == f then { p with gen := v.acc.gen } else p)
  let s2 : State :=
    { s1 with services := s1.services.filter (fun x => x.slot != v.slot), place := { s1.place with pending := pend } }
  if v.state = .requested then s2.useInc v else s2

/-- Whether or not the incarnation is used, only the placement differs (R36). -/
theorem State.removed_frame (s : State) (f : W16) (v : Service) :
    s.removed f v = { (s.endStreams f).leaveLanes v.slot with
      services := s.services.filter (fun x => x.slot != v.slot), place := (s.removed f v).place } := by
  have hsvc : ((s.endStreams f).leaveLanes v.slot).services = s.services := by
    rw [State.leaveLanes, State.endStreams_frame]
  unfold State.removed
  dsimp only
  rw [hsvc]
  split <;> rfl

theorem serviceRemove_replies {h : CmdHdr} {s : State} {v : Service} (hk : Taken ⟨0x0202, .service, notRelay, .none⟩ h s)
    (hv : s.svc? h.slot = some v) :
    RepliesGen (exec (.serviceRemove h) s) 0x0202 h s .ok v.acc.gen (s.advance h.wait).effTick []
      ((s.advance h.wait).removed h.slot v) := by
  refine runCmd_repliesGen _ h s _ _ _ _ (some v.acc.gen) _ hk ?_
  simp only [State.advance_svc?, hv]
  rfl

/-! ### An absent slot -/

/-- SERVICE_REMOVE, SERVICE_QUERY by slot and SERVICE_MODIFY are packets of the header that they carry. -/
theorem encodeParams_slotCommand {i : Instr} {h : CmdHdr}
    (hi : i = .serviceRemove h ∨ i = .serviceQuery h none ∨ ∃ a, i = .serviceModify h a) :
    ∃ op p, encodeParams i = some (op, h, p) := by
  rcases hi with rfl | rfl | ⟨a, rfl⟩
  · exact ⟨_, _, rfl⟩
  · exact ⟨_, _, rfl⟩
  · exact ⟨_, _, rfl⟩

/-- Settles O4: what each command leaves is what its operation on slots, streams and lanes leaves. -/
theorem servicesComeAndGo : Obligations.ServicesComeAndGo := by
  unfold Obligations.ServicesComeAndGo
  intro h s
  refine ⟨?_, ?_, ?_, ?_, ?_⟩
  · intro attrs slot inc hk a v hattrs hfresh hports hfree
    have ok : AddOk s (cleanAttrs attrs) slot inc := ⟨hattrs, hfresh, hports, hfree⟩
    exact ⟨fun hkey => serviceAdd_awaits hk ok hkey, fun hid hm hsh => serviceAdd_pending hk ok hid hm hsh⟩
  · exact fun attrs x hk hattrs hx => serviceAdd_busy hk hattrs hx
  · exact fun attrs v hk hv hkey hattrs hbind hports => serviceModify_awaits hk hv hkey hattrs hbind rfl hports
  · intro v hk hv
    refine ⟨_, serviceRemove_replies hk hv, ?_, ?_, ?_, ?_⟩
    · rw [State.removed_frame, State.leaveLanes, State.endStreams_frame]; rfl
    · rw [State.removed_frame]
      exact fun x hx hs => State.endStreams_ending (s := s.advance h.wait) hx hs
    · rw [State.removed_frame]
      show ((s.advance h.wait).endStreams h.slot).streams.length = _
      rw [State.endStreams_streams, List.length_map]; rfl
    · rw [State.removed_frame]
      exact fun l hl => State.leaveLanes_not_mem (s := (s.advance h.wait).endStreams h.slot) hl
  · intro i hi hserves hnew hslot hfree
    obtain ⟨op, p, e⟩ := encodeParams_slotCommand hi
    obtain ⟨g, body, rfl, hrun⟩ := exec_hostCommand e
    exact ⟨g.opcode, hrun s ▸ runCmd_badSlot g h s body hserves hnew hslot hfree⟩

end Sys2Proof.Machine
end

section
/-! PROOFS. ENGINE_SETTLED and the migration rows (O32). -/

namespace Sys2Proof.Machine

/-! ### One service moves between states -/

/-- One service, changed twice, is changed once by both changes. -/
theorem State.modSvc_modSvc (s : State) (n : Nat) (f g : Service → Service) (hf : ∀ v, (f v).slot = v.slot) :
    (s.modSvc n f).modSvc n g = s.modSvc n (fun v => g (f v)) := by
  have : (fun v : Service => if v.slot == n then g v else v) ∘ (fun v => if v.slot == n then f v else v)
      = fun v => if v.slot == n then g (f v) else v := by
    funext v
    by_cases hv : (v.slot == n) = true
    · simp only [Function.comp, if_pos hv, hf]
    · simp only [Function.comp, if_neg hv]
  simp only [State.modSvc, List.map_map, this]

/-- The service in the slot that has changed. -/
theorem State.slotSvc?_modSvc_self {s : State} {n : Nat} {v : Service} {f : Service → Service} (hf : ∀ v, (f v).slot = v.slot)
    (hv : s.slotSvc? n = some v) : (s.modSvc n f).slotSvc? n = some (f v) := by
  rw [State.slotSvc?_modSvc hf, hv, Option.map_some, if_pos (beq_iff_eq.2 (State.slot_of_slotSvc? hv))]

/-- The services in the other slots. -/
theorem State.slotSvc?_modSvc_ne {s : State} {n k : Nat} {f : Service → Service} (hf : ∀ v, (f v).slot = v.slot) (hk : k ≠ n) :
    (s.modSvc n f).slotSvc? k = s.slotSvc? k := by
  rw [State.slotSvc?_modSvc hf]
  cases h : s.slotSvc? k with
  | none => rfl
  | some v =>
    have : (v.slot == n) = false := beq_eq_false_iff_ne.2 (by rw [State.slot_of_slotSvc? h]; exact hk)
    rw [Option.map_some, this]; rfl

/-- EV_SERVICE_STATE of a service that becomes PLACED (R14). -/
def State.sayPlaced (s : State) (v : Service) (reason : Nat) : State :=
  s.raise 0x8004 v.field
    (le 1 v.state.code ++ le 1 SvcState.placed.code ++ le 1 reason ++ zeros 5 ++ le 8 v.acc.attrs.key.toNat)

/-- A service that becomes PLACED does so with its event. -/
theorem State.moveState_placed {s : State} {n : Nat} {v : Service} (reason : Nat) (hv : s.slotSvc? n = some v) :
    s.moveState n .placed reason
      = (s.modSvc n (fun x => { x with state := .placed, reason := reason, stateDt := s.time.dt })).sayPlaced v reason := by
  simp only [State.moveState, hv]; rfl

/-- A migration that ends makes its service PLACED; the event gives the state that it had (R14). -/
theorem State.placed_of_migrating {s : State} {n : Nat} {v : Service} {f : Service → Service} (reason : Nat)
    (hf : ∀ v, (f v).slot = v.slot) (hv : s.slotSvc? n = some v) (hfield : (f v).field = v.field) (hst : (f v).state = v.state)
    (hacc : (f v).acc = v.acc) :
    (s.modSvc n f).moveState n .placed reason
      = (s.modSvc n (fun x => { f x with state := .placed, reason := reason, stateDt := s.time.dt })).sayPlaced v reason := by
  rw [State.moveState_placed reason (State.slotSvc?_modSvc_self hf hv), State.modSvc_modSvc s n f _ hf]
  simp only [State.sayPlaced, hfield, hst, hacc, State.modSvc_time]

/-! ### An empty slot, and a service that is not migrating -/

theorem migrationRows_empty {s : State} {n wait : Nat} (hv : s.slotSvc? n = none) :
    exec (.engineSettled n wait) s = .next s ∧ exec (.migrationSwitch n wait) s = .next s ∧
      exec (.migrationRelease n) s = .next s ∧ exec (.migrationAbandon n wait) s = .next s := by
  simp only [exec, execEngineSettled, execMigrationSwitch, execMigrationRelease, execMigrationAbandon, hv, and_self]

theorem migrationRows_none {s : State} {n wait : Nat} {v : Service} (hv : s.slotSvc? n = some v) (hm : v.migration = none) :
    exec (.migrationSwitch n wait) s = .next s ∧ exec (.migrationRelease n) s = .next s ∧
      exec (.migrationAbandon n wait) s = .next s := by
  simp only [exec, execMigrationSwitch, execMigrationRelease, execMigrationAbandon, hv, hm, and_self]

/-! ### ENGINE_SETTLED -/

theorem engineSettled_admitted {s : State} {n wait : Nat} {v : Service} (hv : s.slotSvc? n = some v) (hst : v.state = .admitted)
    (hw : (s.advance wait).memberWait v = false) :
    exec (.engineSettled n wait) s = .next (((s.advance wait).modSvc n
      (fun x => { x with state := .placed, reason := 0x02, stateDt := (s.advance wait).time.dt })).sayPlaced v 0x02) := by
  have hv' : (s.advance wait).slotSvc? n = some v := hv
  rw [← State.moveState_placed 0x02 hv']
  simp only [exec, execEngineSettled, hv, hst, hw, Bool.false_eq_true, if_false]

theorem engineSettled_waits {s : State} {n wait : Nat} {v : Service} (hv : s.slotSvc? n = some v) (hst : v.state = .admitted)
    (hw : (s.advance wait).memberWait v = true) : exec (.engineSettled n wait) s = .next s := by
  simp only [exec, execEngineSettled, hv, hst, hw, if_true]

theorem engineSettled_migrating {s : State} {n wait : Nat} {v : Service} {m : Migration} (hv : s.slotSvc? n = some v)
    (hm : v.migration = some m) (hst : v.state = .migrating) :
    exec (.engineSettled n wait) s
      = .next ((s.advance wait).modSvc n (fun x => { x with migration := some { m with settled := true } })) := by
  simp only [exec, execEngineSettled, hv, hst, hm]

/-! ### MIGRATION_SWITCH and MIGRATION_RELEASE -/

theorem migrationSwitch_settled {s : State} {n wait : Nat} {v : Service} {m : Migration} (hv : s.slotSvc? n = some v)
    (hm : v.migration = some m) (hset : m.settled = true) (hsw : m.switched = false) (hprog : s.progOf v.field = none) :
    exec (.migrationSwitch n wait) s = .next (((s.advance wait).flagStreams v.field fSplice).modSvc n
      (fun x => { x with rx := m.dest, headDecode := m.toHead, migration := some { m with switched := true } })) := by
  have hprog' : ((s.advance wait).flagStreams v.field fSplice).progOf v.field = none := hprog
  simp only [exec, execMigrationSwitch, hv, hm, hset, hsw, State.zcSwitch, hprog', Bool.not_true, Bool.or_self,
    Bool.false_eq_true, if_false]

theorem migrationSwitch_early {s : State} {n wait : Nat} {v : Service} {m : Migration} (hv : s.slotSvc? n = some v)
    (hm : v.migration = some m) (h : m.settled = false ∨ m.switched = true) : exec (.migrationSwitch n wait) s = .next s := by
  have : (!m.settled || m.switched) = true := by rcases h with h | h <;> simp [h]
  simp only [exec, execMigrationSwitch, hv, hm, this, if_true]

theorem migrationRelease_switched {s : State} {n : Nat} {v : Service} {m : Migration} (hv : s.slotSvc? n = some v)
    (hm : v.migration = some m) (hsw : m.switched = true) :
    exec (.migrationRelease n) s = .next (((s.settleLanes n).modSvc n
      (fun x => { x with migration := none, state := .placed, reason := 0x09, stateDt := s.time.dt })).sayPlaced v 0x09) := by
  have hv' : (s.settleLanes n).slotSvc? n = some v := hv
  have hp := State.placed_of_migrating (f := fun x => { x with migration := none }) 0x09 (fun _ => rfl) hv' rfl rfl rfl
  simp only [exec, execMigrationRelease, hv, hm, hsw, Bool.not_true, Bool.false_eq_true, if_false]
  exact congrArg _ hp

theorem migrationRelease_early {s : State} {n : Nat} {v : Service} {m : Migration} (hv : s.slotSvc? n = some v)
    (hm : v.migration = some m) (hsw : m.switched = false) : exec (.migrationRelease n) s = .next s := by
  simp only [exec, execMigrationRelease, hv, hm, hsw, Bool.not_false, if_true]

/-! ### MIGRATION_ABANDON -/

/-- The hints that a service honours after its migration is abandoned: not the input that it does not have (R31). -/
def Service.abandonedHints (v : Service) : Nat :=
  if hinted v.acc.attrs 0 && v.rx.input != v.acc.attrs.hintInput.toNat then v.honoured &&& (0xFFFF - 1) else v.honoured

/-- A service whose migration is abandoned, with the hints that it still honours (R33). -/
def Service.abandon (hints : Nat) (dt : W64) (x : Service) : Service :=
  { x with migration := none, honoured := hints, state := .placed, reason := 0x0A, stateDt := dt }

theorem Service.abandon_slot (hints : Nat) (dt : W64) (x : Service) : (x.abandon hints dt).slot = x.slot := rfl

/-- An abandoned migration leaves its service PLACED with the old reception, its lanes given up (R33). -/
theorem State.abandonMigration_eq {s : State} {n : Nat} {v : Service} (hv : s.slotSvc? n = some v) :
    s.abandonMigration n = ((s.dropJoining n).modSvc n (Service.abandon v.abandonedHints s.time.dt)).sayPlaced v 0x0A := by
  have hv' : (s.dropJoining n).slotSvc? n = some v := hv
  have hp := State.placed_of_migrating (f := fun x => { x with migration := none, honoured := v.abandonedHints }) 0x0A
    (fun _ => rfl) hv' rfl rfl rfl
  simp only [State.abandonMigration, hv]
  exact hp

theorem migrationAbandon_due {s : State} {n wait : Nat} {v : Service} {m : Migration} (hv : s.slotSvc? n = some v)
    (hm : v.migration = some m) (hset : m.settled = false) (hdue : m.started.toNat + 2001000000 ≤ (s.advance wait).now) :
    exec (.migrationAbandon n wait) s = .next ((((s.advance wait).dropJoining n).modSvc n
      (Service.abandon v.abandonedHints (s.advance wait).time.dt)).sayPlaced v 0x0A) := by
  have hnot : (m.settled || decide ((s.advance wait).now < m.started.toNat + 2001000000)) = false := by
    rw [hset, Bool.false_or, decide_eq_false_iff_not]; omega
  rw [← State.abandonMigration_eq (s := s.advance wait) hv]
  simp only [exec, execMigrationAbandon, hv, hm, hnot, Bool.false_eq_true, if_false]

theorem migrationAbandon_early {s : State} {n wait : Nat} {v : Service} {m : Migration} (hv : s.slotSvc? n = some v)
    (hm : v.migration = some m) (h : m.settled = true ∨ (s.advance wait).now < m.started.toNat + 2001000000) :
    exec (.migrationAbandon n wait) s = .next s := by
  have : (m.settled || decide ((s.advance wait).now < m.started.toNat + 2001000000)) = true := by
    rcases h with h | h <;> simp [h]
  simp only [exec, execMigrationAbandon, hv, hm, this, if_true]

/-- Settles O32: each row is one change of the service in its slot, under the conditions that let it take place. -/
theorem servicesSettleAndMigrate : Obligations.ServicesSettleAndMigrate := by
  unfold Obligations.ServicesSettleAndMigrate
  intro n wait s
  refine ⟨migrationRows_empty, fun v hv => ⟨?_, ?_, migrationRows_none hv⟩, fun v m hv hm => ⟨?_, ?_, ?_, ?_, ?_, ?_, ?_⟩⟩
  · exact engineSettled_admitted hv
  · exact engineSettled_waits hv
  · exact engineSettled_migrating hv hm
  · exact migrationSwitch_settled hv hm
  · exact migrationSwitch_early hv hm
  · exact migrationRelease_switched hv hm
  · exact migrationRelease_early hv hm
  · intro hset hdue
    have hslot := State.slotSvc?_modSvc_self (s := (s.advance wait).dropJoining n)
      (Service.abandon_slot v.abandonedHints (s.advance wait).time.dt) hv
    refine ⟨_, migrationAbandon_due hv hm hset hdue, rfl, rfl, ?_,
      fun k hk => State.slotSvc?_modSvc_ne (Service.abandon_slot _ _) hk⟩
    rw [hslot]
    rfl
  · exact migrationAbandon_early hv hm

end Sys2Proof.Machine
end

section
/-! PROOFS. Which ports the delivery of replies and events touches, and what an event leaves in the queue that it joins
(R399, R400). -/

namespace Sys2Proof.Machine

/-- What a state says beside the delivery of replies and events is the same in two states of one core. -/
theorem of_core {α : Type} (f : State → α) (hf : ∀ s : State, f s.core = f s) {s t : State} (h : s.core = t.core) : f s = f t := by
  rw [← hf s, h, hf]

/-! ### Interrupts and the reply ring touch no port -/

@[simp] theorem port_setBus (s : State) (b : Bus) (r : BusRegs) (t : Transport) : (s.setBus b r).port t = s.port t := by
  cases t <;> cases b <;> rfl

@[simp] theorem port_emit (s : State) (o : Out) (t : Transport) : (s.emit o).port t = s.port t := by cases t <;> rfl

@[simp] theorem port_rings (s : State) (r : CmdRings) (t : Transport) : ({ s with rings := r } : State).port t = s.port t := by
  cases t <;> rfl

@[simp] theorem port_hostWrite (s : State) (a : Nat) (bs : List Byte) (t : Transport) : (s.hostWrite a bs).port t = s.port t := by
  cases t <;> rfl

/-- The port of one transport is not touched by replacing that of another. -/
theorem port_setPort_ne (s : State) {t u : Transport} (p : Port) (h : t ≠ u) : (s.setPort u p).port t = s.port t := by
  cases t <;> cases u <;> first | rfl | exact absurd rfl h

@[simp] theorem port_msix (s : State) (v : Nat) (t : Transport) : (s.msix v).port t = s.port t := by
  unfold State.msix
  dsimp only
  split <;> cases t <;> rfl

@[simp] theorem port_intEdge (s : State) (b : Bus) (old : W32) (t : Transport) : (s.intEdge b old).port t = s.port t := by
  unfold State.intEdge
  cases b
  · dsimp only; split
    · rfl
    · exact port_msix s 0 t
  · dsimp only; split <;> split <;> cases t <;> rfl

@[simp] theorem port_setIntWord (s : State) (b : Bus) (f : W32 → W32) (t : Transport) : (s.setIntWord b f).port t = s.port t := by
  simp [State.setIntWord]
@[simp] theorem port_setInt (s : State) (b : Bus) (n : Nat) (t : Transport) : (s.setInt b n).port t = s.port t := by
  simp [State.setInt]
@[simp] theorem port_setIntBoth (s : State) (n : Nat) (t : Transport) : (s.setIntBoth n).port t = s.port t := by
  simp [State.setIntBoth]
@[simp] theorem port_ringsFault (s : State) (t : Transport) : s.ringsFault.port t = s.port t := by simp [State.ringsFault]
@[simp] theorem port_signalReplyRing (s : State) (t : Transport) : s.signalReplyRing.port t = s.port t := by
  simp [State.signalReplyRing]

@[simp] theorem port_fireMatch (s : State) (b : Bus) (t : Transport) : (s.fireMatch b).port t = s.port t := by
  unfold State.fireMatch
  dsimp only
  split <;> simp

@[simp] theorem core_fireMatch (s : State) (b : Bus) : (s.fireMatch b).core = s.core := by
  unfold State.fireMatch
  dsimp only
  split <;> simp

@[simp] theorem port_readReplyConsumer (s : State) (t : Transport) : s.readReplyConsumer.port t = s.port t := by
  unfold State.readReplyConsumer
  split
  · dsimp only; split
    · rfl
    · split
      · exact port_rings _ _ _
      · split
        · exact port_rings _ _ _
        · exact port_ringsFault s t
  · rfl

@[simp] theorem port_replyRingPut (s : State) (pkt : List Byte) (t : Transport) : (s.replyRingPut pkt).port t = s.port t := by
  unfold State.replyRingPut
  dsimp only
  split <;> (split <;> simp <;> split <;> cases t <;> simp [State.port])

@[simp] theorem port_replyRingTry (s : State) (pkt : List Byte) (t : Transport) : (s.replyRingTry pkt).1.port t = s.port t := by
  unfold State.replyRingTry
  split
  · rfl
  · split
    · simp
    · dsimp only; split <;> simp

@[simp] theorem port_mailboxAnswer (s : State) (b : Bus) (e : OutEntry) (r : Reply) (t : Transport) :
    (s.mailboxAnswer b e r).port t = s.port t := by simp [State.mailboxAnswer]

/-! ### Delivery on one transport touches no other port -/

theorem port_deliverOne_ne (s : State) {t u : Transport} (h : t ≠ u) : (s.deliverOne u).1.port t = s.port t := by
  have hset : ∀ (s : State) p, (s.setPort u p).port t = s.port t := fun s p => port_setPort_ne s p h
  unfold State.deliverOne
  dsimp only
  split
  · rfl
  · split
    · rfl
    · cases u <;> dsimp only
      · split
        · split
          · exact hset _ _
          · have hr := port_replyRingTry s ‹Reply›.packet t
            split <;> (rename_i heq; rw [heq] at hr)
            · exact (hset _ _).trans hr
            · exact hr
        · rw [port_mailboxAnswer, hset]
      · rw [port_mailboxAnswer, hset]
      · split
        · exact hset _ _
        · rfl
      · split
        · exact hset _ _
        · rfl

theorem port_deliverReplies_ne (n : Nat) (s : State) {t u : Transport} (h : t ≠ u) :
    (State.deliverReplies n s u).port t = s.port t := by
  induction n generalizing s with
  | zero => rfl
  | succ n ih =>
    have hone := port_deliverOne_ne s h
    unfold State.deliverReplies
    split <;> (rename_i heq; rw [heq] at hone)
    · rw [ih]; exact hone
    · exact hone

theorem port_deliverEvents_ne (n : Nat) (s : State) {t : Transport} (h : t ≠ .pcie) :
    (State.deliverEvents n s).port t = s.port t := by
  have hset : ∀ (s : State) p, ({ s with pPcie := p } : State).port t = s.port t := fun s p => port_setPort_ne s p h
  induction n generalizing s with
  | zero => rfl
  | succ n ih =>
    unfold State.deliverEvents
    split
    · rfl
    · split
      · rfl
      · have hr := port_replyRingTry s ‹Event›.packet t
        split <;> (rename_i heq; rw [heq] at hr)
        · rw [ih, hset]; exact hr
        · exact hr

theorem port_flush_ne (s : State) {t u : Transport} (h : t ≠ u) : (s.flush u).port t = s.port t := by
  have hr := port_deliverReplies_ne ((s.port u).outbox.length) s h
  unfold State.flush
  cases u <;> dsimp only
  · rw [port_deliverEvents_ne _ _ h, hr]
  · exact hr
  · split
    · exact hr
    · rw [port_emit, hr]
  · exact hr

/-- An event queued for one transport touches no other port. -/
theorem port_queueEvent_ne (s : State) (c f : W16) (ps : List Byte) {t u : Transport} (h : t ≠ u) :
    (s.queueEvent u c f ps).port t = s.port t := by
  unfold State.queueEvent
  cases u <;> dsimp only
  · rw [port_flush_ne _ h, port_intEdge, port_setPort_ne _ _ h]
  · rw [port_intEdge, port_setPort_ne _ _ h]
  · split
    · rw [port_setPort_ne _ _ h]
    · rw [port_emit, port_setPort_ne _ _ h]
  · rw [port_setPort_ne _ _ h]

/-! ### The service port's queue -/

/-- A queue of events with one more, the oldest dropped where it was full (R400). -/
def joinQueue (l : List Event) (e : Event) : List Event := if 128 ≤ l.length then (l ++ [e]).tail else l ++ [e]

/-- The newest event of a queue is the one that joined last. -/
theorem getLast?_joinQueue (l : List Event) (e : Event) : (joinQueue l e).getLast? = some e := by
  unfold joinQueue
  split
  · next h =>
    obtain ⟨x, xs, rfl⟩ := List.exists_cons_of_length_pos (by omega : 0 < l.length)
    simp
  · simp

/-- The newest event stays when one more joins. -/
theorem mem_joinQueue_of_getLast? {l : List Event} {e : Event} (x : Event) (h : l.getLast? = some e) : e ∈ joinQueue l x := by
  unfold joinQueue
  split
  · next hfull =>
    obtain ⟨y, ys, rfl⟩ := List.exists_cons_of_length_pos (by omega : 0 < l.length)
    obtain ⟨z, zs, rfl⟩ := List.exists_cons_of_length_pos (by simp at hfull; omega : 0 < ys.length)
    rw [List.getLast?_cons_cons] at h
    exact List.mem_append_left _ (List.mem_of_getLast? h)
  · exact List.mem_append_left _ (List.mem_of_getLast? h)

/-- The event packet that a state queues for a port. -/
def State.eventFor (s : State) (p : Port) (c f : W16) (ps : List Byte) : Event :=
  ⟨c, p.evSeq, f, s.genInForce f, tick32 s.tickNow, s.time.dt, ps⟩

theorem queueEvent_service_events (s : State) (c f : W16) (ps : List Byte) :
    (s.queueEvent .service c f ps).pSvc.events = joinQueue s.pSvc.events (s.eventFor s.pSvc c f ps) := by
  unfold State.queueEvent
  dsimp only
  split <;> rfl

/-- An event is offered to one transport, which queues it where its mask includes the code (R399). -/
def State.offerEvent (s : State) (c f : W16) (ps : List Byte) (t : Transport) : State :=
  if s.masked t c then s.queueEvent t c f ps else s

@[simp] theorem core_offerEvent (s : State) (c f : W16) (ps : List Byte) (t : Transport) : (s.offerEvent c f ps t).core = s.core :=
  core_queueIf s _ t c f ps

/-- An event offered to another transport leaves the service port alone. -/
theorem offerEvent_pSvc (s : State) (c f : W16) (ps : List Byte) {t : Transport} (h : .service ≠ t) :
    (s.offerEvent c f ps t).pSvc = s.pSvc := by
  unfold State.offerEvent
  split
  · exact port_queueEvent_ne s c f ps h
  · rfl

/-- Two states with one core mask events alike. -/
theorem masked_of_core {s t : State} (h : s.core = t.core) (u : Transport) (c : W16) : s.masked u c = t.masked u c :=
  of_core (fun x => x.masked u c) (fun _ => rfl) h

/-- Two states with one core put the same fields into an event. -/
theorem eventFor_of_core {s t : State} (h : s.core = t.core) (p : Port) (c f : W16) (ps : List Byte) :
    s.eventFor p c f ps = t.eventFor p c f ps :=
  of_core (fun x => x.eventFor p c f ps) (fun _ => rfl) h

/-- The service port's queue after an event is offered to it. -/
theorem offerEvent_service_events (s : State) (c f : W16) (ps : List Byte) :
    (s.offerEvent c f ps .service).pSvc.events
      = if s.masked .service c then joinQueue s.pSvc.events (s.eventFor s.pSvc c f ps) else s.pSvc.events := by
  unfold State.offerEvent
  split
  · exact queueEvent_service_events s c f ps
  · rfl

/-- An event that names no slot is offered to each transport in turn (R399). -/
theorem raise_noSlot_eq (s : State) (code : Nat) (ps : List Byte) :
    s.raise code noSlot ps = (((s.offerEvent (BitVec.ofNat 16 code) noSlot ps .pcie).offerEvent (BitVec.ofNat 16 code) noSlot ps
      .twoWire).offerEvent (BitVec.ofNat 16 code) noSlot ps .service).offerEvent (BitVec.ofNat 16 code) noSlot ps .trunk := by
  have hno : (if noSlot = 0xFFFF#16 then s else s.eventCopy (BitVec.ofNat 16 code) noSlot ps) = s := if_pos rfl
  have hstep : (fun (s : State) t => if s.masked t (BitVec.ofNat 16 code) then s.queueEvent t (BitVec.ofNat 16 code) noSlot ps else s)
      = fun s t => s.offerEvent (BitVec.ofNat 16 code) noSlot ps t := rfl
  unfold State.raise
  dsimp only
  rw [hno, hstep, List.foldl_cons, List.foldl_cons, List.foldl_cons, List.foldl_cons, List.foldl_nil]

/-- The service port's queue after an event that names no slot: the event joins it where its mask includes the code. -/
theorem raise_noSlot_events (s : State) (code : Nat) (ps : List Byte) :
    (s.raise code noSlot ps).pSvc.events
      = if s.masked .service (BitVec.ofNat 16 code) then
          joinQueue s.pSvc.events (s.eventFor s.pSvc (BitVec.ofNat 16 code) noSlot ps) else s.pSvc.events := by
  obtain ⟨t, ht⟩ : ∃ t, t = (s.offerEvent (BitVec.ofNat 16 code) noSlot ps .pcie).offerEvent (BitVec.ofNat 16 code) noSlot ps .twoWire :=
    ⟨_, rfl⟩
  have hcore : t.core = s.core := by rw [ht, core_offerEvent, core_offerEvent]
  have hsvc : t.pSvc = s.pSvc := by
    rw [ht, offerEvent_pSvc _ _ _ _ (t := .twoWire) (by decide), offerEvent_pSvc _ _ _ _ (t := .pcie) (by decide)]
  rw [raise_noSlot_eq, ← ht, offerEvent_pSvc _ _ _ _ (t := .trunk) (by decide), offerEvent_service_events, hsvc,
    masked_of_core hcore, eventFor_of_core hcore]

/-- The newest event in the service port's queue stays in it when another that names no slot is raised. -/
theorem mem_raise_of_getLast? {s : State} {e : Event} (code : Nat) (ps : List Byte) (h : s.pSvc.events.getLast? = some e) :
    e ∈ (s.raise code noSlot ps).pSvc.events := by
  rw [raise_noSlot_events]
  split
  · exact mem_joinQueue_of_getLast? _ h
  · exact List.mem_of_getLast? h

end Sys2Proof.Machine
end

section
/-! PROOFS. TICK as a whole, and the steps of device time (O28). -/

namespace Sys2Proof.Machine

/-! ### The temperature of a tick -/

/-- The sensor's values after a reading below every level's threshold (R492). -/
def State.coolThermal (s : State) (temp : W16) : ThermalSt :=
  { s.thermal with
    temp := temp, tempMax := if s.power.uptime = 0 ∨ s.thermal.tempMax.toInt < temp.toInt then temp else s.thermal.tempMax
    hot110 := 0, hot115 := 0, coolTicks := s.thermal.coolTicks + 1, inLevel := s.thermal.inLevel + 1
    shedTicks := s.thermal.shedTicks + 1 }

/-- The sensor's values after a reading (R492). -/
def State.readThermal (s : State) (temp : W16) : ThermalSt :=
  let t := s.thermal
  { t with
    temp := temp, tempMax := if s.power.uptime = 0 ∨ deg t.tempMax < deg temp then temp else t.tempMax
    hot110 := if 1100 ≤ deg temp then t.hot110 + 1 else 0, hot115 := if 1150 ≤ deg temp then t.hot115 + 1 else 0
    coolTicks := if decide (deg temp < (if t.level = 2 then 1100 else 1050)) then t.coolTicks + 1 else 0
    inLevel := t.inLevel + 1, shedTicks := t.shedTicks + 1 }

/-- A tick's reading is taken, and then the level that it gives is entered where it is another (Table 19.7). -/
theorem thermalTick_eq (s : State) (temp : W16) :
    s.thermalTick temp = if (s.readThermal temp).next = 3 then ({ s with thermal := s.readThermal temp } : State).shutDown
      else if (s.readThermal temp).next = s.thermal.level then { s with thermal := s.readThermal temp }
      else ({ s with thermal := s.readThermal temp } : State).setLevel (s.readThermal temp).next := rfl

theorem readThermal_cool {s : State} {temp : W16} (hl : s.thermal.level = 0) (ht : temp.toInt < 1050) :
    s.readThermal temp = s.coolThermal temp := by
  have h110 : (if 1100 ≤ deg temp then s.thermal.hot110 + 1 else 0) = 0 := if_neg (by rw [deg]; omega)
  have h115 : (if 1150 ≤ deg temp then s.thermal.hot115 + 1 else 0) = 0 := if_neg (by rw [deg]; omega)
  have hcool : decide (deg temp < (if s.thermal.level = 2 then 1100 else 1050)) = true := by
    rw [hl, if_neg (by decide), decide_eq_true_eq]; exact ht
  unfold State.readThermal State.coolThermal
  dsimp only
  rw [h110, h115, hcool]
  rfl

/-- A reading below 105 °C at LEVEL 0 keeps the level (Table 19.7). -/
theorem thermalTick_cool {s : State} {temp : W16} (hl : s.thermal.level = 0) (ht : temp.toInt < 1050) :
    s.thermalTick temp = { s with thermal := s.coolThermal temp } := by
  have h125 : ¬ 1250 ≤ temp.toInt := by omega
  have hnext : (s.coolThermal temp).next = 0 := by simp [ThermalSt.next, State.coolThermal, deg, h125, hl]
  rw [thermalTick_eq, readThermal_cool hl ht, hnext, if_neg (by decide), if_pos hl.symm]

/-! ### TICK -/

/-- The state in which the work of a tick begins: DT at the boundary, the host's bytes in its memory, the reading taken, the
uptime one on. -/
def State.tickBegun (s : State) (inp : TickIn) : State :=
  { s.nextTick.hostCells inp.writes with
    thermal := s.coolThermal inp.temp, power := { s.power with uptime := s.power.uptime + 1 } }

theorem tick_held {s : State} {inp : TickIn} (hup : s.up = false) : exec (.tick inp) s = .next (s.hostCells inp.writes) := by
  simp only [exec, execTick, hup, Bool.not_false, if_true]

theorem tick_unready {s : State} {inp : TickIn} (hup : s.up = true) (hs : s.serving = false) (hl : s.thermal.level = 0)
    (ht : inp.temp.toInt < 1050) :
    exec (.tick inp) s = .next { s.hostCells inp.writes with
      thermal := s.coolThermal inp.temp, power := { s.power with uptime := s.power.uptime + 1 } } := by
  have hcool := thermalTick_cool (s := s.hostCells inp.writes) hl ht
  simp only [exec, execTick, hup, hs, Bool.not_true, Bool.not_false, Bool.false_eq_true, if_false, if_true, hcool]
  rfl

theorem tick_atWrap {s : State} {inp : TickIn} (hup : s.up = true) (hs : s.serving = true) (hb : 2 ^ 64 ≤ s.time.boundary) :
    exec (.tick inp) s = .next s := by
  simp only [exec, execTick, hup, hs, Bool.not_true, Bool.false_eq_true, if_false, if_pos hb]

/-- A tick of a device that serves and stays below the thermal levels, by what is due (R489). -/
theorem tick_served {s : State} {inp : TickIn} (hup : s.up = true) (hs : s.serving = true) (hb : s.time.boundary < 2 ^ 64)
    (hl : s.thermal.level = 0) (ht : inp.temp.toInt < 1050) :
    exec (.tick inp) s = .next (match s.power.resetIn with
      | some n => if n ≤ 1 then (s.tickBegun inp).afterReset 3
        else ({ s.tickBegun inp with power := { (s.tickBegun inp).power with resetIn := some (n - 1) } }).tickWork inp
      | none => if s.power.recovery then (s.tickBegun inp).serveAll else (s.tickBegun inp).tickWork inp) := by
  have hcool := thermalTick_cool (s := s.nextTick.hostCells inp.writes) hl ht
  have hs' : ({ s.nextTick.hostCells inp.writes with thermal := (s.nextTick.hostCells inp.writes).coolThermal inp.temp } : State).serving
      = true := hs
  have hb' : ¬ 2 ^ 64 ≤ s.time.boundary := by omega
  simp only [exec, execTick, hup, hs, Bool.not_true, Bool.false_eq_true, if_false, if_neg hb', State.servedTick, hcool, hs']
  rfl

/-! ### The recovery loader serves no ring (R466) -/

/-- Two states with one core serve the same transports. -/
theorem serves_of_core {s t : State} (h : s.core = t.core) (u : Transport) : s.serves u = t.serves u :=
  of_core (fun x => x.serves u) (fun _ => rfl) h

/-- While the PCIe transport is not served, the command ring is not read: at most the reply ring's CONSUMER is. -/
theorem core_serveRing_unserved (n : Nat) {s : State} (h : s.serves .pcie = false) : (State.serveRing n s).core = s.core := by
  cases n with
  | zero => rfl
  | succ n =>
    unfold State.serveRing
    dsimp only
    obtain ⟨t, ht⟩ : ∃ t, t = if s.replyRingOn && decide (s.replyFree < 4096) then s.readReplyConsumer else s := ⟨_, rfl⟩
    have hcore : t.core = s.core := by
      rw [ht]; split
      · exact core_readReplyConsumer s
      · rfl
    have hoff : t.cmdRingOn = false := by rw [State.cmdRingOn, serves_of_core hcore, h]; rfl
    rw [← ht, hoff]
    exact hcore

/-- Every transport delivers, and the command ring is not read. -/
theorem core_serveAll_unserved {s : State} (h : s.serves .pcie = false) : s.serveAll.core = s.core := by
  have hflush : ([Transport.pcie, .twoWire, .service, .trunk].foldl State.flush s).core = s.core :=
    core_foldl _ _ core_flush s
  refine (core_serveRing_unserved _ ?_).trans hflush
  rw [serves_of_core hflush, h]

/-! ### Steps of device time -/

/-- The state in which the step of DT is announced: DT and the boundary set, streams and references moved (R59, R60). -/
def State.stepBegun (s : State) (before : Nat) (dt : W64) : State :=
  ({ s with
    time := { s.time with dt := dt, boundary := roundUp 1000000 (dt.toNat + 500000), rtcSeed := false, stepDue := none }
    streams := s.streams.map Stream.stepped
    refs := s.refs.shift ((dt.toNat : Int) - before) } : State).schedNow

/-- A step of DT: it is announced, then the time state follows, and matches that it passes fire. -/
theorem applyStep_eq (s : State) (before : Nat) (dt : W64) :
    s.applyStep before dt.toNat = ((((s.stepBegun before dt).raise 0x8008 noSlot (le 8 before ++ le 8 dt.toNat)).stepState
      ((dt.toNat : Int) - before)).fireMatch .pcie).fireMatch .twoWire := by
  have hn : BitVec.ofInt 64 (dt.toNat : Int) = dt := by rw [BitVec.ofInt_natCast, BitVec.ofNat_toNat, BitVec.setWidth_eq]
  simp only [State.applyStep, hn]
  rfl

/-- What a change of the time state leaves alone. -/
theorem setTState_frame (s : State) (t : TState) :
    (s.setTState t).time = s.time ∧ (s.setTState t).streams = s.streams ∧ (s.setTState t).pSvc = s.pSvc := by
  unfold State.setTState
  split
  · exact ⟨rfl, rfl, rfl⟩
  · exact ⟨(of_core State.time (fun _ => rfl) (core_setIntBoth _ _)).trans rfl,
      (of_core State.streams (fun _ => rfl) (core_setIntBoth _ _)).trans rfl, port_setIntBoth _ _ .service⟩

/-- An event of the references leaves time and streams alone, and the service port's newest event in its queue. -/
theorem refSay_frame (s : State) (reason role ref : Nat) :
    (s.refSay reason role ref).time = s.time ∧ (s.refSay reason role ref).streams = s.streams ∧
      ∀ e, s.pSvc.events.getLast? = some e → e ∈ (s.refSay reason role ref).pSvc.events := by
  obtain ⟨ps, hsay⟩ : ∃ ps, s.refSay reason role ref = s.raise 0x8009 noSlot ps := ⟨_, rfl⟩
  rw [hsay]
  have hcore := core_raise_noSlot s 0x8009 ps
  exact ⟨of_core State.time (fun _ => rfl) hcore, of_core State.streams (fun _ => rfl) hcore,
    fun e he => mem_raise_of_getLast? _ _ he⟩

/-- Entering LOCKED leaves time and streams alone, and the service port's newest event in its queue. -/
theorem enterLocked_frame (s : State) :
    s.enterLocked.time = s.time ∧ s.enterLocked.streams = s.streams ∧
      ∀ e, s.pSvc.events.getLast? = some e → e ∈ s.enterLocked.pSvc.events := by
  have hsay : ∀ u : State, u.time = s.time → u.streams = s.streams → u.pSvc = s.pSvc → ∀ n,
      (u.refSay 4 1 n).time = s.time ∧ (u.refSay 4 1 n).streams = s.streams ∧
        ∀ e, s.pSvc.events.getLast? = some e → e ∈ (u.refSay 4 1 n).pSvc.events := by
    intro u htime hstreams hsvc n
    obtain ⟨h1, h2, h3⟩ := refSay_frame u 4 1 n
    exact ⟨h1.trans htime, h2.trans hstreams, fun e he => h3 e (by rw [hsvc]; exact he)⟩
  obtain ⟨htime, hstreams, hsvc⟩ := setTState_frame s .locked
  unfold State.enterLocked
  split
  · exact ⟨rfl, rfl, fun e he => List.mem_of_getLast? he⟩
  · refine hsay _ ?_ ?_ ?_ _
    · exact htime
    · exact hstreams
    · exact hsvc

/-- The time state after a step leaves time and streams alone, and the service port's newest event in its queue (R129). -/
theorem stepState_frame (s : State) (d : Int) :
    (s.stepState d).time = s.time ∧ (s.stepState d).streams = s.streams ∧
      ∀ e, s.pSvc.events.getLast? = some e → e ∈ (s.stepState d).pSvc.events := by
  have hset : ∀ u : State, u.time = s.time → u.streams = s.streams → u.pSvc = s.pSvc → ∀ t,
      (u.setTState t).time = s.time ∧ (u.setTState t).streams = s.streams ∧
        ∀ e, s.pSvc.events.getLast? = some e → e ∈ (u.setTState t).pSvc.events := by
    intro u htime hstreams hsvc t
    obtain ⟨h1, h2, h3⟩ := setTState_frame u t
    exact ⟨h1.trans htime, h2.trans hstreams, fun e he => by rw [h3, hsvc]; exact List.mem_of_getLast? he⟩
  have hlock : ∀ u : State, u.time = s.time → u.streams = s.streams → u.pSvc = s.pSvc →
      u.enterLocked.time = s.time ∧ u.enterLocked.streams = s.streams ∧
        ∀ e, s.pSvc.events.getLast? = some e → e ∈ u.enterLocked.pSvc.events := by
    intro u htime hstreams hsvc
    obtain ⟨h1, h2, h3⟩ := enterLocked_frame u
    exact ⟨h1.trans htime, h2.trans hstreams, fun e he => h3 e (by rw [hsvc]; exact he)⟩
  unfold State.stepState
  split
  · exact hset s rfl rfl rfl .free
  · dsimp only
    split
    · refine hlock _ ?_ ?_ ?_ <;> rfl
    · refine hset _ ?_ ?_ ?_ .acquiring <;> rfl

/-- Rounding up to a whole millisecond. -/
theorem roundUp_div (n : Nat) : roundUp 1000000 n = (n + 999999) / 1000000 * 1000000 := by
  unfold roundUp padLen
  omega

/-- What a step of DT to `dt` leaves: DT, the boundary, no step due, the streams marked, and the event in the service port's queue
where its code is in the mask (R59, R60). -/
theorem applyStep_leaves (s : State) (before : Nat) (dt : W64) :
    let u := s.applyStep before dt.toNat
    u.time.dt = dt ∧ u.time.boundary = (dt.toNat + 500000 + 999999) / 1000000 * 1000000 ∧ u.time.stepDue = none ∧
      u.streams = s.streams.map Stream.stepped ∧
      (s.masked .service 0x8008#16 = true → ∃ e ∈ u.pSvc.events,
        e.code = 0x8008#16 ∧ e.dt = dt ∧ e.params = le 8 before ++ le 8 dt.toNat) := by
  intro u
  obtain ⟨b, hb⟩ : ∃ b, b = s.stepBegun before dt := ⟨_, rfl⟩
  obtain ⟨r, hr⟩ : ∃ r, r = b.raise 0x8008 noSlot (le 8 before ++ le 8 dt.toNat) := ⟨_, rfl⟩
  have hu : u = ((r.stepState ((dt.toNat : Int) - before)).fireMatch .pcie).fireMatch .twoWire := by
    rw [hr, hb]; exact applyStep_eq s before dt
  obtain ⟨htime, hstreams, hmem⟩ := stepState_frame r ((dt.toNat : Int) - before)
  have hcore : r.core = b.core := by rw [hr, core_raise_noSlot]
  have hfire : u.core = (r.stepState ((dt.toNat : Int) - before)).core := by rw [hu, core_fireMatch, core_fireMatch]
  have hut : u.time = b.time :=
    (of_core State.time (fun _ => rfl) hfire).trans (htime.trans (of_core State.time (fun _ => rfl) hcore))
  have hus : u.streams = b.streams :=
    (of_core State.streams (fun _ => rfl) hfire).trans (hstreams.trans (of_core State.streams (fun _ => rfl) hcore))
  refine ⟨?_, ?_, ?_, ?_, ?_⟩
  · rw [hut, hb]; rfl
  · rw [hut, hb]; exact roundUp_div _
  · rw [hut, hb]; rfl
  · rw [hus, hb]; rfl
  · intro hmask
    have hmask' : b.masked .service (BitVec.ofNat 16 0x8008) = true := by rw [hb]; exact hmask
    have hlast : r.pSvc.events.getLast?
        = some (b.eventFor b.pSvc (BitVec.ofNat 16 0x8008) noSlot (le 8 before ++ le 8 dt.toNat)) := by
      rw [hr, raise_noSlot_events, if_pos hmask', getLast?_joinQueue]
    have hsvc : u.pSvc = (r.stepState ((dt.toNat : Int) - before)).pSvc := by
      rw [hu]; exact (port_fireMatch _ .twoWire .service).trans (port_fireMatch _ .pcie .service)
    exact ⟨_, hsvc ▸ hmem _ hlast, rfl, by rw [hb]; rfl, rfl⟩

/-- Settles O28: the tick by what is due at it, and each step of DT as one operation. -/
theorem ticksAndStepsOfTime : Obligations.TicksAndStepsOfTime := by
  unfold Obligations.TicksAndStepsOfTime
  intro inp s
  refine ⟨tick_held, tick_unready, ?_, tick_atWrap, ?_, ?_, ?_, ?_⟩
  · intro hup hs hb hl ht t
    have htick := tick_served (inp := inp) hup hs hb hl ht
    have hbegun : t = s.tickBegun inp := rfl
    clear_value t
    subst hbegun
    refine ⟨fun hres hrec => ?_, fun hres hrec => ?_, fun n hres hn => ?_, fun n hres hn => ?_⟩
    · simp only [htick, hres, hrec, Bool.false_eq_true, if_false]
    · have hoff : (s.tickBegun inp).serves .pcie = false := by
        show (s.serving && (!s.power.recovery || _)) = false
        rw [hrec, hs]; rfl
      refine ⟨(s.tickBegun inp).serveAll, ?_, core_serveAll_unserved hoff⟩
      simp only [htick, hres, hrec, if_true]
    · simp only [htick, hres, if_neg (show ¬ n ≤ 1 by omega)]
    · simp only [htick, hres, if_pos hn]
  · intro d hd
    refine ⟨_, ?_, applyStep_leaves s s.now d⟩
    simp only [exec, execTimeStep, hd]
  · intro hd
    simp only [exec, execTimeStep, hd]
  · intro hb
    refine ⟨_, ?_, applyStep_leaves s (2 ^ 64 - 1) 0#64⟩
    simp only [exec, execDtWrap, if_pos hb]
    rfl
  · intro hb
    simp only [exec, execDtWrap, if_neg (show ¬ 2 ^ 64 ≤ s.time.boundary by omega)]

end Sys2Proof.Machine
end

section
/-! PROOFS. Which of the model's operations leave the settings in force and READY as they are: what a tick does after its settings
have taken force (O57). Here the relation, and the operations that all chapters share. Each lemma is a rewriting rule for the
function that it names, so the lemma of a function that calls it unfolds that function and, where it branches, splits. -/

namespace Sys2Proof.Machine

/-- The settings in force and READY are the same in two states. -/
@[simp] abbrev SameForce (t s : State) : Prop := t.force = s.force ∧ t.power.ready = s.power.ready

theorem SameForce.trans {a b c : State} (h : SameForce a b) (k : SameForce b c) : SameForce a c := ⟨h.1.trans k.1, h.2.trans k.2⟩

theorem sameForce_of_core {s t : State} (h : t.core = s.core) : SameForce t s :=
  ⟨of_core (·.force) (fun _ => rfl) h, of_core (·.power.ready) (fun _ => rfl) h⟩

/-- What no step of a fold changes, the fold does not. -/
theorem foldl_keeps {α β : Type} (p : State → β) (f : State → α → State) (l : List α) (h : ∀ s x, p (f s x) = p s) (s : State) :
    p (l.foldl f s) = p s := by
  induction l generalizing s with
  | nil => rfl
  | cons x l ih => exact (ih _).trans (h s x)

@[simp] theorem sameForce_foldl {α : Type} (f : State → α → State) (l : List α) (h : ∀ s x, SameForce (f s x) s) (s : State) :
    SameForce (l.foldl f s) s :=
  ⟨foldl_keeps (·.force) f l (fun s x => (h s x).1) s, foldl_keeps (·.power.ready) f l (fun s x => (h s x).2) s⟩

@[simp] theorem ite_force {c : Prop} [Decidable c] (a b : State) : (if c then a else b).force = if c then a.force else b.force :=
  apply_ite State.force c a b

@[simp] theorem ite_ready {c : Prop} [Decidable c] (a b : State) :
    (if c then a else b).power.ready = if c then a.power.ready else b.power.ready :=
  apply_ite (·.power.ready) c a b

@[simp] theorem sameForce_intEdge (s : State) (b : Bus) (old : W32) : SameForce (s.intEdge b old) s :=
  sameForce_of_core (core_intEdge ..)

@[simp] theorem sameForce_setIntBoth (s : State) (n : Nat) : SameForce (s.setIntBoth n) s :=
  sameForce_of_core (core_setIntBoth ..)

@[simp] theorem sameForce_ringsFault (s : State) : SameForce s.ringsFault s := sameForce_of_core (core_ringsFault ..)

@[simp] theorem sameForce_readReplyConsumer (s : State) : SameForce s.readReplyConsumer s :=
  sameForce_of_core (core_readReplyConsumer ..)

@[simp] theorem sameForce_flush (s : State) (t : Transport) : SameForce (s.flush t) s := sameForce_of_core (core_flush ..)

@[simp] theorem sameForce_eventCopy (s : State) (code : W16) (slot : W16) (params : List Byte) :
    SameForce (s.eventCopy code slot params) s := by
  unfold State.eventCopy
  split <;> simp

/-- An event that names a slot is copied to the slot's event stream first (R400). -/
def State.copyEvent (s : State) (c f : W16) (ps : List Byte) : State := if f = 0xFFFF#16 then s else s.eventCopy c f ps

theorem raise_eq (s : State) (code : Nat) (f : W16) (ps : List Byte) :
    s.raise code f ps = [Transport.pcie, .twoWire, .service, .trunk].foldl (fun s t => s.offerEvent (BitVec.ofNat 16 code) f ps t)
      (s.copyEvent (BitVec.ofNat 16 code) f ps) := rfl

/-- Beside the queues, an event leaves the copy that its slot's event stream takes. -/
theorem core_raise (s : State) (code : Nat) (f : W16) (ps : List Byte) :
    (s.raise code f ps).core = (s.copyEvent (BitVec.ofNat 16 code) f ps).core := by
  rw [raise_eq]
  exact core_foldl _ _ (fun s t => core_offerEvent s _ f ps t) _

theorem sameForce_copyEvent (s : State) (c f : W16) (ps : List Byte) : SameForce (s.copyEvent c f ps) s := by
  unfold State.copyEvent
  split
  · exact ⟨rfl, rfl⟩
  · exact sameForce_eventCopy ..

@[simp] theorem sameForce_raise (s : State) (code : Nat) (slot : W16) (params : List Byte) :
    SameForce (s.raise code slot params) s :=
  (sameForce_of_core (core_raise ..)).trans (sameForce_copyEvent ..)

@[simp] theorem refuse_fst (s : State) (st : Status) : (refuse s st).1 = s := rfl

/-- A command's effect leaves the settings in force. (A definition of its own, so that no check of a proof about it evaluates a
test that the command makes.) -/
def KeepsForce (s : State) (r : State × Answer) : Prop := SameForce r.1 s

theorem keepsForce_answer (s : State) (a : Answer) : KeepsForce s (s, a) := ⟨rfl, rfl⟩
theorem keepsForce_refuse (s : State) (st : Status) : KeepsForce s (refuse s st) := ⟨rfl, rfl⟩

@[simp] theorem sameForce_commitDev (s : State) (g : Option Nat) (f : Settings → Settings) (params : List Byte) :
    SameForce (s.commitDev g f params).1 s := by
  unfold State.commitDev
  split <;> simp

@[simp] theorem sameForce_commitSvc (s : State) (n : Nat) (f : SvcSettings → SvcSettings) (params : List Byte) :
    SameForce (s.commitSvc n f params).1 s := by
  unfold State.commitSvc
  dsimp only
  repeat' split
  all_goals simp

@[simp] theorem sameForce_post (s : State) (h : CmdHdr) (keep : Bool) (r : Option Reply) : SameForce (s.post h keep r) s :=
  sameForce_of_core (core_post ..)

@[simp] theorem sameForce_finish (s : State) (dt : W64) (h : CmdHdr) (opcode : Nat) (a : Answer) :
    SameForce (s.finish dt h opcode a) s :=
  sameForce_of_core (core_finish ..)

@[simp] theorem sameForce_resend (s : State) (h : CmdHdr) (d : DupEntry) : SameForce (s.resend h d) s :=
  sameForce_of_core (core_resend ..)

theorem sameForce_checked (s : State) (g : Gate) (h : CmdHdr) (body : State → State × Answer) (hb : ∀ u, KeepsForce u (body u)) :
    SameForce (s.checked g h body).1 s := by
  unfold State.checked
  split
  · exact ⟨rfl, rfl⟩
  · split
    · exact ⟨rfl, rfl⟩
    · exact hb s

/-- A command's reply, a retry and a refusal leave the settings in force; so does the command where its effect does. -/
theorem sameForce_runCmd (s : State) (g : Gate) (h : CmdHdr) (body : State → State × Answer) (hb : ∀ u, KeepsForce u (body u)) :
    SameForce (s.runCmd g h body) s := by
  unfold State.runCmd
  split
  · exact ⟨rfl, rfl⟩
  · dsimp only
    split
    · exact (sameForce_resend ..).trans ⟨rfl, rfl⟩
    · exact (sameForce_finish ..).trans ((sameForce_checked _ g h body hb).trans ⟨rfl, rfl⟩)

@[simp] theorem sameForce_complete (s : State) (t : Transport) (id : Nat) (r : Reply) : SameForce (s.complete t id r) s :=
  sameForce_of_core (core_complete ..)

theorem keepsForce_itemCmd (s : State) (tbl : List ItemSpec) (applies : Nat → Bool) (pre : List Byte) (force acc : ItemTable)
    (items : List Item) (put : ItemTable → State × Answer) (h : ∀ t, KeepsForce s (put t)) :
    KeepsForce s (s.itemCmd tbl applies pre force acc items put) := by
  unfold State.itemCmd
  split
  · exact keepsForce_answer s _
  · split
    · exact keepsForce_refuse s _
    · exact h _

@[simp] theorem sameForce_itemCmd (s : State) (tbl : List ItemSpec) (applies : Nat → Bool) (pre : List Byte)
    (force acc : ItemTable) (items : List Item) (put : ItemTable → State × Answer) (h : ∀ t, SameForce (put t).1 s) :
    SameForce (s.itemCmd tbl applies pre force acc items put).1 s :=
  keepsForce_itemCmd s tbl applies pre force acc items put h

@[simp] theorem refuseIf_force_ready (s : State) (c : Bool) (st : Status) (k : State × Answer) :
    (s.refuseIf c st k).1.force = (if c then s.force else k.1.force)
      ∧ (s.refuseIf c st k).1.power.ready = (if c then s.power.ready else k.1.power.ready) := by
  cases c <;> exact ⟨rfl, rfl⟩

theorem keepsForce_refuseIf {s : State} (c : Bool) (st : Status) {k : State × Answer} (h : KeepsForce s k) :
    KeepsForce s (s.refuseIf c st k) := by
  cases c
  · exact h
  · exact keepsForce_refuse s st

@[simp] theorem ite_fst {c : Prop} [Decidable c] (a b : State × Answer) : (if c then a else b).1 = if c then a.1 else b.1 :=
  apply_ite Prod.fst c a b

end Sys2Proof.Machine
end

section
/-! PROOFS. The references, the inputs and the coexistence lines leave the settings in force (O57). -/

namespace Sys2Proof.Machine

@[simp] theorem sameForce_refEvent (s : State) (reason role prev new ref : Nat) :
    SameForce (s.refEvent reason role prev new ref) s := by
  simp [State.refEvent]

@[simp] theorem sameForce_refSay (s : State) (reason role ref : Nat) : SameForce (s.refSay reason role ref) s := by
  simp [State.refSay]

@[simp] theorem sameForce_setTState (s : State) (t : TState) : SameForce (s.setTState t) s := by simp [State.setTState]

@[simp] theorem sameForce_enterLocked (s : State) : SameForce s.enterLocked s := by simp [State.enterLocked]

@[simp] theorem sameForce_setRtc (s : State) (r : RtcSt) : SameForce (s.setRtc r) s := by simp [State.setRtc]

@[simp] theorem sameForce_freqLost (s : State) (c : Nat) : SameForce (s.freqLost c) s := by simp [State.freqLost]

@[simp] theorem sameForce_dropSource (s : State) (c : Nat) : SameForce (s.dropSource c) s := by simp [State.dropSource]

@[simp] theorem sameForce_beginHoldover (s : State) (c : Nat) : SameForce (s.beginHoldover c) s := by simp [State.beginHoldover]

@[simp] theorem sameForce_timeLost (s : State) (c : Nat) : SameForce (s.timeLost c) s := by
  unfold State.timeLost
  split <;> simp

@[simp] theorem sameForce_disqualify (s : State) (c : Nat) (freq time : Bool) : SameForce (s.disqualify c freq time) s := by
  simp [State.disqualify]

@[simp] theorem sameForce_loseRef (s : State) (c : Nat) : SameForce (s.loseRef c) s := by simp [State.loseRef]

@[simp] theorem sameForce_refCount (s : State) (edgeA edgeB trunkTime : Bool) :
    SameForce (s.refCount edgeA edgeB trunkTime) s := ⟨rfl, rfl⟩

@[simp] theorem sameForce_freqTick (s : State) (eps : Int) (slewDone : Bool) : SameForce (s.freqTick eps slewDone) s := by
  simp [State.freqTick]

@[simp] theorem sameForce_timeTick (s : State) (errors : List (Nat × Int)) : SameForce (s.timeTick errors) s := by
  unfold State.timeTick
  dsimp only
  repeat' split
  all_goals simp

@[simp] theorem sameForce_stepTick (s : State) : SameForce s.stepTick s := by
  unfold State.stepTick
  dsimp only
  split <;> simp

@[simp] theorem sameForce_modInput (s : State) (i : Nat) (f : InputSt → InputSt) : SameForce (s.modInput i f) s := ⟨rfl, rfl⟩

@[simp] theorem sameForce_rfOne (s : State) (old : Settings) (i : Nat) (m : InputMeas) : SameForce (s.rfOne old i m) s :=
  ⟨rfl, rfl⟩

@[simp] theorem sameForce_rfTick (s : State) (old : Settings) (ms : List InputMeas) : SameForce (s.rfTick old ms) s := by
  simp [State.rfTick]

@[simp] theorem sameForce_wire (s : State) (name : String) (i : Nat) (asserted : Bool) :
    SameForce (s.wire name i asserted) s := ⟨rfl, rfl⟩

@[simp] theorem sameForce_setGntOut (s : State) (b : Bool) : SameForce (s.setGntOut b) s := by simp [State.setGntOut]

@[simp] theorem sameForce_setReqOut (s : State) (b : Bool) : SameForce (s.setReqOut b) s := by simp [State.setReqOut]

@[simp] theorem sameForce_coexOff (s : State) : SameForce s.coexOff s := by simp [State.coexOff]

@[simp] theorem sameForce_trunkSend (s : State) (rank tag type : Nat) (body : List Byte) :
    SameForce (s.trunkSend rank tag type body) s := ⟨rfl, rfl⟩

end Sys2Proof.Machine
end

section
/-! PROOFS. Services, lanes, the placement round and the plan leave the settings in force (O57). -/

namespace Sys2Proof.Machine

@[simp] theorem sameForce_useInc (s : State) (v : Service) : SameForce (s.useInc v) s := ⟨rfl, rfl⟩

@[simp] theorem sameForce_nextOrder (s : State) : SameForce (s.nextOrder).1 s := ⟨rfl, rfl⟩

@[simp] theorem sameForce_serviceEvent (s : State) (v : Service) (old new : SvcState) (reason : Nat) :
    SameForce (s.serviceEvent v old new reason) s := by
  simp [State.serviceEvent]

@[simp] theorem sameForce_moveState (s : State) (n : Nat) (st : SvcState) (reason : Nat) :
    SameForce (s.moveState n st reason) s := by
  unfold State.moveState
  split <;> simp

@[simp] theorem sameForce_gapStreams (s : State) (f : W16) : SameForce (s.gapStreams f) s := ⟨rfl, rfl⟩

@[simp] theorem sameForce_endStream (s : State) (f : W16) (kind : Nat) : SameForce (s.endStream f kind) s := by
  unfold State.endStream
  split <;> simp

@[simp] theorem sameForce_endStreams (s : State) (f : W16) : SameForce (s.endStreams f) s := by simp [State.endStreams]

@[simp] theorem sameForce_openStream (s : State) (v : Service) (i : Nat) (b : Binding) : SameForce (s.openStream v i b) s := by
  simp [State.openStream]

@[simp] theorem sameForce_openStreams (s : State) (n : Nat) : SameForce (s.openStreams n) s := by
  unfold State.openStreams
  dsimp only
  repeat' split
  all_goals simp

@[simp] theorem sameForce_leaveLanes (s : State) (n : Nat) : SameForce (s.leaveLanes n) s := ⟨rfl, rfl⟩

@[simp] theorem sameForce_park (s : State) (n : Nat) (reason : Nat) : SameForce (s.park n reason) s := by simp [State.park]

@[simp] theorem sameForce_takeSlot (s : State) (h : CmdHdr) (a : AttrBlock) (slot inc : Nat) :
    SameForce (s.takeSlot h a slot inc).1 s := ⟨rfl, rfl⟩

@[simp] theorem sameForce_awaitSlot (s : State) (a : AttrBlock) (slot inc : Nat) :
    SameForce (s.awaitSlot a slot inc).1 s := ⟨rfl, rfl⟩

/-- Putting a user on a band lane touches the lanes only. -/
theorem sameForce_takeBand {s t : State} {n : Nat} {join : Bool} {b : Branch} {l : Lane} (h : s.takeBand n join b = some (t, l)) :
    SameForce t s := by
  unfold State.takeBand at h
  dsimp only at h
  split at h
  · cases h; exact ⟨rfl, rfl⟩
  · split at h
    · cases h
    · obtain ⟨i, -, hi⟩ := Option.map_eq_some_iff.mp h
      cases hi; exact ⟨rfl, rfl⟩

@[simp] theorem sameForce_takeBranch (s : State) (n : Nat) (join : Bool) (b : Branch) : SameForce (s.takeBranch n join b) s := by
  unfold State.takeBranch
  split
  · exact ⟨rfl, rfl⟩
  next t l h =>
    have ht := sameForce_takeBand h
    split
    · exact ht
    · split
      · exact ht
      · split
        · exact ht
        · exact ht

@[simp] theorem sameForce_startMigration (s : State) (n : Nat) (dest : Reception) (toHead : Bool) :
    SameForce (s.startMigration n dest toHead) s := by
  simp [State.startMigration]

@[simp] theorem sameForce_layOne (s : State) (bs : List Branch) (n : Nat) : SameForce (s.layOne bs n) s := by
  unfold State.layOne
  dsimp only
  repeat' split
  all_goals simp

@[simp] theorem sameForce_moveOne (s : State) (bs : List Branch) (n : Nat) : SameForce (s.moveOne bs n) s := by
  unfold State.moveOne
  split <;> simp

@[simp] theorem sameForce_moveLanes (s : State) : SameForce s.moveLanes s := by
  unfold State.moveLanes
  split <;> simp

@[simp] theorem sameForce_layLanes (s : State) : SameForce s.layLanes s := by
  unfold State.layLanes
  split <;> simp

@[simp] theorem sameForce_dropJoining (s : State) (n : Nat) : SameForce (s.dropJoining n) s := ⟨rfl, rfl⟩

@[simp] theorem sameForce_addProg (s : State) (p : Nat) (f : W16) (slot chans : Nat) :
    SameForce (s.addProg p f slot chans) s := ⟨rfl, rfl⟩

@[simp] theorem sameForce_bindAudio (s : State) (v : Service) (auto : Option (Nat × Nat)) : SameForce (s.bindAudio v auto) s := by
  unfold State.bindAudio
  dsimp only
  repeat' split
  all_goals simp

@[simp] theorem sameForce_hintLost (s : State) (n : Nat) : SameForce (s.hintLost n) s := by
  unfold State.hintLost
  split <;> simp

@[simp] theorem sameForce_takeIn (s : State) (n : Nat) (pl : Placement) (reason : Nat) (ev : Bool) :
    SameForce (s.takeIn n pl reason ev) s := by
  unfold State.takeIn
  split <;> simp

@[simp] theorem sameForce_tryAdmit (s : State) (n : Nat) (reason : Nat) (ev : Bool) : SameForce (s.tryAdmit n reason ev).1 s := by
  unfold State.tryAdmit
  dsimp only
  repeat' split
  all_goals simp

@[simp] theorem sameForce_freeSlotOf (s : State) (n : Nat) : SameForce (s.freeSlotOf n) s := ⟨rfl, rfl⟩

@[simp] theorem sameForce_roundReply (s : State) (p : PendSvc) (st : Status) (gen : W16) (eff : W32) (params : List Byte) :
    SameForce (s.roundReply p st gen eff params) s := by
  simp [State.roundReply]

@[simp] theorem sameForce_replySvc (s : State) (p : PendSvc) (n : Nat) : SameForce (s.replySvc p n) s := by
  unfold State.replySvc
  split <;> simp

/-- A try at a place, as the state that it leaves. -/
theorem sameForce_of_tryAdmit {s t : State} {n reason : Nat} {ev b : Bool} (h : s.tryAdmit n reason ev = (t, b)) :
    SameForce t s := by
  have h' := sameForce_tryAdmit s n reason ev
  rwa [h] at h'

@[simp] theorem sameForce_roundAdd (s : State) (serve : Bool) (p : PendSvc) : SameForce (s.roundAdd serve p) s := by
  unfold State.roundAdd
  dsimp only
  split
  · simp
  · split
    · simp
    · split
      next h => exact (sameForce_replySvc ..).trans (sameForce_of_tryAdmit h)
      next h =>
        split
        · refine SameForce.trans ?_ (sameForce_of_tryAdmit h); simp
        · refine SameForce.trans ?_ (sameForce_of_tryAdmit h); simp

@[simp] theorem sameForce_roundFound (s : State) (serve : Bool) (n : Nat) : SameForce (s.roundFound serve n) s := by
  unfold State.roundFound
  dsimp only
  split
  · exact ⟨rfl, rfl⟩
  · split
    · simp
    · split
      next h => exact sameForce_of_tryAdmit h
      next h =>
        split
        · refine SameForce.trans ?_ (sameForce_of_tryAdmit h); simp
        · refine SameForce.trans ?_ (sameForce_of_tryAdmit h); simp

@[simp] theorem sameForce_modHints (s : State) (n : Nat) (old : Service) : SameForce (s.modHints n old) s := by
  unfold State.modHints
  split <;> simp

@[simp] theorem sameForce_roundModify (s : State) (p : PendSvc) : SameForce (s.roundModify p) s := by
  unfold State.roundModify
  split <;> simp

@[simp] theorem sameForce_rescue (s : State) (n : Nat) : SameForce (s.rescue n) s := by
  unfold State.rescue
  dsimp only
  repeat' split
  all_goals simp

@[simp] theorem sameForce_moveToHead (k : Nat) (s : State) : SameForce (State.moveToHead k s) s := by
  induction k generalizing s with
  | zero => exact ⟨rfl, rfl⟩
  | succ k ih =>
    unfold State.moveToHead
    dsimp only
    split
    · exact ⟨rfl, rfl⟩
    · split
      · exact ⟨rfl, rfl⟩
      · exact (ih _).trans (sameForce_startMigration ..)

@[simp] theorem sameForce_moveToMast (s : State) : SameForce s.moveToMast s := by
  unfold State.moveToMast
  dsimp only
  repeat' split
  all_goals simp

@[simp] theorem sameForce_parkLoad (k : Nat) (s : State) : SameForce (State.parkLoad k s) s := by
  induction k generalizing s with
  | zero => exact ⟨rfl, rfl⟩
  | succ k ih =>
    unfold State.parkLoad
    dsimp only
    split
    · exact ⟨rfl, rfl⟩
    · split
      · exact ⟨rfl, rfl⟩
      · exact (ih _).trans (sameForce_park ..)

@[simp] theorem sameForce_losses (s : State) : SameForce s.losses s := by simp [State.losses]

@[simp] theorem sameForce_noteFit (s : State) : SameForce s.noteFit s := by simp [State.noteFit]

@[simp] theorem sameForce_placementRound (s : State) : SameForce s.placementRound s := by simp [State.placementRound]

@[simp] theorem sameForce_zcAdd (s : State) (p : Nat) (g : Prog) (k : ZcKind) : SameForce (s.zcAdd p g k) s := ⟨rfl, rfl⟩

@[simp] theorem sameForce_planEvent (s : State) (proposed reason changeTick : Nat) :
    SameForce (s.planEvent proposed reason changeTick) s := by
  simp [State.planEvent]

@[simp] theorem sameForce_dropProposal (s : State) : SameForce s.dropProposal s := by
  unfold State.dropProposal
  split <;> simp

@[simp] theorem sameForce_planRound (s : State) : SameForce s.planRound s := by
  unfold State.planRound
  dsimp only
  repeat' split
  all_goals simp

@[simp] theorem sameForce_planTick (s : State) : SameForce s.planTick s := by simp [State.planTick]

@[simp] theorem sameForce_planLeave (s : State) : SameForce s.planLeave s := by simp [State.planLeave]

@[simp] theorem sameForce_abandonSplice (s : State) (n : Nat) : SameForce (s.abandonSplice n) s := by simp [State.abandonSplice]

@[simp] theorem sameForce_lockS (s : State) (lock : LockRun) : SameForce (s.lockS lock) s := by simp [State.lockS]

@[simp] theorem sameForce_planChanged (s : State) (old : Nat) (stop resume : W64) :
    SameForce (s.planChanged old stop resume) s := by
  simp [State.planChanged]

@[simp] theorem sameForce_setPlan (s : State) (p : Nat) : SameForce (s.setPlan p) s := ⟨rfl, rfl⟩

@[simp] theorem sameForce_planForce (s : State) (old : PlanPolicyParams) : SameForce (s.planForce old) s := by
  simp [State.planForce]

@[simp] theorem sameForce_gapKinds (s : State) (f : W16) (kinds : List Nat) : SameForce (s.gapKinds f kinds) s := by
  simp [State.gapKinds]

@[simp] theorem sameForce_unsettlePcm (s : State) (v : Service) : SameForce (s.unsettlePcm v) s := ⟨rfl, rfl⟩

@[simp] theorem sameForce_layEngines (s : State) (v : Service) : SameForce (s.layEngines v) s := by simp [State.layEngines]

@[simp] theorem sameForce_layCarriers (s : State) : SameForce s.layCarriers s := by simp [State.layCarriers]

end Sys2Proof.Machine
end

section
/-! PROOFS. Engines, audio, following, alerts and rings leave the settings in force (O57). -/

namespace Sys2Proof.Machine

@[simp] theorem sameForce_scopedCmd (s : State) (tbl : List ItemSpec) (applies : Nat → Bool) (force acc : ItemTable)
    (items : List Item) (put : ItemTable → State × Answer) (h : ∀ t, SameForce (put t).1 s) :
    SameForce (s.scopedCmd tbl applies force acc items put).1 s := by
  unfold State.scopedCmd
  split
  · exact ⟨rfl, rfl⟩
  · exact sameForce_itemCmd s tbl applies [] force acc items put h

@[simp] theorem sameForce_tvChanged (s : State) (v : Service) (t : ItemTable) : SameForce (s.tvChanged v t) s := by
  simp [State.tvChanged]

@[simp] theorem sameForce_analogueChanged (s : State) (v : Service) (new : SvcSettings) :
    SameForce (s.analogueChanged v new) s := by
  simp [State.analogueChanged]

@[simp] theorem sameForce_modAudio (s : State) (p : Nat) (f : AudioSt → AudioSt) : SameForce (s.modAudio p f) s := ⟨rfl, rfl⟩

@[simp] theorem sameForce_repath (s : State) (p : Nat) (g : Prog) : SameForce (s.repath p g) s := by
  unfold State.repath
  split <;> simp

@[simp] theorem sameForce_repilot (s : State) (p : Nat) : SameForce (s.repilot p) s := by simp [State.repilot]

@[simp] theorem sameForce_followStart (s : State) (n : Nat) : SameForce (s.followStart n) s := by
  unfold State.followStart
  split <;> simp

@[simp] theorem sameForce_yieldProbes (s : State) (need : Vec) : SameForce (s.yieldProbes need) s := by simp [State.yieldProbes]

@[simp] theorem sameForce_startSplice (s : State) (v : Service) (cause : Nat) (c : Candidate) :
    SameForce (s.startSplice v cause c) s := by
  simp [State.startSplice]

@[simp] theorem sameForce_followEval (s : State) (v : Service) (lost : Bool) : SameForce (s.followEval v lost) s := by
  unfold State.followEval
  dsimp only
  repeat' split
  all_goals simp

@[simp] theorem sameForce_spliceEval (s : State) (v : Service) (x : Splice) (m : SourceMeas) :
    SameForce (s.spliceEval v x m) s := by
  simp [State.spliceEval]

@[simp] theorem sameForce_followTick (s : State) (ms : List SourceMeas) : SameForce (s.followTick ms) s := by
  refine sameForce_foldl _ _ (fun s m => ?_) s
  split
  · exact ⟨rfl, rfl⟩
  · dsimp only
    split
    · exact ⟨rfl, rfl⟩
    · split <;> simp

@[simp] theorem sameForce_mapTick (s : State) : SameForce s.mapTick s := by simp [State.mapTick]

@[simp] theorem sameForce_routeSwitch (s : State) (v : Service) : SameForce (s.routeSwitch v) s := by
  unfold State.routeSwitch
  split <;> simp

@[simp] theorem sameForce_endRouting (s : State) (n : Nat) : SameForce (s.endRouting n) s := by
  unfold State.endRouting
  dsimp only
  repeat' split
  all_goals simp

@[simp] theorem sameForce_startRouting (s : State) (v : Service) (r : Routing) : SameForce (s.startRouting v r) s := by
  simp [State.startRouting]

@[simp] theorem sameForce_spend (s : State) (a : Alert) (n : Nat) : SameForce (s.spend a n) s := ⟨rfl, rfl⟩

@[simp] theorem sameForce_tryRoute (s : State) (a : Alert) (n : Nat) : SameForce (s.tryRoute a n) s := by
  unfold State.tryRoute
  dsimp only
  repeat' split
  all_goals simp

@[simp] theorem sameForce_routeAll (s : State) : SameForce s.routeAll s := by simp [State.routeAll]

@[simp] theorem sameForce_endRoutes (s : State) : SameForce s.endRoutes s := by
  refine sameForce_foldl _ _ (fun s v => ?_) s
  split
  · split
    · exact ⟨rfl, rfl⟩
    · exact sameForce_endRouting s v.slot
  · exact ⟨rfl, rfl⟩

@[simp] theorem sameForce_alertTick (s : State) : SameForce s.alertTick s := by simp [State.alertTick]

@[simp] theorem sameForce_modRing (s : State) (r : Nat) (f : RingSt → RingSt) : SameForce (s.modRing r f) s := ⟨rfl, rfl⟩

@[simp] theorem sameForce_readConsumer (s : State) (r : Nat) : SameForce (s.readConsumer r) s := by simp [State.readConsumer]

@[simp] theorem sameForce_readConsumers (s : State) : SameForce s.readConsumers s := by simp [State.readConsumers]

@[simp] theorem sameForce_ringForce (s : State) (old : Settings) : SameForce (s.ringForce old) s := by simp [State.ringForce]

@[simp] theorem sameForce_ringAuto (s : State) : SameForce s.ringAuto s := by
  refine sameForce_foldl _ _ (fun s x => ?_) s
  split <;> exact ⟨rfl, rfl⟩

@[simp] theorem sameForce_archiveLow (s : State) : SameForce s.archiveLow s := by simp [State.archiveLow]

@[simp] theorem sameForce_pktTick (s : State) : SameForce s.pktTick s := ⟨rfl, rfl⟩

@[simp] theorem sameForce_statStart (s : State) (n : Nat) : SameForce (s.statStart n) s := by
  unfold State.statStart
  split <;> simp

@[simp] theorem sameForce_modProg (s : State) (p : Nat) (f : W16) (k : Prog → Prog) : SameForce (s.modProg p f k) s := ⟨rfl, rfl⟩

@[simp] theorem sameForce_setDelay (s : State) (p : Nat) (g : Prog) : SameForce (s.setDelay p g) s := by
  unfold State.setDelay
  dsimp only
  repeat' split
  all_goals simp

@[simp] theorem sameForce_raiseQ (s : State) (p : Nat) : SameForce (s.raiseQ p) s := by
  unfold State.raiseQ
  dsimp only
  split
  · exact ⟨rfl, rfl⟩
  · refine (sameForce_foldl _ _ (fun s g => ?_) _).trans (sameForce_modAudio ..)
    split
    · exact ⟨rfl, rfl⟩
    · split
      · exact ⟨rfl, rfl⟩
      · split
        · exact sameForce_zcAdd ..
        · exact sameForce_setDelay ..

@[simp] theorem sameForce_portStopped (s : State) (p : Nat) : SameForce (s.portStopped p) s := ⟨rfl, rfl⟩

@[simp] theorem sameForce_stopDone (s : State) (p : Nat) : SameForce (s.stopDone p) s := by simp [State.stopDone]

@[simp] theorem sameForce_stopPort (s : State) (p : Nat) : SameForce (s.stopPort p) s := by simp [State.stopPort]

@[simp] theorem sameForce_dropProg (s : State) (p : Nat) (f : W16) : SameForce (s.dropProg p f) s := ⟨rfl, rfl⟩

@[simp] theorem sameForce_armTick (s : State) (p : Nat) : SameForce (s.armTick p) s := by
  unfold State.armTick
  dsimp only
  repeat' split
  all_goals simp

@[simp] theorem sameForce_steerTick (s : State) (p : Nat) (errs : List (Nat × Int)) : SameForce (s.steerTick p errs) s := by
  unfold State.steerTick
  dsimp only
  repeat' split
  all_goals simp

@[simp] theorem sameForce_progTick (s : State) (p : Nat) (g : Prog) : SameForce (s.progTick p g) s := by simp [State.progTick]

@[simp] theorem sameForce_audioTick (s : State) (errs : List (Nat × Int)) : SameForce (s.audioTick errs) s := by
  simp [State.audioTick]

end Sys2Proof.Machine
end

section
/-! PROOFS. The trunk, calibration, the LDPC pool and the images leave the settings in force (O57). -/

namespace Sys2Proof.Machine

@[simp] theorem sameForce_modTrunk (s : State) (f : TrunkSt → TrunkSt) : SameForce (s.modTrunk f) s := ⟨rfl, rfl⟩

@[simp] theorem sameForce_modRx (s : State) (f : DirSt → DirSt) : SameForce (s.modRx f) s := ⟨rfl, rfl⟩

@[simp] theorem sameForce_sendLoading (s : State) (t : LoadTable) (frame : Nat) : SameForce (s.sendLoading t frame) s :=
  ⟨rfl, rfl⟩

@[simp] theorem sameForce_sendMask (s : State) (gen : W16) (values : List Byte) (frame : Nat) :
    SameForce (s.sendMask gen values frame) s := by
  simp [State.sendMask]

@[simp] theorem sameForce_newMask (s : State) (values : List Byte) : SameForce (s.newMask values) s := by simp [State.newMask]

@[simp] theorem sameForce_maskRound (s : State) : SameForce s.maskRound s := by simp [State.maskRound]

@[simp] theorem sameForce_enterSearch (s : State) : SameForce s.enterSearch s := by simp [State.enterSearch]

@[simp] theorem sameForce_dropRemote (s : State) (r : Remote) : SameForce (s.dropRemote r) s := by simp [State.dropRemote]

@[simp] theorem sameForce_enterIdle (s : State) (st : LinkState) : SameForce (s.enterIdle st) s := by simp [State.enterIdle]

@[simp] theorem sameForce_sleepNow (s : State) : SameForce s.sleepNow s := ⟨rfl, rfl⟩

@[simp] theorem sameForce_askCall (s : State) : SameForce s.askCall s := by
  unfold State.askCall
  split <;> simp

@[simp] theorem sameForce_trunkForce (s : State) (old : Settings) : SameForce (s.trunkForce old) s := by simp [State.trunkForce]

@[simp] theorem sameForce_trunkTick (s : State) : SameForce s.trunkTick s := by
  unfold State.trunkTick
  split <;> simp

@[simp] theorem sameForce_modCal (s : State) (f : CalSt → CalSt) : SameForce (s.modCal f) s := ⟨rfl, rfl⟩

@[simp] theorem sameForce_modAdc (s : State) (i : Nat) (f : AdcCal → AdcCal) : SameForce (s.modAdc i f) s := ⟨rfl, rfl⟩

@[simp] theorem sameForce_modFlat (s : State) (i : Nat) (f : FlatCal → FlatCal) : SameForce (s.modFlat i f) s := ⟨rfl, rfl⟩

@[simp] theorem sameForce_calEvent (s : State) (block target outcome : Nat) (q q2 : Int) :
    SameForce (s.calEvent block target outcome q q2) s := by
  simp [State.calEvent]

@[simp] theorem sameForce_journalRetired (s : State) (adc : Nat) (m : W32) : SameForce (s.journalRetired adc m) s := by
  simp [State.journalRetired]

@[simp] theorem sameForce_retireSlice (s : State) (adc sl : Nat) (q q2 : Int) : SameForce (s.retireSlice adc sl q q2) s := by
  simp [State.retireSlice]

@[simp] theorem sameForce_measureSlice (s : State) (adc plan : Nat) (q : Int × Int) (e : Nat × Nat × List (Int × Int × Int)) :
    SameForce (s.measureSlice adc plan q e) s := by
  simp [State.measureSlice]

@[simp] theorem sameForce_measureAdc (s : State) (c : StartCal) (adc plan : Nat) : SameForce (s.measureAdc c adc plan) s := by
  simp [State.measureAdc]

@[simp] theorem sameForce_measureFlat (s : State) (c : StartCal) (i : Nat) : SameForce (s.measureFlat c i) s := by
  simp [State.measureFlat]

@[simp] theorem sameForce_measureClocks (s : State) (c : StartCal) (keep : Bool) : SameForce (s.measureClocks c keep) s := by
  simp [State.measureClocks]

@[simp] theorem sameForce_calResults (s : State) (rs : List StartCal) : SameForce (s.calResults rs) s := by
  unfold State.calResults
  split <;> simp

@[simp] theorem sameForce_putBlock (s : State) (b : CalBlock) : SameForce (s.putBlock b) s := by simp [State.putBlock]

@[simp] theorem sameForce_overrun (s : State) (cls tiles : Nat) (slots : List Nat) : SameForce (s.overrun cls tiles slots) s := by
  simp [State.overrun]

@[simp] theorem sameForce_gapSlots (s : State) (slots : List Nat) : SameForce (s.gapSlots slots) s := by simp [State.gapSlots]

@[simp] theorem sameForce_ldpcPace (s : State) (batches : List CwBatch) : SameForce (s.ldpcPace batches) s := by
  simp [State.ldpcPace]

@[simp] theorem sameForce_ldpcBandTick (s : State) (left b : Nat) : SameForce (s.ldpcBandTick left b).1 s := by
  unfold State.ldpcBandTick
  dsimp only
  split <;> simp

@[simp] theorem sameForce_ldpcTick (s : State) (batches : List CwBatch) : SameForce (s.ldpcTick batches) s := by
  simp [State.ldpcTick]

@[simp] theorem sameForce_resetGroup (s : State) (g : Nat) : SameForce (s.resetGroup g) s := by simp [State.resetGroup]

@[simp] theorem sameForce_imageEvent (s : State) (i reason : Nat) : SameForce (s.imageEvent i reason) s := by
  simp [State.imageEvent]

@[simp] theorem sameForce_imgBegin (s : State) (o : ImgOwner) (i len : Nat) (seq : Byte) :
    SameForce (s.imgBegin o i len seq).1 s := by
  unfold State.imgBegin
  dsimp only
  repeat' split
  all_goals simp

@[simp] theorem sameForce_imgRefuse (s : State) (i reason : Nat) (drop : Bool) : SameForce (s.imgRefuse i reason drop) s := by
  simp [State.imgRefuse]

@[simp] theorem sameForce_imgProgram (s : State) (i off : Nat) (data : List Byte) :
    SameForce (s.imgProgram i off data) s := ⟨rfl, rfl⟩

@[simp] theorem sameForce_imgData (s : State) (o : ImgOwner) (i off : Nat) (data : List Byte) (seq : Byte) :
    SameForce (s.imgData o i off data seq).1 s := by
  unfold State.imgData
  dsimp only
  repeat' split
  all_goals simp

@[simp] theorem sameForce_imgEnd (s : State) (o : ImgOwner) (i : Nat) : SameForce (s.imgEnd o i).1 s := by
  unfold State.imgEnd
  dsimp only
  repeat' split
  all_goals simp

@[simp] theorem sameForce_imgCancel (s : State) (i : Nat) : SameForce (s.imgCancel i) s := by simp [State.imgCancel]

@[simp] theorem sameForce_imgActivate (s : State) (i dt : Nat) : SameForce (s.imgActivate i dt).1 s := by
  unfold State.imgActivate
  dsimp only
  repeat' split
  all_goals simp

@[simp] theorem plain_fst (r : State × Status) : (plain r).1 = r.1 := rfl

end Sys2Proof.Machine
end

section
/-! PROOFS. A host command leaves the settings in force and READY: what it accepts waits for its effective tick (R62). So do the
packets that a transport takes and the command ring as it is served (O57). -/

namespace Sys2Proof.Machine

/-! ### The commands whose effect branches more than once -/

theorem sameForce_serviceAdd (h : CmdHdr) (attrs : AttrBlock) (s : State) : SameForce (s.interpret (.serviceAdd h attrs)) s :=
  sameForce_runCmd _ _ _ _ fun u => by
    dsimp only
    split
    · exact keepsForce_refuseIf _ _ (keepsForce_answer u _)
    · refine keepsForce_refuseIf _ _ (keepsForce_refuseIf _ _ ?_)
      split
      · exact keepsForce_refuse u _
      · simp [KeepsForce]

theorem sameForce_serviceQuery (h : CmdHdr) (key : Option W64) (s : State) : SameForce (s.interpret (.serviceQuery h key)) s :=
  sameForce_runCmd _ _ _ _ fun u => by
    dsimp only
    split
    · exact keepsForce_refuse u _
    · exact keepsForce_answer u _

theorem sameForce_mapRead (h : CmdHdr) (byKey : Byte) (first : W16) (key : W64) (s : State) :
    SameForce (s.interpret (.mapRead h byKey first key)) s :=
  sameForce_runCmd _ _ _ _ fun u => by
    dsimp only
    split
    · split
      · exact keepsForce_refuse u _
      · exact keepsForce_answer u _
    · split
      · exact keepsForce_answer u _
      · exact keepsForce_refuse u _

theorem sameForce_pktPortConfig (h : CmdHdr) (port : Byte) (items : List Item) (s : State) :
    SameForce (s.interpret (.pktPortConfig h port items)) s :=
  sameForce_runCmd _ _ _ _ fun u => keepsForce_refuseIf _ _ <| keepsForce_itemCmd _ _ _ _ _ _ _ _ fun _ =>
    keepsForce_refuseIf _ _ (sameForce_commitDev u ..)

theorem sameForce_planDefer (h : CmdHdr) (seconds : W16) (s : State) : SameForce (s.interpret (.planDefer h seconds)) s :=
  sameForce_runCmd _ _ _ _ fun u => keepsForce_refuseIf _ _ <| keepsForce_refuseIf _ _ <| by
    split
    · split
      · exact keepsForce_answer u _
      · exact (sameForce_planTick _).trans ⟨rfl, rfl⟩
    · exact ⟨rfl, rfl⟩

theorem sameForce_laneConfig (h : CmdHdr) (items : List Item) (s : State) : SameForce (s.interpret (.laneConfig h items)) s :=
  sameForce_runCmd _ _ _ _ fun u => by
    unfold KeepsForce
    split
    · split
      · exact ⟨rfl, rfl⟩
      · simp
    · simp

theorem sameForce_timecodeFormatQuery (h : CmdHdr) (format : Byte) (s : State) :
    SameForce (s.interpret (.timecodeFormatQuery h format)) s :=
  sameForce_runCmd _ _ _ _ fun u => keepsForce_refuseIf _ _ <| by
    split
    · exact keepsForce_refuse u _
    · exact keepsForce_answer u _

theorem sameForce_dabQuery (h : CmdHdr) (s : State) : SameForce (s.interpret (.dabQuery h)) s :=
  sameForce_runCmd _ _ _ _ fun u => by
    split
    · exact keepsForce_refuse u _
    · refine keepsForce_refuseIf _ _ ?_
      dsimp only
      split <;> exact keepsForce_answer u _

theorem sameForce_tvQuery (h : CmdHdr) (s : State) : SameForce (s.interpret (.tvQuery h)) s :=
  sameForce_runCmd _ _ _ _ fun u => by
    split
    · exact keepsForce_refuse u _
    · refine keepsForce_refuseIf _ _ ?_
      dsimp only
      split <;> exact keepsForce_answer u _

theorem sameForce_trunkNoiseQuery (h : CmdHdr) (endOf : Byte) (first : W16) (s : State) :
    SameForce (s.interpret (.trunkNoiseQuery h endOf first)) s :=
  sameForce_runCmd _ _ _ _ fun _ => keepsForce_refuseIf _ _ (keepsForce_refuseIf _ _ ⟨rfl, rfl⟩)

/-! ### Every packet -/

/-- A host command changes no setting in force, and not READY; what is no host command does nothing here. -/
theorem sameForce_interpret (s : State) (i : Instr) : SameForce (s.interpret i) s := by
  cases i
  -- queries that answer whatever they are asked
  case deviceInfo | nop | modeQuery | thermalQuery | placementQuery | mapQuery | outputQuery | timeQuery | leapTableQuery |
      clockQuery | refQuery | planQuery | coexQuery | laneQuery | ldpcQuery | calQuery | trunkQuery | imageQuery |
      settingsQuery | diagQuery | diagLogRead =>
    exact sameForce_runCmd _ _ _ _ fun _ => ⟨rfl, rfl⟩
  -- commands with one run of tests before their one effect
  case cmdRingConfig | wakeBudget | reset | followPolicy | linksetSet | linksetQuery | ringConfig | ringQuery | archiveConfig
      | archiveQuery | audioPortConfig | audioPortQuery | audioPortStart | audioPortStop | pktPortQuery | timeSet |
      leapTableSet | clockConfig | ppsTod | rfConfig | rfQuery | coexConfig | combTest | firBankLoad | timecodeFormatLoad |
      calRun | calRead | calWrite | calConfig | trunkConfig | trunkSleep | trunkWake | trunkMask | trunkRemote | imageBegin |
      imageData | imageEnd | imageActivate | settingsReset | otpKey | chainConfig | rtcSet | rtcQuery | backupWrite |
      backupRead | rtcAlarm =>
    exact sameForce_runCmd _ _ _ _ fun u => by simp [KeepsForce]
  -- commands whose effect depends on an operand or on the slot named
  case eventRoute | eventFetch | modeSet | serviceRemove | serviceModify | placementPolicy | surveyConfig | followQuery |
      alertConfig | archiveExtentAdd | refConfig | planPolicy | firBankQuery | analogueConfig | analogueQuery | dabConfig |
      tvConfig | ldpcPolicy =>
    exact sameForce_runCmd _ _ _ _ fun u => by dsimp only [KeepsForce]; split <;> simp
  case serviceAdd => exact sameForce_serviceAdd ..
  case serviceQuery => exact sameForce_serviceQuery ..
  case mapRead => exact sameForce_mapRead ..
  case pktPortConfig => exact sameForce_pktPortConfig ..
  case planDefer => exact sameForce_planDefer ..
  case laneConfig => exact sameForce_laneConfig ..
  case timecodeFormatQuery => exact sameForce_timecodeFormatQuery ..
  case dabQuery => exact sameForce_dabQuery ..
  case tvQuery => exact sameForce_tvQuery ..
  case trunkNoiseQuery => exact sameForce_trunkNoiseQuery ..
  -- what is no host command
  all_goals exact ⟨rfl, rfl⟩

theorem sameForce_refusePacket (s : State) (h : CmdHdr) (op : W16) (keep : Bool) (st : Status) :
    SameForce (s.refusePacket h op keep st) s := by
  unfold State.refusePacket
  dsimp only
  split
  · exact sameForce_resend ..
  · exact sameForce_post ..

theorem sameForce_takePacket (s : State) (tr : Transport) (viaRing exact_ : Bool) (maxLen : Nat) (bs : List Byte) :
    SameForce (s.takePacket tr viaRing exact_ maxLen bs) s := by
  unfold State.takePacket
  split
  · exact sameForce_refusePacket ..
  · exact sameForce_refusePacket ..
  · exact sameForce_refusePacket ..
  · exact sameForce_refusePacket ..
  · exact sameForce_interpret ..

theorem sameForce_cmdConsumed (s : State) (c : Nat) : SameForce (s.cmdConsumed c) s := ⟨rfl, rfl⟩

/-- The command ring is served packet by packet. -/
theorem sameForce_serveRing (n : Nat) (s : State) : SameForce (State.serveRing n s) s := by
  induction n generalizing s with
  | zero => exact ⟨rfl, rfl⟩
  | succ n ih =>
    unfold State.serveRing
    dsimp only
    obtain ⟨t, ht⟩ : ∃ t, t = if s.replyRingOn && decide (s.replyFree < 4096) then s.readReplyConsumer else s := ⟨_, rfl⟩
    have hts : SameForce t s := by
      rw [ht]
      split
      · exact sameForce_readReplyConsumer s
      · exact ⟨rfl, rfl⟩
    rw [← ht]
    refine SameForce.trans ?_ hts
    split
    · exact ⟨rfl, rfl⟩
    · split
      · exact (ih _).trans (sameForce_cmdConsumed t 0)
      · split
        · exact (sameForce_ringsFault _).trans ⟨rfl, rfl⟩
        · split
          · exact ⟨rfl, rfl⟩
          · exact (ih _).trans ((sameForce_cmdConsumed _ _).trans (sameForce_takePacket ..))

/-- Every transport delivers, and the command ring is served. -/
@[simp] theorem sameForce_serveAll (s : State) : SameForce s.serveAll s := by
  have hflush : SameForce ([Transport.pcie, .twoWire, .service, .trunk].foldl State.flush s) s :=
    sameForce_foldl _ _ sameForce_flush s
  unfold State.serveAll State.serveCmdRing
  generalize [Transport.pcie, .twoWire, .service, .trunk].foldl State.flush s = t at hflush
  exact (sameForce_serveRing _ t).trans hflush

end Sys2Proof.Machine
end

section
/-! PROOFS. Device settings take force at the tick boundary that begins their effective tick (O57): the measures of the tick that
ended leave the accepted settings waiting, the last of those due takes force, and the rest of the tick changes it no more. -/

namespace Sys2Proof.Machine

/-! ### The measures of the ended tick -/

@[simp] theorem sameForce_laneMeasures (s : State) (ms : List LaneMeas) : SameForce (s.laneMeasures ms) s := ⟨rfl, rfl⟩

@[simp] theorem sameForce_engineMeasures (s : State) (es : List (Nat × List StatItem)) : SameForce (s.engineMeasures es) s :=
  ⟨rfl, rfl⟩

@[simp] theorem sameForce_ratioMeasures (s : State) (rs : List (W64 × Int)) : SameForce (s.ratioMeasures rs) s := ⟨rfl, rfl⟩

@[simp] theorem sameForce_rateMeasures (s : State) (rs : List (W64 × Nat)) : SameForce (s.rateMeasures rs) s := by
  simp [State.rateMeasures]

@[simp] theorem sameForce_tagTick (s : State) : SameForce s.tagTick s := by simp [State.tagTick]

@[simp] theorem sameForce_measures (s : State) (inp : TickIn) : SameForce (s.measures inp) s := by simp [State.measures]

@[simp] theorem foldl_sched {α : Type} (f : State → α → State) (l : List α) (h : ∀ s x, (f s x).sched = s.sched) (s : State) :
    (l.foldl f s).sched = s.sched := foldl_keeps (·.sched) f l h s

@[simp] theorem ite_sched {c : Prop} [Decidable c] (a b : State) : (if c then a else b).sched = if c then a.sched else b.sched :=
  apply_ite State.sched c a b

@[simp] theorem raise_noSlot_sched (s : State) (code : Nat) (ps : List Byte) : (s.raise code noSlot ps).sched = s.sched :=
  of_core (·.sched) (fun _ => rfl) (core_raise_noSlot ..)

@[simp] theorem gapKinds_sched (s : State) (f : W16) (kinds : List Nat) : (s.gapKinds f kinds).sched = s.sched :=
  foldl_sched _ _ (fun s k => State.modStream_sched s f k _) s

@[simp] theorem gapSlots_sched (s : State) (slots : List Nat) : (s.gapSlots slots).sched = s.sched := by simp [State.gapSlots]

@[simp] theorem overrun_sched (s : State) (cls tiles : Nat) (slots : List Nat) : (s.overrun cls tiles slots).sched = s.sched := by
  simp [State.overrun]

@[simp] theorem ldpcPace_sched (s : State) (batches : List CwBatch) : (s.ldpcPace batches).sched = s.sched := by
  simp [State.ldpcPace]

@[simp] theorem ldpcBandTick_sched (s : State) (left b : Nat) : (s.ldpcBandTick left b).1.sched = s.sched := by
  unfold State.ldpcBandTick
  dsimp only
  split <;> simp

@[simp] theorem ldpcTick_sched (s : State) (batches : List CwBatch) : (s.ldpcTick batches).sched = s.sched := by
  simp [State.ldpcTick]

@[simp] theorem rateMeasures_sched (s : State) (rs : List (W64 × Nat)) : (s.rateMeasures rs).sched = s.sched := by
  simp [State.rateMeasures]

@[simp] theorem tagTick_sched (s : State) : s.tagTick.sched = s.sched := by simp [State.tagTick]

/-- What the ended tick measured leaves the settings that wait as they are. -/
theorem measures_sched (s : State) (inp : TickIn) : (s.measures inp).sched = s.sched := by
  simp [State.measures, State.laneMeasures, State.engineMeasures, State.ratioMeasures]

/-! ### The settings that are due -/

theorem schedDue_none {α : Type} {xs : List (Sched α)} (h : ∀ x ∈ xs, 2 ≤ x.ticksLeft) : (schedDue xs).1 = none := by
  have hf : xs.filter (fun x => decide (x.ticksLeft ≤ 1)) = [] :=
    List.filter_eq_nil_iff.mpr fun x hx => by have := h x hx; simp; omega
  simp only [schedDue, hf, List.getLast?_nil, Option.map_none]

theorem schedDue_last {α : Type} (pre : List (Sched α)) {x : Sched α} {post : List (Sched α)} (hx : x.ticksLeft ≤ 1)
    (h : ∀ y ∈ post, 2 ≤ y.ticksLeft) : (schedDue (pre ++ x :: post)).1 = some x.value := by
  have hf : post.filter (fun x => decide (x.ticksLeft ≤ 1)) = [] :=
    List.filter_eq_nil_iff.mpr fun y hy => by have := h y hy; simp; omega
  simp only [schedDue, List.filter_append, List.filter_cons, hf, decide_eq_true hx, if_true, List.getLast?_append,
    List.getLast?_singleton, Option.some_or, Option.map_some]

@[simp] theorem sameForce_cmdRingForce (s : State) (old : ItemTable) : SameForce (s.cmdRingForce old) s := by
  simp [State.cmdRingForce]

@[simp] theorem sameForce_pktForce (s : State) (old : Settings) : SameForce (s.pktForce old) s := ⟨rfl, rfl⟩

theorem sameForce_settingsForced (s : State) (old : Settings) : SameForce (s.settingsForced old) s := by
  unfold State.settingsForced
  dsimp only
  split <;> simp

/-- The device settings in force after the accepted ones that are due have taken force: the last of these, or those before. -/
theorem forceDevice_force (s : State) :
    s.forceDevice.force = ((schedDue s.sched).1).getD s.force ∧ s.forceDevice.power.ready = s.power.ready := by
  unfold State.forceDevice
  dsimp only
  split
  next v hv =>
    rw [hv]
    exact ((sameForce_cmdRingForce ..).trans (sameForce_settingsForced ..)).trans ⟨rfl, rfl⟩
  next hv =>
    rw [hv]
    exact (sameForce_cmdRingForce ..).trans ⟨rfl, rfl⟩

/-! ### The rest of the tick -/

@[simp] theorem sameForce_bindingsForced (s : State) (v : Service) (new : AttrBlock) : SameForce (s.bindingsForced v new) s := by
  simp [State.bindingsForced]

@[simp] theorem sameForce_bindingsNew (s : State) (v : Service) (new : AttrBlock) : SameForce (s.bindingsNew v new) s := by
  simp [State.bindingsNew]

@[simp] theorem sameForce_forceSvc (s : State) (n : Nat) : SameForce (s.forceSvc n) s := by
  unfold State.forceSvc
  dsimp only
  repeat' split
  all_goals simp

@[simp] theorem sameForce_rebank (s : State) (n : Nat) : SameForce (s.rebank n) s := ⟨rfl, rfl⟩

@[simp] theorem sameForce_forceServices (s : State) : SameForce s.forceServices s := by simp [State.forceServices]

@[simp] theorem sameForce_countDown (s : State) : SameForce s.countDown s := ⟨rfl, rfl⟩

@[simp] theorem sameForce_refTick (s : State) (inp : TickIn) : SameForce (s.refTick inp) s := by simp [State.refTick]

@[simp] theorem sameForce_ppsTick (s : State) : SameForce s.ppsTick s := by simp [State.ppsTick]

@[simp] theorem sameForce_roundTick (s : State) : SameForce s.roundTick s := by simp [State.roundTick]

@[simp] theorem sameForce_ageTick (s : State) : SameForce s.ageTick s := ⟨rfl, rfl⟩

@[simp] theorem sameForce_subTick (s : State) : SameForce s.subTick s := by simp [State.subTick]

/-- Settings of services take force, and counts run down, after the device settings have taken force. -/
theorem sameForce_forces (s : State) : SameForce s.forces s.forceDevice := by
  unfold State.forces
  generalize s.forceDevice = t
  exact (sameForce_countDown _).trans (sameForce_forceServices t)

/-- Once the settings of a tick are in force, the rest of its work changes them no more. -/
theorem sameForce_tickWork (s : State) (inp : TickIn) : SameForce (s.tickWork inp) (s.measures inp).forces := by
  unfold State.tickWork
  generalize (s.measures inp).forces = t
  dsimp only
  refine (sameForce_serveAll ..).trans ?_
  refine (sameForce_subTick ..).trans ?_
  refine (sameForce_ageTick ..).trans ?_
  refine (sameForce_calResults ..).trans ?_
  refine (sameForce_ppsTick ..).trans ?_
  refine (sameForce_pktTick ..).trans ?_
  refine (sameForce_audioTick ..).trans ?_
  refine (sameForce_trunkTick ..).trans ?_
  refine (sameForce_mapTick ..).trans ?_
  refine (sameForce_alertTick ..).trans ?_
  refine (sameForce_followTick ..).trans ?_
  refine (sameForce_roundTick ..).trans ?_
  refine (sameForce_layCarriers ..).trans ?_
  refine (sameForce_layLanes ..).trans ?_
  refine (sameForce_ringAuto ..).trans ?_
  refine (sameForce_readReplyConsumer ..).trans ?_
  refine (sameForce_readConsumers ..).trans ?_
  refine (sameForce_rfTick ..).trans ?_
  exact sameForce_refTick ..

/-- After a tick's work the device settings in force are the last of the accepted ones that were due, or those before. -/
theorem tickWork_force (s : State) (inp : TickIn) :
    (s.tickWork inp).force = ((schedDue s.sched).1).getD s.force ∧ (s.tickWork inp).power.ready = s.power.ready := by
  obtain ⟨hforce, hready⟩ := (sameForce_tickWork s inp).trans (sameForce_forces (s.measures inp))
  obtain ⟨hdev, hdevReady⟩ := forceDevice_force (s.measures inp)
  obtain ⟨hmeas, hmeasReady⟩ := sameForce_measures s inp
  rw [measures_sched, hmeas] at hdev
  exact ⟨hforce.trans hdev, hready.trans (hdevReady.trans hmeasReady)⟩

/-- Settles O57: the tick's work puts the last of the settings that are due into force, and nothing else in the tick changes
them. -/
theorem deviceSettingsTakeForce : Obligations.DeviceSettingsTakeForce := by
  unfold Obligations.DeviceSettingsTakeForce
  intro inp s hup hs hb hl ht hreset hrec
  obtain ⟨hforce, hready⟩ := tickWork_force (s.tickBegun inp) inp
  have hbegun : (s.tickBegun inp).sched = s.sched ∧ (s.tickBegun inp).force = s.force
      ∧ (s.tickBegun inp).power.ready = s.power.ready := ⟨rfl, rfl, rfl⟩
  obtain ⟨hsched, hold, hreadyBegun⟩ := hbegun
  have htick : exec (.tick inp) s = .next ((s.tickBegun inp).tickWork inp) := by
    simp only [tick_served hup hs hb hl ht, hreset, hrec, Bool.false_eq_true, if_false]
  generalize (s.tickBegun inp).tickWork inp = t at htick hforce hready
  rw [hsched, hold] at hforce
  refine ⟨t, htick, ?_, fun h => ?_, fun pre x post hx hdue hpost => ?_⟩
  · rw [hready, hreadyBegun]
    exact (Bool.and_eq_true_iff.mp hs).1
  · rw [hforce, schedDue_none h, Option.getD_none]
  · rw [hforce, hx, schedDue_last pre hdue hpost, Option.getD_some]

end Sys2Proof.Machine
end

section
/-! PROOFS. ARCHIVE_EXTENT_ADD, AUDIO_PORT_START and AUDIO_PORT_STOP (O9). -/

namespace Sys2Proof.Machine

/-! ### Several audio ports change at once -/

/-- The ports of a list take one change each; nothing but the ports is touched. -/
def State.modAudios (s : State) (f : AudioSt → AudioSt) (ps : List Nat) : State := ps.foldl (fun s p => s.modAudio p f) s

theorem State.modAudios_frame (f : AudioSt → AudioSt) (ps : List Nat) (s : State) :
    s.modAudios f ps = { s with audio := (s.modAudios f ps).audio } := by
  induction ps generalizing s with
  | nil => rfl
  | cons p ps ih => exact (ih (s.modAudio p f)).trans rfl

theorem State.modAudio_audioPort {s : State} {p q : Nat} (f : AudioSt → AudioSt) (hp : p < s.audio.length) :
    (s.modAudio p f).audioPort q = if q = p then f (s.audioPort q) else s.audioPort q := by
  simp only [State.audioPort, State.modAudio, List.getD_eq_getElem?_getD, List.getElem?_modify]
  by_cases h : q = p
  · subst h; simp [List.getElem?_eq_getElem hp]
  · simp [h, Ne.symm h]

/-- A port takes the change where the list names it, once. -/
theorem State.modAudios_audioPort (f : AudioSt → AudioSt) {ps : List Nat} (hd : ps.Nodup) {s : State}
    (hps : ∀ p ∈ ps, p < s.audio.length) (q : Nat) :
    (s.modAudios f ps).audioPort q = if q ∈ ps then f (s.audioPort q) else s.audioPort q := by
  induction ps generalizing s with
  | nil => simp [State.modAudios]
  | cons p ps ih =>
    obtain ⟨hp, hd⟩ := List.nodup_cons.1 hd
    have hlen : ∀ r ∈ ps, r < (s.modAudio p f).audio.length := fun r hr => by
      simpa [State.modAudio] using hps r (List.mem_cons_of_mem _ hr)
    have hone := State.modAudio_audioPort (q := q) f (hps p List.mem_cons_self)
    rw [show s.modAudios f (p :: ps) = (s.modAudio p f).modAudios f ps from rfl, ih hd hlen, hone]
    by_cases hq : q = p
    · subst hq; simp [hp]
    · simp [hq]

theorem maskPorts_nodup (m : Byte) : (maskPorts m).Nodup := List.nodup_range.filter _

theorem lt_of_mem_maskPorts {m : Byte} {p : Nat} (h : p ∈ maskPorts m) : p < 4 :=
  List.mem_range.1 (List.mem_filter.1 h).1

/-- What a command leaves that changes each port its mask names: those ports, and nothing else. -/
theorem State.modAudios_mask {s : State} (m : Byte) (f : AudioSt → AudioSt) (hlen : s.audio.length = 4) :
    s.modAudios f (maskPorts m) = { s with audio := (s.modAudios f (maskPorts m)).audio } ∧
      ∀ p < 4, (s.modAudios f (maskPorts m)).audioPort p = if p ∈ maskPorts m then f (s.audioPort p) else s.audioPort p :=
  ⟨s.modAudios_frame f _, fun p _ => State.modAudios_audioPort f (maskPorts_nodup m)
    (fun _ hr => hlen ▸ lt_of_mem_maskPorts hr) p⟩

/-! ### ARCHIVE_EXTENT_ADD -/

/-- The number of extents of ARCHIVE_EXTENT_ADD and the extents are in range (R301). -/
theorem archiveExtentAdd_inRange {s : State} {es : List Extent} (h1 : 1 ≤ es.length) (hn : es.length ≤ 254)
    (hok : extentsOk s.archive.extents es = true) :
    (es.isEmpty || decide (254 < es.length) || !extentsOk s.archive.extents es) = false := by
  have hne : es ≠ [] := List.ne_nil_of_length_pos h1
  simp [hne, hok, hn]

/-- The mark's event may be raised again where the extents added lift the space above it (R305). -/
def State.lowAfter (s : State) (a : ArchiveSt) : Bool := if s.lowMark < a.unassigned then false else a.lowSaid

/-- The archive that holds the extents `new` is what ARCHIVE_EXTENT_ADD leaves and what its reply tells of (R301, R305). -/
theorem State.putExtents_eq (s : State) (new : List HeldExtent) :
    (let a1 : ArchiveSt := { s.archive with extents := new, fullSaid := false }
     let a2 := if s.lowMark < a1.unassigned then { a1 with lowSaid := false } else a1
     (({ s with archive := a2 } : State), answer .ok (le 4 a2.extents.length ++ zeros 4 ++ le 8 a2.unassigned)))
    = ({ s with archive := { s.archive with
          extents := new, fullSaid := false, lowSaid := s.lowAfter { s.archive with extents := new } } },
        answer .ok (le 4 new.length ++ zeros 4 ++ le 8 ({ s.archive with extents := new } : ArchiveSt).unassigned)) := by
  unfold State.lowAfter ArchiveSt.unassigned
  dsimp only
  split <;> rfl

theorem archiveExtentAdd_adds {h : CmdHdr} {s : State} {es : List Extent} (hk : Taken (gateNotRelay 0x0504) h s)
    (h1 : 1 ≤ es.length) (hn : es.length ≤ 254) (hok : extentsOk s.archive.extents es = true)
    (hcap : s.archive.extents.length + es.length ≤ 4096) {new : List HeldExtent}
    (hnew : new = s.archive.extents ++ es.map (fun e => (⟨e.start.toNat, e.length.toNat⟩ : HeldExtent))) :
    Replies (exec (.archiveExtentAdd h es) s) 0x0504 h s .ok noTick
      (le 4 new.length ++ zeros 4 ++ le 8 ({ s.archive with extents := new } : ArchiveSt).unassigned)
      { s.advance h.wait with archive := { s.archive with
          extents := new, fullSaid := false, lowSaid := (s.advance h.wait).lowAfter { s.archive with extents := new } } } := by
  subst hnew
  have hfits : decide (4096 < (s.archive.extents ++ es.map (fun e => (⟨e.start.toNat, e.length.toNat⟩ : HeldExtent))).length)
      = false := by simpa using hcap
  refine runCmd_replies _ h s _ _ _ _ _ hk
    ((State.refuseIf_false _ _ _ _ (archiveExtentAdd_inRange (s := s.advance h.wait) h1 hn hok)).trans
      ((State.refuseIf_false _ _ _ _ hfits).trans ?_))
  exact State.putExtents_eq (s.advance h.wait) _

theorem archiveExtentAdd_full {h : CmdHdr} {s : State} {es : List Extent} (hk : Taken (gateNotRelay 0x0504) h s)
    (h1 : 1 ≤ es.length) (hn : es.length ≤ 254) (hok : extentsOk s.archive.extents es = true)
    (hcap : 4096 < s.archive.extents.length + es.length) :
    Replies (exec (.archiveExtentAdd h es) s) 0x0504 h s .noCapacity noTick [] (s.advance h.wait) :=
  runCmd_refuses _ h s _ _ hk
    ((State.refuseIf_false _ _ _ _ (archiveExtentAdd_inRange (s := s.advance h.wait) h1 hn hok)).trans
      (State.refuseIf_true _ _ _ _ (by simpa using hcap)))

/-! ### AUDIO_PORT_START and AUDIO_PORT_STOP -/

/-- A port that is to be armed at the effective tick (R327). -/
def AudioSt.toArm (n : Nat) (trigger : Byte) (dt : W64) (a : AudioSt) : AudioSt :=
  { a with armTicks := some (n, ⟨trigger.toNat, if trigger = 2#8 then dt else 0#64⟩), stopTicks := none }

/-- A port whose arming is dropped and which is to stop at the effective tick (R327). -/
def AudioSt.toStop (n : Nat) (a : AudioSt) : AudioSt :=
  { a with armTicks := none, stopTicks := if a.state = 0 then none else some n }

theorem audioPortStart_arms {h : CmdHdr} {s : State} {mask trigger : Byte} {dt : W64} (hk : Taken (gateNotRelay 0x0603) h s)
    (hm : maskPorts mask ≠ []) (ht : trigger.toNat ≤ 2)
    (hdt : trigger = 2#8 → (s.advance h.wait).effTickIdx * 1000000 ≤ dt.toNat)
    (hst : ∀ p ∈ maskPorts mask, (s.audioPort p).state < 2) :
    Replies (exec (.audioPortStart h mask trigger dt) s) 0x0603 h s .ok (s.advance h.wait).effTick []
      ((s.advance h.wait).modAudios (AudioSt.toArm (s.advance h.wait).effTicks trigger dt) (maskPorts mask)) := by
  have hrange : ((maskPorts mask).isEmpty || decide (2 < trigger.toNat)
      || (trigger == 2#8 && decide (dt.toNat < (s.advance h.wait).effTickIdx * 1000000))) = false := by
    have hnever : (trigger == 2#8 && decide (dt.toNat < (s.advance h.wait).effTickIdx * 1000000)) = false := by
      by_cases e : trigger = 2#8
      · simp [e, hdt e]
      · simp [e]
    simp [hm, ht, hnever]
  have hidle : (maskPorts mask).any (fun p => decide (2 ≤ (s.audioPort p).state)) = false := by
    simpa using hst
  exact runCmd_replies _ h s _ _ _ _ _ hk
    ((State.refuseIf_false _ _ _ _ hrange).trans (State.refuseIf_false _ _ _ _ hidle))

theorem audioPortStop_stops {h : CmdHdr} {s : State} {mask : Byte} (hk : Taken (gateNotRelay 0x0604) h s)
    (hm : maskPorts mask ≠ []) :
    Replies (exec (.audioPortStop h mask) s) 0x0604 h s .ok (s.advance h.wait).effTick []
      ((s.advance h.wait).modAudios (AudioSt.toStop (s.advance h.wait).effTicks) (maskPorts mask)) :=
  runCmd_replies _ h s _ _ _ _ _ hk (State.refuseIf_false _ _ _ _ (by simp [hm]))

/-- Settles O9: extents join those held, and each audio port that a mask names takes one change. -/
theorem archiveAndAudioActions : Obligations.ArchiveAndAudioActions := by
  unfold Obligations.ArchiveAndAudioActions
  intro h s
  refine ⟨?_, ?_, ?_, ?_⟩
  · exact fun es hk h1 hn hok hcap => ⟨_, archiveExtentAdd_adds hk h1 hn hok hcap rfl⟩
  · exact fun es hk h1 hn hok hcap => archiveExtentAdd_full hk h1 hn hok hcap
  · exact fun mask trigger dt hk hm ht hdt hst hlen =>
      ⟨_, audioPortStart_arms hk hm ht hdt hst, State.modAudios_mask (s := s.advance h.wait) mask _ hlen⟩
  · exact fun mask hk hm hlen => ⟨_, audioPortStop_stops hk hm, State.modAudios_mask (s := s.advance h.wait) mask _ hlen⟩

end Sys2Proof.Machine
end

section
/-! PROOFS. The settings of time, clocks, references, gain, plan and coexistence, and the commands on them that act at once
(O11, O12). -/

namespace Sys2Proof.Machine

/-! ### Settings -/

theorem leapTableSet_sets {h : CmdHdr} {s : State} {m : Byte} {exp : W64} {es : List LeapEntry}
    (hk : Taken (gateAll 0x0803) h s) (hm : m.toNat ≤ 1) (hn : es.length ≤ 32) (hok : leapEntriesOk es = true)
    {host : List LeapEntry} (hhost : host = hostLeapAfter m.toNat s.acc.leapHost es) {tab : List LeapRow}
    (htab : tab = mergeLeap (host.map leapRow) s.time.learned s.time.image) (hsteps : leapStepsOk 0 tab = true)
    (hlen : tab.length ≤ 32) :
    Sets (exec (.leapTableSet h m exp es) s) 0x0803 h s (some 1) { s.acc with leapHost := host, leapExpiry := some exp } := by
  have hrange : (decide (1 < m.toNat) || decide (32 < es.length) || !leapEntriesOk es) = false := by simp [hm, hn, hok]
  have hascends : (!leapStepsOk 0 tab) = false := by rw [hsteps]; rfl
  have hfits : decide (32 < tab.length) = false := by simpa using hlen
  subst htab hhost
  exact runCmd_sets _ h s _ (some 1)
    (fun a => { a with leapHost := hostLeapAfter m.toNat s.acc.leapHost es, leapExpiry := some exp }) [] hk
    ((State.refuseIf_false _ _ _ _ hrange).trans ((State.refuseIf_false _ _ _ _ hascends).trans
      (State.refuseIf_false _ _ _ _ hfits)))

/-- CLOCK_CONFIG under the gate of its target: an ADC clock is set in MAINTAIN and stored in no group (R113, R407). -/
theorem clockConfig_sets {h : CmdHdr} {s : State} {b : ClockBody}
    (hk : Taken ⟨0x0805, .none, if clockBodyAdc b then [.maintain] else allModes, .none⟩ h s) (hok : clockBodyOk b = true) :
    Sets (exec (.clockConfig h b) s) 0x0805 h s (if clockBodyAdc b then none else some 1) (clockBodyPut b s.acc) :=
  runCmd_sets _ h s _ _ (clockBodyPut b) [] hk (State.refuseIf_false _ _ _ _ (by simp [hok]))

theorem refConfig_sets {h : CmdHdr} {s : State} {p : RefParams} (hk : Taken (gateAll 0x0807) h s)
    (h60 : 60 ≤ p.holdoverS.toNat) (h7 : p.holdoverS.toNat ≤ 604800) (hx : p.xoKind.toNat ≤ 1) (h1 : 1 ≤ p.entries.length)
    (hn : p.entries.length ≤ 7) (he : ∀ e ∈ p.entries, s.refEntryOk e = true) (hd : (p.entries.map (·.code)).Nodup) :
    Sets (exec (.refConfig h (some p)) s) 0x0807 h s (some 1)
      { s.acc with refs := ⟨p.holdoverS, p.xoKind, mergeRefs s.acc.refs.entries p.entries⟩ } := by
  have hall : p.entries.all (s.advance h.wait).refEntryOk = true := List.all_eq_true.2 he
  exact runCmd_sets _ h s _ (some 1)
    (fun a => { a with refs := ⟨p.holdoverS, p.xoKind, mergeRefs a.refs.entries p.entries⟩ }) [] hk
    (State.refuseIf_false _ _ _ _ (by simp [h60, h7, hx, h1, hn, hall, hd]))

/-- Gain mode, target and attenuation of RF_CONFIG in range (Table 15.17); the attenuation counts in MANUAL only. -/
theorem rfConfig_inRange {i g t a : Byte} (hi : i.toNat ≤ 2) (hg : g.toNat ≤ 2) (hlo : -24 ≤ t.toInt) (hhi : t.toInt ≤ -10)
    (ha : g = 2#8 → a.toNat ≤ 30 ∧ (i = 2#8 → a.toNat % 3 = 0)) :
    (decide (2 < i.toNat) || decide (2 < g.toNat) || decide (t.toInt < -24) || decide (-10 < t.toInt)
      || ((g == 2#8) && (decide (30 < a.toNat) || (i.toNat == 2 && a.toNat % 3 != 0)))) = false := by
  have hman : ((g == 2#8) && (decide (30 < a.toNat) || (i.toNat == 2 && a.toNat % 3 != 0))) = false := by
    by_cases e : g = 2#8
    · obtain ⟨h30, h3⟩ := ha e
      by_cases e2 : i = 2#8
      · simp [h30, h3 e2]
      · have : i.toNat ≠ 2 := fun x => e2 (BitVec.eq_of_toNat_eq x)
        simp [h30, this]
    · simp [e]
  simp [hi, hg, hlo, hhi, hman]

theorem rfConfig_sets {h : CmdHdr} {s : State} {i g t a : Byte} (hk : Taken (gateAll 0x0901) h s) (hi : i.toNat ≤ 2)
    (hg : g.toNat ≤ 2) (hlo : -24 ≤ t.toInt) (hhi : t.toInt ≤ -10)
    (ha : g = 2#8 → a.toNat ≤ 30 ∧ (i = 2#8 → a.toNat % 3 = 0)) :
    Sets (exec (.rfConfig h i g t a) s) 0x0901 h s (some 2)
      { s.acc with rf := s.acc.rf.set i.toNat ⟨g, t, if g = 2#8 then a else (rfCfg s.acc i.toNat).atten⟩ } := by
  simp only [← beq_iff_eq (a := g)]
  exact runCmd_sets _ h s _ (some 2)
    (fun x => { x with rf := x.rf.set i.toNat ⟨g, t, if g == 2#8 then a else (rfCfg s.acc i.toNat).atten⟩ }) [] hk
    (State.refuseIf_false _ _ _ _ (rfConfig_inRange hi hg hlo hhi ha))

/-- The policy, the mask and the fixed plan of PLAN_POLICY in range (Table 15.17). -/
theorem planPolicy_inRange {p : PlanPolicyParams} (hp : p.policy.toNat ≤ 2) (hm : p.mask &&& 0x0F#8 ≠ 0#8)
    (hf : p.policy = 0#8 → p.plan.toNat ≤ 3 ∧ p.mask.getLsbD p.plan.toNat = true) :
    (decide (2 < p.policy.toNat) || (p.mask &&& 0x0F#8) == 0#8
      || ((p.policy == 0#8) && (decide (3 < p.plan.toNat) || !(p.mask &&& 0x0F#8).getLsbD p.plan.toNat))) = false := by
  have hlow : p.plan.toNat ≤ 3 → (0x0F#8 : BitVec 8).getLsbD p.plan.toNat = true := by
    generalize p.plan.toNat = n
    intro h3
    interval_cases n <;> rfl
  have hplan (e : p.policy = 0#8) : p.plan.toNat ≤ 3 ∧ p.mask.getLsbD p.plan.toNat = true
      ∧ (0x0F#8 : BitVec 8).getLsbD p.plan.toNat = true := ⟨(hf e).1, (hf e).2, hlow (hf e).1⟩
  simpa [hp, hm] using hplan

theorem planPolicy_sets {h : CmdHdr} {s : State} {p : PlanPolicyParams} (hk : Taken (gateNotRelay 0x0903) h s)
    (hp : p.policy.toNat ≤ 2) (hm : p.mask &&& 0x0F#8 ≠ 0#8)
    (hf : p.policy = 0#8 → p.plan.toNat ≤ 3 ∧ p.mask.getLsbD p.plan.toNat = true) :
    Sets (exec (.planPolicy h (some p)) s) 0x0903 h s (some 2)
      { s.acc with plan := ⟨p.policy, p.mask &&& 0x0F#8, if p.policy = 0#8 then p.plan else s.acc.plan.plan⟩ } := by
  simp only [← beq_iff_eq (a := p.policy)]
  exact runCmd_sets _ h s _ (some 2)
    (fun a => { a with plan := ⟨p.policy, p.mask &&& 0x0F#8, if p.policy == 0#8 then p.plan else a.plan.plan⟩ }) [] hk
    (State.refuseIf_false _ _ _ _ (planPolicy_inRange hp hm hf))

theorem coexConfig_sets {h : CmdHdr} {s : State} {items : List Item} {t : ItemTable} (hk : Taken (gateAll 0x0906) h s)
    (hne : items ≠ []) (ha : applyItems tbl39 (fun _ => true) s.acc.coex items = some t) :
    Sets (exec (.coexConfig h items) s) 0x0906 h s (some 2) { s.acc with coex := t } :=
  runCmd_sets _ h s _ (some 2) (fun a => { a with coex := t }) [] hk (itemCmd_put hne ha)

/-- Settles O11: each body is a commit of device settings under checks of its parameters, or a read-back. -/
theorem timeAndRfSettings : Obligations.TimeAndRfSettings := by
  unfold Obligations.TimeAndRfSettings
  intro h s
  refine ⟨?_, ?_, ?_, ?_, ?_, ?_, ?_, ?_, ?_, ?_⟩
  · exact fun m exp es hk hm hn hok hsteps hlen => leapTableSet_sets hk hm hn hok rfl rfl hsteps hlen
  · intro b hk hb hok
    have hset := clockConfig_sets (h := h) (s := s) (b := b)
    rw [hb] at hset
    exact hset hk hok
  · intro b hk hb hok
    have hset := clockConfig_sets (h := h) (s := s) (b := b)
    rw [hb] at hset
    exact hset hk hok
  · exact fun p hk h60 h7 hx h1 hn he hd => refConfig_sets hk h60 h7 hx h1 hn he hd
  · exact fun hk => runCmd_reads _ h s _ _ hk rfl
  · exact fun i g t a hk hi hg hlo hhi ha => rfConfig_sets hk hi hg hlo hhi ha
  · exact fun p hk hp hm hf => planPolicy_sets hk hp hm hf
  · exact fun hk => runCmd_reads _ h s _ _ hk rfl
  · exact fun items t hk hne ha => coexConfig_sets hk hne ha
  · exact fun hk => runCmd_reads _ h s _ _ hk rfl

/-! ### TIME_SET and PPS_TOD -/

/-- FORM and ARM of TIME_SET in range, its VALUE a whole second where that is demanded (R58). -/
def timeSetBad (form arm : Byte) (v : W64) : Bool :=
  2 < form.toNat || 1 < arm.toNat || (form == 0#8 && v.toNat % 1000000000 != 0)

theorem timeSet_takesAtPps {h : CmdHdr} {s : State} {v : W64} (hk : Taken (gateAll 0x0801) h s)
    (hv : v.toNat % 1000000000 = 0) :
    Replies (exec (.timeSet h 0#8 0#8 v) s) 0x0801 h s .ok noTick (le 1 (if s.time.armed then 1 else 0) ++ zeros 7)
      { s.advance h.wait with time := { (s.advance h.wait).time with atPps := some v } } :=
  runCmd_replies _ h s _ _ _ _ _ hk (State.refuseIf_false _ _ _ _ (show timeSetBad 0#8 0#8 v = false by
    simp [timeSetBad, hv]))

theorem timeSet_badSecond {h : CmdHdr} {s : State} {v : W64} (hk : Taken (gateAll 0x0801) h s)
    (hv : v.toNat % 1000000000 ≠ 0) :
    Replies (exec (.timeSet h 0#8 0#8 v) s) 0x0801 h s .badParam noTick [] (s.advance h.wait) :=
  runCmd_refuses _ h s _ _ hk (State.refuseIf_true _ _ _ _ (show timeSetBad 0#8 0#8 v = true by simp [timeSetBad, hv]))

theorem timeSet_offsets {h : CmdHdr} {s : State} {v : W64} (hk : Taken (gateAll 0x0801) h s) :
    Replies (exec (.timeSet h 1#8 0#8 v) s) 0x0801 h s .ok noTick (le 1 (if s.time.armed then 1 else 0) ++ zeros 7)
      { s.advance h.wait with time := { (s.advance h.wait).time with offset := some (s.time.offset.getD 0 + v.toInt) } } :=
  runCmd_replies _ h s _ _ _ _ _ hk (State.refuseIf_false _ _ _ _ (show timeSetBad 1#8 0#8 v = false from rfl))

theorem timeSet_arms {h : CmdHdr} {s : State} {v : W64} (hk : Taken (gateAll 0x0801) h s) :
    Replies (exec (.timeSet h 1#8 1#8 v) s) 0x0801 h s .ok noTick (le 1 1 ++ zeros 7)
      { s.advance h.wait with time := { (s.advance h.wait).time with armed := true } } :=
  runCmd_replies _ h s _ _ _ _ _ hk (State.refuseIf_false _ _ _ _ (show timeSetBad 1#8 1#8 v = false from rfl))

theorem timeSet_disarms {h : CmdHdr} {s : State} {v : W64} (hk : Taken (gateAll 0x0801) h s) (ha : s.time.armed = true) :
    Replies (exec (.timeSet h 2#8 0#8 v) s) 0x0801 h s .ok noTick (le 1 0 ++ zeros 7)
      { s.advance h.wait with time := { (s.advance h.wait).time with armed := false } } :=
  runCmd_replies _ h s _ _ _ _ _ hk ((State.refuseIf_false _ _ _ _ (show timeSetBad 2#8 0#8 v = false from rfl)).trans
    (State.refuseIf_false _ _ _ _ (show (!s.time.armed) = false by rw [ha]; rfl)))

theorem timeSet_notArmed {h : CmdHdr} {s : State} {v : W64} (hk : Taken (gateAll 0x0801) h s) (ha : s.time.armed = false) :
    Replies (exec (.timeSet h 2#8 0#8 v) s) 0x0801 h s .notFound noTick [] (s.advance h.wait) :=
  runCmd_refuses _ h s _ _ hk ((State.refuseIf_false _ _ _ _ (show timeSetBad 2#8 0#8 v = false from rfl)).trans
    (State.refuseIf_true _ _ _ _ (show (!s.time.armed) = true by rw [ha]; rfl)))

theorem ppsTod_labels {h : CmdHdr} {s : State} {d : W64} (hk : Taken (gateAll 0x0809) h s)
    (hd : d.toNat % 1000000000 = 0) :
    Replies (exec (.ppsTod h d) s) 0x0809 h s .ok noTick []
      { s.advance h.wait with refs := { s.refs with ppsTod := some (d, (s.advance h.wait).time.dt) } } :=
  runCmd_replies _ h s _ _ _ _ _ hk (State.refuseIf_false _ _ _ _ (by simp [hd]))

/-! ### PLAN_DEFER and COMB_TEST -/

theorem planDefer_defers {h : CmdHdr} {s : State} {n : W16} (hk : Taken (gateNotRelay 0x0904) h s) (h1 : 1 ≤ n.toNat)
    (hn : n.toNat ≤ 600) (hp : s.plan.proposal.isSome = true ∨ s.plan.deferEnd.isSome = true) {e : W64}
    (he : e = (s.advance h.wait).time.dt + BitVec.ofNat 64 (n.toNat * 1000000000)) :
    Replies (exec (.planDefer h n) s) 0x0904 h s .ok noTick (le 8 e.toNat)
      { s.advance h.wait with plan := { s.plan with
          deferEnd := some e, proposal := s.plan.proposal.map (fun p => { p with changeTick := 0 }) } } := by
  subst he
  have hrange : decide (600 < n.toNat) = false := by simpa using hn
  have hfound : (s.plan.proposal.isNone && s.plan.deferEnd.isNone) = false := by
    rcases hp with hp | hp <;> simp [Option.isNone_eq_false_iff.2 hp]
  have hne : n ≠ 0#16 := fun e => by subst e; exact absurd h1 (by decide)
  exact runCmd_replies _ h s _ _ _ _ _ hk ((State.refuseIf_false _ _ _ _ hrange).trans
    ((State.refuseIf_false _ _ _ _ hfound).trans (if_neg hne)))

theorem planDefer_notFound {h : CmdHdr} {s : State} {n : W16} (hk : Taken (gateNotRelay 0x0904) h s)
    (hn : n.toNat ≤ 600) (hp : s.plan.proposal = none) (hd : s.plan.deferEnd = none) :
    Replies (exec (.planDefer h n) s) 0x0904 h s .notFound noTick [] (s.advance h.wait) := by
  have hrange : decide (600 < n.toNat) = false := by simpa using hn
  have hnone : (s.plan.proposal.isNone && s.plan.deferEnd.isNone) = true := by rw [hp, hd]; rfl
  exact runCmd_refuses _ h s _ _ hk ((State.refuseIf_false _ _ _ _ hrange).trans (State.refuseIf_true _ _ _ _ hnone))

theorem combTest_switches {h : CmdHdr} {s : State} {i on : Byte} (hk : Taken ⟨0x0908, .none, [.maintain], .none⟩ h s)
    (hi : i.toNat ≤ 2) (ho : on.toNat ≤ 1) :
    Replies (exec (.combTest h i on) s) 0x0908 h s .ok noTick []
      { s.advance h.wait with rf := s.rf.modify i.toNat (fun x => { x with comb := on == 1#8 }) } :=
  runCmd_replies _ h s _ _ _ _ _ hk (State.refuseIf_false _ _ _ _ (by simp [hi, ho]))

/-- Settles O12: each command in range writes its own part of the state, and is NOT_FOUND or BAD_PARAM otherwise. -/
theorem timeAndRfActions : Obligations.TimeAndRfActions := by
  unfold Obligations.TimeAndRfActions
  intro h s
  refine ⟨?_, ?_, ?_, ?_, ?_, ?_, ?_, ?_, ?_, ?_⟩
  · exact fun v hk hv => timeSet_takesAtPps hk hv
  · exact fun v hk hv => timeSet_badSecond hk hv
  · exact fun v hk => timeSet_offsets hk
  · exact fun v hk => timeSet_arms hk
  · exact fun v hk ha => timeSet_disarms hk ha
  · exact fun v hk ha => timeSet_notArmed hk ha
  · exact fun d hk hd => ppsTod_labels hk hd
  · exact fun n hk h1 hn hp => planDefer_defers hk h1 hn hp rfl
  · exact fun n hk hn hp hd => planDefer_notFound hk hn hp hd
  · exact fun i on hk hi ho => combTest_switches hk hi ho

end Sys2Proof.Machine
end

section
/-! PROOFS. The settings of filter banks, lanes, engines and the LDPC pool (O14). -/

namespace Sys2Proof.Machine

/-! ### Shared operations -/

/-- An item list in range whose items have a scope is committed (R410). -/
theorem scopedCmd_put {s : State} {tbl : List ItemSpec} {applies : Nat → Bool} {force acc t : ItemTable} {items : List Item}
    {put : ItemTable → State × Answer} (hne : items ≠ []) (ha : applyItems tbl applies acc items = some t) :
    s.scopedCmd tbl applies force acc items put = put t := by
  have : items.isEmpty = false := by simpa using hne
  rw [State.scopedCmd, this]
  exact itemCmd_put hne ha

/-- A command whose meaning is a change of one service's settings, where something changes (R61). -/
theorem runCmd_setsSvc (g : Gate) (h : CmdHdr) (s : State) (body : State → State × Answer) {v : Service}
    (f : SvcSettings → SvcSettings) (hk : Taken g h s) (hv : s.svc? h.slot = some v) (hn : s.slotSvc? v.slot = some v)
    (hg : (f v.acc).gen = v.acc.gen) (hc : f v.acc ≠ v.acc)
    (hb : body (s.advance h.wait) = (s.advance h.wait).commitSvc v.slot f) :
    RepliesGen (.next (s.runCmd g h body)) g.opcode h s .ok (v.acc.gen + 1) (s.advance h.wait).effTick []
      ((s.advance h.wait).withSvc v.slot (f v.acc)) := by
  have hgen : ((s.advance h.wait).withSvc v.slot (f v.acc)).replyGen h.slot = v.acc.gen + 1 := by
    rw [State.replyGen_withSvc (s := s.advance h.wait) _ hv, hg]
  rw [← hgen]
  exact runCmd_replies g h s body _ _ _ _ hk (hb.trans (commitSvc_changed (s := s.advance h.wait) [] hn hg hc))

/-! ### FIR_BANK_LOAD -/

/-- The settings that a load of a host bank gives (R145). -/
def Settings.loadBank (a : Settings) (c b ph : Byte) (cs : List W32) : Settings :=
  { a with fir := a.fir.filter (fun x => !(x.cls == c.toNat && x.bank == b.toNat)) ++ [⟨c.toNat, b.toNat, ph.toNat, cs⟩] }

/-- The parameters of FIR_BANK_LOAD in range (R140, R145). -/
structure BankLoadOk (c b ph : Byte) (cs : List W32) : Prop where
  cls : c.toNat ≤ 1
  bank : b.toNat ≤ 7
  host : builtinBank c.toNat b.toNat = false
  phase : ph.toNat ≤ 1
  least : 1 ≤ cs.length
  most : cs.length ≤ 128
  coeffs : ∀ x ∈ cs, coeffOk x = true
  linear : ph = 0#8 → cs = cs.reverse
  sumLow : 32768 ≤ cs.foldl (fun a x => a + x.toInt) (0 : Int)
  sumHigh : cs.foldl (fun a x => a + x.toInt) (0 : Int) ≤ 131072

theorem BankLoadOk.inRange {c b ph : Byte} {cs : List W32} (ok : BankLoadOk c b ph cs) :
    (decide (1 < c.toNat) || decide (7 < b.toNat) || builtinBank c.toNat b.toNat || decide (1 < ph.toNat) || cs.isEmpty
      || decide (128 < cs.length) || !cs.all coeffOk || (ph == 0#8 && cs != cs.reverse)
      || decide (cs.foldl (fun a x => a + x.toInt) (0 : Int) < 32768
        ∨ 131072 < cs.foldl (fun a x => a + x.toInt) (0 : Int))) = false := by
  have hne : cs ≠ [] := List.ne_nil_of_length_pos ok.least
  have hsym : (ph == 0#8 && cs != cs.reverse) = false := by
    by_cases e : ph = 0#8
    · simp [bne_eq_false_iff_eq.2 (ok.linear e)]
    · simp [e]
  have hall : cs.all coeffOk = true := List.all_eq_true.2 ok.coeffs
  have hsum : decide (cs.foldl (fun a x => a + x.toInt) (0 : Int) < 32768
      ∨ 131072 < cs.foldl (fun a x => a + x.toInt) (0 : Int)) = false := by
    have := ok.sumLow; have := ok.sumHigh
    rw [decide_eq_false_iff_not]; omega
  simp only [hsum, hsym, hall, ok.host, decide_eq_false (Nat.not_lt.2 ok.cls), decide_eq_false (Nat.not_lt.2 ok.bank),
    decide_eq_false (Nat.not_lt.2 ok.phase), decide_eq_false (Nat.not_lt.2 ok.most), List.isEmpty_eq_false_iff.2 hne,
    Bool.or_self, Bool.not_true]

theorem firBankLoad_sets {h : CmdHdr} {s : State} {c b ph : Byte} {cs : List W32} (hk : Taken (gateNotRelay 0x0A01) h s)
    (ok : BankLoadOk c b ph cs) (hu : s.bankUsers c.toNat b.toNat = 0) :
    Sets (exec (.firBankLoad h c b ph cs) s) 0x0A01 h s none (s.acc.loadBank c b ph cs) := by
  have hfree : decide (0 < s.bankUsers c.toNat b.toNat) = false := by simp [hu]
  exact runCmd_sets _ h s _ none (fun a => a.loadBank c b ph cs) [] hk
    ((State.refuseIf_false _ _ _ _ ok.inRange).trans (State.refuseIf_false _ _ _ _ hfree))

theorem firBankLoad_busy {h : CmdHdr} {s : State} {c b ph : Byte} {cs : List W32} (hk : Taken (gateNotRelay 0x0A01) h s)
    (ok : BankLoadOk c b ph cs) (hu : 0 < s.bankUsers c.toNat b.toNat) :
    Replies (exec (.firBankLoad h c b ph cs) s) 0x0A01 h s .busyRunning noTick [] (s.advance h.wait) := by
  have hused : decide (0 < s.bankUsers c.toNat b.toNat) = true := by simpa using hu
  exact runCmd_refuses _ h s _ _ hk ((State.refuseIf_false _ _ _ _ ok.inRange).trans (State.refuseIf_true _ _ _ _ hused))

/-! ### LANE_CONFIG -/

/-- The gate of a command whose slot, where it names one, is a service. -/
def gateEither (op : Nat) : Gate := ⟨op, .either, notRelay, .none⟩

section
variable {h : CmdHdr} {s : State} {items : List Item} {t : ItemTable} {v : Service}

theorem laneConfig_sets_device (hk : Taken (gateEither 0x0A04) h s) (hv : s.svc? h.slot = none) (hne : items ≠ [])
    (ha : applyItems tbl57 (fun i => i != 1) s.acc.lane items = some t) :
    Sets (exec (.laneConfig h items) s) 0x0A04 h s none { s.acc with lane := t } := by
  have hsome : items.isEmpty = false := by simpa using hne
  refine runCmd_sets _ h s _ none (fun a => { a with lane := t }) [] hk ?_
  simp only [State.advance_svc?, hv, hsome, Bool.false_eq_true, if_false]
  exact itemCmd_put hne ha

theorem laneConfig_sets_service (hk : Taken (gateEither 0x0A04) h s) (hv : s.svc? h.slot = some v)
    (hn : s.slotSvc? v.slot = some v) (hne : items ≠ []) (ha : applyItems tbl57 (fun _ => true) v.acc.lane items = some t)
    (hbank : s.bankItemOk v.acc.attrs.key t = true) (hc : ({ v.acc with lane := t } : SvcSettings) ≠ v.acc) :
    RepliesGen (exec (.laneConfig h items) s) 0x0A04 h s .ok (v.acc.gen + 1) (s.advance h.wait).effTick []
      ((s.advance h.wait).withSvc v.slot { v.acc with lane := t }) := by
  have hsuits : (!s.bankItemOk v.acc.attrs.key t) = false := by rw [hbank]; rfl
  refine runCmd_setsSvc _ h s _ (fun a => { a with lane := t }) hk hv hn rfl hc ?_
  simp only [State.advance_svc?, hv]
  exact (itemCmd_put hne ha).trans (State.refuseIf_false _ _ _ _ hsuits)

/-! ### ANALOGUE_CONFIG and TIMECODE_FORMAT_LOAD -/

theorem analogueConfig_sets (hk : Taken ⟨0x0A05, .service, notRelay, .none⟩ h s) (hv : s.svc? h.slot = some v)
    (hn : s.slotSvc? v.slot = some v) (hne : items ≠ [])
    (ha : applyItems tbl61 (analogueApplies v.acc.attrs) v.acc.analogue items = some t)
    (hok : analogueOk v.acc.attrs t = true) (hc : ({ v.acc with analogue := t } : SvcSettings) ≠ v.acc) :
    RepliesGen (exec (.analogueConfig h items) s) 0x0A05 h s .ok (v.acc.gen + 1) (s.advance h.wait).effTick []
      ((s.advance h.wait).withSvc v.slot { v.acc with analogue := t }) := by
  refine runCmd_setsSvc _ h s _ (fun a => { a with analogue := t }) hk hv hn rfl hc ?_
  simp only [State.advance_svc?, hv]
  exact (scopedCmd_put hne ha).trans (State.refuseIf_false _ _ _ _ (by rw [hok]; rfl))

theorem analogueConfig_reads (hk : Taken ⟨0x0A05, .service, notRelay, .none⟩ h s) (hv : s.svc? h.slot = some v) :
    Reads (exec (.analogueConfig h []) s) 0x0A05 h s
      (itemsBytes ((encodeItems 1 tbl61 v.force.analogue).filter (fun i => analogueApplies v.acc.attrs i.item.toNat))) := by
  refine runCmd_reads _ h s _ _ hk ?_
  simp only [State.advance_svc?, hv]
  rfl

theorem timecodeFormatLoad_sets {f : TcFormat} (hk : Taken (gateNotRelay 0x0A07) h s) (hok : tcFormatOk f = true)
    (hfree : ∀ v ∈ s.services, v.namesFormat f.format.toNat = false) :
    Sets (exec (.timecodeFormatLoad h f) s) 0x0A07 h s none
      { s.acc with formats := s.acc.formats.filter (fun x => x.format != f.format) ++ [f] } := by
  have hunused : s.services.any (fun v => v.namesFormat f.format.toNat) = false :=
    List.any_eq_false.2 fun v hv => by rw [hfree v hv]; exact Bool.false_ne_true
  exact runCmd_sets _ h s _ none
    (fun a => { a with formats := a.formats.filter (fun x => x.format != f.format) ++ [f] }) [] hk
    ((State.refuseIf_false _ _ _ _ (by rw [hok]; rfl)).trans (State.refuseIf_false _ _ _ _ hunused))

/-! ### DAB_CONFIG and TV_CONFIG -/

theorem dabConfig_sets_device (hk : Taken (gateEither 0x0A09) h s) (hv : s.svc? h.slot = none) (hne : items ≠ [])
    (ha : applyItems tbl73 (fun i => decide (i ≤ 2)) s.acc.dab items = some t) :
    Sets (exec (.dabConfig h items) s) 0x0A09 h s none { s.acc with dab := t } := by
  refine runCmd_sets _ h s _ none (fun a => { a with dab := t }) [] hk ?_
  simp only [State.advance_svc?, hv]
  exact scopedCmd_put hne ha

theorem dabConfig_sets_service (hk : Taken (gateEither 0x0A09) h s) (hv : s.svc? h.slot = some v)
    (hn : s.slotSvc? v.slot = some v) (hne : items ≠ [])
    (ha : applyItems tbl73 (dabApplies v.acc.attrs) v.acc.dab items = some t)
    (hc : ({ v.acc with dab := t } : SvcSettings) ≠ v.acc) :
    RepliesGen (exec (.dabConfig h items) s) 0x0A09 h s .ok (v.acc.gen + 1) (s.advance h.wait).effTick []
      ((s.advance h.wait).withSvc v.slot { v.acc with dab := t }) := by
  refine runCmd_setsSvc _ h s _ (fun a => { a with dab := t }) hk hv hn rfl hc ?_
  simp only [State.advance_svc?, hv]
  exact scopedCmd_put hne ha

theorem tvConfig_sets_device (hk : Taken (gateEither 0x0A0B) h s) (hv : s.svc? h.slot = none) (hne : items ≠ [])
    (ha : applyItems tbl87 (fun i => i == 1) s.acc.tv items = some t) :
    Sets (exec (.tvConfig h items) s) 0x0A0B h s none { s.acc with tv := t } := by
  refine runCmd_sets _ h s _ none (fun a => { a with tv := t }) [] hk ?_
  simp only [State.advance_svc?, hv]
  exact scopedCmd_put hne ha

theorem tvConfig_sets_service (hk : Taken (gateEither 0x0A0B) h s) (hv : s.svc? h.slot = some v)
    (hn : s.slotSvc? v.slot = some v) (hne : items ≠ [])
    (ha : applyItems tbl87 (tvApplies v.acc.attrs) v.acc.tv items = some t)
    (hc : ({ v.acc with tv := t } : SvcSettings) ≠ v.acc) :
    RepliesGen (exec (.tvConfig h items) s) 0x0A0B h s .ok (v.acc.gen + 1) (s.advance h.wait).effTick []
      ((s.advance h.wait).withSvc v.slot { v.acc with tv := t }) := by
  refine runCmd_setsSvc _ h s _ (fun a => { a with tv := t }) hk hv hn rfl hc ?_
  simp only [State.advance_svc?, hv]
  exact scopedCmd_put hne ha

/-! ### LDPC_POLICY -/

/-- A band of LDPC_POLICY with its extended limit raised to the limit where it lies below (R226). -/
def LdpcBand.raised (b : LdpcBand) : LdpcBand := if b.iExt.toNat < b.i.toNat then { b with iExt := b.i } else b

theorem ldpcPolicy_sets {bs : List LdpcBand} (hk : Taken (gateNotRelay 0x0A0D) h s)
    (hok : ∀ b ∈ bs, 4 ≤ b.i.toNat ∧ b.i.toNat ≤ 30 ∧ b.iExt.toNat ≤ 50 ∧ 100 ≤ b.capPct.toNat ∧ b.capPct.toNat ≤ 200
      ∧ b.capPct.toNat % 5 = 0) :
    Sets (exec (.ldpcPolicy h (some bs)) s) 0x0A0D h s (some 3) { s.acc with ldpc := bs.map LdpcBand.raised } :=
  runCmd_sets _ h s _ (some 3) (fun a => { a with ldpc := bs.map LdpcBand.raised }) [] hk
    (State.refuseIf_false _ _ _ _ (by
      rw [List.all_eq_true.2 fun b hb => decide_eq_true (hok b hb)]; rfl))

end

/-- Settles O14: with a slot each body is a commit of that service's settings, without one of the device's. -/
theorem engineSettings : Obligations.EngineSettings := by
  unfold Obligations.EngineSettings
  intro h s
  refine ⟨?_, ?_, ?_, ?_, ?_, ?_, ?_, ?_, ?_, ?_, ?_, ?_, ?_⟩
  · exact fun c b ph cs hk h1 h2 h3 h4 h5 h6 h7 h8 h9 h10 hu => firBankLoad_sets hk ⟨h1, h2, h3, h4, h5, h6, h7, h8, h9, h10⟩ hu
  · exact fun c b ph cs hk h1 h2 h3 h4 h5 h6 h7 h8 h9 h10 hu => firBankLoad_busy hk ⟨h1, h2, h3, h4, h5, h6, h7, h8, h9, h10⟩ hu
  · exact fun items t hk hv hne ha => laneConfig_sets_device hk hv hne ha
  · exact fun items t v hk hv hn hne ha hb hc => laneConfig_sets_service hk hv hn hne ha hb hc
  · exact fun items t v hk hv hn hne ha hok hc => analogueConfig_sets hk hv hn hne ha hok hc
  · exact fun v hk hv => analogueConfig_reads hk hv
  · exact fun f hk hok hfree => timecodeFormatLoad_sets hk hok hfree
  · exact fun items t hk hv hne ha => dabConfig_sets_device hk hv hne ha
  · exact fun items t v hk hv hn hne ha hc => dabConfig_sets_service hk hv hn hne ha hc
  · exact fun items t hk hv hne ha => tvConfig_sets_device hk hv hne ha
  · exact fun items t v hk hv hn hne ha hc => tvConfig_sets_service hk hv hn hne ha hc
  · exact fun bs hk hok => ldpcPolicy_sets hk hok
  · exact fun hk => runCmd_reads _ h s _ _ hk rfl

end Sys2Proof.Machine
end

section
/-! PROOFS. References qualify, are lost and end holdover, and the edges and indications that feed their criteria (O30). -/

namespace Sys2Proof.Machine

/-! ### An event of the references leaves time and references alone -/

@[simp] theorem raise_noSlot_time (s : State) (code : Nat) (ps : List Byte) : (s.raise code noSlot ps).time = s.time :=
  of_core (·.time) (fun _ => rfl) (core_raise_noSlot ..)

@[simp] theorem raise_noSlot_refs (s : State) (code : Nat) (ps : List Byte) : (s.raise code noSlot ps).refs = s.refs :=
  of_core (·.refs) (fun _ => rfl) (core_raise_noSlot ..)

@[simp] theorem refEvent_time (s : State) (reason role prev new ref : Nat) : (s.refEvent reason role prev new ref).time = s.time :=
  raise_noSlot_time ..

@[simp] theorem refEvent_refs (s : State) (reason role prev new ref : Nat) : (s.refEvent reason role prev new ref).refs = s.refs :=
  raise_noSlot_refs ..

@[simp] theorem refSay_time (s : State) (reason role ref : Nat) : (s.refSay reason role ref).time = s.time := refEvent_time ..

@[simp] theorem refSay_refs (s : State) (reason role ref : Nat) : (s.refSay reason role ref).refs = s.refs := refEvent_refs ..

@[simp] theorem setTState_time (s : State) (t : TState) : (s.setTState t).time = s.time := (setTState_frame s t).1

@[simp] theorem ite_time {c : Prop} [Decidable c] (a b : State) : (if c then a else b).time = if c then a.time else b.time :=
  apply_ite State.time c a b

/-! ### REFERENCE_QUALIFIED -/

/-- A reference that qualifies in the frequency role. -/
def RefState.qualifyF (r : RefState) : RefState := { r with qualF := true }
/-- A reference that qualifies in the time role. -/
def RefState.qualifyT (r : RefState) : RefState := { r with qualT := true }

theorem referenceQualified_freq {s : State} {c wait : Nat} (h1 : 1 ≤ c) (h4 : c ≤ 4) (hc : (s.ref c).critF = true)
    (hq : (s.ref c).qualF = false) (hh : s.refQ c ≤ (s.ref c).heldF) :
    exec (.referenceQualified c false wait) s = .next (((s.advance wait).modRef c RefState.qualifyF).refSay 7 0 c) := by
  have hrole : freqRole c = true := decide_eq_true ⟨h1, h4⟩
  have hdue : (freqRole c && (s.ref c).critF && !(s.ref c).qualF && decide (s.refQ c ≤ (s.ref c).heldF)) = true := by
    rw [hrole, hc, hq, decide_eq_true hh]; rfl
  exact if_pos hdue

theorem referenceQualified_time {s : State} {c wait : Nat} (h3 : 3 ≤ c) (h7 : c ≤ 7) (hc : (s.ref c).critT = true)
    (hq : (s.ref c).qualT = false) (hh : s.refQ c ≤ (s.ref c).heldT) :
    exec (.referenceQualified c true wait) s = .next (((s.advance wait).modRef c RefState.qualifyT).refSay 7 1 c) := by
  have hrole : timeRole c = true := decide_eq_true ⟨h3, h7⟩
  have hdue : (timeRole c && (s.ref c).critT && !(s.ref c).qualT && decide (s.refQ c ≤ (s.ref c).heldT)) = true := by
    rw [hrole, hc, hq, decide_eq_true hh]; rfl
  exact if_pos hdue

theorem referenceQualified_freq_early {s : State} {c wait : Nat}
    (h : (s.ref c).qualF = true ∨ (s.ref c).critF = false ∨ (s.ref c).heldF < s.refQ c) :
    exec (.referenceQualified c false wait) s = .next (s.advance wait) := by
  have hnot : ¬ (freqRole c && (s.ref c).critF && !(s.ref c).qualF && decide (s.refQ c ≤ (s.ref c).heldF)) = true := by
    rcases h with h | h | h <;> simp [h]
  exact if_neg hnot

theorem referenceQualified_time_early {s : State} {c wait : Nat}
    (h : (s.ref c).qualT = true ∨ (s.ref c).critT = false ∨ (s.ref c).heldT < s.refQ c) :
    exec (.referenceQualified c true wait) s = .next (s.advance wait) := by
  have hnot : ¬ (timeRole c && (s.ref c).critT && !(s.ref c).qualT && decide (s.refQ c ≤ (s.ref c).heldT)) = true := by
    rcases h with h | h | h <;> simp [h]
  exact if_neg hnot

/-! ### REFERENCE_LOSS -/

/-- A reference without its qualification and criterion in the frequency role (R123). -/
def RefState.loseF (r : RefState) : RefState := { r with qualF := false, critF := false, heldF := 0 }
/-- A reference without its qualification and criterion in the time role (R123). -/
def RefState.loseT (r : RefState) : RefState := { r with qualT := false, critT := false, heldT := 0 }

@[simp] theorem modRef_freqRef (s : State) (c : Nat) (f : RefState → RefState) : (s.modRef c f).refs.freqRef = s.refs.freqRef := rfl
@[simp] theorem modRef_timeSrc (s : State) (c : Nat) (f : RefState → RefState) : (s.modRef c f).refs.timeSrc = s.refs.timeSrc := rfl

/-- A reference that is not in use and has the frequency role alone loses it with one event (R123). -/
theorem disqualify_freqRole {s : State} {c : Nat} (hq : (s.ref c).qualF = true) (hu : s.refs.freqRef ≠ c) :
    s.disqualify c true false = (s.modRef c RefState.loseF).refSay 8 0 c := by
  have hidle : (s.refs.freqRef == c) = false := by simpa using hu
  simp only [State.disqualify, hq, refSay_refs, modRef_freqRef, hidle, Bool.and_self, Bool.and_false, Bool.false_and,
    Bool.false_eq_true, if_true, if_false]
  rfl

/-- A reference that is not in use and has the time role alone loses it with one event (R123). -/
theorem disqualify_timeRole {s : State} {c : Nat} (hq : (s.ref c).qualT = true) (hu : s.refs.timeSrc ≠ some c) :
    s.disqualify c false true = (s.modRef c RefState.loseT).refSay 8 1 c := by
  have hidle : (s.refs.timeSrc == some c) = false := by simpa using hu
  simp only [State.disqualify, hq, refSay_refs, modRef_timeSrc, hidle, Bool.and_self, Bool.and_false, Bool.false_and,
    Bool.false_eq_true, if_true, if_false]
  rfl

theorem referenceLoss_freq {s : State} {c wait : Nat} (h1 : 1 ≤ c) (h2 : c ≤ 2) (hq : (s.ref c).qualF = true)
    (hu : s.refs.freqRef ≠ c) :
    exec (.referenceLoss c wait) s = .next (((s.advance wait).modRef c RefState.loseF).refSay 8 0 c) := by
  have hkept : s.refs.forget c = s.refs := by interval_cases c <;> rfl
  have hroles : freqRole c = true ∧ timeRole c = false := by interval_cases c <;> exact ⟨rfl, rfl⟩
  have hlose : (s.advance wait).loseRef c = (s.advance wait).disqualify c true false := by
    rw [State.loseRef, hroles.1, hroles.2, State.advance_refs, hkept]; rfl
  exact congrArg Host.Outcome.next (hlose.trans (disqualify_freqRole (s := s.advance wait) hq hu))

theorem referenceLoss_time {s : State} {wait : Nat} (hq : (s.ref 6).qualT = true) (hu : s.refs.timeSrc ≠ some 6) :
    exec (.referenceLoss 6 wait) s = .next ((({ s.advance wait with refs := { s.refs with tInd6 := [] } } : State).modRef 6
      RefState.loseT).refSay 8 1 6) :=
  congrArg Host.Outcome.next
    (disqualify_timeRole (s := { s.advance wait with refs := { s.refs with tInd6 := [] } }) hq hu)

/-! ### HOLDOVER_EXPIRY -/

theorem holdoverExpiry_due {s : State} {wait : Nat} (ht : s.refs.tstate = .holdover)
    (hd : s.force.refs.holdoverS.toNat * 1000 ≤ s.refs.holdTicks) :
    exec (.holdoverExpiry wait) s = .next (((({ s.advance wait with refs := { s.refs with tstate := .expired, outTicks := 0 } }
      : State).setInt .pcie 6).setInt .twoWire 6).refSay 6 1 s.refs.holdRef) := by
  have hset : (s.advance wait).setTState .expired = (({ s.advance wait with refs := { s.refs with
      tstate := .expired, outTicks := 0 } } : State).setInt .pcie 6).setInt .twoWire 6 :=
    if_neg (show ¬ TState.expired = s.refs.tstate by rw [ht]; decide)
  rw [← hset]
  exact if_pos ⟨ht, hd⟩

theorem holdoverExpiry_early {s : State} {wait : Nat}
    (h : s.refs.tstate ≠ .holdover ∨ s.refs.holdTicks < s.force.refs.holdoverS.toNat * 1000) :
    exec (.holdoverExpiry wait) s = .next (s.advance wait) :=
  if_neg (show ¬ (s.refs.tstate = .holdover ∧ s.force.refs.holdoverS.toNat * 1000 ≤ s.refs.holdTicks) by
    rintro ⟨h1, h2⟩
    exact h.elim (· h1) (by omega))

/-! ### PPS_EDGE -/

/-- A PPS reference whose criterion the edges meet in both roles (Table 4.6). -/
def RefState.meetPps (r : RefState) : RefState := { r with critF := true, critT := true }

/-- An edge without a PPS_TOD takes the label of the count (R122). -/
theorem labelEdge_count {s : State} {n : W64} (ht : s.refs.ppsTod = none) (hn : s.refs.ppsCount = some n) (returning : Bool) :
    s.labelEdge returning = { s with refs := { s.refs with ppsCount := some (n + 1000000000#64) } } := by
  have hcount : s.countLabel returning = some (n + 1000000000#64) := by rw [State.countLabel, hn]
  simp only [State.labelEdge, ht, hcount]

theorem ppsEdge_inTime {s : State} {p n : W64} {wait : Nat} (ha : s.time.atPps = none) (hc : (s.ref 3).critF = true)
    (hl : s.refs.lastEdge = some p) (ht : s.refs.ppsTod = none) (hn : s.refs.ppsCount = some n)
    (hs : (((s.advance wait).now : Int) - p.toNat - 1000000000).natAbs ≤ 1000) :
    exec (.ppsEdge wait) s = .next (({ s.advance wait with refs := { s.refs with
      ppsCount := some (n + 1000000000#64), lastEdge := some (s.advance wait).time.dt } } : State).modRef 3 RefState.meetPps) := by
  obtain ⟨u, hu⟩ : ∃ u, u = s.advance wait := ⟨_, rfl⟩
  have hrefs : u.refs = s.refs := by rw [hu]; rfl
  have hnow : u.time.atPps = none := by rw [hu]; exact ha
  have hrun : (u.ref 3).critF = true := by rw [State.ref, hrefs]; exact hc
  have hspaced : decide (1000 < ((u.now : Int) - p.toNat - 1000000000).natAbs) = false := by
    rw [hu]; exact decide_eq_false (by omega)
  have hlabel := labelEdge_count (s := u) (hrefs ▸ ht) (hrefs ▸ hn) false
  rw [← hrefs] at hl ⊢
  rw [← hu]
  simp only [exec, execPpsEdge, ← hu, hnow, hrun, hl, hspaced, hlabel, Bool.not_true, Bool.false_and, Bool.and_false,
    Bool.or_self, Bool.false_eq_true, if_false, Option.isSome_some, if_true]
  rfl

@[simp] theorem beginHoldover_time (s : State) (c : Nat) : (s.beginHoldover c).time = s.time := by
  simp [State.beginHoldover]

@[simp] theorem timeLost_time (s : State) (c : Nat) : (s.timeLost c).time = s.time := by
  unfold State.timeLost
  split <;> simp [State.dropSource]

/-- A disqualification leaves time alone: what it says and does is the references'. -/
@[simp] theorem disqualify_time (s : State) (c : Nat) (freq time : Bool) : (s.disqualify c freq time).time = s.time := by
  simp [State.disqualify, State.freqLost]

@[simp] theorem loseRef_time (s : State) (c : Nat) : (s.loseRef c).time = s.time := disqualify_time ..

@[simp] theorem labelEdge_time (s : State) (returning : Bool) : (s.labelEdge returning).time = s.time := by
  unfold State.labelEdge
  dsimp only
  split
  · rfl
  · split
    · simp
    · split
      · split <;> simp
      · rfl

/-- A step of DT sets DT, and ends neither a step that waits for an edge nor begins one (R59). -/
theorem applyStep_atPps (s : State) (before : Nat) (dt : W64) :
    (s.applyStep before dt.toNat).time.dt = dt ∧ (s.applyStep before dt.toNat).time.atPps = s.time.atPps := by
  have htime : (s.applyStep before dt.toNat).time = (s.stepBegun before dt).time := by
    rw [applyStep_eq]
    refine (of_core State.time (fun _ => rfl) ((core_fireMatch ..).trans (core_fireMatch ..))).trans ?_
    rw [(stepState_frame ..).1, raise_noSlot_time]
  rw [htime]
  exact ⟨rfl, rfl⟩

/-- PPS_EDGE after the step that waits for it, and the tests of the edge before (R58, Table 4.6). -/
def State.edgeStepped (s : State) : State :=
  match s.time.atPps with
  | some v => ({ s with time := { s.time with atPps := none } }).applyStep s.now v.toNat
  | none => s

/-- The rest of an edge leaves time as the step left it. -/
theorem ppsEdge_time (s : State) (wait : Nat) :
    ∃ u, exec (.ppsEdge wait) s = .next u ∧ u.time = (s.advance wait).edgeStepped.time := by
  refine ⟨_, rfl, ?_⟩
  simp only [State.modRef_time, labelEdge_time, ite_time, loseRef_time, ite_self]
  rfl

theorem ppsEdge_steps {s : State} {v : W64} {wait : Nat} (hv : s.time.atPps = some v) :
    ∃ u, exec (.ppsEdge wait) s = .next u ∧ u.time.dt = v ∧ u.time.atPps = none := by
  obtain ⟨u, hu, htime⟩ := ppsEdge_time s wait
  have hstep : (s.advance wait).edgeStepped
      = ({ s.advance wait with time := { (s.advance wait).time with atPps := none } }).applyStep (s.advance wait).now v.toNat := by
    rw [State.edgeStepped, show (s.advance wait).time.atPps = some v from hv]
  obtain ⟨hdt, hat⟩ := applyStep_atPps { s.advance wait with time := { (s.advance wait).time with atPps := none } }
    (s.advance wait).now v
  exact ⟨u, hu, by rw [htime, hstep, hdt], by rw [htime, hstep, hat]⟩

/-! ### TIME_INDICATION -/

theorem timeIndication_noSource {s : State} {ti : TimeInd} {wait : Nat} (h5 : s.sourceSlot 5 ≠ some ti.slot)
    (h6 : s.sourceSlot 6 ≠ some ti.slot) : exec (.timeIndication ti wait) s = .next (s.advance wait) := by
  have hno (c : Nat) (hc : c = 5 ∨ c = 6) : (s.advance wait).sourceSlot c ≠ some ti.slot := by
    rcases hc with rfl | rfl
    · exact h5
    · exact h6
  simp only [exec, execTimeIndication]
  split
  · rfl
  · exact if_pos (Or.inr (Or.inr (hno _ (by split <;> simp))))

/-- A source whose indications do not yet meet the criterion (R123). -/
def RefState.unmetT (r : RefState) : RefState := { r with critT := false, heldT := 0 }

theorem timeIndication_first {s : State} {ti : TimeInd} {v : Service} {wait : Nat} (hv : s.slotSvc? ti.slot = some v)
    (hk : keyStandard v.acc.attrs.key = 7) (hc : ti.coarse = false) (h6 : s.sourceSlot 6 = some ti.slot)
    (hold : s.refs.tInd6 = []) :
    exec (.timeIndication ti wait) s = .next (({ s.advance wait with refs := { s.refs with
      tInd6 := [(ti.stamp.toNat : Int) - ti.label.toNat] } } : State).modRef 6 RefState.unmetT) := by
  have hv' : (s.advance wait).slotSvc? ti.slot = some v := hv
  have h6' : (s.advance wait).sourceSlot 6 = some ti.slot := h6
  simp only [exec, execTimeIndication, hv', hk, hc, Nat.reduceEqDiff, if_false, h6', State.advance_refs, hold,
    ne_eq, not_true_eq_false, not_false_eq_true, and_false, or_self, Bool.false_eq_true]
  rfl

/-- Settles O30: each event either meets its condition and does its one thing to the references, or changes the time alone. -/
theorem referencesComeAndGo : Obligations.ReferencesComeAndGo := by
  unfold Obligations.ReferencesComeAndGo
  intro c wait s
  refine ⟨?_, ?_, ?_, ?_, ?_, ?_, ?_, ?_, ?_, ?_, ?_, ?_⟩
  · exact fun h1 h4 hc hq hh => referenceQualified_freq h1 h4 hc hq hh
  · exact fun h3 h7 hc hq hh => referenceQualified_time h3 h7 hc hq hh
  · exact fun h => referenceQualified_freq_early h
  · exact fun h => referenceQualified_time_early h
  · exact fun h1 h2 hq hu => referenceLoss_freq h1 h2 hq hu
  · rintro rfl hq hu
    exact referenceLoss_time hq hu
  · rintro ht rfl hd
    exact holdoverExpiry_due ht hd
  · exact fun h => holdoverExpiry_early h
  · exact fun p n ha hc hl ht hn hs => ppsEdge_inTime ha hc hl ht hn hs
  · exact fun v hv => ppsEdge_steps hv
  · exact fun ti h5 h6 => timeIndication_noSource h5 h6
  · exact fun ti v hv hk hc h6 hold => timeIndication_first hv hk hc h6 hold

end Sys2Proof.Machine
end

section
/-! PROOFS. COLLECTOR_WRITE of one unit into a ring, and the host memory in which its record does not read back (O35). -/

namespace Sys2Proof.Machine

/-! ### A record in host memory -/

@[simp] theorem msix_host (s : State) (v : Nat) : (s.msix v).host = s.host := by
  unfold State.msix; dsimp only; split <;> rfl

/-- A record at PRODUCER, with its padding of free values; PRODUCER moves past it (R279, R285). -/
def State.recordPut (s : State) (r tag : Nat) (slot : W16) (bytes : List Byte) : State :=
  let size := (s.ringSet r).nat 3 1
  let p := (s.ring r).producer
  let n := roundUp 64 bytes.length
  let s := s.hostWrite ((s.ringSet r).nat 2 + p) (bytes ++ freeBytes s.freeCtr (n - bytes.length))
  ({ s with freeCtr := s.freeCtr + (n - bytes.length) } : State).modRing r (fun x => { x with
    producer := (p + n) % size, wraps := if (p + n) % size = 0 then (x.wraps + 1) % 2 ^ 32 else x.wraps
    records := (x.records + 1) % 2 ^ 64, recs := x.recs ++ [⟨p, some tag, slot⟩], unsignalled := x.unsignalled + 1 })

/-- The PRODUCER word of a ring as the device writes it (R279). -/
def State.producerPut (s : State) (r : Nat) : State :=
  s.hostWrite ((s.ringSet r).nat 4) (le 4 (s.ring r).producer ++ le 4 (s.ring r).wraps)

/-- A ring is signalled after a record, or its timer starts (R281). -/
def State.moderated (s : State) (r : Nat) : State :=
  if (s.ringSet r).nat 6 32 ≤ (s.ring r).unsignalled ∨ (s.ringSet r).nat 7 250 = 0 then s.signalRing r
  else if (s.ring r).unsignalled = 1 then s.modRing r (fun x => { x with timerUs := some ((s.ringSet r).nat 7 250) }) else s

/-- A record that fits before the end of its ring needs no pad record (R279). -/
theorem ringPut_fits {s : State} {r tag : Nat} {slot : W16} {bytes : List Byte}
    (hfit : (s.ring r).producer + roundUp 64 bytes.length ≤ (s.ringSet r).nat 3 1) :
    s.ringPut r tag slot bytes = ((s.recordPut r tag slot bytes).producerPut r).moderated r := by
  unfold State.ringPut
  dsimp only
  rw [if_neg (Nat.not_lt.2 hfit)]
  rfl

/-- Signals touch no host memory. -/
theorem moderated_host (s : State) (r : Nat) : (s.moderated r).host = s.host := by
  unfold State.moderated
  split
  · exact msix_host ..
  · split <;> rfl

/-- A byte outside the PRODUCER word, after a record that fits: the record and its padding have been written, and nothing else. -/
theorem ringPut_read {s : State} {r tag : Nat} {slot : W16} {bytes : List Byte} {a : Nat}
    (hfit : (s.ring r).producer + roundUp 64 bytes.length ≤ (s.ringSet r).nat 3 1)
    (ha : a < (s.ringSet r).nat 4 ∨ (s.ringSet r).nat 4 + 8 ≤ a) :
    Memory.read ramDefault (s.ringPut r tag slot bytes).host a
      = Memory.read ramDefault (Memory.writeN ramDefault s.host ((s.ringSet r).nat 2 + (s.ring r).producer)
          (bytes ++ freeBytes s.freeCtr (roundUp 64 bytes.length - bytes.length))) a := by
  rw [ringPut_fits hfit, moderated_host]
  exact Memory.read_writeN_ne _ _ _ _ _ ha

/-! ### One unit of the collector -/

@[simp] theorem issueTag_host (s : State) (tag : Nat) : (s.issueTag tag).host = s.host := rfl

/-- A unit of a stream that is not archived becomes the record of Table 10.3 and takes its tag (R284, R292). -/
theorem writeRecord_plain {s : State} {r tag : Nat} {x : Stream} {u : OutUnit} (ha : x.archive = false) :
    s.writeRecord r tag x u
      = (s.ringPut r tag u.slot (recordBytes tag (s.tagGen tag) u x.seq (tick32 u.tick) noArchive)).issueTag tag := by
  simp only [State.writeRecord, ha, Bool.false_and, Bool.false_eq_true, if_false, Option.isSome_none]

/-- The collector's only turn is a stream's whose head unit goes to one ring, by its next tag, and fits there (R294, R296). -/
structure RingTurn (s : State) (x : Stream) (u : OutUnit) (r tag : Nat) : Prop where
  turn : s.turns = [x]
  head : s.headUnit x = some u
  noTrunk : s.relays = false
  bound : x.autoRing = false
  ring : x.ring = some r
  noPort : x.port = none
  plain : x.archive = false
  notLast : (x.dress u).flags &&& fLast = 0#32
  tag : s.nextTag = some tag
  room : s.ringRoom r u.payload.length = (s, true)
  fits : (s.ring r).producer + roundUp 64 (48 + u.payload.length) ≤ (s.ringSet r).nat 3 1

/-- The record of the unit that has its turn (Table 10.3). -/
def State.turnRecord (s : State) (x : Stream) (u : OutUnit) (tag : Nat) : List Byte :=
  recordBytes tag (s.tagGen tag) (x.dress u) x.seq (tick32 u.tick) noArchive

theorem length_recordBytes (tag gen : Nat) (u : OutUnit) (seq : Nat) (tick : W32) (archive : Nat) :
    (recordBytes tag gen u seq tick archive).length = 48 + u.payload.length := by
  simp only [recordBytes, List.length_append]
  rfl

/-- A unit that has its turn leaves, and touches host memory as its record does (R297). -/
theorem RingTurn.collect_host {s : State} {x : Stream} {u : OutUnit} {r tag : Nat} (k : RingTurn s x u r tag) :
    (s.collect s.turns).host
      = (({ s with units := popUnit x.slot x.kind s.units } : State).ringPut r tag (x.dress u).slot (s.turnRecord x u tag)).host := by
  obtain ⟨p, hp⟩ : ∃ p, p = ({ s with units := popUnit x.slot x.kind s.units } : State) := ⟨_, rfl⟩
  have hrel : p.relays = false := by rw [hp]; exact k.noTrunk
  have htag : p.nextTag = some tag := by rw [hp]; exact k.tag
  have hleave : s.canLeave x u = (s, true) := by
    simp only [State.canLeave, k.noTrunk, k.bound, k.ring, k.tag, k.room, Bool.false_eq_true, if_false, Option.isNone_some]
  have hleft : (p.unitLeaves x u).host = (p.ringPut r tag (x.dress u).slot (p.turnRecord x u tag)).host := by
    simp only [State.unitLeaves, State.closeStream, k.notLast, if_true, State.modStream_host, hrel, Bool.false_eq_true, if_false,
      k.ring, htag, k.noPort, writeRecord_plain k.plain, issueTag_host]
    rfl
  rw [k.turn]
  simp only [State.collect, k.head, hleave, State.modStream_host, ← hp, hleft]
  rw [hp]
  rfl

/-- What a byte of host memory reads after the unit has left: outside the PRODUCER word, what the record and its padding, written
at PRODUCER, make of it. -/
theorem RingTurn.collect_read {s : State} {x : Stream} {u : OutUnit} {r tag a : Nat} (k : RingTurn s x u r tag)
    (ha : a < (s.ringSet r).nat 4 ∨ (s.ringSet r).nat 4 + 8 ≤ a) :
    ∃ pad, Memory.read ramDefault (s.collect s.turns).host a = Memory.read ramDefault
      (Memory.writeN ramDefault s.host ((s.ringSet r).nat 2 + (s.ring r).producer) (s.turnRecord x u tag ++ pad)) a := by
  have hfits : (s.ring r).producer + roundUp 64 (s.turnRecord x u tag).length ≤ (s.ringSet r).nat 3 1 := by
    rw [State.turnRecord, length_recordBytes]; exact k.fits
  rw [k.collect_host]
  exact ⟨_, ringPut_read (s := { s with units := popUnit x.slot x.kind s.units }) hfits ha⟩

/-! ### A host memory that lists an address twice -/

/-- The first byte of a record is the low byte of its tag (Table 10.3). -/
theorem recordBytes_head (tag gen : Nat) (u : OutUnit) (seq : Nat) (tick : W32) (archive : Nat) :
    ∃ bs, recordBytes tag gen u seq tick archive = BitVec.ofNat 8 tag :: bs := ⟨_, rfl⟩

/-- A zero written where an address is listed twice takes the first of the two away: the second is still read. -/
theorem read_zero_twice (bs : List Byte) :
    Memory.read ramDefault (Memory.writeN ramDefault [(0, 1#8), (0, 1#8)] 0 (0#8 :: bs)) 0 = 1#8 := by
  rw [Memory.writeN, Memory.read_writeN_ne _ _ _ _ _ (Or.inl (by omega))]
  rfl

/-- A stream whose units go to ring 0 and nowhere else. -/
def ringStream : Stream :=
  ⟨0#16, 1, 0, some 0, false, none, 0, false, 0, 0, 0, 0#32, false, 0#64, 0, 0, none, none, 0, 0, false⟩

/-- A unit of that stream, without content. -/
def ringUnit : OutUnit := ⟨0#16, 1, 0#16, 0#64, 0, 0#32, [], 0⟩

/-- A state in which that unit waits, its ring of 4,096 bytes is empty and lies at address 0 with its PRODUCER word behind it, and
host memory is not canonical: it lists address 0 twice. -/
def twiceListed : State :=
  { State.reset with
    force := { State.reset.force with rings := [[.num 1, .num 0, .num 4096, .num 4096]] }
    outRings := [⟨true, false, 0, 0, 0, 0, [], 0, none⟩]
    streams := [ringStream]
    units := [ringUnit]
    host := [(0, 1#8), (0, 1#8)] }

theorem twiceListed_turns : twiceListed.turns = [ringStream] := List.mergeSort_singleton _

/-- No tag is held: the one after the last issued is free. -/
theorem twiceListed_nextTag : twiceListed.nextTag = some 0 := by
  unfold State.nextTag
  dsimp only
  rw [show (65536 : Nat) = 65535 + 1 from rfl, List.range_succ_eq_map, List.map_cons, List.find?_cons_of_pos]
  · rfl
  · rfl

/-- In that state the unit has its turn. -/
theorem twiceListed_turn : RingTurn twiceListed ringStream ringUnit 0 0 where
  turn := twiceListed_turns
  head := rfl
  noTrunk := rfl
  bound := rfl
  ring := rfl
  noPort := rfl
  plain := rfl
  notLast := rfl
  tag := twiceListed_nextTag
  room := rfl
  fits := by decide

/-- Address 0, where the record begins with the zero of its tag, reads 1 once the unit has left. -/
theorem twiceListed_collect_read : Memory.read ramDefault (twiceListed.collect twiceListed.turns).host 0 = 1#8 := by
  obtain ⟨pad, hread⟩ := twiceListed_turn.collect_read (a := 0) (Or.inl (by decide))
  obtain ⟨bs, hrec⟩ := recordBytes_head 0 (twiceListed.tagGen 0) (ringStream.dress ringUnit) ringStream.seq
    (tick32 ringUnit.tick) noArchive
  rw [hread, State.turnRecord, hrec]
  exact read_zero_twice (bs ++ pad)

/-- Refutes O35: its clause on COLLECTOR_WRITE does not ask that host memory be canonical. In the state `twiceListed`, where host
memory lists address 0 twice, every premise of the clause holds, and the record at address 0 does not read back: its first byte, the
zero of tag 0, takes away one of the two entries, and the other is still read. -/
theorem not_unitsReachTheHost : ¬ Obligations.UnitsReachTheHost := by
  unfold Obligations.UnitsReachTheHost
  intro h
  obtain ⟨-, -, hwrite, -⟩ := h 0 twiceListed
  have hlen : (twiceListed.turnRecord ringStream ringUnit 0).length = 48 := length_recordBytes ..
  obtain ⟨t, hexec, -, -, -, -, -, hread, -⟩ := hwrite [] ringStream ringUnit 0 0 twiceListed_turns rfl rfl rfl rfl rfl
    (by decide) rfl rfl rfl twiceListed_nextTag rfl
    (show 0 + roundUp 64 (twiceListed.turnRecord ringStream ringUnit 0).length ≤ 4096 by rw [hlen]; decide)
    (Or.inr (show 0 + 0 + roundUp 64 (twiceListed.turnRecord ringStream ringUnit 0).length ≤ 4096 by rw [hlen]; decide))
  have ht : t = twiceListed.collect twiceListed.turns := (Host.Outcome.next.inj hexec).symm
  have hrecord : Memory.readN ramDefault t.host 0 (twiceListed.turnRecord ringStream ringUnit 0).length
      = twiceListed.turnRecord ringStream ringUnit 0 := hread
  obtain ⟨bs, hhead⟩ := recordBytes_head 0 (twiceListed.tagGen 0) (ringStream.dress ringUnit) ringStream.seq
    (tick32 ringUnit.tick) noArchive
  rw [State.turnRecord, hhead, List.length_cons, Memory.readN] at hrecord
  obtain ⟨hbyte, -⟩ := List.cons.inj hrecord
  rw [ht, twiceListed_collect_read] at hbyte
  exact absurd hbyte (by decide)

end Sys2Proof.Machine
end

section
/-! PROOFS. The units of a statistics interval, a spectrum interval and an archived second (O36). -/

namespace Sys2Proof.Machine

/-- The unit that joins the collector's queue without marks of its own carries the trust flags (R55). -/
theorem State.pushUnit_units (s : State) (f : W16) (k : Nat) (g : W16) (d : W64) (n : Nat) (p : List Byte) :
    (s.pushUnit f k g d n 0#32 p).units = s.units ++ [⟨f, k, g, d, n, s.trustFlags, p, s.tickNow⟩] := by
  simp only [State.pushUnit, BitVec.zero_or]

/-! ### STATISTICS_INTERVAL_END -/

/-- A service whose interval begins at `dt` with the counts `c` (R66). -/
def Service.interval (c : List ((Nat × Nat × Nat) × Nat)) (dt : W64) (v : Service) : Service :=
  { v with base := c, statFrom := dt }

theorem statStart_eq {s : State} {n : Nat} {v : Service} (hv : s.slotSvc? n = some v) :
    s.statStart n = s.modSvc n (Service.interval (s.svcCounts v) s.time.dt) := by
  unfold State.statStart
  rw [hv]
  rfl

theorem Service.interval_slot (c : List ((Nat × Nat × Nat) × Nat)) (dt : W64) (v : Service) :
    (v.interval c dt).slot = v.slot := rfl

/-- The body of the statistics unit of a service (Table 10.8). -/
def State.statBody (s : State) (v : Service) (st : StatIn) : List Byte :=
  le 1 st.lanes.length ++ [0] ++ le 2 (s.statItems v st.items).length ++ le 4 st.impaired
    ++ st.lanes.flatMap laneStatBytes ++ (s.statItems v st.items).flatMap StatItem_bytes

/-- The state in which the statistics unit has joined the queue, the interval not yet begun. -/
def State.statPushed (s : State) (v : Service) (st : StatIn) : State :=
  (s.pushUnit v.field 7 v.force.gen v.statFrom (s.now - v.statFrom.toNat) 0#32 (s.statBody v st)).modStream v.field 7
    (fun x => { x with flags := x.flags &&& ~~~ fPartial })

theorem statisticsIntervalEnd_regular {s : State} {v : Service} {st : StatIn} {x : Stream} (hv : s.slotSvc? st.slot = some v)
    (hx : s.stream? v.field 7 = some x) (hp : x.flags &&& fPartial = 0#32)
    (hnow : s.now % (v.force.lane.nat 6 1000 * 1000000) = 0) (hne : v.statFrom ≠ s.time.dt)
    (hfrom : v.statFrom.toNat % (v.force.lane.nat 6 1000 * 1000000) = 0) (hgen : v.genSince ≠ s.time.dt) :
    exec (.statisticsIntervalEnd st) s = .next ((s.statPushed v st).statStart st.slot) := by
  have hchanged : (v.genSince == s.time.dt) = false := by simpa using hgen
  have hopen : (s.time.dt == v.statFrom) = false := by simpa using hne.symm
  simp only [exec, execStatisticsIntervalEnd, hv, hx, hp, hnow, hfrom, hchanged, hopen, bne_self_eq_false, beq_self_eq_true,
    Bool.false_and, Bool.or_false, Bool.and_self, Bool.not_true, Bool.false_eq_true, if_false]
  rfl

/-- Beginning an interval leaves everything but the service that it is of. -/
theorem statStart_leaves {s : State} {n : Nat} {v : Service} (hv : s.slotSvc? n = some v) :
    ((s.statStart n).slotSvc? n).map (·.statFrom) = some s.time.dt ∧ ∀ k, k ≠ n → (s.statStart n).slotSvc? k = s.slotSvc? k := by
  rw [statStart_eq hv]
  refine ⟨?_, fun k hk => State.slotSvc?_modSvc_ne (Service.interval_slot _ _) hk⟩
  rw [State.slotSvc?_modSvc_self (Service.interval_slot _ _) hv]
  rfl

/-! ### SPECTRUM_INTERVAL_END -/

/-- The body of a spectrum unit (Table 10.5). -/
def spectrumBody (v : Service) (sp : SpectrumIn) : List Byte :=
  le 1 v.rx.input ++ [0] ++ le 2 1024 ++ le 2 sp.transforms ++ zeros 2 ++ le 4 sp.centreKhz.toNat ++ le 4 sp.binMhz.toNat
    ++ ((sp.levels ++ List.replicate 1024 0).take 1024).flatMap (leInt 2)

theorem spectrumIntervalEnd_pushes {s : State} {v : Service} {sp : SpectrumIn} {x : Stream} (hv : s.slotSvc? sp.slot = some v)
    (hx : s.stream? v.field 9 = some x) (hc : v.state.costs = true) :
    exec (.spectrumIntervalEnd sp) s
      = .next (s.pushUnit v.field 9 v.force.gen sp.stamp sp.spanNs 0#32 (spectrumBody v sp)) := by
  simp only [exec, execSpectrumIntervalEnd, hv, hx, hc, Option.isNone_some, Bool.not_true, Bool.or_self, Bool.false_eq_true,
    if_false]
  rfl

theorem spectrumIntervalEnd_noStream {s : State} {v : Service} {sp : SpectrumIn} (hv : s.slotSvc? sp.slot = some v)
    (hx : s.stream? v.field 9 = none) : exec (.spectrumIntervalEnd sp) s = .next s := by
  simp only [exec, execSpectrumIntervalEnd, hv, hx, Option.isNone_none, Bool.true_or, if_true]

/-! ### ARCHIVE_INDEX_UNIT -/

/-- Whether an archived unit falls into second `k` of a slot (R307). -/
def IndexEntry.inSecond (f : W16) (k : Nat) (e : IndexEntry) : Bool := e.slot == f && e.dt.toNat / 1000000000 == k

/-- The entries of the archive index for one second of a slot, in order of DT (R307). -/
def ArchiveSt.second (a : ArchiveSt) (f : W16) (k : Nat) : List IndexEntry :=
  (a.index.filter (IndexEntry.inSecond f k)).mergeSort (fun a b => decide (a.dt.toNat ≤ b.dt.toNat))

theorem ArchiveSt.second_perm (a : ArchiveSt) (f : W16) (k : Nat) :
    (a.second f k).Perm (a.index.filter (IndexEntry.inSecond f k)) := List.mergeSort_perm ..

theorem ArchiveSt.second_ordered (a : ArchiveSt) (f : W16) (k : Nat) :
    (a.second f k).Pairwise (fun a b => a.dt.toNat ≤ b.dt.toNat) := by
  have hsorted := List.pairwise_mergeSort (le := fun a b : IndexEntry => decide (a.dt.toNat ≤ b.dt.toNat))
    (fun a b c hab hbc => by simp only [decide_eq_true_eq] at hab hbc ⊢; omega)
    (fun a b => by simp only [Bool.or_eq_true, decide_eq_true_eq]; omega) (a.index.filter (IndexEntry.inSecond f k))
  exact hsorted.imp fun h => of_decide_eq_true h

/-- The body of an archive-index unit (R307). -/
def indexBody (es : List IndexEntry) : List Byte :=
  le 4 es.length ++ zeros 4 ++ es.flatMap (fun e =>
    le 8 e.dt.toNat ++ le 8 e.archive.toNat ++ le 4 e.seq ++ le 1 e.kind ++ zeros 3 ++ le 4 e.bytes ++ zeros 4)

/-- The archive whose index holds no more of second `k` of a slot, the next second being due (R307). -/
def ArchiveSt.indexed (a : ArchiveSt) (f : W16) (k : Nat) : ArchiveSt :=
  { a with
    index := a.index.filter (fun e => !e.inSecond f k)
    nextSec := a.nextSec.map (fun x => if x.1 == f then (f, k + 1) else x) }

theorem archiveIndexUnit_pushes {s : State} {v : Service} {n k : Nat} {x : Stream} (hv : s.slotSvc? n = some v)
    (hx : s.stream? v.field 0xB = some x) (hnext : s.archive.nextSec.find? (fun y => y.1 == v.field) = some (v.field, k))
    (hover : (k + 1) * 1000000000 ≤ s.now) (hpast : s.streamsPast v.field ((k + 1) * 1000000000) = true) :
    exec (.archiveIndexUnit n) s
      = .next (({ s with archive := s.archive.indexed v.field k } : State).pushUnit v.field 0xB v.force.gen
          (BitVec.ofNat 64 (k * 1000000000)) 1000000000 0#32 (indexBody (s.archive.second v.field k))) := by
  have hdue : (decide (s.now < (k + 1) * 1000000000) || !s.streamsPast v.field ((k + 1) * 1000000000)) = false := by
    rw [decide_eq_false (by omega), hpast]; rfl
  simp only [exec, execArchiveIndexUnit, hv, hx, hnext, hdue, Bool.false_eq_true, if_false]
  rfl

/-- Settles O36: each interval's unit joins the queue, and what its event leaves beside that is the frame of one update. -/
theorem intervalUnits : Obligations.IntervalUnits := by
  unfold Obligations.IntervalUnits
  intro s v
  refine ⟨?_, ?_, ?_, ?_, ?_, ?_⟩
  · intro st x hv hx hp hnow hne hfrom hgen
    have hv' : (s.statPushed v st).slotSvc? st.slot = some v := hv
    refine ⟨_, statisticsIntervalEnd_regular hv hx hp hnow hne hfrom hgen, ?_, statStart_leaves hv'⟩
    rw [statStart_eq hv']
    exact ⟨State.pushUnit_units .., rfl, rfl, rfl⟩
  · intro st hv
    simp only [exec, execStatisticsIntervalEnd, hv]
  · intro sp x hv hx hc
    exact ⟨_, spectrumIntervalEnd_pushes hv hx hc, ⟨State.pushUnit_units .., rfl, rfl, rfl⟩, rfl⟩
  · exact fun sp hv hx => spectrumIntervalEnd_noStream hv hx
  · intro n k x hv hx hnext hover hpast
    exact ⟨_, _, archiveIndexUnit_pushes hv hx hnext hover hpast, s.archive.second_perm v.field k,
      s.archive.second_ordered v.field k, ⟨State.pushUnit_units .., rfl, rfl, rfl⟩, rfl, rfl⟩
  · intro n hv
    simp only [exec, execArchiveIndexUnit, hv]

end Sys2Proof.Machine
end

section
/-! PROOFS. The state right after power-on (O52). -/

namespace Sys2Proof.Machine

/-- The banked registers of both buses start at zero (R424). -/
theorem bus_reset (b : Bus) : State.reset.bus b = BusRegs.reset := by cases b <;> rfl

/-- Settles O52: each field of the reset state is written out, and its memories and queues are empty. -/
theorem resetLeavesTheResetState : Obligations.ResetLeavesTheResetState := by
  unfold Obligations.ResetLeavesTheResetState
  have hbus (b : Bus) : (State.reset.bus b).intStatus = 0#32 ∧ (State.reset.bus b).intEnable = 0#32
      ∧ (State.reset.bus b).dtMatch = 0#64 ∧ (State.reset.bus b).matchArmed = false := by
    rw [bus_reset]; exact ⟨rfl, rfl, rfl, rfl⟩
  exact ⟨rfl, rfl, rfl, rfl, rfl, rfl, rfl, rfl, hbus, rfl, rfl, rfl, rfl, rfl, rfl, rfl, rfl, rfl, rfl, rfl, rfl, rfl, rfl,
    rfl, rfl, rfl, memWf_reset, rfl, rfl⟩

end Sys2Proof.Machine
end

section
/-! PROOFS. The coexistence rows (O31): the grant sequence of Table 3.10 and the protection windows of Table 3.11. -/

namespace Sys2Proof.Machine

/-! ### Phases, wires and events -/

/-- How long the shared inputs have been BLANKED in the phase that a request is in (R107). -/
def CoexSt.spent (c : CoexSt) (dt : W64) : Nat := if c.phase = .idle then 0 else dt.toNat - c.phaseDt.toNat

theorem CoexSt.enter_eq (c : CoexSt) (p : CoexPhase) (dt : W64) :
    c.enter p dt = { c with phase := p, phaseDt := dt, blankedNs := c.blankedNs + c.spent dt } := rfl

/-- Leaving a phase of a request with an extra time of BLANKED. -/
theorem CoexSt.enter_extra {c : CoexSt} (hp : c.phase ≠ .idle) (p : CoexPhase) (dt : W64) (n : Nat) :
    c.enter p dt n = { c with phase := p, phaseDt := dt, blankedNs := c.blankedNs + (c.spent dt + n) } := by
  simp only [CoexSt.enter, CoexSt.spent, if_neg hp]

/-- A transition of an input wire touches nothing but the records of transitions. -/
theorem CoexSt.edge_frame (c : CoexSt) (w : Nat) (changed : Bool) (dt : W64) :
    c.edge w changed dt = { c with lastEdge := (c.edge w changed dt).lastEdge, stuckSaid := (c.edge w changed dt).stuckSaid } := by
  cases changed <;> rfl

@[simp] theorem CoexSt.edge_phase (c : CoexSt) (w : Nat) (b : Bool) (dt : W64) : (c.edge w b dt).phase = c.phase := by
  rw [CoexSt.edge_frame]
@[simp] theorem CoexSt.edge_phaseDt (c : CoexSt) (w : Nat) (b : Bool) (dt : W64) : (c.edge w b dt).phaseDt = c.phaseDt := by
  rw [CoexSt.edge_frame]
@[simp] theorem CoexSt.edge_gntOut (c : CoexSt) (w : Nat) (b : Bool) (dt : W64) : (c.edge w b dt).gntOut = c.gntOut := by
  rw [CoexSt.edge_frame]
@[simp] theorem CoexSt.edge_window (c : CoexSt) (w : Nat) (b : Bool) (dt : W64) : (c.edge w b dt).window = c.window := by
  rw [CoexSt.edge_frame]
@[simp] theorem CoexSt.edge_grants (c : CoexSt) (w : Nat) (b : Bool) (dt : W64) : (c.edge w b dt).grants = c.grants := by
  rw [CoexSt.edge_frame]
@[simp] theorem CoexSt.edge_withheld (c : CoexSt) (w : Nat) (b : Bool) (dt : W64) : (c.edge w b dt).withheld = c.withheld := by
  rw [CoexSt.edge_frame]
@[simp] theorem CoexSt.edge_blankedNs (c : CoexSt) (w : Nat) (b : Bool) (dt : W64) : (c.edge w b dt).blankedNs = c.blankedNs := by
  rw [CoexSt.edge_frame]
@[simp] theorem CoexSt.edge_spent (c : CoexSt) (w : Nat) (b : Bool) (dt t : W64) : (c.edge w b dt).spent t = c.spent t := by
  simp only [CoexSt.spent, CoexSt.edge_phase, CoexSt.edge_phaseDt]

theorem CoexSt.gntOut_eta {c : CoexSt} {b : Bool} (h : c.gntOut = b) : { c with gntOut := b } = c := by subst h; rfl

theorem setGntOut_same {s : State} {b : Bool} (h : s.coex.gntOut = b) : s.setGntOut b = s := if_pos h

theorem setGntOut_assert {s : State} (h : s.coex.gntOut = false) : s.setGntOut true
    = ({ s with coex := { s.coex with gntOut := true } } : State).emit (.pin "COEX_GNT_OUT" (!(s.force.coex.nat 3).testBit 2)) := by
  rw [State.setGntOut, if_neg (by rw [h]; decide), State.wire, Bool.true_bne]

theorem setGntOut_deassert (s : State) (h : s.coex.gntOut = true) : s.setGntOut false
    = ({ s with coex := { s.coex with gntOut := false } } : State).emit (.pin "COEX_GNT_OUT" ((s.force.coex.nat 3).testBit 2)) := by
  rw [State.setGntOut, if_neg (by rw [h]; decide), State.wire, Bool.false_bne]

theorem setReqOut_assert {s : State} (h : s.coex.reqOut = false) : s.setReqOut true
    = ({ s with coex := { s.coex with reqOut := true } } : State).emit (.pin "COEX_REQ_OUT" (!(s.force.coex.nat 3).testBit 3)) := by
  rw [State.setReqOut, if_neg (by rw [h]; decide), State.wire, Bool.true_bne]

theorem setReqOut_deassert (s : State) (h : s.coex.reqOut = true) : s.setReqOut false
    = ({ s with coex := { s.coex with reqOut := false } } : State).emit (.pin "COEX_REQ_OUT" ((s.force.coex.nat 3).testBit 3)) := by
  rw [State.setReqOut, if_neg (by rw [h]; decide), State.wire, Bool.false_bne]

/-! ### COEX_REQUEST -/

/-- The coexistence lines after COEX_REQ_IN is accepted, the grant withheld or not (R102, R105). -/
def CoexSt.requested (c : CoexSt) (pri gntIn held : Bool) (dt : W64) : CoexSt :=
  let c1 := ((c.edge 0 true dt).edge 1 (c.priIn != pri) dt).edge 2 (c.gntIn != gntIn) dt
  { c1.enter (.waiting held) dt with
    reqIn := true, priIn := pri, gntIn := gntIn, reqDt := dt, limitSaid := false
    withheld := if held then sat32 (c1.withheld + 1) else c1.withheld }

theorem CoexSt.requested_window (c : CoexSt) (pri gntIn held : Bool) (dt : W64) :
    (c.requested pri gntIn held dt).window = c.window := by
  simp only [CoexSt.requested, CoexSt.enter_eq, CoexSt.edge_window]
theorem CoexSt.requested_grants (c : CoexSt) (pri gntIn held : Bool) (dt : W64) :
    (c.requested pri gntIn held dt).grants = c.grants := by
  simp only [CoexSt.requested, CoexSt.enter_eq, CoexSt.edge_grants]
theorem CoexSt.requested_withheld (c : CoexSt) (pri gntIn held : Bool) (dt : W64) :
    (c.requested pri gntIn held dt).withheld = if held then sat32 (c.withheld + 1) else c.withheld := by
  simp only [CoexSt.requested, CoexSt.edge_withheld]

/-- COEX_REQUEST of a request that no window withholds. -/
theorem coexRequest_waits {s : State} {pri g : Bool} {wait : Nat} (hon : s.coexOn = true) (hreq : s.coex.reqIn = false)
    (hheld : (s.coex.window && !pri) = false) (hgnt : (s.coex.window && g) = false) :
    exec (.coexRequest pri g wait) s
      = .next { s.advance wait with coex := s.coex.requested pri g false (s.advance wait).time.dt } := by
  have htaken : ((s.advance wait).coexOn && !s.coex.reqIn) = true := by
    rw [hreq]; exact (Bool.and_true _).trans hon
  have hquiet : ((s.coex.requested pri g false (s.advance wait).time.dt).window && g) = false := by
    rw [CoexSt.requested_window, hgnt]
  simp only [exec, execCoexRequest, State.advance_coex, htaken, hheld, if_true, Bool.false_eq_true, if_false]
  exact congrArg Host.Outcome.next (if_neg (ne_true_of_eq_false hquiet))

/-- COEX_REQUEST without priority in a protection window (R105). -/
theorem coexRequest_withheld {s : State} {wait : Nat} (hon : s.coexOn = true) (hreq : s.coex.reqIn = false)
    (hwin : s.coex.window = true) :
    exec (.coexRequest false false wait) s
      = .next (({ s.advance wait with coex := s.coex.requested false false true (s.advance wait).time.dt } : State).coexEvent 2) := by
  have htaken : ((s.advance wait).coexOn && !s.coex.reqIn) = true := by
    rw [hreq]; exact (Bool.and_true _).trans hon
  simp only [exec, execCoexRequest, State.advance_coex, htaken, hwin, Bool.not_false, Bool.and_self, Bool.and_false, if_true,
    Bool.false_eq_true, if_false]
  rfl

theorem coexRequest_ignored {s : State} {pri g : Bool} {wait : Nat} (h : s.coexOn = false ∨ s.coex.reqIn = true) :
    exec (.coexRequest pri g wait) s = .next (s.advance wait) :=
  if_neg (show ¬ (s.coexOn && !s.coex.reqIn) = true by rcases h with h | h <;> simp [h])

/-! ### COEX_GRANT, COEX_RELEASE, COEX_TAIL_EXPIRY and COEX_GRANT_LIMIT -/

theorem coexGrant_due {s : State} {wait : Nat} (hp : s.coex.phase = .waiting false)
    (hgd : s.coex.phaseDt.toNat + s.force.coex.nat 4 * 100 ≤ (s.advance wait).now) (hout : s.coex.gntOut = false) :
    exec (.coexGrant wait) s = .next (({ s.advance wait with coex := { s.coex with
      phase := .granted, phaseDt := (s.advance wait).time.dt
      blankedNs := s.coex.blankedNs + s.coex.spent (s.advance wait).time.dt
      grants := sat32 (s.coex.grants + 1), gntOut := true } } : State).emit
        (.pin "COEX_GNT_OUT" (!(s.force.coex.nat 3).testBit 2))) :=
  (if_pos ⟨hp, hgd⟩).trans (congrArg Host.Outcome.next (setGntOut_assert hout))

theorem coexGrant_early {s : State} {wait : Nat}
    (h : s.coex.phase ≠ .waiting false ∨ (s.advance wait).now < s.coex.phaseDt.toNat + s.force.coex.nat 4 * 100) :
    exec (.coexGrant wait) s = .next (s.advance wait) :=
  if_neg fun ⟨hp, hgd⟩ => h.elim (· hp) (Nat.not_lt_of_le hgd)

/-- The coexistence lines after the partner releases its request, COEX_GNT_OUT not yet moved (R103). -/
def CoexSt.released (c : CoexSt) (dt : W64) : CoexSt :=
  { ((c.edge 0 true dt).edge 1 c.priIn dt).enter .tail dt with reqIn := false, priIn := false }

theorem CoexSt.released_gntOut (c : CoexSt) (dt : W64) : (c.released dt).gntOut = c.gntOut := by
  simp only [CoexSt.released, CoexSt.enter_eq, CoexSt.edge_gntOut]
theorem CoexSt.released_blankedNs (c : CoexSt) (dt : W64) : (c.released dt).blankedNs = c.blankedNs + c.spent dt := by
  simp only [CoexSt.released, CoexSt.enter_eq, CoexSt.edge_blankedNs, CoexSt.edge_spent]

/-- COEX_RELEASE moves COEX_GNT_OUT only if it is asserted. -/
theorem coexRelease_due {s : State} {wait : Nat} (hreq : s.coex.reqIn = true) :
    exec (.coexRelease wait) s = .next { s.advance wait with
      coex := { s.coex.released (s.advance wait).time.dt with gntOut := false }
      out := s.out ++ if s.coex.gntOut then [.pin "COEX_GNT_OUT" ((s.force.coex.nat 3).testBit 2)] else [] } := by
  refine (if_pos hreq).trans (congrArg Host.Outcome.next ?_)
  have hkept := s.coex.released_gntOut (s.advance wait).time.dt
  cases hout : s.coex.gntOut with
  | true => exact setGntOut_deassert _ (hkept.trans hout)
  | false =>
    refine (setGntOut_same (hkept.trans hout)).trans ?_
    rw [CoexSt.gntOut_eta (hkept.trans hout), if_neg Bool.false_ne_true, List.append_nil]
    rfl

theorem coexTailExpiry_due {s : State} {wait : Nat} (hp : s.coex.phase = .tail)
    (htail : s.coex.phaseDt.toNat + s.force.coex.nat 5 * 1000 ≤ (s.advance wait).now) :
    exec (.coexTailExpiry wait) s = .next { s.advance wait with coex := { s.coex with
      phase := .idle, phaseDt := (s.advance wait).time.dt
      blankedNs := s.coex.blankedNs + (s.coex.spent (s.advance wait).time.dt + 50) } } := by
  rw [← CoexSt.enter_extra (by rw [hp]; decide)]
  exact if_pos ⟨hp, htail⟩

theorem coexTailExpiry_early {s : State} {wait : Nat}
    (h : s.coex.phase ≠ .tail ∨ (s.advance wait).now < s.coex.phaseDt.toNat + s.force.coex.nat 5 * 1000) :
    exec (.coexTailExpiry wait) s = .next (s.advance wait) :=
  if_neg fun ⟨hp, htail⟩ => h.elim (· hp) (Nat.not_lt_of_le htail)

theorem coexGrantLimit_due {s : State} {wait : Nat} (hp : s.coex.phase = .granted) (hsaid : s.coex.limitSaid = false)
    (hlimit : s.coex.phaseDt.toNat + s.force.coex.nat 6 * 1000000 < (s.advance wait).now) :
    exec (.coexGrantLimit wait) s
      = .next (({ s.advance wait with coex := { s.coex with limitSaid := true } } : State).coexEvent 1) :=
  if_pos ⟨hp, hsaid, hlimit⟩

theorem coexGrantLimit_quiet {s : State} {wait : Nat} (h : s.coex.phase ≠ .granted ∨ s.coex.limitSaid = true ∨
      (s.advance wait).now ≤ s.coex.phaseDt.toNat + s.force.coex.nat 6 * 1000000) :
    exec (.coexGrantLimit wait) s = .next (s.advance wait) := by
  refine if_neg fun ⟨hp, hsaid, hlimit⟩ => ?_
  rcases h with h | h | h
  · exact h hp
  · exact Bool.false_ne_true (hsaid.symm.trans h)
  · exact Nat.not_le_of_lt hlimit h

/-! ### PROTECTION_WINDOW_LEAD and PROTECTION_WINDOW_END -/

theorem protectionWindowLead_opens {s : State} {w : Nat × Nat} {wait : Nat} (hon : s.coexOn = true)
    (hdue : (s.advance wait).windowsDue (s.force.coex.nat 8 * 1000) = [w]) (hwin : s.coex.window = false)
    (hout : s.coex.reqOut = false) :
    exec (.protectionWindowLead wait) s = .next (({ s.advance wait with coex := { s.coex with
      window := true, windowEnd := BitVec.ofNat 64 w.2, leadDt := (s.advance wait).time.dt, ackSeen := s.coex.gntIn
      reqOut := true } } : State).emit (.pin "COEX_REQ_OUT" (!(s.force.coex.nat 3).testBit 3))) := by
  have hon' : (s.advance wait).coexOn = true := hon
  simp only [exec, execProtectionWindowLead, State.advance_force, State.advance_coex, hdue, hon', hwin, List.foldl_nil,
    Bool.not_true, Bool.false_eq_true, if_false]
  exact congrArg Host.Outcome.next (setReqOut_assert hout)

theorem protectionWindowLead_none {s : State} {wait : Nat}
    (hdue : (s.advance wait).windowsDue (s.force.coex.nat 8 * 1000) = []) :
    exec (.protectionWindowLead wait) s = .next (s.advance wait) := by
  simp only [exec, execProtectionWindowLead, State.advance_force, hdue]

/-- The coexistence lines after a window, COEX_REQ_OUT not yet moved: a withheld request waits its grant delay from here (R105). -/
def CoexSt.windowEnded (c : CoexSt) (dt : W64) : CoexSt :=
  let c1 := { c with window := false }
  if c1.phase = .waiting true then c1.enter (.waiting false) dt else c1

theorem CoexSt.windowEnded_withheld {c : CoexSt} (hp : c.phase = .waiting true) (dt : W64) :
    c.windowEnded dt = { c with
      phase := .waiting false, phaseDt := dt, blankedNs := c.blankedNs + c.spent dt, window := false } := if_pos hp

theorem CoexSt.windowEnded_other {c : CoexSt} (hp : c.phase ≠ .waiting true) (dt : W64) :
    c.windowEnded dt = { c with window := false } := if_neg hp

theorem CoexSt.windowEnded_reqOut (c : CoexSt) (dt : W64) : (c.windowEnded dt).reqOut = c.reqOut := by
  unfold CoexSt.windowEnded
  dsimp only
  split <;> rfl

theorem protectionWindowEnd_due {s : State} {wait : Nat} (hwin : s.coex.window = true)
    (hend : s.coex.windowEnd.toNat ≤ (s.advance wait).now) (hout : s.coex.reqOut = true) :
    exec (.protectionWindowEnd wait) s = .next (({ s.advance wait with
      coex := { s.coex.windowEnded (s.advance wait).time.dt with reqOut := false } } : State).emit
        (.pin "COEX_REQ_OUT" ((s.force.coex.nat 3).testBit 3))) :=
  (if_pos ⟨hwin, hend⟩).trans (congrArg Host.Outcome.next
    (setReqOut_deassert { s.advance wait with coex := s.coex.windowEnded (s.advance wait).time.dt }
      ((CoexSt.windowEnded_reqOut ..).trans hout)))

theorem protectionWindowEnd_early {s : State} {wait : Nat}
    (h : s.coex.window = false ∨ (s.advance wait).now < s.coex.windowEnd.toNat) :
    exec (.protectionWindowEnd wait) s = .next (s.advance wait) :=
  if_neg fun ⟨hwin, hend⟩ => h.elim (fun h => Bool.false_ne_true (h.symm.trans hwin)) (Nat.not_lt_of_le hend)

/-! ### COEX_ACK_TIMEOUT and COEX_INPUT_STUCK -/

theorem coexAckTimeout_due {s : State} {wait : Nat} (hwin : s.coex.window = true) (hgnt : s.coex.gntIn = false)
    (hack : s.coex.ackSeen = false) (hlate : s.coex.leadDt.toNat + 100000 ≤ (s.advance wait).now) :
    exec (.coexAckTimeout wait) s
      = .next (({ s.advance wait with coex := { s.coex with ackSeen := true } } : State).coexEvent 3) :=
  if_pos ⟨hwin, hgnt, hack, hlate⟩

theorem coexAckTimeout_quiet {s : State} {wait : Nat} (h : s.coex.window = false ∨ s.coex.gntIn = true ∨
      s.coex.ackSeen = true ∨ (s.advance wait).now < s.coex.leadDt.toNat + 100000) :
    exec (.coexAckTimeout wait) s = .next (s.advance wait) := by
  refine if_neg fun ⟨hwin, hgnt, hack, hlate⟩ => ?_
  rcases h with h | h | h | h
  · exact Bool.false_ne_true (h.symm.trans hwin)
  · exact Bool.false_ne_true (hgnt.symm.trans h)
  · exact Bool.false_ne_true (hack.symm.trans h)
  · exact Nat.not_lt_of_le hlate h

theorem coexInputStuck_due {s : State} {w wait : Nat} (hw : w < 3) (hon : s.coexOn = true)
    (hhigh : [s.coex.reqIn, s.coex.priIn, s.coex.gntIn][w]? = some true) (hsaid : s.coex.stuckSaid[w]? = some false)
    (hlong : (s.coex.lastEdge.getD w 0#64).toNat + 10000000000 < (s.advance wait).now) :
    exec (.coexInputStuck w wait) s
      = .next (({ s.advance wait with coex := { s.coex with stuckSaid := s.coex.stuckSaid.set w true } } : State).coexEvent 5) := by
  have hhigh' : (if w = 0 then s.coex.reqIn else if w = 1 then s.coex.priIn else s.coex.gntIn) = true := by
    interval_cases w <;> exact Option.some.inj hhigh
  have hsaid' : s.coex.stuckSaid.getD w true = false := by rw [List.getD_eq_getElem?_getD, hsaid]; rfl
  exact if_pos ⟨hon, hhigh', hsaid', hlong⟩

theorem coexInputStuck_quiet {s : State} {w wait : Nat} (h : s.coexOn = false ∨ s.coex.stuckSaid[w]? = some true ∨
      (s.advance wait).now ≤ (s.coex.lastEdge.getD w 0#64).toNat + 10000000000) :
    exec (.coexInputStuck w wait) s = .next (s.advance wait) := by
  refine if_neg fun ⟨hon, _, hsaid, hlong⟩ => ?_
  rcases h with h | h | h
  · exact Bool.false_ne_true (h.symm.trans hon)
  · rw [List.getD_eq_getElem?_getD, State.advance_coex, h] at hsaid
    exact Bool.false_ne_true hsaid.symm
  · exact Nat.not_le_of_lt hlong h

/-- Settles O31: each row either meets its condition and takes the lines one step on, or changes the time alone. -/
theorem coexistenceWires : Obligations.CoexistenceWires := by
  unfold Obligations.CoexistenceWires
  intro wait s
  refine ⟨?_, ?_, ?_, ?_, ?_, ?_, ?_, ?_, ?_, ?_, ?_, ?_, ?_, ?_, ?_, ?_, ?_, ?_⟩
  · intro pri g hon hreq _ hfree
    have hheld : (s.coex.window && !pri) = false := by rcases hfree with h | ⟨h, -⟩ <;> simp [h]
    have hgnt : (s.coex.window && g) = false := by rcases hfree with h | ⟨-, h⟩ <;> simp [h]
    exact ⟨_, coexRequest_waits hon hreq hheld hgnt, rfl, rfl, rfl, rfl, rfl, CoexSt.requested_withheld ..,
      CoexSt.requested_grants .., rfl⟩
  · intro hon hreq _ hwin
    exact ⟨_, _, coexRequest_withheld hon hreq hwin, rfl, rfl, rfl, CoexSt.requested_withheld .., rfl, rfl⟩
  · exact fun h _ _ => coexRequest_ignored h
  · exact fun hp hgd hout => coexGrant_due hp hgd hout
  · exact fun h => coexGrant_early h
  · exact fun hreq => ⟨_, coexRelease_due hreq, rfl, rfl, rfl, rfl, rfl, CoexSt.released_blankedNs .., rfl, rfl⟩
  · exact fun hp htail => coexTailExpiry_due hp htail
  · exact fun h => coexTailExpiry_early h
  · exact fun hp hsaid hlimit => coexGrantLimit_due hp hsaid hlimit
  · exact fun h => coexGrantLimit_quiet h
  · exact fun w hon hdue hwin hout => protectionWindowLead_opens hon hdue hwin hout
  · exact fun hdue => protectionWindowLead_none hdue
  · intro hwin hend hout
    rw [protectionWindowEnd_due hwin hend hout]
    split
    · next hp => rw [CoexSt.windowEnded_withheld hp]; rfl
    · next hp => rw [CoexSt.windowEnded_other hp]; rfl
  · exact fun h => protectionWindowEnd_early h
  · exact fun hwin hgnt hack hlate => coexAckTimeout_due hwin hgnt hack hlate
  · exact fun h => coexAckTimeout_quiet h
  · exact fun w hw hon hhigh hsaid hlong => coexInputStuck_due hw hon hhigh hsaid hlong
  · exact fun w h => coexInputStuck_quiet h

end Sys2Proof.Machine
end

section
/-! PROOFS. An interruption of RF sampling touches services, lanes, carriers, streams and their units alone (R97 to R100). -/

namespace Sys2Proof.Machine

/-- The state without what an interruption of RF sampling may change, and without what the delivery of its events changes. -/
def State.besideRf (s : State) : State :=
  { s.core with services := [], lanes := [], carriers := [], streams := [], units := [] }

/-- What a state says beside RF sampling is the same in two states that agree there. -/
theorem of_besideRf {α : Type} (f : State → α) (hf : ∀ s : State, f s.besideRf = f s) {s t : State}
    (h : t.besideRf = s.besideRf) : f t = f s := by
  rw [← hf t, h, hf]

theorem besideRf_of_core {s t : State} (h : t.core = s.core) : t.besideRf = s.besideRf :=
  congrArg (fun x : State => { x with services := [], lanes := [], carriers := [], streams := [], units := [] }) h

@[simp] theorem ite_besideRf {c : Prop} [Decidable c] (a b : State) :
    (if c then a else b).besideRf = if c then a.besideRf else b.besideRf := apply_ite State.besideRf c a b

@[simp] theorem besideRf_raise (s : State) (code : Nat) (f : W16) (ps : List Byte) :
    (s.raise code f ps).besideRf = s.besideRf := by
  refine (besideRf_of_core (core_raise s code f ps)).trans ?_
  unfold State.copyEvent State.eventCopy
  repeat' split
  all_goals rfl

@[simp] theorem besideRf_refSay (s : State) (reason role ref : Nat) : (s.refSay reason role ref).besideRf = s.besideRf := by
  rw [State.refSay, State.refEvent, besideRf_raise]

@[simp] theorem besideRf_moveState (s : State) (n : Nat) (st : SvcState) (reason : Nat) :
    (s.moveState n st reason).besideRf = s.besideRf := by
  unfold State.moveState
  split
  · rfl
  · exact besideRf_raise ..

@[simp] theorem besideRf_abandonMigration (s : State) (n : Nat) : (s.abandonMigration n).besideRf = s.besideRf := by
  unfold State.abandonMigration
  split
  · rfl
  · exact besideRf_moveState ..

@[simp] theorem besideRf_abandonSplice (s : State) (n : Nat) : (s.abandonSplice n).besideRf = s.besideRf :=
  besideRf_moveState ..

@[simp] theorem besideRf_abandonRf (s : State) : s.abandonRf.besideRf = s.besideRf := by
  refine foldl_keeps State.besideRf _ _ (fun s v => ?_) s
  simp only [ite_besideRf, besideRf_abandonMigration, besideRf_abandonSplice, ite_self]

theorem besideRf_takeBand {s t : State} {n : Nat} {join : Bool} {b : Branch} {l : Lane} (h : s.takeBand n join b = some (t, l)) :
    t.besideRf = s.besideRf := by
  unfold State.takeBand at h
  dsimp only at h
  split at h
  · cases h; rfl
  · split at h
    · cases h
    · obtain ⟨i, -, hi⟩ := Option.map_eq_some_iff.mp h
      cases hi; rfl

@[simp] theorem besideRf_takeBranch (s : State) (n : Nat) (join : Bool) (b : Branch) :
    (s.takeBranch n join b).besideRf = s.besideRf := by
  unfold State.takeBranch
  split
  · rfl
  next t l h =>
    refine Eq.trans ?_ (besideRf_takeBand h)
    repeat' split
    all_goals rfl

@[simp] theorem besideRf_restartLanes (s : State) (inputs : List Nat) : (s.restartLanes inputs).besideRf = s.besideRf := by
  unfold State.restartLanes
  split
  · rfl
  · exact foldl_keeps State.besideRf _ _
      (fun s b => foldl_keeps State.besideRf _ _ (fun s n => besideRf_takeBranch s n false b) s) _

@[simp] theorem besideRf_interruptRf (s : State) (durNs : Nat) : (s.interruptRf durNs).besideRf = s.besideRf :=
  (besideRf_restartLanes ..).trans (besideRf_abandonRf s)

/-! ### A run of PLL-S -/

/-- The clocks after a run of PLL-S: locked in the band found, or, after a third failure, the ADC clocks off (R118, R119). -/
def ClockSt.afterRun (c : ClockSt) (lock : LockRun) : ClockSt :=
  if lock.failures < 3 then { c with pllS := { c.pllS with locked := true, band := lock.band }, adcOn := true, retry := false }
  else { c with pllS := { c.pllS with locked := false }, adcOn := false, retry := true }

@[simp] theorem ClockSt.afterRun_pllG (c : ClockSt) (lock : LockRun) : (c.afterRun lock).pllG = c.pllG := by
  unfold ClockSt.afterRun
  split <;> rfl

@[simp] theorem ClockSt.afterRun_stopped (c : ClockSt) (lock : LockRun) : (c.afterRun lock).stopped = c.stopped := by
  unfold ClockSt.afterRun
  split <;> rfl

@[simp] theorem ClockSt.afterRun_losses (c : ClockSt) (lock : LockRun) : (c.afterRun lock).pllS.losses = c.pllS.losses := by
  unfold ClockSt.afterRun
  split <;> rfl

/-- The state with what a run of PLL-S leaves beside its event: the clocks, and RF lost or not. -/
def State.afterRun (s : State) (lock : LockRun) : State :=
  { s with clk := s.clk.afterRun lock, place := { s.place with rfLost := !decide (lock.failures < 3) } }

/-- A run of PLL-S is announced only where a try failed. -/
theorem lockS_eq (s : State) (lock : LockRun) :
    s.lockS lock = (if lock.failures = 0 then s else s.refSay 0x0A 0 0xFF).afterRun lock := by
  by_cases h : lock.failures < 3
  · simp only [State.lockS, State.afterRun, ClockSt.afterRun, h, if_true, decide_true, Bool.not_true]
  · simp only [State.lockS, State.afterRun, ClockSt.afterRun, h, if_false, decide_false, Bool.not_false]

theorem besideRf_afterRun {s t : State} (h : t.besideRf = s.besideRf) (lock : LockRun) :
    (t.afterRun lock).besideRf = (s.afterRun lock).besideRf := congrArg (State.afterRun · lock) h

theorem besideRf_lockS (s : State) (lock : LockRun) : (s.lockS lock).besideRf = (s.afterRun lock).besideRf := by
  rw [lockS_eq]
  refine besideRf_afterRun ?_ lock
  rw [ite_besideRf, besideRf_refSay, ite_self]

/-! ### What stands after a run of PLL-S -/

theorem plan_of_besideRf {s t : State} (h : t.besideRf = s.besideRf) : t.plan = s.plan := of_besideRf _ (fun _ => rfl) h

theorem clk_of_besideRf {s t : State} (h : t.besideRf = s.besideRf) : t.clk = s.clk := of_besideRf _ (fun _ => rfl) h

theorem refs_of_besideRf {s t : State} (h : t.besideRf = s.besideRf) : t.refs = s.refs := of_besideRf _ (fun _ => rfl) h

theorem now_of_besideRf {s t : State} (h : t.besideRf = s.besideRf) : t.now = s.now := of_besideRf _ (fun _ => rfl) h

/-- What a run of PLL-S leaves as it is (R97, R116). -/
def KeptByRun (t s : State) : Prop :=
  t.time = s.time ∧ t.refs = s.refs ∧ t.rf = s.rf ∧ t.coex = s.coex ∧ t.clk.pllG = s.clk.pllG ∧ t.acc = s.acc ∧
    t.force = s.force ∧ t.power = s.power ∧ t.audio = s.audio

theorem keptByRun {s t : State} {lock : LockRun} (h : t.besideRf = (s.afterRun lock).besideRf) : KeptByRun t s := by
  have same {α : Type} (f : State → α) (hf : ∀ u : State, f u.besideRf = f u) (hrun : f (s.afterRun lock) = f s) : f t = f s :=
    (of_besideRf f hf h).trans hrun
  exact ⟨same (·.time) (fun _ => rfl) rfl, same (·.refs) (fun _ => rfl) rfl, same (·.rf) (fun _ => rfl) rfl,
    same (·.coex) (fun _ => rfl) rfl, same (·.clk.pllG) (fun _ => rfl) (ClockSt.afterRun_pllG ..),
    same (·.acc) (fun _ => rfl) rfl, same (·.force) (fun _ => rfl) rfl, same (·.power) (fun _ => rfl) rfl,
    same (·.audio) (fun _ => rfl) rfl⟩

/-- PLL-S is locked in the band that a run found, the ADC clocks run, and RF is not lost (R118). -/
def RfLocked (lock : LockRun) (t : State) : Prop :=
  t.clk.pllS.locked = true ∧ t.clk.pllS.band = lock.band ∧ t.clk.adcOn = true ∧ t.clk.retry = false ∧ t.place.rfLost = false

/-- PLL-S is not locked, the ADC clocks are off, retries run, and RF is lost (R119). -/
def RfFailed (t : State) : Prop :=
  t.clk.pllS.locked = false ∧ t.clk.adcOn = false ∧ t.clk.retry = true ∧ t.place.rfLost = true

theorem rfLocked_of_run {s t : State} {lock : LockRun} (hb : t.besideRf = (s.afterRun lock).besideRf) (h : lock.failures < 3) :
    RfLocked lock t := by
  have hclk : t.clk = s.clk.afterRun lock := clk_of_besideRf hb
  have hlost : t.place.rfLost = !decide (lock.failures < 3) := of_besideRf (·.place.rfLost) (fun _ => rfl) hb
  rw [RfLocked, hclk, hlost, ClockSt.afterRun, if_pos h, decide_eq_true h]
  exact ⟨rfl, rfl, rfl, rfl, rfl⟩

theorem rfFailed_of_run {s t : State} {lock : LockRun} (hb : t.besideRf = (s.afterRun lock).besideRf) (h : 3 ≤ lock.failures) :
    RfFailed t := by
  have hclk : t.clk = s.clk.afterRun lock := clk_of_besideRf hb
  have hlost : t.place.rfLost = !decide (lock.failures < 3) := of_besideRf (·.place.rfLost) (fun _ => rfl) hb
  rw [RfFailed, hclk, hlost, ClockSt.afterRun, if_neg (Nat.not_lt_of_le h), decide_eq_false (Nat.not_lt_of_le h)]
  exact ⟨rfl, rfl, rfl, rfl⟩

end Sys2Proof.Machine
end

section
/-! PROOFS. PLAN_CHANGE, PLAN_DEFERRAL_END and the rows of the synthesisers (O33). -/

namespace Sys2Proof.Machine

/-! ### Events -/

/-- EV_PLAN_CHANGED with both plans and the DT of stop and resumption (R97). -/
def State.sayPlans (s : State) (old new stop resume : Nat) : State :=
  s.raise 0x8003 noSlot (le 1 old ++ le 1 new ++ zeros 6 ++ le 8 stop ++ le 8 resume)

theorem planChanged_eq {s : State} {new : Nat} (h : s.plan.plan = new) (old : Nat) (stop resume : W64) :
    s.planChanged old stop resume = s.sayPlans old new stop.toNat resume.toNat := by
  rw [State.planChanged, h, State.sayPlans]

/-- EV_REF_STATE reason 0x09, as references `r` give it (R117, R130). -/
def State.sayRelocked (s : State) (r : RefSt) : State :=
  s.raise 0x8009 noSlot (le 1 9 ++ le 1 0 ++ le 1 r.freqRef ++ le 1 r.freqRef ++ le 1 r.tstate.code ++ le 1 0xFF ++ [0, 0]
    ++ leInt 8 r.e ++ leInt 8 r.eps)

theorem refSay_relocked {s : State} {r : RefSt} (h : s.refs = r) : s.refSay 0x09 0 0xFF = s.sayRelocked r := by
  subst h; rfl

/-! ### PLAN_CHANGE -/

/-- What a plan change leaves beside its event: the plan in force, PLL-S run, RF interrupted (R97). -/
def State.replanned (s : State) (p : Nat) (lock : LockRun) : State :=
  ((s.abandonRf.setPlan p).lockS lock).interruptRf lock.durNs

/-- The state with a plan change whose end is still to be said, by its old plan and the DT of its stop, or with none (R119). -/
def State.withStopped (s : State) (x : Option (Nat × W64)) : State := { s with clk := { s.clk with stopped := x } }

theorem besideRf_replanned (s : State) (p : Nat) (lock : LockRun) :
    (s.replanned p lock).besideRf = ((s.setPlan p).afterRun lock).besideRf := by
  have hset : (s.abandonRf.setPlan p).besideRf = (s.setPlan p).besideRf := congrArg (State.setPlan · p) (besideRf_abandonRf s)
  rw [State.replanned, besideRf_interruptRf, besideRf_lockS, besideRf_afterRun hset]

theorem planChange_found {s : State} {p : Nat} {lock : LockRun} (hp : s.planDue = some p) (h : lock.failures < 3) :
    exec (.planChange lock) s = .next ((s.replanned p lock).sayPlans s.plan.plan p s.now
      (BitVec.ofNat 64 (s.now + lock.durNs)).toNat) := by
  have hbeside := besideRf_replanned s p lock
  have hnew : (s.replanned p lock).plan.plan = p := congrArg PlanSt.plan (plan_of_besideRf hbeside)
  have hnow : (s.replanned p lock).now = s.now := (now_of_besideRf hbeside :)
  have hevent := planChanged_eq hnew s.plan.plan s.time.dt (BitVec.ofNat 64 ((s.replanned p lock).now + lock.durNs))
  simp only [exec, execPlanChange, hp, if_pos h]
  exact congrArg Host.Outcome.next (hevent.trans (by rw [hnow]; rfl))

theorem planChange_failed {s : State} {p : Nat} {lock : LockRun} (hp : s.planDue = some p) (h : 3 ≤ lock.failures) :
    exec (.planChange lock) s = .next ((s.replanned p lock).withStopped (some (s.plan.plan, s.time.dt))) := by
  simp only [exec, execPlanChange, hp, if_neg (Nat.not_lt_of_le h)]
  rfl

theorem planChange_none {s : State} {lock : LockRun} (hp : s.planDue = none) : exec (.planChange lock) s = .next s := by
  simp only [exec, execPlanChange, hp]

/-! ### PLL_S_LOCK_LOST -/

/-- The clocks at the loss of PLL-S's lock, which is counted (R117). -/
def ClockSt.lockLost (c : ClockSt) : ClockSt :=
  { c with pllS := { c.pllS with locked := false, losses := sat32 (c.pllS.losses + 1) }, stopped := none }

/-- What the loss of PLL-S's lock leaves beside its event: PLL-S run again with the plan in force, RF interrupted (R117). -/
def State.relocked (s : State) (lock : LockRun) : State :=
  (({ s with clk := s.clk.lockLost } : State).lockS lock).interruptRf lock.durNs

theorem besideRf_relocked (s : State) (lock : LockRun) :
    (s.relocked lock).besideRf = (({ s with clk := s.clk.lockLost } : State).afterRun lock).besideRf :=
  (besideRf_interruptRf ..).trans (besideRf_lockS ..)

theorem pllSLockLost_eq {s : State} {lock : LockRun} {wait : Nat} (hl : s.clk.pllS.locked = true) (ha : s.clk.adcOn = true) :
    exec (.pllSLockLost lock wait) s = .next (if lock.failures < 3 then ((s.advance wait).relocked lock).refSay 0x09 0 0xFF
      else (s.advance wait).relocked lock) := by
  simp only [exec, execPllSLockLost, hl, ha, Bool.not_true, Bool.or_self, Bool.false_eq_true, if_false]
  rfl

theorem pllSLockLost_found {s : State} {lock : LockRun} {wait : Nat} (hl : s.clk.pllS.locked = true) (ha : s.clk.adcOn = true)
    (h : lock.failures < 3) :
    exec (.pllSLockLost lock wait) s = .next (((s.advance wait).relocked lock).sayRelocked s.refs) := by
  have hrefs : ((s.advance wait).relocked lock).refs = s.refs :=
    (refs_of_besideRf (besideRf_relocked (s.advance wait) lock) :)
  rw [pllSLockLost_eq hl ha, if_pos h, refSay_relocked hrefs]

theorem pllSLockLost_failed {s : State} {lock : LockRun} {wait : Nat} (hl : s.clk.pllS.locked = true) (ha : s.clk.adcOn = true)
    (h : 3 ≤ lock.failures) : exec (.pllSLockLost lock wait) s = .next ((s.advance wait).relocked lock) := by
  rw [pllSLockLost_eq hl ha, if_neg (Nat.not_lt_of_le h)]

theorem pllSLockLost_off {s : State} {lock : LockRun} {wait : Nat} (h : s.clk.pllS.locked = false ∨ s.clk.adcOn = false) :
    exec (.pllSLockLost lock wait) s = .next s := by
  have hoff : (!s.clk.pllS.locked || !s.clk.adcOn) = true := by rcases h with h | h <;> simp [h]
  simp only [exec, execPllSLockLost, hoff, if_true]

/-! ### PLL_S_RETRY -/

/-- What a retry that finds lock leaves beside its event (R119). -/
def State.retried (s : State) (lock : LockRun) : State := (s.lockS lock).interruptRf lock.durNs

theorem besideRf_retried (s : State) (lock : LockRun) : (s.retried lock).besideRf = (s.afterRun lock).besideRf :=
  (besideRf_interruptRf ..).trans (besideRf_lockS s lock)

/-- A retry leaves the plan change whose end is still to be said. -/
theorem retried_stopped (s : State) (lock : LockRun) : (s.retried lock).clk.stopped = s.clk.stopped :=
  (congrArg ClockSt.stopped (clk_of_besideRf (besideRf_retried s lock))).trans (ClockSt.afterRun_stopped ..)

theorem pllSRetry_found {s : State} {lock : LockRun} {wait : Nat} (hr : s.clk.retry = true) (h : lock.failures < 3)
    (hs : s.clk.stopped = none) :
    exec (.pllSRetry lock wait) s = .next (((s.advance wait).retried lock).sayRelocked s.refs) := by
  have hbeside := besideRf_retried (s.advance wait) lock
  have hrefs : ((s.advance wait).retried lock).refs = s.refs := (refs_of_besideRf hbeside :)
  have hstop : ((s.advance wait).retried lock).clk.stopped = none := (retried_stopped ..).trans hs
  rw [← refSay_relocked hrefs]
  simp only [State.retried] at hstop ⊢
  simp only [exec, execPllSRetry, hr, hstop, Bool.not_true, Bool.false_eq_true, if_false, if_neg (Nat.not_le_of_lt h)]

theorem pllSRetry_ends {s : State} {lock : LockRun} {wait old : Nat} {stop : W64} (hr : s.clk.retry = true)
    (h : lock.failures < 3) (hs : s.clk.stopped = some (old, stop)) :
    exec (.pllSRetry lock wait) s = .next ((((s.advance wait).retried lock).withStopped none).sayPlans old s.plan.plan stop.toNat
      (BitVec.ofNat 64 ((s.advance wait).now + lock.durNs)).toNat) := by
  have hbeside := besideRf_retried (s.advance wait) lock
  have hstop : ((s.advance wait).retried lock).clk.stopped = some (old, stop) := (retried_stopped ..).trans hs
  have hplan : (((s.advance wait).retried lock).withStopped none).plan.plan = s.plan.plan :=
    congrArg PlanSt.plan (plan_of_besideRf hbeside :)
  have hnow : ((s.advance wait).retried lock).now = (s.advance wait).now := (now_of_besideRf hbeside :)
  rw [← planChanged_eq hplan, ← hnow]
  simp only [State.retried] at hstop ⊢
  simp only [exec, execPllSRetry, hr, hstop, Bool.not_true, Bool.false_eq_true, if_false, if_neg (Nat.not_le_of_lt h)]
  rfl

theorem pllSRetry_failed {s : State} {lock : LockRun} {wait : Nat} (hr : s.clk.retry = true) (h : 3 ≤ lock.failures) :
    exec (.pllSRetry lock wait) s = .next ((s.advance wait).lockS lock) := by
  simp only [exec, execPllSRetry, hr, if_pos h, Bool.not_true, Bool.false_eq_true, if_false]

theorem pllSRetry_off {s : State} {lock : LockRun} {wait : Nat} (hr : s.clk.retry = false) :
    exec (.pllSRetry lock wait) s = .next s := by
  simp only [exec, execPllSRetry, hr, Bool.not_false, if_true]

/-! ### PLAN_DEFERRAL_END -/

/-- The state with its deferral ended (R95). -/
def State.undeferred (s : State) : State := { s with plan := { s.plan with deferEnd := none } }

theorem planDeferralEnd_due {s : State} {e : W64} {wait : Nat} (he : s.plan.deferEnd = some e)
    (hd : e.toNat ≤ (s.advance wait).now) :
    exec (.planDeferralEnd wait) s = .next (s.advance wait).undeferred.planTick := by
  simp only [exec, execPlanDeferralEnd, he, if_neg (Nat.not_lt_of_le hd)]
  rfl

/-- No ranking takes place outside SERVE and RELAY (R93). -/
theorem planTick_idle {s : State} (hs : s.power.mode ≠ .serve) (hr : s.power.mode ≠ .relay) : s.planTick = s := by
  simp only [State.planTick, beq_eq_false_iff_ne.2 hs, beq_eq_false_iff_ne.2 hr, Bool.or_self, Bool.false_eq_true, if_false]

/-- Under FIXED the plans are ranked and none is proposed (R94). -/
theorem planTick_fixed {s : State} (hm : s.power.mode = .serve ∨ s.power.mode = .relay) (hp : s.force.plan.policy = 0#8) :
    s.planTick = { s with plan := { s.plan with rank := s.ranking } } := by
  have hround : (s.power.mode == .serve || s.power.mode == .relay) = true := by rcases hm with h | h <;> rw [h] <;> rfl
  rw [State.planTick, if_pos hround]
  exact if_pos (by simp [hp])

theorem planDeferralEnd_early {s : State} {e : W64} {wait : Nat} (he : s.plan.deferEnd = some e)
    (hd : (s.advance wait).now < e.toNat) : exec (.planDeferralEnd wait) s = .next s := by
  simp only [exec, execPlanDeferralEnd, he, if_pos hd]

theorem planDeferralEnd_none {s : State} {wait : Nat} (he : s.plan.deferEnd = none) :
    exec (.planDeferralEnd wait) s = .next s := by
  simp only [exec, execPlanDeferralEnd, he]

/-! ### PLL_G_LOCK_LOST -/

theorem pllGLockLost_up {s : State} (hr : s.power.railsGood = true) (hio : s.power.ioUp = true)
    (ht : s.thermal.shutdown = false) (hl : s.clk.pllG.locked = true) : exec .pllGLockLost s = .next (s.afterReset 6) := by
  simp only [exec, execPllGLockLost, State.up, hr, hio, ht, hl, Bool.not_false, Bool.and_self, if_true]

theorem pllGLockLost_unlocked {s : State} (hl : s.clk.pllG.locked = false) : exec .pllGLockLost s = .next s := by
  simp only [exec, execPllGLockLost, hl, Bool.and_false, Bool.false_eq_true, if_false]

/-- Settles O33: beside what an interruption of RF sampling touches, a row that runs PLL-S differs from the state before it only in
what the run leaves and in the plan it puts in force. -/
theorem plansAndSynthesisers : Obligations.PlansAndSynthesisers := by
  unfold Obligations.PlansAndSynthesisers
  intro lock wait s
  have hplan (p : Nat) := besideRf_replanned s p lock
  have hlost := besideRf_relocked (s.advance wait) lock
  have hretry := besideRf_retried (s.advance wait) lock
  have hlosses : ((s.advance wait).relocked lock).clk.pllS.losses = sat32 (s.clk.pllS.losses + 1) :=
    (congrArg (·.pllS.losses) (clk_of_besideRf hlost)).trans (ClockSt.afterRun_losses ..)
  refine ⟨fun p hp => ⟨fun h => ?_, fun h => ?_⟩, planChange_none, fun hl ha => ⟨fun h => ?_, fun h => ?_⟩,
    pllSLockLost_off, fun hr => ⟨fun h hs => ?_, fun old stop h hs => ?_, fun h => ?_⟩, pllSRetry_off,
    fun e he hd => ⟨fun hs hr => ?_, fun hm hp => ?_⟩, fun e he hd => planDeferralEnd_early he hd, planDeferralEnd_none,
    pllGLockLost_up, pllGLockLost_unlocked⟩
  · exact ⟨_, planChange_found hp h, (plan_of_besideRf (hplan p) :), rfLocked_of_run (hplan p) h, (keptByRun (hplan p) :)⟩
  · exact ⟨_, planChange_failed hp h, (plan_of_besideRf (hplan p) :), (rfFailed_of_run (hplan p) h :),
      (keptByRun (hplan p) :), rfl⟩
  · exact ⟨_, pllSLockLost_found hl ha h, (plan_of_besideRf hlost :), rfLocked_of_run hlost h, (keptByRun hlost :), hlosses⟩
  · exact ⟨_, pllSLockLost_failed hl ha h, (plan_of_besideRf hlost :), rfFailed_of_run hlost h, (keptByRun hlost :), hlosses⟩
  · exact ⟨_, pllSRetry_found hr h hs, (plan_of_besideRf hretry :), rfLocked_of_run hretry h, (keptByRun hretry :)⟩
  · exact ⟨_, pllSRetry_ends hr h hs, rfl, (plan_of_besideRf hretry :), (rfLocked_of_run hretry h :), (keptByRun hretry :)⟩
  · have hfail := besideRf_lockS (s.advance wait) lock
    exact ⟨_, pllSRetry_failed hr h, (plan_of_besideRf hfail :), rfFailed_of_run hfail h, (keptByRun hfail :)⟩
  · rw [planDeferralEnd_due he hd, planTick_idle (s := (s.advance wait).undeferred) hs hr]; rfl
  · rw [planDeferralEnd_due he hd, planTick_fixed (s := (s.advance wait).undeferred) hm hp]; rfl

end Sys2Proof.Machine
end

section
/-! PROOFS. The queries of filter banks, lanes, engines and the LDPC pool (O13). -/

namespace Sys2Proof.Machine

/-! ### What the passing of time leaves alone -/

@[simp] theorem State.advance_bank? (s : State) (n c b : Nat) : (s.advance n).bank? c b = s.bank? c b := rfl
@[simp] theorem State.advance_bankUsers (s : State) (n c b : Nat) : (s.advance n).bankUsers c b = s.bankUsers c b := rfl
@[simp] theorem State.advance_bankDelay (s : State) (n c b : Nat) : (s.advance n).bankDelay c b = s.bankDelay c b := rfl
@[simp] theorem State.advance_format? (s : State) (n i : Nat) : (s.advance n).format? i = s.format? i := rfl
@[simp] theorem State.advance_engineOf (s : State) (n : Nat) (v : Service) : (s.advance n).engineOf v = s.engineOf v := rfl

section
variable {h : CmdHdr} {s : State} {v : Service}

/-! ### FIR_BANK_QUERY -/

/-- The class and the number of a filter bank in range (R160). -/
theorem firBank_inRange {c b : Byte} (hc : c.toNat ≤ 1) (hb : b.toNat ≤ 7) :
    (decide (1 < c.toNat) || decide (7 < b.toNat)) = false := by
  rw [decide_eq_false (Nat.not_lt.2 hc), decide_eq_false (Nat.not_lt.2 hb)]; rfl

theorem firBankQuery_reads_unloaded {c b : Byte} (hk : Taken (gateAll 0x0A02) h s) (hc : c.toNat ≤ 1) (hb : b.toNat ≤ 7)
    (hn : s.bank? c.toNat b.toNat = none) :
    Reads (exec (.firBankQuery h c b) s) 0x0A02 h s ([c, b, 0, 0] ++ le 2 (s.bankUsers c.toNat b.toNat) ++ zeros 10) := by
  refine runCmd_reads _ h s _ _ hk ((State.refuseIf_false _ _ _ _ (firBank_inRange hc hb)).trans ?_)
  simp only [State.advance_bank?, State.advance_bankUsers, hn]

theorem firBankQuery_reads_loaded {c b : Byte} {k : Bank} (hk : Taken (gateAll 0x0A02) h s) (hc : c.toNat ≤ 1)
    (hb : b.toNat ≤ 7) (hl : s.bank? c.toNat b.toNat = some k) :
    Reads (exec (.firBankQuery h c b) s) 0x0A02 h s
      ([c, b] ++ le 1 k.phase ++ le 1 k.coeffs.length ++ le 2 (s.bankUsers c.toNat b.toNat) ++ zeros 2
        ++ leInt 4 (k.coeffs.foldl (· + ·) 0) ++ le 4 (s.bankDelay c.toNat b.toNat) ++ k.coeffs.flatMap (leInt 4)) := by
  refine runCmd_reads _ h s _ _ hk ((State.refuseIf_false _ _ _ _ (firBank_inRange hc hb)).trans ?_)
  simp only [State.advance_bank?, State.advance_bankUsers, State.advance_bankDelay, hl]

/-! ### LANE_QUERY -/

/-- What LANE_QUERY answers of a list of entries: a page of them, with its length and the next entry (Table 15.18). -/
def lanePage (first : W16) (es : List (List Byte)) : List Byte :=
  let pg := page 16 first.toNat es
  le 2 pg.1.length ++ le 2 pg.2 ++ zeros 4 ++ pg.1.flatten

theorem laneQuery_reads_service {first : W16} (hk : Taken ⟨0x0A03, .either, allModes, .none⟩ h s) (hv : s.svc? h.slot = some v) :
    Reads (exec (.laneQuery h first) s) 0x0A03 h s (lanePage first
      ((s.lanes.filter (fun l => (l.users ++ l.joining).contains v.slot)).map (s.advance h.wait).laneEntry)) := by
  refine runCmd_reads _ h s _ _ hk ?_
  simp only [State.advance_svc?, State.advance_lanes, hv]
  rfl

theorem laneQuery_reads_device {first : W16} (hk : Taken ⟨0x0A03, .either, allModes, .none⟩ h s) (hv : s.svc? h.slot = none) :
    Reads (exec (.laneQuery h first) s) 0x0A03 h s (lanePage first
      ((s.lanes.filter (fun l => l.cls != 2)).map (fun l => (s.advance h.wait).laneEntry l ++ carrierEntries l))) := by
  refine runCmd_reads _ h s _ _ hk ?_
  simp only [State.advance_svc?, State.advance_lanes, hv]
  rfl

/-! ### ANALOGUE_QUERY and TIMECODE_FORMAT_QUERY -/

/-- What ANALOGUE_QUERY answers of a service: its engine state and the values of Table 6.9 (R187). -/
def Service.analogueRow (v : Service) : List Byte :=
  let a := v.analogue
  le 1 ((if a.pilot then 1 else 0) + (if a.rdsSync then 2 else 0) + (if a.syncLock then 4 else 0))
    ++ le 1 (a.tcReason.getD 0xFF) ++ le 2 v.blend ++ le 2 (v.tableValues 0x69).length ++ zeros 2
    ++ le 8 (match a.tcLabel with | some d => d.toNat | none => 0) ++ (v.tableValues 0x69).flatMap StatItem_bytes

theorem analogueQuery_reads (hk : Taken ⟨0x0A06, .service, allModes, .none⟩ h s) (hv : s.svc? h.slot = some v)
    (h1 : 1 ≤ keyStd v.acc.attrs.key) (h4 : keyStd v.acc.attrs.key ≤ 4) :
    Reads (exec (.analogueQuery h) s) 0x0A06 h s v.analogueRow := by
  have hanalogue : (keyStd v.acc.attrs.key == 0 || decide (4 < keyStd v.acc.attrs.key)) = false := by
    rw [beq_eq_false_iff_ne.2 (Nat.ne_of_gt h1), decide_eq_false (Nat.not_lt.2 h4)]; rfl
  refine runCmd_reads _ h s _ _ hk ?_
  simp only [State.advance_svc?, hv]
  exact State.refuseIf_false _ _ _ _ hanalogue

theorem analogueQuery_otherStandard (hk : Taken ⟨0x0A06, .service, allModes, .none⟩ h s) (hv : s.svc? h.slot = some v)
    (h4 : 4 < keyStd v.acc.attrs.key) :
    Replies (exec (.analogueQuery h) s) 0x0A06 h s .badParam noTick [] (s.advance h.wait) := by
  refine runCmd_refuses _ h s _ _ hk ?_
  simp only [State.advance_svc?, hv]
  exact State.refuseIf_true _ _ _ _ (by rw [decide_eq_true h4, Bool.or_true])

theorem timecodeFormatQuery_reads {n : Byte} {f : TcFormat} (hk : Taken (gateAll 0x0A08) h s) (hn : n.toNat ≤ 7)
    (hf : s.format? n.toNat = some f) : Reads (exec (.timecodeFormatQuery h n) s) 0x0A08 h s (formatBytes f) := by
  refine runCmd_reads _ h s _ _ hk ((State.refuseIf_false _ _ _ _ (decide_eq_false (Nat.not_lt.2 hn))).trans ?_)
  simp only [State.advance_format?, hf]

theorem timecodeFormatQuery_notFound {n : Byte} (hk : Taken (gateAll 0x0A08) h s) (hn : n.toNat ≤ 7)
    (hf : s.format? n.toNat = none) :
    Replies (exec (.timecodeFormatQuery h n) s) 0x0A08 h s .notFound noTick [] (s.advance h.wait) := by
  refine runCmd_refuses _ h s _ _ hk ((State.refuseIf_false _ _ _ _ (decide_eq_false (Nat.not_lt.2 hn))).trans ?_)
  simp only [State.advance_format?, hf]

/-! ### DAB_QUERY -/

/-- The values of Table 7.5 as DAB_QUERY answers them, after their number (R208). -/
def Service.dabValues (v : Service) : List Byte :=
  le 2 (v.tableValues 0x75).length ++ (v.tableValues 0x75).flatMap StatItem_bytes

theorem dabQuery_reads_engine {d : DabEngine} (hk : Taken ⟨0x0A0A, .service, allModes, .none⟩ h s) (hv : s.svc? h.slot = some v)
    (hstd : keyRxStd v.acc.attrs.key = 5) (he : s.engineOf v = some (.dab d)) :
    Reads (exec (.dabQuery h) s) 0x0A0A h s
      (le 1 (if d.synced = false then 0
          else if d.notInMci && (keyStd v.acc.attrs.key == 5 && (d.subCh? v.acc.attrs.key).isNone) then 1 else 2)
        ++ le 1 d.txMode ++ le 2 d.eid.toNat ++ le 2 d.cif ++ v.dabValues) := by
  refine runCmd_reads _ h s _ _ hk ?_
  simp only [State.advance_svc?, State.advance_engineOf, hv, he, Bool.not_eq_true']
  exact State.refuseIf_false _ _ _ _ (bne_eq_false_iff_eq.2 hstd)

theorem dabQuery_reads_noEngine (hk : Taken ⟨0x0A0A, .service, allModes, .none⟩ h s) (hv : s.svc? h.slot = some v)
    (hstd : keyRxStd v.acc.attrs.key = 5) (he : s.engineOf v = none) :
    Reads (exec (.dabQuery h) s) 0x0A0A h s (zeros 6 ++ v.dabValues) := by
  refine runCmd_reads _ h s _ _ hk ?_
  simp only [State.advance_svc?, State.advance_engineOf, hv, he]
  exact State.refuseIf_false _ _ _ _ (bne_eq_false_iff_eq.2 hstd)

/-! ### TV_QUERY -/

/-- What TV_QUERY answers of a service whose engine `d` holds its signalling: state, standard, bandwidth, PLPs, signalling
and the values of Table 8.9 (R239). -/
def Service.tvRow (v : Service) (d : TvEngine) : List Byte :=
  let vals := v.tableValues 0x89
  le 1 (if d.synced = false then 0 else if d.unsupported then 2 else if v.notDecodable then 3 else 1)
    ++ le 1 d.signal.std ++ le 1 d.signal.bandwidth ++ le 1 (min 4 (v.plps v.rx).length) ++ plpIds (v.plps v.rx)
    ++ le 2 vals.length ++ le 2 d.signal.sig.length ++ pad4 d.signal.sig ++ vals.flatMap StatItem_bytes

/-- Signalling that was never lost is held (R217). -/
theorem tvQuery_reads_held {d : TvEngine} (hk : Taken ⟨0x0A0C, .service, allModes, .none⟩ h s) (hv : s.svc? h.slot = some v)
    (hstd : keyRxStd v.acc.attrs.key = 6 ∨ keyRxStd v.acc.attrs.key = 7) (he : s.engineOf v = some (.tv d))
    (hheld : d.lostAt = none) : Reads (exec (.tvQuery h) s) 0x0A0C h s (v.tvRow d) := by
  have htv : (keyRxStd v.acc.attrs.key != 6 && keyRxStd v.acc.attrs.key != 7) = false := by
    rcases hstd with e | e <;> rw [e] <;> rfl
  refine runCmd_reads _ h s _ _ hk ?_
  simp only [State.advance_svc?, State.advance_engineOf, hv, he, hheld, if_true, Bool.not_eq_true']
  exact State.refuseIf_false _ _ _ _ htv

theorem tvQuery_ensemble (hk : Taken ⟨0x0A0C, .service, allModes, .none⟩ h s) (hv : s.svc? h.slot = some v)
    (hstd : keyRxStd v.acc.attrs.key = 5) :
    Replies (exec (.tvQuery h) s) 0x0A0C h s .badParam noTick [] (s.advance h.wait) := by
  refine runCmd_refuses _ h s _ _ hk ?_
  simp only [State.advance_svc?, hv]
  exact State.refuseIf_true _ _ _ _ (by rw [hstd]; rfl)

/-! ### LDPC_QUERY -/

/-- The row of a band in LDPC_QUERY: charge, cap, and the mean and the most of the tiles that it used (Table 15.18, R229). -/
def State.ldpcBandRow (s : State) (b : Nat) : List Byte :=
  le 4 (s.bandCharge b) ++ le 4 (s.bandCap b) ++ le 2 (if s.ldpc.ticks = 0 then 0 else s.ldpc.usedSum.getD b 0 / s.ldpc.ticks)
    ++ le 2 (s.ldpc.usedMax.getD b 0) ++ zeros 4

/-- LDPC_QUERY from CTRL_CHARGE to BAND[4]: what the trunk is charged, its data in DATA only, and a row for each band (Table
15.18). -/
def State.ldpcRows (s : State) : List Byte :=
  let data := s.trunkOn && s.trunk.state == .data
  le 4 (if s.trunkOn then 2 else 0) ++ le 4 (if data then s.trunkCharge else 0) ++ le 1 (if data then s.trunkBand else 0xFF)
    ++ zeros 3 ++ (List.range 4).flatMap s.ldpcBandRow

theorem ldpcQuery_reads (hk : Taken (gateAll 0x0A0E) h s) :
    Reads (exec (.ldpcQuery h) s) 0x0A0E h s
      (leInt 4 ((190 : Int) - (((List.range 4).map s.bandCap).sum : Nat)) ++ s.ldpcRows ++ le 4 s.ldpc.extended
        ++ le 4 s.ldpc.interrupted ++ le 4 s.ldpc.dropped) := by
  refine runCmd_reads _ h s _ _ hk ?_
  simp only [State.ldpcRows, ← List.append_assoc]
  rfl

end

/-- Settles O13: every query's body answers from the state it is given and hands it back, once its checks pass. -/
theorem engineQueriesAnswer : Obligations.EngineQueriesAnswer := by
  unfold Obligations.EngineQueriesAnswer
  intro h s
  refine ⟨?_, ?_, ?_, ?_, ?_, ?_, ?_, ?_, ?_, ?_, ?_, ?_, ?_⟩
  · exact fun c b hk hc hb hn => firBankQuery_reads_unloaded hk hc hb hn
  · exact fun c b k hk hc hb hl => firBankQuery_reads_loaded hk hc hb hl
  · exact fun first v hk hv => laneQuery_reads_service hk hv
  · exact fun first hk hv => laneQuery_reads_device hk hv
  · exact fun v hk hv h1 h4 => analogueQuery_reads hk hv h1 h4
  · exact fun v hk hv h4 => analogueQuery_otherStandard hk hv h4
  · exact fun n f hk hn hf => timecodeFormatQuery_reads hk hn hf
  · exact fun n hk hn hf => timecodeFormatQuery_notFound hk hn hf
  · intro v d hk hv hstd he
    simpa only [Service.dabValues, ← List.append_assoc] using dabQuery_reads_engine hk hv hstd he
  · intro v hk hv hstd he
    simpa only [Service.dabValues, ← List.append_assoc] using dabQuery_reads_noEngine hk hv hstd he
  · exact fun v d hk hv hstd he hheld => tvQuery_reads_held hk hv hstd he hheld
  · exact fun v hk hv hstd => tvQuery_ensemble hk hv hstd
  · exact fun hk => ⟨s.ldpcRows, ldpcQuery_reads hk⟩

end Sys2Proof.Machine
end

section
/-! PROOFS. The rows of FM, AM and keyed time-code reception (O37). -/

namespace Sys2Proof.Machine

/-! ### The analogue engine of one service -/

/-- The analogue engine of the service in a slot, changed. -/
def State.modEngine (s : State) (n : Nat) (f : AnalogueSt → AnalogueSt) : State :=
  s.modSvc n (fun v => { v with analogue := f v.analogue })

/-- The slot holds no service that holds costs. -/
def State.Costless (s : State) (n : Nat) : Prop := ∀ v, s.slotSvc? n = some v → v.state.costs = false

section
variable {s : State} {n : Nat} {v : Service} {p : Service → Bool}

theorem State.modAnalogue_costs (wait : Nat) (f : AnalogueSt → AnalogueSt) (hv : s.slotSvc? n = some v)
    (hc : v.state.costs = true) (hp : p v = true) : s.modAnalogue n wait p f = (s.advance wait).modEngine n f := by
  simp only [State.modAnalogue, hv, hc, hp, Bool.and_self, if_true]; rfl

theorem State.modAnalogue_costless (wait : Nat) (f : AnalogueSt → AnalogueSt) (hn : s.Costless n) :
    s.modAnalogue n wait p f = s := by
  unfold State.modAnalogue
  cases hv : s.slotSvc? n with
  | none => rfl
  | some v => simp only [hn v hv, Bool.false_and, Bool.false_eq_true, if_false]

/-- A side-data record joins the others where the service's side-data stream is open (R241). -/
theorem State.sideRec_eq (s : State) (f : W16) (stamp : W64) (type : Nat) (check : Bool) (body : List Byte) :
    s.sideRec f stamp type check body
      = { s with side := s.side ++ if (s.stream? f 6).isSome then [⟨f, stamp, type, check, body⟩] else [] } := by
  unfold State.sideRec
  split
  · rfl
  · rw [List.append_nil]

/-! ### RDS synchronisation, the pilot and the SYNC detector -/

theorem rdsSynchronisation_sets (wait : Nat) (hv : s.slotSvc? n = some v) (hc : v.state.costs = true)
    (hfm : fmStereo v.attrs = true) (hoff : v.analogue.rdsSync = false) :
    exec (.rdsSynchronisation n wait) s = .next ((s.advance wait).modEngine n (fun a => { a with rdsSync := true })) :=
  congrArg _ (State.modAnalogue_costs wait _ hv hc (by simp only [hfm, hoff, Bool.not_false, Bool.and_self]))

theorem rdsSyncLoss_counts (wait : Nat) (hv : s.slotSvc? n = some v) (hc : v.state.costs = true)
    (hon : v.analogue.rdsSync = true) :
    exec (.rdsSyncLoss n wait) s
      = .next ((s.advance wait).modEngine n (fun a => { a with rdsSync := false, rdsLosses := sat32 (a.rdsLosses + 1) })) :=
  congrArg _ (State.modAnalogue_costs wait _ hv hc hon)

theorem pilotStateChange_sets (wait : Nat) (b : Bool) (hv : s.slotSvc? n = some v) (hc : v.state.costs = true)
    (hfm : fmStereo v.attrs = true) (hauto : v.force.analogue.nat 2 = 0) :
    exec (.pilotStateChange n b wait) s = .next ((s.advance wait).modEngine n (fun a => { a with pilot := b })) :=
  congrArg _ (State.modAnalogue_costs wait _ hv hc (by simp only [hfm, hauto, beq_self_eq_true, Bool.and_self]))

/-- A SYNC detector of an AM service whose lock changes; the lock settles PCM (R174, R180). -/
theorem amSyncLock_changes (wait : Nat) {b : Bool} (hv : s.slotSvc? n = some v) (hc : v.state.costs = true)
    (ham : keyStd v.attrs.key = 3) (hsync : v.force.analogue.nat 7 1 ≠ 0) (hb : v.analogue.syncLock = !b) :
    exec (.amSyncLock n b wait) s = .next
      (let t := (s.advance wait).modEngine n (fun a => { a with syncLock := b })
       if b then t.modStream v.field 1 (fun x => { x with settleNs := 0 }) else t) := by
  have hp : (keyStd v.attrs.key == 3 && v.force.analogue.nat 7 1 != 0 && v.analogue.syncLock != b) = true := by
    simp [ham, hsync, hb]
  have heng := State.modAnalogue_costs wait (fun a => { a with syncLock := b }) hv hc
    (p := fun x => keyStd x.attrs.key == 3 && x.force.analogue.nat 7 1 != 0 && x.analogue.syncLock != b) hp
  simp only [exec, execAmSyncLock, heng, hv, hc, hp, Bool.true_and]

/-! ### RDS groups -/

/-- A block of a group was heard: its confidence is not 3 (R172). -/
theorem anyBlockHeard_iff (g : RdsGroup) :
    (List.range 4).any (fun i => g.conf.getD i 3 != 3) = true ↔ ∃ i, i < 4 ∧ g.conf.getD i 3 ≠ 3 := by
  simp only [List.any_eq_true, List.mem_range, bne_iff_ne]

/-- A group whose block A or B may not be parsed says nothing (R240). -/
theorem State.rdsParse_unread {g : RdsGroup} (h : 1 < g.conf.getD 0 3 ∨ 1 < g.conf.getD 1 3) : s.rdsParse v g = s := by
  have hbad : (!(rdsGood g 0 && rdsGood g 1)) = true := by
    simp only [rdsGood, Bool.not_eq_true', Bool.and_eq_false_iff, decide_eq_false_iff_not]
    omega
  simp only [State.rdsParse, hbad, if_true]

/-- A group in synchronisation, unheard or heard. -/
theorem rdsGroup_sync (wait : Nat) (y : RdsGroupIn) {g : RdsGroup} (hv : s.slotSvc? n = some v) (hc : v.state.costs = true)
    (hfm : fmStereo v.attrs = true) (hon : v.analogue.rdsSync = true) (hg : rdsDecode (v.force.analogue.nat 6 2) y = g)
    {heard : Bool} (hh : (List.range 4).any (fun i => g.conf.getD i 3 != 3) = heard) :
    exec (.rdsGroup n y wait) s = .next
      (let t := (s.advance wait).modEngine n (fun a => a.countGroup g heard)
       if heard then (t.sideRec v.field g.stamp 1 ((List.range 4).all (rdsGood g)) (rdsBody g)).rdsParse v g else t) := by
  simp only [exec, execRdsGroup, hv, hc, hfm, hon, hg, hh, Bool.and_self, Bool.not_true, Bool.false_eq_true, if_false]
  cases heard <;> rfl

theorem rdsGroup_unheard (wait : Nat) (y : RdsGroupIn) {g : RdsGroup} (hv : s.slotSvc? n = some v)
    (hc : v.state.costs = true) (hfm : fmStereo v.attrs = true) (hon : v.analogue.rdsSync = true)
    (hg : rdsDecode (v.force.analogue.nat 6 2) y = g) (hh : ∀ i, i < 4 → g.conf.getD i 3 = 3) :
    exec (.rdsGroup n y wait) s = .next ((s.advance wait).modEngine n (fun a => a.countGroup g false)) := by
  have hnone : (List.range 4).any (fun i => g.conf.getD i 3 != 3) = false := by
    rw [← Bool.not_eq_true, anyBlockHeard_iff]
    exact fun ⟨i, hi, hne⟩ => hne (hh i hi)
  exact rdsGroup_sync wait y hv hc hfm hon hg hnone

theorem rdsGroup_heard (wait : Nat) (y : RdsGroupIn) {g : RdsGroup} (hv : s.slotSvc? n = some v) (hc : v.state.costs = true)
    (hfm : fmStereo v.attrs = true) (hon : v.analogue.rdsSync = true) (hg : rdsDecode (v.force.analogue.nat 6 2) y = g)
    (hh : ∃ i, i < 4 ∧ g.conf.getD i 3 ≠ 3) :
    exec (.rdsGroup n y wait) s = .next ((((s.advance wait).modEngine n (fun a => a.countGroup g true)).sideRec v.field
      g.stamp 1 ((List.range 4).all (rdsGood g)) (rdsBody g)).rdsParse v g) := by
  rw [rdsGroup_sync wait y hv hc hfm hon hg ((anyBlockHeard_iff g).2 hh)]
  rfl

/-! ### Time-code frames -/

/-- Which slot is the source of a code rests on the slots, incarnations, states and keys of the services (R121), and on
none of their engines. -/
theorem State.sourceSlot_modEngine (s : State) (n c : Nat) (f : AnalogueSt → AnalogueSt) :
    (s.modEngine n f).sourceSlot c = s.sourceSlot c := by
  have hsvc (w : W16) : (s.modEngine n f).svc? w
      = (s.svc? w).map (fun v => if v.slot == n then { v with analogue := f v.analogue } else v) :=
    State.svc?_modSvc (fun _ => rfl) (fun _ => rfl)
  have hentry : (s.modEngine n f).refEntry? c = s.refEntry? c := rfl
  unfold State.sourceSlot
  rw [hentry]
  cases s.refEntry? c with
  | none => rfl
  | some e =>
    dsimp only
    split
    · simp only [State.modEngine, State.modSvc, List.filter_map, List.foldl_map, Function.comp_def, apply_ite Service.slot,
        apply_ite Service.state, apply_ite Service.acc, ite_self]
    · rw [hsvc]
      cases s.svc? e.prefSlot with
      | none => rfl
      | some v => simp only [Option.map_some, apply_ite Service.slot, apply_ite Service.state, apply_ite Service.acc, ite_self]

theorem State.sourceSlot_advance (s : State) (wait c : Nat) : (s.advance wait).sourceSlot c = s.sourceSlot c := rfl

theorem State.sourceSlot_sideRec (s : State) (f : W16) (stamp : W64) (type : Nat) (check : Bool) (body : List Byte) (c : Nat) :
    (s.sideRec f stamp type check body).sourceSlot c = s.sourceSlot c := by
  rw [State.sideRec_eq]; rfl

/-- A frame of a service that is not the source of code 7 gives no time indication (R183). -/
theorem State.tcIndicate_noSource (fmt : TcFormat) (ms : List Nat) (reason : Nat) (label stamp : W64)
    (hsrc : s.sourceSlot 7 ≠ some n) : s.tcIndicate n fmt ms reason label stamp = s := by
  simp only [State.tcIndicate, bne_iff_ne.2 hsrc, if_true]

/-- The record of a frame, where its service is not the source of code 7 (R182). -/
theorem timecodeFrame_delivers (wait : Nat) (f : TcFrameIn) {fmt : TcFormat} (hv : s.slotSvc? n = some v)
    (hc : v.state.costs = true) (hlf : keyStd v.attrs.key = 4) (hfmt : s.format? (v.force.analogue.nat 11) = some fmt)
    (hsrc : s.sourceSlot 7 ≠ some n) :
    let cls := f.widths.map (tcClassify fmt)
    let ms := cls.map (tcMeaning fmt)
    let reason := tcReasonOf fmt f ms
    let label := (s.advance wait).tcLabelDt fmt ms
    exec (.timecodeFrame n f wait) s = .next (((s.advance wait).modEngine n (fun a => a.countFrame cls reason label)).sideRec
      v.field f.stamp 6 (reason == 0) (tcBody fmt f ms reason label)) := by
  intro cls ms reason label
  have hsrc' : (((s.advance wait).modEngine n (fun a => a.countFrame cls reason label)).sideRec v.field f.stamp 6 (reason == 0)
      (tcBody fmt f ms reason label)).sourceSlot 7 ≠ some n := by
    rwa [State.sourceSlot_sideRec, State.sourceSlot_modEngine, State.sourceSlot_advance]
  rw [← State.tcIndicate_noSource fmt ms reason label f.stamp hsrc']
  simp only [exec, execTimecodeFrame, hv, hfmt, hc, hlf, Bool.not_true, bne_self_eq_false, Bool.or_self, Bool.false_eq_true,
    if_false]
  rfl

/-! ### A slot whose service holds no costs -/

theorem amSyncLock_costless (wait : Nat) (b : Bool) (hn : s.Costless n) : exec (.amSyncLock n b wait) s = .next s := by
  simp only [exec, execAmSyncLock, State.modAnalogue_costless wait _ hn]
  cases hv : s.slotSvc? n with
  | none => rfl
  | some v => simp only [hn v hv, Bool.false_and, Bool.false_eq_true, if_false]

theorem rdsGroup_costless (wait : Nat) (g : RdsGroupIn) (hn : s.Costless n) : exec (.rdsGroup n g wait) s = .next s := by
  cases hv : s.slotSvc? n with
  | none => simp only [exec, execRdsGroup, hv]
  | some v => simp only [exec, execRdsGroup, hv, hn v hv, Bool.false_and, Bool.not_false, if_true]

theorem timecodeFrame_costless (wait : Nat) (f : TcFrameIn) (hn : s.Costless n) :
    exec (.timecodeFrame n f wait) s = .next s := by
  cases hv : s.slotSvc? n with
  | none => simp only [exec, execTimecodeFrame, hv]
  | some v =>
    cases hfmt : s.format? (v.force.analogue.nat 11) with
    | none => simp only [exec, execTimecodeFrame, hv, hfmt]
    | some fmt => simp only [exec, execTimecodeFrame, hv, hfmt, hn v hv, Bool.not_false, Bool.true_or, if_true]

theorem analogueRows_costless (wait : Nat) (hn : s.Costless n) :
    exec (.rdsSynchronisation n wait) s = .next s ∧ exec (.rdsSyncLoss n wait) s = .next s ∧
      (∀ b, exec (.pilotStateChange n b wait) s = .next s) ∧ (∀ b, exec (.amSyncLock n b wait) s = .next s) ∧
      (∀ g, exec (.rdsGroup n g wait) s = .next s) ∧ (∀ f, exec (.timecodeFrame n f wait) s = .next s) :=
  ⟨congrArg _ (State.modAnalogue_costless wait _ hn), congrArg _ (State.modAnalogue_costless wait _ hn),
    fun _ => congrArg _ (State.modAnalogue_costless wait _ hn), fun b => amSyncLock_costless wait b hn,
    fun g => rdsGroup_costless wait g hn, fun f => timecodeFrame_costless wait f hn⟩

end

/-- Settles O37: each row is one change of the engine in its slot, and a group or frame that is delivered one side-data record
beside it (log entry 44 for the check of a group). -/
theorem analogueEnginesReport : Obligations.AnalogueEnginesReport := by
  unfold Obligations.AnalogueEnginesReport
  intro n wait s
  refine ⟨fun v hv hc => ⟨?_, ?_, ?_, ?_, ?_, ?_⟩, analogueRows_costless wait⟩
  · exact rdsSynchronisation_sets wait hv hc
  · exact rdsSyncLoss_counts wait hv hc
  · exact fun hfm hauto b => pilotStateChange_sets wait b hv hc hfm hauto
  · exact fun ham hsync => ⟨amSyncLock_changes wait (b := false) hv hc ham hsync, amSyncLock_changes wait (b := true) hv hc ham hsync⟩
  · intro hfm hon y
    have hheard := rdsGroup_heard wait y hv hc hfm hon rfl
    rw [State.sideRec_eq] at hheard
    refine ⟨rdsGroup_unheard wait y hv hc hfm hon rfl, hheard, fun hh hbad => ?_⟩
    exact (hheard hh).trans (congrArg _ (State.rdsParse_unread hbad))
  · intro hlf f fmt hfmt hsrc
    refine (timecodeFrame_delivers wait f hv hc hlf hfmt hsrc).trans ?_
    rw [State.sideRec_eq]
    rfl

end Sys2Proof.Machine
end

section
/-! PROOFS. The rows of DAB engines (O38). -/

namespace Sys2Proof.Machine

/-! ### The first engine of a carrier -/

theorem modFirst_append {key : W64} {p : CarrierSt → Bool} {pre : List CarrierSt} {c : CarrierSt} (f : CarrierSt → CarrierSt)
    (post : List CarrierSt) (hpre : ∀ x ∈ pre, x.key ≠ key) (hkey : c.key = key) (hp : p c = true) :
    modFirst key p f (pre ++ c :: post) = pre ++ f c :: post := by
  induction pre with
  | nil => simp only [List.nil_append, modFirst, hkey, hp, beq_self_eq_true, Bool.and_self, if_true]
  | cons x xs ih =>
    obtain ⟨hx, hxs⟩ := List.forall_mem_cons.mp hpre
    simp only [List.cons_append, modFirst, beq_false_of_ne hx, Bool.false_and, Bool.false_eq_true, if_false, ih hxs]

/-- Where a carrier state of the key is found first, a search of that key that it answers ends there. -/
theorem findSome?_carrier {α : Type} {key : W64} {g : CarrierSt → Option α} {pre : List CarrierSt} {c : CarrierSt} {a : α}
    (post : List CarrierSt) (hg : ∀ x, x.key ≠ key → g x = none) (hpre : ∀ x ∈ pre, x.key ≠ key) (hc : g c = some a) :
    (pre ++ c :: post).findSome? g = some a := by
  rw [List.findSome?_append, List.findSome?_eq_none_iff.mpr fun x hx => hg x (hpre x hx), List.findSome?_cons, hc]
  rfl

/-- In `s` the first carrier state of the key is `c`, with the DAB engine `d`. -/
structure State.FirstDab (s : State) (key : W64) (pre : List CarrierSt) (c : CarrierSt) (post : List CarrierSt) (d : DabEngine) :
    Prop where
  carriers : s.carriers = pre ++ c :: post
  fresh : ∀ x ∈ pre, x.key ≠ key
  keyed : c.key = key
  engine : c.engine = .dab d

/-- What a row does with the DAB engine of a carrier that meets its condition; where none does, nothing (log entry 2). -/
def State.onDab (s : State) (key : W64) (p : DabEngine → Bool) (f : DabEngine → State) : State :=
  match s.dab? key p with
  | none => s
  | some d => f d

/-- The engine of a carrier is set, and the streams of the carrier's services are marked. -/
def State.setDabMarking (s : State) (key : W64) (p : DabEngine → Bool) (x : DabEngine) (mark : State → Service → State) : State :=
  ((s.setDab key p x).carrierSvcs key).foldl mark (s.setDab key p x)

/-- In `t` the carrier state `c` has the engine `e`; no other carrier differs from `s`, and no service, unit, time or host
memory. -/
def State.TakesEngine (s t : State) (pre : List CarrierSt) (c : CarrierSt) (post : List CarrierSt) (e : Engine) : Prop :=
  t.carriers = pre ++ { c with engine := e } :: post ∧ t.services = s.services ∧ t.units = s.units ∧ t.time = s.time ∧
    t.host = s.host

/-- The state without its streams and side-data records. -/
def State.besideStreams (s : State) : State := { s with streams := [], side := [] }

section
variable {s t : State} {key : W64} {wait : Nat} {pre post : List CarrierSt} {c : CarrierSt} {d x : DabEngine}
  {p : DabEngine → Bool} {f : DabEngine → State} {mark : State → Service → State}

theorem State.FirstDab.advance (k : s.FirstDab key pre c post d) (wait : Nat) : (s.advance wait).FirstDab key pre c post d :=
  ⟨k.carriers, k.fresh, k.keyed, k.engine⟩

theorem State.FirstDab.dab?_eq (k : s.FirstDab key pre c post d) (hp : p d = true) : s.dab? key p = some d := by
  rw [State.dab?, k.carriers]
  refine findSome?_carrier post (key := key) (fun x hx => ?_) k.fresh ?_
  · cases x.engine with
    | dab e => simp only [beq_false_of_ne hx, Bool.false_and, Bool.false_eq_true, if_false]
    | tv e => rfl
  · simp only [k.engine, k.keyed, hp, beq_self_eq_true, Bool.and_self, if_true]

theorem State.FirstDab.dab?_none (k : s.FirstDab key pre c post d) (hpost : ∀ x ∈ post, x.key ≠ key) (hp : p d = false) :
    s.dab? key p = none := by
  rw [State.dab?, k.carriers, List.findSome?_eq_none_iff]
  intro y hy
  have hother (hne : y.key ≠ key) : (y.key == key) = false := beq_false_of_ne hne
  rcases List.mem_append.mp hy with h | h
  · cases y.engine <;> simp only [hother (k.fresh y h), Bool.false_and, Bool.false_eq_true, if_false]
  rcases List.mem_cons.mp h with rfl | h
  · simp only [k.engine, hp, Bool.and_false, Bool.false_eq_true, if_false]
  · cases y.engine <;> simp only [hother (hpost y h), Bool.false_and, Bool.false_eq_true, if_false]

theorem State.FirstDab.onDab_fits (k : s.FirstDab key pre c post d) (hp : p d = true) : s.onDab key p f = f d := by
  rw [State.onDab, k.dab?_eq hp]

theorem State.FirstDab.onDab_unfit (k : s.FirstDab key pre c post d) (hpost : ∀ x ∈ post, x.key ≠ key) (hp : p d = false) :
    s.onDab key p f = s := by
  rw [State.onDab, k.dab?_none hpost hp]

theorem State.FirstDab.setDab_carriers (k : s.FirstDab key pre c post d) (hp : p d = true) (x : DabEngine) :
    (s.setDab key p x).carriers = pre ++ { c with engine := .dab x } :: post := by
  rw [State.setDab, k.carriers]
  exact modFirst_append _ post k.fresh k.keyed (by simp only [k.engine, hp])

/-- An engine is set, and what follows touches streams and side-data records alone. -/
theorem State.FirstDab.takesEngine (k : s.FirstDab key pre c post d) (hp : p d = true)
    (h : t.besideStreams = (s.setDab key p x).besideStreams) : s.TakesEngine t pre c post (.dab x) :=
  have same {α : Type} (g : State → α) (hg : ∀ u : State, g u.besideStreams = g u) : g t = g (s.setDab key p x) := by
    rw [← hg t, h, hg]
  ⟨(same (·.carriers) fun _ => rfl).trans (k.setDab_carriers hp x), same (·.services) fun _ => rfl,
    same (·.units) fun _ => rfl, same (·.time) fun _ => rfl, same (·.host) fun _ => rfl⟩

theorem State.FirstDab.setDabMarking_takesEngine (k : s.FirstDab key pre c post d) (hp : p d = true)
    (hmark : ∀ s v, (mark s v).besideStreams = s.besideStreams) :
    s.TakesEngine (s.setDabMarking key p x mark) pre c post (.dab x) :=
  k.takesEngine hp (foldl_keeps State.besideStreams mark _ hmark _)

/-! ### The marks of streams, and side-data records -/

theorem State.unsettlePcm_besideStreams (s : State) (v : Service) : (s.unsettlePcm v).besideStreams = s.besideStreams := rfl

theorem State.gapKinds_besideStreams (s : State) (f : W16) (kinds : List Nat) :
    (s.gapKinds f kinds).besideStreams = s.besideStreams :=
  foldl_keeps State.besideStreams (fun s k => s.modStream f k _) kinds (fun _ _ => rfl) s

theorem State.interrupted_besideStreams (s : State) (v : Service) : (s.interrupted v).besideStreams = s.besideStreams :=
  State.gapKinds_besideStreams s v.field engineKinds

theorem State.dabReconfigured_besideStreams (old new : DabEngine) (s : State) (v : Service) :
    (s.dabReconfigured old new v).besideStreams = s.besideStreams := by
  unfold State.dabReconfigured
  repeat' split
  · exact s.gapKinds_besideStreams ..
  · rfl
  · exact s.interrupted_besideStreams v
  · rfl

/-- One record joins the others for each service whose side-data stream is open (R241). -/
theorem State.sideRec_foldl (s : State) (vs : List Service) (stamp : W64) (type : Nat) (check : Bool) (body : List Byte) :
    vs.foldl (fun s v => s.sideRec v.field stamp type check body) s
      = { s with side := s.side ++
            (vs.filter (fun v => (s.stream? v.field 6).isSome)).map (fun v => ⟨v.field, stamp, type, check, body⟩) } := by
  induction vs generalizing s with
  | nil => simp only [List.foldl_nil, List.filter_nil, List.map_nil, List.append_nil]
  | cons v vs ih =>
    rw [List.foldl_cons, State.sideRec_eq, ih, List.filter_cons]
    have hstreams (side : List SideRec) (w : W16) : ({ s with side := side } : State).stream? w 6 = s.stream? w 6 := rfl
    cases hopen : (s.stream? v.field 6).isSome
    · simp only [hstreams, Bool.false_eq_true, if_false, List.append_nil]
    · simp only [hstreams, if_true, List.append_assoc, List.singleton_append, List.map_cons]

/-! ### GAP_BEFORE on the streams of interrupted services (R193) -/

/-- The next unit of every stream of a slot field and kind carries GAP_BEFORE. -/
def State.GapNext (s : State) (f : W16) (kind : Nat) : Prop :=
  ∀ x ∈ s.streams, x.slot = f → x.kind = kind → x.flags &&& fGap = fGap

/-- A fold reaches what one of its steps sets and every step keeps. -/
theorem foldl_reaches {α : Type} {P : State → Prop} {f : State → α → State} {l : List α} {a : α} (ha : a ∈ l)
    (hset : ∀ s, P (f s a)) (hkeep : ∀ s b, P s → P (f s b)) (s : State) : P (l.foldl f s) := by
  obtain ⟨before, after, rfl⟩ := List.append_of_mem ha
  rw [List.foldl_append, List.foldl_cons]
  exact List.foldlRecOn after f (hset _) (fun t h b _ => hkeep t b h)

theorem or_fGap_and (a : W32) : (a ||| fGap) &&& fGap = fGap := by
  ext i hi
  rw [BitVec.getElem_and, BitVec.getElem_or]
  cases a[i] <;> simp only [Bool.false_or, Bool.true_or, Bool.true_and, Bool.and_self]

/-- A change of a stream that keeps its place and its GAP_BEFORE keeps those of all streams. -/
theorem State.GapNext.modStream {f f' : W16} {kind kind' : Nat} {g : Stream → Stream} (h : s.GapNext f kind)
    (hg : ∀ x, (g x).slot = x.slot ∧ (g x).kind = x.kind ∧ (x.flags &&& fGap = fGap → (g x).flags &&& fGap = fGap)) :
    (s.modStream f' kind' g).GapNext f kind := by
  intro y hy hslot hkind
  obtain ⟨x, hx, rfl⟩ := List.mem_map.mp hy
  obtain ⟨hgs, hgk, hgap⟩ := hg x
  by_cases hc : (x.slot == f' && x.kind == kind') = true
  · simp only [hc, if_true] at hslot hkind ⊢
    exact hgap (h x hx (hgs ▸ hslot) (hgk ▸ hkind))
  · simp only [hc, if_false, Bool.false_eq_true] at hslot hkind ⊢
    exact h x hx hslot hkind

theorem State.GapNext.gapStream {f : W16} {kind : Nat} (h : s.GapNext f kind) (f' : W16) (kind' : Nat) :
    (s.modStream f' kind' (fun x => { x with flags := x.flags ||| fGap })).GapNext f kind :=
  h.modStream fun x => ⟨rfl, rfl, fun _ => or_fGap_and x.flags⟩

theorem State.gapNext_gapStream (s : State) (f : W16) (kind : Nat) :
    (s.modStream f kind (fun x => { x with flags := x.flags ||| fGap })).GapNext f kind := by
  intro y hy hslot hkind
  obtain ⟨x, -, rfl⟩ := List.mem_map.mp hy
  by_cases hc : (x.slot == f && x.kind == kind) = true
  · simp only [hc, if_true]
    exact or_fGap_and x.flags
  · simp only [hc, if_false, Bool.false_eq_true] at hslot hkind
    simp only [hslot, hkind, beq_self_eq_true, Bool.and_self, not_true] at hc

theorem State.GapNext.interrupted {f : W16} {kind : Nat} (h : s.GapNext f kind) (v : Service) :
    (s.interrupted v).GapNext f kind := by
  have hgaps : (s.gapKinds v.field engineKinds).GapNext f kind :=
    List.foldlRecOn (motive := fun t : State => t.GapNext f kind) engineKinds _ h fun _ ht k _ => ht.gapStream v.field k
  exact hgaps.modStream fun _ => ⟨rfl, rfl, id⟩

theorem State.interrupted_gapNext (s : State) (v : Service) {kind : Nat} (hk : kind ∈ engineKinds) :
    (s.interrupted v).GapNext v.field kind := by
  have hgaps : (s.gapKinds v.field engineKinds).GapNext v.field kind :=
    foldl_reaches (P := fun t => t.GapNext v.field kind) hk (fun t => t.gapNext_gapStream v.field kind)
      (fun _ k ht => ht.gapStream v.field k) s
  exact hgaps.modStream fun _ => ⟨rfl, rfl, id⟩

theorem mem_engineKinds {kind : Nat} (h1 : 1 ≤ kind) (h5 : kind ≤ 5) : kind ∈ engineKinds := by
  simp only [engineKinds, List.mem_cons, List.not_mem_nil]
  omega

/-- The next units of all streams of the services that an interruption names carry GAP_BEFORE. -/
theorem foldl_interrupted_gapNext {vs : List Service} {v : Service} (hv : v ∈ vs) {kind : Nat} (h1 : 1 ≤ kind) (h5 : kind ≤ 5)
    (s : State) : (vs.foldl State.interrupted s).GapNext v.field kind :=
  foldl_reaches (P := fun t => t.GapNext v.field kind) hv (fun t => t.interrupted_gapNext v (mem_engineKinds h1 h5))
    (fun _ u h => h.interrupted u) s

/-! ### Each row through the engine that fits it -/

/-- The MCI hold time of a lost ensemble is over (R193). -/
def State.mciGone (s : State) (d : DabEngine) : Bool :=
  match d.lostAt with
  | some t => s.elapsed t s.mciHoldNs
  | none => false

/-- 10 s have passed since step 4 of an engine in synchronisation (R192). -/
def State.mciLate (s : State) (d : DabEngine) : Bool :=
  d.synced && (match d.step4 with | some t => s.elapsed t 10000000000 | none => false)

/-- The next MCI of an engine in synchronisation is for a CIF count (R195). -/
def DabEngine.nextAt (cif : Nat) (d : DabEngine) : Bool :=
  d.synced && (match d.nextMci with | some (c, _) => c == cif | none => false)

/-- The engine with its next MCI in force at a CIF count; a list that the next MCI leaves empty stays (R195). -/
def DabEngine.reconfigured (d : DabEngine) (cif : Nat) (subs : List SubCh) (comps : List DabComp) : DabEngine :=
  { d with
    cif := cif
    subChs := if subs.isEmpty then d.subChs else subs
    comps := if comps.isEmpty then d.comps else comps
    nextMci := none
    reconfigs := sat32 (d.reconfigs + 1) }

/-- A carrier state with a DAB engine in synchronisation. -/
def CarrierSt.dabSynced (c : CarrierSt) : Bool :=
  match c.engine with
  | .dab d => d.synced
  | .tv _ => false

theorem exec_dabSynchronised (m : Nat) : exec (.dabSynchronised key m wait) s = .next
    (s.onDab key (fun d => !d.synced && dabModeIn d.modes m) fun d => (s.advance wait).setDabMarking key
      (fun d => !d.synced && dabModeIn d.modes m)
      { (if (s.advance wait).mciGone d then d.forget else d) with
        synced := true, txMode := m, step4 := some (s.advance wait).time.dt, notInMci := false, lostAt := none }
      State.unsettlePcm) := rfl

theorem exec_dabSyncLoss : exec (.dabSyncLoss key wait) s = .next
    (s.onDab key DabEngine.synced fun d => (s.advance wait).setDabMarking key DabEngine.synced
      { d with
        synced := false, modes := s.force.dab.nat 1 15, notInMci := false, lostAt := some (s.advance wait).time.dt
        losses := sat32 (d.losses + 1) }
      State.interrupted) := rfl

theorem exec_dabSearchTimeout : exec (.dabSearchTimeout key wait) s = .next
    (s.onDab key (s.advance wait).mciLate fun d =>
      (s.advance wait).setDab key (s.advance wait).mciLate { d with notInMci := true }) := rfl

theorem exec_dabReconfiguration (cif : Nat) : exec (.dabReconfiguration key cif wait) s = .next
    (s.onDab key (DabEngine.nextAt cif) fun d =>
      match d.nextMci with
      | none => s
      | some (k, subs, comps) => (s.advance wait).setDabMarking key (DabEngine.nextAt cif) (d.reconfigured k subs comps)
          (State.dabReconfigured d (d.reconfigured k subs comps))) := rfl

theorem exec_fibReceived (g : FibIn) : exec (.fibReceived g wait) s = .next
    (match s.dab? g.carrier DabEngine.synced, s.carriers.find? (fun c => c.key == g.carrier && c.dabSynced) with
      | some d, some c =>
        if !g.good then (s.advance wait).setDab g.carrier DabEngine.synced { d with fibBad := sat32 (d.fibBad + 1) }
        else g.items.foldl (State.figParse c g.stamp) ((s.advance wait).setDabMarking g.carrier DabEngine.synced
          (g.items.foldl DabEngine.fig { d with fibGood := sat32 (d.fibGood + 1) })
          (fun s v => s.sideRec v.field g.stamp 2 true ((g.raw ++ zeros 32).take 32)))
      | _, _ => s) := rfl

/-! ### Synchronisation, its loss, the search and a reconfiguration (R191 to R193, R195) -/

theorem State.mciGone_of_held (h : d.lostAt = none ∨ ∃ t, d.lostAt = some t ∧ s.now < t.toNat + s.mciHoldNs) :
    s.mciGone d = false := by
  rcases h with h | ⟨t, h, hnow⟩
  · simp only [State.mciGone, h]
  · simp only [State.mciGone, h, State.elapsed, decide_eq_false (Nat.not_le_of_lt hnow)]

theorem State.mciGone_of_over (h : ∃ t, d.lostAt = some t ∧ t.toNat + s.mciHoldNs ≤ s.now) : s.mciGone d = true := by
  obtain ⟨t, h, hnow⟩ := h
  simp only [State.mciGone, h, State.elapsed, decide_eq_true hnow]

theorem State.mciLate_of_step4 {u : W64} (hon : d.synced = true) (hstep : d.step4 = some u)
    (hlate : u.toNat + 10000000000 ≤ s.now) : s.mciLate d = true := by
  simp only [State.mciLate, hon, hstep, State.elapsed, decide_eq_true hlate, Bool.and_self]

theorem State.FirstDab.dabSynchronised_takesEngine (k : s.FirstDab key pre c post d) {m : Nat} (hoff : d.synced = false)
    (hm : dabModeIn d.modes m = true) :
    ∃ t, exec (.dabSynchronised key m wait) s = .next t ∧ (s.advance wait).TakesEngine t pre c post
      (.dab { (if (s.advance wait).mciGone d then d.forget else d) with
        synced := true, txMode := m, step4 := some (s.advance wait).time.dt, notInMci := false, lostAt := none }) := by
  have hp : (!d.synced && dabModeIn d.modes m) = true := by rw [hoff, hm]; rfl
  exact ⟨_, (exec_dabSynchronised m).trans (congrArg _ (k.onDab_fits hp)),
    (k.advance wait).setDabMarking_takesEngine hp State.unsettlePcm_besideStreams⟩

theorem State.FirstDab.dabSyncLoss_gaps_takesEngine (k : s.FirstDab key pre c post d) (hon : d.synced = true) :
    ∃ t, exec (.dabSyncLoss key wait) s = .next t ∧
      (∀ v ∈ s.carrierSvcs key, ∀ kind, 1 ≤ kind → kind ≤ 5 → t.GapNext v.field kind) ∧
      (s.advance wait).TakesEngine t pre c post (.dab { d with
        synced := false, modes := s.force.dab.nat 1 15, notInMci := false, lostAt := some (s.advance wait).time.dt
        losses := sat32 (d.losses + 1) }) :=
  ⟨_, exec_dabSyncLoss.trans (congrArg _ (k.onDab_fits hon)), fun _ hv _ h1 h5 => foldl_interrupted_gapNext hv h1 h5 _,
    (k.advance wait).setDabMarking_takesEngine hon State.interrupted_besideStreams⟩

theorem State.FirstDab.dabSearchTimeout_takesEngine (k : s.FirstDab key pre c post d) (hlate : (s.advance wait).mciLate d = true) :
    ∃ t, exec (.dabSearchTimeout key wait) s = .next t ∧
      (s.advance wait).TakesEngine t pre c post (.dab { d with notInMci := true }) ∧ t.streams = s.streams :=
  ⟨_, exec_dabSearchTimeout.trans (congrArg _ (k.onDab_fits hlate)), (k.advance wait).takesEngine hlate rfl, rfl⟩

theorem State.FirstDab.dabReconfiguration_takesEngine (k : s.FirstDab key pre c post d) {cif : Nat} {subs : List SubCh}
    {comps : List DabComp} (hon : d.synced = true) (hnext : d.nextMci = some (cif, subs, comps)) :
    ∃ t, exec (.dabReconfiguration key cif wait) s = .next t ∧
      (s.advance wait).TakesEngine t pre c post (.dab (d.reconfigured cif subs comps)) := by
  have hp : d.nextAt cif = true := by simp only [DabEngine.nextAt, hon, hnext, beq_self_eq_true, Bool.and_self]
  refine ⟨_, (exec_dabReconfiguration cif).trans (congrArg _ (k.onDab_fits hp)), ?_⟩
  simp only [hnext]
  exact (k.advance wait).setDabMarking_takesEngine hp (State.dabReconfigured_besideStreams d _)

/-! ### FIBs (R194, R240, R241) -/

theorem State.FirstDab.find?_synced (k : s.FirstDab key pre c post d) (hon : d.synced = true) :
    s.carriers.find? (fun c => c.key == key && c.dabSynced) = some c := by
  have hc : (c.key == key && c.dabSynced) = true := by
    simp only [CarrierSt.dabSynced, k.engine, k.keyed, hon, beq_self_eq_true, Bool.and_self]
  have hpre : pre.find? (fun c => c.key == key && c.dabSynced) = none := List.find?_eq_none.mpr fun x hx => by
    simp only [beq_false_of_ne (k.fresh x hx), Bool.false_and, Bool.false_eq_true, not_false_eq_true]
  rw [k.carriers, List.find?_append, hpre, Option.none_or]
  exact List.find?_cons_of_pos hc

/-- An engine is set, and a record joins the side data of every service of its carrier. -/
theorem State.setDabMarking_sideRec (s : State) (key : W64) (p : DabEngine → Bool) (x : DabEngine) (stamp : W64) (type : Nat)
    (check : Bool) (body : List Byte) :
    s.setDabMarking key p x (fun s v => s.sideRec v.field stamp type check body) = { s.setDab key p x with
      side := s.side ++ ((s.carrierSvcs key).filter (fun v => (s.stream? v.field 6).isSome)).map
        (fun v => ⟨v.field, stamp, type, check, body⟩) } :=
  State.sideRec_foldl ..

theorem State.FirstDab.fibReceived_bad {g : FibIn} (k : s.FirstDab g.carrier pre c post d) (hon : d.synced = true)
    (hbad : g.good = false) :
    ∃ t, exec (.fibReceived g wait) s = .next t ∧
      (s.advance wait).TakesEngine t pre c post (.dab { d with fibBad := sat32 (d.fibBad + 1) }) ∧
      t.side = s.side ∧ t.streams = s.streams := by
  rw [exec_fibReceived, k.dab?_eq hon, k.find?_synced hon]
  simp only [hbad, Bool.not_false, if_true]
  exact ⟨_, rfl, (k.advance wait).takesEngine hon rfl, rfl, rfl⟩

theorem State.FirstDab.fibReceived_good {g : FibIn} (k : s.FirstDab g.carrier pre c post d) (hon : d.synced = true)
    (hgood : g.good = true) :
    ∃ t, exec (.fibReceived g wait) s = .next (g.items.foldl (State.figParse c g.stamp) t) ∧
      (s.advance wait).TakesEngine t pre c post
        (.dab (g.items.foldl DabEngine.fig { d with fibGood := sat32 (d.fibGood + 1) })) ∧
      t.side = s.side ++ ((s.carrierSvcs g.carrier).filter (fun v => (s.stream? v.field 6).isSome)).map
        (fun v => ⟨v.field, g.stamp, 2, true, (g.raw ++ zeros 32).take 32⟩) ∧ t.streams = s.streams ∧ t.map = s.map := by
  rw [exec_fibReceived, k.dab?_eq hon, k.find?_synced hon]
  simp only [hgood, Bool.not_true, Bool.false_eq_true, if_false, State.setDabMarking_sideRec]
  exact ⟨_, rfl, (k.advance wait).takesEngine hon rfl, rfl, rfl, rfl⟩

/-! ### No engine fits (log entry 2) -/

theorem State.FirstDab.dabSynchronised_unfit (k : s.FirstDab key pre c post d) (hpost : ∀ x ∈ post, x.key ≠ key)
    (hon : d.synced = true) (m : Nat) : exec (.dabSynchronised key m wait) s = .next s := by
  rw [exec_dabSynchronised, k.onDab_unfit hpost (by simp only [hon, Bool.not_true, Bool.false_and])]

theorem State.FirstDab.rows_unfit (k : s.FirstDab key pre c post d) (hpost : ∀ x ∈ post, x.key ≠ key)
    (hoff : d.synced = false) :
    exec (.dabSyncLoss key wait) s = .next s ∧ exec (.dabSearchTimeout key wait) s = .next s ∧
      (∀ cif, exec (.dabReconfiguration key cif wait) s = .next s) ∧
      (∀ g : FibIn, g.carrier = key → exec (.fibReceived g wait) s = .next s) := by
  refine ⟨?_, ?_, fun cif => ?_, fun g hg => ?_⟩
  · rw [exec_dabSyncLoss, k.onDab_unfit hpost hoff]
  · rw [exec_dabSearchTimeout, k.onDab_unfit hpost (by simp only [State.mciLate, hoff, Bool.false_and])]
  · rw [exec_dabReconfiguration, k.onDab_unfit hpost (by simp only [DabEngine.nextAt, hoff, Bool.false_and])]
  · rw [exec_fibReceived, hg, k.dab?_none hpost hoff]

end

/-- Settles O38: each row runs through the first engine of the carrier that fits it, and what follows the engine's change
touches streams and side-data records alone. -/
theorem ensembleEngines : Obligations.EnsembleEngines := by
  unfold Obligations.EnsembleEngines
  intro key wait s pre post c d s1 put gapped hcarriers hfresh hkeyed hengine
  have k : s.FirstDab key pre c post d := ⟨hcarriers, hfresh, hkeyed, hengine⟩
  refine ⟨fun m hoff hm => ⟨fun hheld => ?_, fun hover => ?_⟩, fun hon => ?_, fun t hon hstep hlate => ?_,
    fun cif subs comps hon hnext hsubs hcomps => ?_, ?_, fun hpost => ⟨k.dabSynchronised_unfit hpost, k.rows_unfit hpost⟩⟩
  · have hrow := k.dabSynchronised_takesEngine (wait := wait) hoff hm
    rwa [State.mciGone_of_held hheld] at hrow
  · have hrow := k.dabSynchronised_takesEngine (wait := wait) hoff hm
    rwa [State.mciGone_of_over hover] at hrow
  · obtain ⟨t, hexec, hgap, htakes⟩ := k.dabSyncLoss_gaps_takesEngine (wait := wait) hon
    exact ⟨t, hexec, fun v hv x hx hslot h1 h5 => hgap v hv x.kind h1 h5 x hx hslot rfl, htakes⟩
  · exact k.dabSearchTimeout_takesEngine (State.mciLate_of_step4 hon hstep hlate)
  · obtain ⟨t, hexec, htakes⟩ := k.dabReconfiguration_takesEngine (wait := wait) hon hnext
    rw [DabEngine.reconfigured, if_neg (by simpa using hsubs), if_neg (by simpa using hcomps)] at htakes
    exact ⟨t, hexec, htakes⟩
  · rintro f rfl hon
    exact ⟨k.fibReceived_bad hon, k.fibReceived_good hon⟩

end Sys2Proof.Machine
end

section
/-! PROOFS. The rows of television engines (O39). -/

namespace Sys2Proof.Machine

/-! ### The first engine of a carrier -/

/-- In `s` the first carrier state of the key is `c`, with the television engine `d`. -/
structure State.FirstTv (s : State) (key : W64) (pre : List CarrierSt) (c : CarrierSt) (post : List CarrierSt) (d : TvEngine) :
    Prop where
  carriers : s.carriers = pre ++ c :: post
  fresh : ∀ x ∈ pre, x.key ≠ key
  keyed : c.key = key
  engine : c.engine = .tv d

/-- The television engine of a carrier state, where the state is of the key and its engine meets the condition. -/
def CarrierSt.tvFor (key : W64) (p : TvEngine → Bool) (c : CarrierSt) : Option TvEngine :=
  match c.engine with
  | .tv d => if c.key == key && p d then some d else none
  | .dab _ => none

/-- A carrier state with a television engine in synchronisation. -/
def CarrierSt.tvSynced (c : CarrierSt) : Bool :=
  match c.engine with
  | .tv d => d.synced
  | .dab _ => false

/-- In `t` the carrier state `c` has the television engine `x`; no other carrier differs from `s`, and no unit, time or host
memory. -/
def State.TakesTv (s t : State) (pre : List CarrierSt) (c : CarrierSt) (post : List CarrierSt) (x : TvEngine) : Prop :=
  t.carriers = pre ++ { c with engine := .tv x } :: post ∧ t.units = s.units ∧ t.time = s.time ∧ t.host = s.host

/-- The state without its services, and without its streams and side-data records. -/
def State.besideServices (s : State) : State := { s.besideStreams with services := [] }

theorem State.besideServices_congr {s t : State} (h : t.besideStreams = s.besideStreams) :
    t.besideServices = s.besideServices :=
  congrArg (fun u : State => { u with services := [] }) h

theorem State.services_congr {s t : State} (h : t.besideStreams = s.besideStreams) : t.services = s.services :=
  (congrArg State.services h :)

section
variable {s t : State} {key : W64} {wait : Nat} {pre post : List CarrierSt} {c : CarrierSt} {d x : TvEngine}
  {p : TvEngine → Bool}

theorem State.tv?_eq_findSome? (s : State) (key : W64) (p : TvEngine → Bool) :
    s.tv? key p = s.carriers.findSome? (CarrierSt.tvFor key p) := rfl

theorem CarrierSt.tvFor_otherKey (p : TvEngine → Bool) (hkey : c.key ≠ key) : c.tvFor key p = none := by
  unfold CarrierSt.tvFor
  cases c.engine with
  | dab e => rfl
  | tv e => simp only [beq_false_of_ne hkey, Bool.false_and, Bool.false_eq_true, if_false]

theorem State.FirstTv.advance (k : s.FirstTv key pre c post d) (wait : Nat) : (s.advance wait).FirstTv key pre c post d :=
  ⟨k.carriers, k.fresh, k.keyed, k.engine⟩

theorem State.FirstTv.tvFor_first (k : s.FirstTv key pre c post d) (p : TvEngine → Bool) :
    c.tvFor key p = if p d then some d else none := by
  simp only [CarrierSt.tvFor, k.engine, k.keyed, beq_self_eq_true, Bool.true_and]

theorem State.FirstTv.tv?_fits (k : s.FirstTv key pre c post d) (hp : p d = true) : s.tv? key p = some d := by
  rw [State.tv?_eq_findSome?, k.carriers]
  exact findSome?_carrier post (fun _ => CarrierSt.tvFor_otherKey p) k.fresh (by rw [k.tvFor_first, if_pos hp])

theorem State.FirstTv.tv?_unfit (k : s.FirstTv key pre c post d) (hpost : ∀ x ∈ post, x.key ≠ key) (hp : p d = false) :
    s.tv? key p = none := by
  rw [State.tv?_eq_findSome?, k.carriers, List.findSome?_eq_none_iff, List.forall_mem_append, List.forall_mem_cons]
  refine ⟨fun y hy => CarrierSt.tvFor_otherKey p (k.fresh y hy), ?_, fun y hy => CarrierSt.tvFor_otherKey p (hpost y hy)⟩
  rw [k.tvFor_first, hp]
  rfl

theorem State.FirstTv.find?_synced (k : s.FirstTv key pre c post d) (hon : d.synced = true) :
    s.carriers.find? (fun c => c.key == key && c.tvSynced) = some c := by
  have hc : (c.key == key && c.tvSynced) = true := by
    simp only [CarrierSt.tvSynced, k.engine, k.keyed, hon, beq_self_eq_true, Bool.and_self]
  have hpre : pre.find? (fun c => c.key == key && c.tvSynced) = none := List.find?_eq_none.mpr fun y hy => by
    simp only [beq_false_of_ne (k.fresh y hy), Bool.false_and, Bool.false_eq_true, not_false_eq_true]
  rw [k.carriers, List.find?_append, hpre, Option.none_or]
  exact List.find?_cons_of_pos hc

/-- A television engine is set, and what follows touches services, streams and side-data records alone. -/
theorem State.FirstTv.takesTv (k : s.FirstTv key pre c post d) (hp : p d = true)
    (h : t.besideServices = (s.setTv key p x).besideServices) : s.TakesTv t pre c post x := by
  have hset : (s.setTv key p x).carriers = pre ++ { c with engine := .tv x } :: post := by
    rw [State.setTv, k.carriers]
    exact modFirst_append _ post k.fresh k.keyed (by simp only [k.engine, hp])
  exact ⟨(congrArg State.carriers h :).trans hset, (congrArg State.units h :), (congrArg State.time h :),
    (congrArg State.host h :)⟩

/-! ### The signalling reaches the services (R214, R218, R241) -/

/-- Every service that holds costs and is received from the carrier has the signalling. -/
def State.Told (s : State) (key : W64) (g : TvSignal) : Prop :=
  ∀ v ∈ s.services, v.state.costs = true → v.rx.carrier = key → v.rx.signal = some g

/-- A service that has received the signalling of its multiplex. -/
def Service.told (g : TvSignal) (v : Service) : Service := { v with rx := { v.rx with signal := some g } }

theorem State.Told.congr {g : TvSignal} (hs : s.Told key g) (h : t.services = s.services) : t.Told key g := by
  rwa [State.Told, h]

@[simp] theorem Service.told_slot (g : TvSignal) (v : Service) : (v.told g).slot = v.slot := rfl
@[simp] theorem Service.told_told (g : TvSignal) (v : Service) : (v.told g).told g = v.told g := rfl

/-- To tell the services of several slots in turn is to tell every service in one of these slots. -/
theorem State.modSvc_told_foldl (g : TvSignal) (vs : List Service) (s : State) :
    vs.foldl (fun s v => s.modSvc v.slot (Service.told g)) s
      = { s with services := s.services.map (fun v => if vs.any (fun u => v.slot == u.slot) then v.told g else v) } := by
  induction vs generalizing s with
  | nil => simp only [List.foldl_nil, List.any_nil, Bool.false_eq_true, if_false, List.map_id']
  | cons u vs ih =>
    rw [List.foldl_cons, ih]
    simp only [State.modSvc, List.map_map, List.any_cons]
    congr 2
    funext v
    by_cases hslot : (v.slot == u.slot) = true
    · simp only [Function.comp, hslot, if_true, Bool.true_or, Service.told_slot, Service.told_told, ite_self]
    · simp only [Function.comp, hslot, Bool.false_eq_true, if_false, Bool.false_or]

/-- Records of the present moment all have the moment at which the first was made. -/
theorem State.sideRec_foldl_now (s : State) (vs : List Service) (type : Nat) (check : Bool) (body : List Byte) :
    vs.foldl (fun s v => s.sideRec v.field s.time.dt type check body) s
      = vs.foldl (fun t v => t.sideRec v.field s.time.dt type check body) s := by
  induction vs generalizing s with
  | nil => rfl
  | cons v vs ih =>
    have htime : (s.sideRec v.field s.time.dt type check body).time = s.time := by rw [State.sideRec_eq]
    rw [List.foldl_cons, List.foldl_cons, ih, htime]

/-- What the signalling changes: the services in the slots of the carrier's services are told, and a record of type 7 joins
the side data of each whose side-data stream is open. -/
theorem State.signalled_eq (s : State) (key : W64) (g : TvSignal) :
    s.signalled key g = { s with
      services := s.services.map (fun v => if (s.carrierSvcs key).any (fun u => v.slot == u.slot) then v.told g else v)
      side := s.side ++ ((s.carrierSvcs key).filter (fun v => (s.stream? v.field 6).isSome)).map
        (fun v => ⟨v.field, s.time.dt, 7, true, sigBody g⟩) } :=
  calc s.signalled key g
    _ = (s.carrierSvcs key).foldl (fun t v => t.sideRec v.field t.time.dt 7 true (sigBody g))
          ((s.carrierSvcs key).foldl (fun t v => t.modSvc v.slot (Service.told g)) s) := rfl
    _ = _ := by rw [State.modSvc_told_foldl, State.sideRec_foldl_now, State.sideRec_foldl]; rfl

theorem State.signalled_besideServices (s : State) (key : W64) (g : TvSignal) :
    (s.signalled key g).besideServices = s.besideServices := by
  rw [State.signalled_eq]
  rfl

theorem State.signalled_told (s : State) (key : W64) (g : TvSignal) : (s.signalled key g).Told key g := by
  intro v hv hcosts hcarrier
  rw [State.signalled_eq] at hv
  obtain ⟨u, hu, rfl⟩ := List.mem_map.mp hv
  by_cases hslot : ((s.carrierSvcs key).any fun w => u.slot == w.slot) = true
  · rw [if_pos hslot]
    rfl
  · rw [if_neg hslot] at hcosts hcarrier
    have hmem : u ∈ s.carrierSvcs key :=
      List.mem_filter.mpr ⟨hu, by simp only [hcosts, hcarrier, beq_self_eq_true, Bool.and_self]⟩
    exact absurd (List.any_eq_true.mpr ⟨u, hmem, beq_self_eq_true u.slot⟩) hslot

/-! ### Synchronisation, its loss, a reconfiguration and the search (R215, R217 to R219) -/

theorem State.tvReconfigured_besideStreams (g : TvSignal) (s : State) (v : Service) :
    (s.tvReconfigured g v).besideStreams = s.besideStreams := by
  unfold State.tvReconfigured
  split
  · exact s.interrupted_besideStreams v
  · rfl

theorem State.FirstTv.tvSynchronised_acquires (k : s.FirstTv key pre c post d) (hoff : d.synced = false) (g : TvSignal) :
    ∃ t, exec (.tvSynchronised key g wait) s = .next t ∧ t.Told key g ∧ (s.advance wait).TakesTv t pre c post
      { d with synced := true, unsupported := g.unsupported, signal := g, branchLost := 0, lostAt := none } := by
  have hp : (!d.synced) = true := by rw [hoff]; rfl
  have hmarks (vs : List Service) (u : State) : (vs.foldl State.unsettlePcm u).besideStreams = u.besideStreams :=
    foldl_keeps State.besideStreams _ vs State.unsettlePcm_besideStreams u
  simp only [exec, execTvSynchronised, k.tv?_fits (p := fun d => !d.synced) hp]
  exact ⟨_, rfl, State.Told.congr (State.signalled_told _ key g) (State.services_congr (hmarks ..)),
    (k.advance wait).takesTv hp ((State.besideServices_congr (hmarks ..)).trans (State.signalled_besideServices ..))⟩

/-- The return of a branch sets no mark (R219). -/
theorem State.FirstTv.tvSynchronised_branchReturns (k : s.FirstTv key pre c post d) (hpost : ∀ x ∈ post, x.key ≠ key)
    (hon : d.synced = true) (hlost : d.branchLost ≠ 0) (g : TvSignal) :
    ∃ t, exec (.tvSynchronised key g wait) s = .next t ∧
      (s.advance wait).TakesTv t pre c post { d with branchLost := 0 } ∧ t.services = s.services ∧ t.streams = s.streams := by
  have hbranch : (d.branchLost != 0) = true := bne_iff_ne.mpr hlost
  simp only [exec, execTvSynchronised, k.tv?_unfit (p := fun d => !d.synced) hpost (by rw [hon]; rfl),
    k.tv?_fits (p := fun d => d.branchLost != 0) hbranch]
  exact ⟨_, rfl, (k.advance wait).takesTv hbranch rfl, rfl, rfl⟩

theorem State.FirstTv.tvSyncLoss_gaps (k : s.FirstTv key pre c post d) (hon : d.synced = true)
    (hlast : d.branches ≤ d.branchLost + 1) :
    ∃ t, exec (.tvSyncLoss key wait) s = .next t ∧
      (∀ v ∈ s.carrierSvcs key, ∀ kind, 1 ≤ kind → kind ≤ 5 → t.GapNext v.field kind) ∧ t.services = s.services ∧
      (s.advance wait).TakesTv t pre c post { d with
        synced := false, branchLost := 0, lostAt := some (s.advance wait).time.dt, losses := sat32 (d.losses + 1) } := by
  have hmarks (vs : List Service) (u : State) : (vs.foldl State.interrupted u).besideStreams = u.besideStreams :=
    foldl_keeps State.besideStreams _ vs State.interrupted_besideStreams u
  simp only [exec, execTvSyncLoss, k.tv?_fits (p := fun d => d.synced) hon, if_neg (Nat.not_lt_of_le hlast)]
  exact ⟨_, rfl, fun _ hv _ h1 h5 => foldl_interrupted_gapNext hv h1 h5 _, (State.services_congr (hmarks ..)).trans rfl,
    (k.advance wait).takesTv hon (State.besideServices_congr (hmarks ..))⟩

/-- In diversity a first branch is lost without a mark (R219). -/
theorem State.FirstTv.tvSyncLoss_losesBranch (k : s.FirstTv key pre c post d) (hon : d.synced = true)
    (hmore : d.branchLost + 1 < d.branches) :
    ∃ t, exec (.tvSyncLoss key wait) s = .next t ∧
      (s.advance wait).TakesTv t pre c post { d with branchLost := d.branchLost + 1 } ∧ t.services = s.services ∧
      t.streams = s.streams := by
  simp only [exec, execTvSyncLoss, k.tv?_fits (p := fun d => d.synced) hon, if_pos hmore]
  exact ⟨_, rfl, (k.advance wait).takesTv hon rfl, rfl, rfl⟩

theorem State.FirstTv.tvReconfiguration_applies (k : s.FirstTv key pre c post d) (hon : d.synced = true) (g : TvSignal) :
    ∃ t, exec (.tvReconfiguration key g wait) s = .next t ∧ t.Told key g ∧ (s.advance wait).TakesTv t pre c post
      { d with signal := g, unsupported := g.unsupported, reconfigs := sat32 (d.reconfigs + 1) } := by
  have hmarks (vs : List Service) (u : State) : (vs.foldl (State.tvReconfigured g) u).besideStreams = u.besideStreams :=
    foldl_keeps State.besideStreams _ vs (State.tvReconfigured_besideStreams g) u
  simp only [exec, execTvReconfiguration, k.tv?_fits (p := fun d => d.synced) hon]
  exact ⟨_, rfl, State.signalled_told _ key g,
    (k.advance wait).takesTv hon ((State.signalled_besideServices ..).trans (State.besideServices_congr (hmarks ..)))⟩

theorem State.FirstTv.tvSearchTimeout_searching (k : s.FirstTv key pre c post d) (hoff : d.synced = false) :
    exec (.tvSearchTimeout key wait) s = .next (s.advance wait) := by
  have hp : (!d.synced) = true := by rw [hoff]; rfl
  simp only [exec, execTvSearchTimeout, k.tv?_fits (p := fun d => !d.synced) hp, Option.isSome_some, if_true]

/-! ### Sections and tables (R240, R241) -/

/-- A section joins the side data of each service that it belongs to and whose side-data stream is open. -/
def State.takesSection (s : State) (d : TvEngine) (y : SectionIn) : State := { s with
  side := s.side ++
    (((s.carrierSvcs y.carrier).filter (fun v => sectionFor v y)).filter (fun v => (s.stream? v.field 6).isSome)).map
      (fun v => ⟨v.field, y.stamp, (sectionRec (d.signal.std == 2) y).1, y.good, (sectionRec (d.signal.std == 2) y).2⟩) }

theorem exec_sectionReceived (y : SectionIn) : exec (.sectionReceived y wait) s = .next
    (match s.tv? y.carrier TvEngine.synced, s.carriers.find? (fun c => c.key == y.carrier && c.tvSynced) with
      | some d, some c =>
        let t := ((s.carrierSvcs y.carrier).filter (fun v => sectionFor v y)).foldl (fun s v => s.sideRec v.field y.stamp
          (sectionRec (d.signal.std == 2) y).1 y.good (sectionRec (d.signal.std == 2) y).2) (s.advance wait)
        if y.good then t.secParse c y else t
      | _, _ => s) := rfl

theorem State.FirstTv.sectionReceived_delivers {y : SectionIn} (k : s.FirstTv y.carrier pre c post d) (hon : d.synced = true) :
    exec (.sectionReceived y wait) s = .next
      (if y.good then ((s.advance wait).takesSection d y).secParse c y else (s.advance wait).takesSection d y) := by
  rw [exec_sectionReceived, k.tv?_fits hon, k.find?_synced hon]
  simp only [State.sideRec_foldl]
  rfl

theorem State.secParse_other {y : SectionIn} (hitem : y.item = .other) (s : State) (c : CarrierSt) : s.secParse c y = s := by
  simp only [State.secParse, hitem]

/-! ### No engine fits (log entry 2) -/

theorem State.FirstTv.rows_unfit (k : s.FirstTv key pre c post d) (hpost : ∀ x ∈ post, x.key ≠ key) (hoff : d.synced = false) :
    exec (.tvSyncLoss key wait) s = .next s ∧ (∀ g, exec (.tvReconfiguration key g wait) s = .next s) ∧
      (∀ y : SectionIn, y.carrier = key → exec (.sectionReceived y wait) s = .next s) := by
  have hnone : s.tv? key (fun d => d.synced) = none := k.tv?_unfit hpost hoff
  refine ⟨?_, fun g => ?_, ?_⟩
  · simp only [exec, execTvSyncLoss, hnone]
  · simp only [exec, execTvReconfiguration, hnone]
  · rintro y rfl
    rw [exec_sectionReceived, hnone]

end

/-- Settles O39: each row runs through the first engine of the carrier that fits it; the signalling tells every service in a
slot of the carrier's, and what else follows touches streams and side-data records alone. -/
theorem televisionEngines : Obligations.TelevisionEngines := by
  unfold Obligations.TelevisionEngines
  intro key wait s pre post c d s1 put gapped tells hcarriers hfresh hkeyed hengine
  have k : s.FirstTv key pre c post d := ⟨hcarriers, hfresh, hkeyed, hengine⟩
  refine ⟨fun g hoff => k.tvSynchronised_acquires hoff g,
    fun g hon hlost hpost => k.tvSynchronised_branchReturns hpost hon hlost g, fun hon hlast => ?_,
    k.tvSyncLoss_losesBranch, fun g hon => k.tvReconfiguration_applies hon g, k.tvSearchTimeout_searching, ?_,
    k.rows_unfit⟩
  · obtain ⟨t, hexec, hgap, hrest⟩ := k.tvSyncLoss_gaps (wait := wait) hon hlast
    exact ⟨t, hexec, fun v hv x hx hslot h1 h5 => hgap v hv x.kind h1 h5 x hx hslot rfl, hrest⟩
  · rintro x rfl hon
    have hrow := k.sectionReceived_delivers (wait := wait) hon
    refine ⟨fun hbad => ?_, fun hgood => ?_, fun hgood hitem => ?_⟩
    · rwa [hbad] at hrow
    · rwa [hgood] at hrow
    · rwa [hgood, if_pos rfl, State.secParse_other hitem] at hrow

end Sys2Proof.Machine
end

section
/-! PROOFS. What events, and the service map's own operations, leave as it was (R14, R247, R399). -/

namespace Sys2Proof.Machine

/-! ### An event leaves everything but queues and unit copies -/

/-- The state without the queues of its transports and without its units, which an event may join. -/
def State.untold (s : State) : State := { s.core with units := [] }

theorem untold_raise (s : State) (code : Nat) (f : W16) (ps : List Byte) : (s.raise code f ps).untold = s.untold := by
  refine (congrArg (fun x : State => { x with units := [] }) (core_raise s code f ps)).trans ?_
  unfold State.copyEvent State.eventCopy
  repeat' split
  all_goals rfl

/-- What a state says beside its queues and units, it says after an event. -/
theorem of_raise {α : Type} (p : State → α) (hp : ∀ s : State, p s.untold = p s) (s : State) (code : Nat) (f : W16)
    (ps : List Byte) : p (s.raise code f ps) = p s := by
  rw [← hp (s.raise code f ps), untold_raise, hp]

theorem slotSvc?_raise (s : State) (code : Nat) (f : W16) (ps : List Byte) (n : Nat) :
    (s.raise code f ps).slotSvc? n = s.slotSvc? n := of_raise (·.slotSvc? n) (fun _ => rfl) ..

/-! ### The service map and DT -/

/-- The service map and the time of a state. -/
def State.mapTime (s : State) : MapSt × TimeSt := (s.map, s.time)

@[simp] theorem ite_mapTime {c : Prop} [Decidable c] (a b : State) :
    (if c then a else b).mapTime = if c then a.mapTime else b.mapTime := apply_ite State.mapTime c a b

@[simp] theorem mapTime_raise (s : State) (code : Nat) (f : W16) (ps : List Byte) : (s.raise code f ps).mapTime = s.mapTime :=
  of_raise State.mapTime (fun _ => rfl) ..

@[simp] theorem mapTime_modSvc (s : State) (n : Nat) (f : Service → Service) : (s.modSvc n f).mapTime = s.mapTime := rfl
@[simp] theorem mapTime_modStream (s : State) (f : W16) (k : Nat) (g : Stream → Stream) :
    (s.modStream f k g).mapTime = s.mapTime := rfl
@[simp] theorem mapTime_zcAdd (s : State) (p : Nat) (g : Prog) (k : ZcKind) : (s.zcAdd p g k).mapTime = s.mapTime := rfl
@[simp] theorem mapTime_leaveLanes (s : State) (n : Nat) : (s.leaveLanes n).mapTime = s.mapTime := rfl
@[simp] theorem mapTime_gapStreams (s : State) (f : W16) : (s.gapStreams f).mapTime = s.mapTime := rfl
@[simp] theorem mapTime_recarrier (s : State) : s.recarrier.mapTime = s.mapTime := rfl

@[simp] theorem mapTime_moveState (s : State) (n : Nat) (st : SvcState) (reason : Nat) :
    (s.moveState n st reason).mapTime = s.mapTime := by
  unfold State.moveState
  split
  · rfl
  · exact mapTime_raise ..

@[simp] theorem mapTime_raiseDelay (s : State) (v : Service) : (s.raiseDelay v).mapTime = s.mapTime := by
  unfold State.raiseDelay
  dsimp only
  repeat' split
  all_goals simp

@[simp] theorem mapTime_publishOne (s : State) (n : Nat) : (s.publishOne n).mapTime = s.mapTime := by
  unfold State.publishOne
  dsimp only
  repeat' split
  all_goals simp

@[simp] theorem mapTime_followRebuild (s : State) : s.followRebuild.mapTime = s.mapTime := by
  refine foldl_keeps State.mapTime _ _ (fun s n => ?_) s
  split
  · rfl
  · simp

end Sys2Proof.Machine
end

section
/-! PROOFS. The rows of discovery and of the service map (O40). -/

namespace Sys2Proof.Machine

section
variable {s : State} {wait : Nat}

/-! ### PROBE_START -/

/-- The state with one more probe that runs. -/
def State.probing (s : State) (p : ProbeIn) : State := { s with map := { s.map with probes := s.map.probes ++ [p] } }

theorem exec_probeStart (p : ProbeIn) : exec (.probeStart p wait) s = .next
    (let t := if p.forSlot.isSome then (s.advance wait).yieldProbes ((s.advance wait).probeCharge p) else s.advance wait
     if t.power.mode.receives && !t.inputBarred p.input && t.probeOk p then t.probing p else s) := rfl

/-- A probe that fits takes no other's place (R256). -/
theorem State.yieldProbes_of_fits {need : Vec} (h : s.reserveFits need = true) : s.yieldProbes need = s := if_pos h

/-- A probe of discovery, or a candidate's with room in the reserve, meets the conditions as the device stands. -/
theorem probeStart_decides {p : ProbeIn}
    (hroom : p.forSlot = none ∨ (s.advance wait).reserveFits ((s.advance wait).probeCharge p) = true) :
    exec (.probeStart p wait) s = .next
      (if s.power.mode.receives && !s.inputBarred p.input && (s.advance wait).probeOk p then (s.advance wait).probing p
       else s) := by
  rw [exec_probeStart]
  rcases hroom with hnone | hfits
  · rw [hnone]; rfl
  · rw [State.yieldProbes_of_fits hfits, ite_self]; rfl

theorem probeStart_starts {p : ProbeIn}
    (hroom : p.forSlot = none ∨ (s.advance wait).reserveFits ((s.advance wait).probeCharge p) = true)
    (hmode : s.power.mode.receives = true) (hin : s.inputBarred p.input = false) (hok : (s.advance wait).probeOk p = true) :
    exec (.probeStart p wait) s = .next ((s.advance wait).probing p) := by
  rw [probeStart_decides hroom, hmode, hin, hok]; rfl

theorem probeStart_barred {p : ProbeIn} (hnone : p.forSlot = none)
    (h : s.power.mode.receives = false ∨ s.inputBarred p.input = true ∨ (s.advance wait).probeOk p = false) :
    exec (.probeStart p wait) s = .next s := by
  rw [probeStart_decides (.inl hnone), if_neg]
  rcases h with h | h | h <;> simp [h]

/-! ### PROBE_END -/

/-- Whether the end of a probe names a probe that runs. -/
def endsProbe (p : ProbeOut) (x : ProbeIn) : Bool :=
  x.standard == p.standard && x.freqKhz == p.freqKhz && x.input == p.input && x.forSlot == p.forSlot

/-- The state without the probes that a probe's end names. -/
def State.unprobed (s : State) (p : ProbeOut) : State :=
  { s with map := { s.map with probes := s.map.probes.filter (fun x => !endsProbe p x) } }

/-- The state with the point of a probe noted as failed in this pass (R245). -/
def State.noteFailed (s : State) (p : ProbeOut) : State :=
  { s with map := { s.map with failedPoints := s.map.failedPoints ++ [(p.freqKhz, p.input)] } }

/-- The end of a probe of discovery: what it read enters the shadow, or its point failed; then the pass may end (R245). -/
theorem exec_probeEnd_discovery {p : ProbeOut} (hruns : s.map.probes.any (endsProbe p) = true) (hnone : p.forSlot = none) :
    exec (.probeEnd p wait) s = .next
      (let u := (s.advance wait).unprobed p
       let t := if u.isMast then u else (if p.detected then p.entries else []).foldl State.upsert u
       let t := if p.detected && !p.entries.isEmpty then t else t.noteFailed p
       if p.passEnd then t.endPass else t) := by
  have hruns' : (!s.map.probes.any (endsProbe p)) = false := by rw [hruns]; rfl
  have hrow : exec (.probeEnd p wait) s = .next (if !s.map.probes.any (endsProbe p) then s else
      let u := (s.advance wait).unprobed p
      let t := if u.isMast then u else (if p.detected then p.entries else []).foldl State.upsert u
      let t := match p.forSlot with
        | some (slot, key) => t.probeFor slot key p
        | none => if p.detected && !p.entries.isEmpty then t else t.noteFailed p
      if p.passEnd && p.forSlot.isNone then t.endPass else t) := rfl
  rw [hrow, hruns']
  simp only [hnone, Bool.false_eq_true, if_false, Option.isNone_none, Bool.and_true]

theorem probeEnd_unnamed {p : ProbeOut} (h : s.map.probes.any (endsProbe p) = false) : exec (.probeEnd p wait) s = .next s := by
  have : (!s.map.probes.any (endsProbe p)) = true := by rw [h]; rfl
  exact congrArg _ (if_pos this)

/-- A probe of discovery that read no identity (R245). -/
theorem probeEnd_failed {p : ProbeOut} (hruns : s.map.probes.any (endsProbe p) = true) (hnone : p.forSlot = none)
    (hdet : p.detected = false) :
    exec (.probeEnd p wait) s = .next
      (let t := ((s.advance wait).unprobed p).noteFailed p
       if p.passEnd then t.endPass else t) := by
  rw [exec_probeEnd_discovery hruns hnone, hdet]
  simp only [Bool.false_eq_true, if_false, List.foldl_nil, ite_self, Bool.false_and]

/-- An entry as an observation brings it into the shadow (R242, R248). -/
def State.observed (s : State) (e : MapEntry) : MapEntry :=
  { e with key := clearKey e.key, lastSeen := s.seenNow, linkSet := 0xFF#8 }

/-- A key that the shadow does not have enters it in order of key while there is room (R249; the order is log entry 39). -/
theorem State.upsert_new {e : MapEntry} (hnew : ∀ x ∈ s.map.shadow.entries, sameKey x.key (clearKey e.key) = false)
    (hroom : s.map.shadow.entries.length < 4096) :
    s.upsert e = (s.setShadow (insertEntry (s.observed e) s.map.shadow.entries)).observe (clearKey e.key) := by
  have hnone : s.map.shadow.entries.find? (fun x => sameKey x.key (clearKey e.key)) = none :=
    List.find?_eq_none.2 fun x hx => by simp [hnew x hx]
  simp only [State.upsert, hnone, if_pos hroom]
  rfl

/-- A probe of discovery that read the identity of one new entry, away from the end of its pass. -/
theorem probeEnd_enters {p : ProbeOut} {e : MapEntry} (hruns : s.map.probes.any (endsProbe p) = true) (hnone : p.forSlot = none)
    (hdet : p.detected = true) (hone : p.entries = [e]) (hpass : p.passEnd = false) (hrole : s.isMast = false)
    (hnew : ∀ x ∈ s.map.shadow.entries, sameKey x.key (clearKey e.key) = false)
    (hroom : s.map.shadow.entries.length < 4096) :
    exec (.probeEnd p wait) s = .next
      ((((s.advance wait).unprobed p).setShadow (insertEntry ((s.advance wait).observed e) s.map.shadow.entries)).observe
        (clearKey e.key)) := by
  have hrole' : ((s.advance wait).unprobed p).isMast = false := hrole
  have hup := State.upsert_new (s := (s.advance wait).unprobed p) hnew hroom
  rw [exec_probeEnd_discovery hruns hnone, hdet, hone, hpass]
  simp only [hrole', Bool.false_eq_true, if_false, if_true, List.foldl_cons, List.foldl_nil, List.isEmpty_cons, Bool.not_false,
    Bool.and_self, hup]
  rfl

/-! ### MAP_PUBLICATION and MAP_ENTRY_EXPIRY -/

/-- The map after its shadow is published (R247). -/
def MapSt.afterPublish (m : MapSt) : MapSt :=
  { m with published := m.shadow, gen := m.gen + 1, refusedIval := 0, due := false, passDone := false }

/-- Publishing changes the map as R247 says, and not DT. -/
theorem State.publish_mapTime (s : State) : s.publish.mapTime = (s.map.afterPublish, s.time) := by
  unfold State.publish
  rw [mapTime_followRebuild, foldl_keeps State.mapTime _ _ (fun s n => mapTime_publishOne s n), mapTime_recarrier, mapTime_raise]
  rfl

/-- What MAP_PUBLICATION would publish: the shadow after its learned sets have aged and its link sets are drawn anew, at the
boundary that DT comes to (R247, R262, R514; log entry 26). -/
def State.toPublish (s : State) : State :=
  let r := s.dropLearned.relink
  { r with time := { r.time with dt := BitVec.ofNat 64 (max s.now s.time.boundary) } }

theorem exec_mapPublication (s : State) : exec .mapPublication s = .next
    (if !s.power.ready || s.isMast || !s.publishDue then s
     else if s.dropLearned.relink.map.shadow = s.map.published ∧ s.map.refusedIval = 0 then s else s.toPublish.publish) := rfl

theorem mapPublication_publishes (hready : s.power.ready = true) (hrole : s.isMast = false) (hdue : s.publishDue = true)
    (hdiff : s.dropLearned.relink.map.shadow ≠ s.map.published ∨ s.map.refusedIval ≠ 0) :
    exec .mapPublication s = .next s.toPublish.publish := by
  rw [exec_mapPublication, hready, hrole, hdue, if_neg (by decide), if_neg (by tauto)]

theorem mapPublication_keeps (h : s.power.ready = false ∨ s.isMast = true ∨ s.publishDue = false ∨
    (s.dropLearned.relink.map.shadow = s.map.published ∧ s.map.refusedIval = 0)) : exec .mapPublication s = .next s := by
  rw [exec_mapPublication]
  split
  · rfl
  next hgo =>
    rw [if_pos]
    rcases h with h | h | h | h
    · simp [h] at hgo
    · simp [h] at hgo
    · simp [h] at hgo
    · exact h

theorem exec_mapEntryExpiry (key : W64) (s : State) : exec (.mapEntryExpiry key) s = .next
    (if !s.expired key then s else { s with map := { s.map with
      shadow := { s.map.shadow with entries := s.map.shadow.entries.filter (fun e => e.key != key) },
      absent := s.map.absent.filter (fun x => x.1 != key), seenAt := s.map.seenAt.filter (fun x => x.1 != key) } }) := rfl

end

/-- Settles O40: each row is a change of the map alone, under the conditions that let it take place; what publication does to
services and streams leaves the map and DT as they were. -/
theorem mapRows : Obligations.MapRows := by
  unfold Obligations.MapRows
  intro wait s s1
  refine ⟨fun p hnone => ⟨?_, ?_⟩, fun p k _ hmode hin hroom hok => ?_, fun p => ⟨probeEnd_unnamed, ?_, ?_⟩,
    ⟨?_, mapPublication_keeps⟩, ?_, ?_⟩
  · exact probeStart_starts (.inl hnone)
  · exact probeStart_barred hnone
  · exact probeStart_starts (.inr hroom) hmode hin hok
  · intro hruns hnone hdet
    have hrow := probeEnd_failed (wait := wait) hruns hnone hdet
    refine ⟨fun hpass => ?_, fun hpass => ?_⟩
    · rw [hpass] at hrow; exact hrow
    · rw [hpass] at hrow; exact hrow
  · intro e hruns hnone hdet hone hpass hrole hnew hroom
    exact ⟨_, probeEnd_enters hruns hnone hdet hone hpass hrole hnew hroom, rfl, rfl, rfl, rfl⟩
  · intro hready hrole hdue hdiff
    obtain ⟨hmap, htime⟩ := Prod.ext_iff.1 (State.publish_mapTime s.toPublish)
    refine ⟨_, mapPublication_publishes hready hrole hdue hdiff, ?_, ?_, ?_, ?_, ?_, congrArg TimeSt.dt htime⟩
    · exact congrArg MapSt.gen hmap
    · exact congrArg MapSt.published hmap
    · exact congrArg MapSt.refusedIval hmap
    · exact congrArg MapSt.due hmap
    · exact congrArg MapSt.passDone hmap
  · intro key h
    rw [exec_mapEntryExpiry, h]; rfl
  · intro key h
    rw [exec_mapEntryExpiry, h]; rfl

end Sys2Proof.Machine
end

section
/-! PROOFS. The rows that end splices (O41; R259, R267 to R270). -/

namespace Sys2Proof.Machine

section
variable {s : State} {n wait : Nat} {v : Service} {x : Splice}

/-- DT has reached a moment and a time after it. -/
theorem State.elapsed_of_le {since : W64} {ns : Nat} (h : since.toNat + ns ≤ s.now) : s.elapsed since ns = true :=
  decide_eq_true h

theorem State.elapsed_of_lt {since : W64} {ns : Nat} (h : s.now < since.toNat + ns) : s.elapsed since ns = false :=
  decide_eq_false (Nat.not_le.2 h)

/-! ### A splice that is abandoned -/

/-- A service whose splice is abandoned, PLACED with the reception that it had (R269). -/
def Service.spliceDropped (dt : W64) (w : Service) : Service :=
  { w with follow := { w.follow with splice := none }, state := .placed, reason := 0x0C, stateDt := dt }

/-- An abandoned splice gives its lanes up and leaves its service PLACED, with the event (R14, R269). -/
theorem State.abandonSplice_eq (hv : s.slotSvc? n = some v) :
    s.abandonSplice n = ((s.dropJoining n).modSvc n (Service.spliceDropped s.time.dt)).sayPlaced v 0x0C :=
  State.placed_of_migrating (s := s.dropJoining n) (f := fun w => { w with follow := { w.follow with splice := none } }) 0x0C
    (fun _ => rfl) hv rfl rfl rfl

/-! ### A splice that switches -/

/-- The accepted settings and the incarnation of the service in a slot. -/
def State.slotAs (s : State) (n : Nat) : Option (SvcSettings × Nat) := (s.slotSvc? n).map (fun w => (w.acc, w.inc))

@[simp] theorem slotAs_modSvc (s : State) (k n : Nat) (f : Service → Service) (hs : ∀ w, (f w).slot = w.slot)
    (ha : ∀ w, (f w).acc = w.acc) (hi : ∀ w, (f w).inc = w.inc) : (s.modSvc k f).slotAs n = s.slotAs n := by
  have h (w : Service) : ((if w.slot == k then f w else w).acc, (if w.slot == k then f w else w).inc) = (w.acc, w.inc) := by
    split
    · rw [ha, hi]
    · rfl
  simp only [State.slotAs, State.slotSvc?_modSvc hs, Option.map_map, Function.comp_def, h]

@[simp] theorem slotAs_raise (s : State) (code : Nat) (f : W16) (ps : List Byte) (n : Nat) :
    (s.raise code f ps).slotAs n = s.slotAs n := of_raise (·.slotAs n) (fun _ => rfl) ..

@[simp] theorem slotAs_modStream (s : State) (f : W16) (k n : Nat) (g : Stream → Stream) :
    (s.modStream f k g).slotAs n = s.slotAs n := rfl
@[simp] theorem slotAs_zcAdd (s : State) (p n : Nat) (g : Prog) (k : ZcKind) : (s.zcAdd p g k).slotAs n = s.slotAs n := rfl
@[simp] theorem slotAs_markSwitch (s : State) (v : Service) (method n : Nat) :
    (s.markSwitch v method).slotAs n = s.slotAs n := rfl

@[simp] theorem slotAs_switchEvent (s : State) (v : Service) (x : Splice) (m : SpliceIn) (delta : Int) (d n : Nat) :
    (s.switchEvent v x m delta d).slotAs n = s.slotAs n := slotAs_raise ..

@[simp] theorem slotAs_raiseDelay (s : State) (v : Service) (n : Nat) : (s.raiseDelay v).slotAs n = s.slotAs n := by
  unfold State.raiseDelay
  dsimp only
  repeat' split
  all_goals simp

/-- A service on the target of its splice (R267, R270). -/
def Service.onTarget (x : Splice) (key dt : W64) (w : Service) : Service := { w with
  rx := x.dest, diversity := false
  follow := { w.follow with splice := none, lastSplice := some dt, failMs := 0, margin := x.target.margin, curKey := key } }

/-- The candidates of the service in a slot are drawn anew. -/
def State.redrawn (s : State) (n : Nat) : State :=
  match s.slotSvc? n with
  | some w => s.modSvc n (fun y => { y with follow := { w.follow with cands := s.candList w } })
  | none => s

/-- What a switch does to its service: after the marks and the event of R270, which leave its settings and incarnation, the
service takes its target, its lanes settle, and it becomes PLACED with new candidates. -/
theorem State.switchSplice_takesTarget (s : State) (v : Service) (x : Splice) (m : SpliceIn) :
    ∃ (t : State) (key dt : W64), t.slotAs v.slot = s.slotAs v.slot ∧ s.switchSplice v x m =
      ((((t.modSvc v.slot (Service.onTarget x key dt)).zcSwitch v .splice).settleLanes v.slot).moveState v.slot .placed
        0x0C).redrawn v.slot := by
  refine ⟨_, _, _, ?_, rfl⟩
  simp

theorem State.zcSwitch_services (s : State) (v : Service) (k : ZcKind) : (s.zcSwitch v k).services = s.services := by
  unfold State.zcSwitch
  repeat' split
  all_goals rfl

theorem State.slotSvc?_congr {t : State} (h : t.services = s.services) (n : Nat) : t.slotSvc? n = s.slotSvc? n :=
  congrArg (fun l : List Service => l.find? (fun v : Service => v.slot == n)) h

theorem State.slotSvc?_moveState_placed (reason : Nat) (hv : s.slotSvc? n = some v) :
    (s.moveState n .placed reason).slotSvc? n = some { v with state := .placed, reason := reason, stateDt := s.time.dt } := by
  rw [State.moveState_placed reason hv, State.sayPlaced, slotSvc?_raise]
  exact State.slotSvc?_modSvc_self (fun _ => rfl) hv

theorem State.slotSvc?_redrawn (hv : s.slotSvc? n = some v) :
    (s.redrawn n).slotSvc? n = some { v with follow := { v.follow with cands := s.candList v } } := by
  simp only [State.redrawn, hv]
  exact State.slotSvc?_modSvc_self (fun _ => rfl) hv

/-- Piloting the audio ports anew leaves the services alone. -/
theorem State.repath_services (s : State) (p : Nat) (g : Prog) : (s.repath p g).services = s.services := by
  unfold State.repath
  dsimp only
  repeat' split
  all_goals rfl

theorem State.repilotAll_services (s : State) : s.repilotAll.services = s.services :=
  foldl_keeps (·.services) _ _
    (fun s p => foldl_keeps (·.services) _ _ (fun s g => State.repath_services s p g) (s.modAudio p _)) s

/-- The service after its splice has switched (R267, R270). -/
structure Service.Spliced (v : Service) (x : Splice) (w : Service) : Prop where
  rx : w.rx = x.dest
  diversity : w.diversity = false
  state : w.state = .placed
  reason : w.reason = 0x0C
  splice : w.follow.splice = none
  margin : w.follow.margin = x.target.margin
  acc : w.acc = v.acc
  inc : w.inc = v.inc

theorem State.switchSplice_spliced (hv : s.slotSvc? v.slot = some v) (x : Splice) (m : SpliceIn) :
    ∃ w, (s.switchSplice v x m).repilotAll.slotSvc? v.slot = some w ∧ v.Spliced x w := by
  obtain ⟨t, key, dt, has, heq⟩ := s.switchSplice_takesTarget v x m
  obtain ⟨w, hw, hwv⟩ : ∃ w, t.slotSvc? v.slot = some w ∧ (w.acc, w.inc) = (v.acc, v.inc) := by
    rwa [State.slotAs, State.slotAs, hv, Option.map_some, Option.map_eq_some_iff] at has
  obtain ⟨hacc, hinc⟩ := Prod.ext_iff.1 hwv
  have htarget : (((t.modSvc v.slot (Service.onTarget x key dt)).zcSwitch v .splice).settleLanes v.slot).slotSvc? v.slot
      = some (w.onTarget x key dt) :=
    (State.slotSvc?_congr (State.zcSwitch_services ..) _).trans (State.slotSvc?_modSvc_self (fun _ => rfl) hw)
  have hplaced := State.slotSvc?_redrawn (State.slotSvc?_moveState_placed 0x0C htarget)
  rw [State.slotSvc?_congr (State.repilotAll_services _), heq]
  exact ⟨_, hplaced, rfl, rfl, rfl, rfl, rfl, rfl, hacc, hinc⟩

/-! ### SPLICE_SWITCH -/

theorem exec_spliceSwitch (hv : s.slotSvc? n = some v) (hx : v.follow.splice = some x) (m : SpliceIn) :
    exec (.spliceSwitch n m wait) s = .next
      (if !(s.advance wait).alignOk v x m then s
       else if x.cause != 0 && !m.held then (s.advance wait).abandonSplice n
       else ((s.advance wait).switchSplice v x m).repilotAll) := by
  simp only [exec, execSpliceSwitch, hv, hx]

theorem spliceSwitch_waits (hv : s.slotSvc? n = some v) (hx : v.follow.splice = some x) {m : SpliceIn}
    (hno : (s.advance wait).alignOk v x m = false) : exec (.spliceSwitch n m wait) s = .next s := by
  rw [exec_spliceSwitch hv hx, hno]; rfl

theorem spliceSwitch_abandons (hv : s.slotSvc? n = some v) (hx : v.follow.splice = some x) {m : SpliceIn}
    (hok : (s.advance wait).alignOk v x m = true) (hc : x.cause ≠ 0) (hlead : m.held = false) :
    exec (.spliceSwitch n m wait) s = .next ((s.advance wait).abandonSplice n) := by
  rw [exec_spliceSwitch hv hx, hok, hlead, bne_iff_ne.2 hc]; rfl

theorem spliceSwitch_switches (hv : s.slotSvc? n = some v) (hx : v.follow.splice = some x) {m : SpliceIn}
    (hok : (s.advance wait).alignOk v x m = true) (hlead : x.cause = 0 ∨ m.held = true) :
    exec (.spliceSwitch n m wait) s = .next ((s.advance wait).switchSplice v x m).repilotAll := by
  have hgo : (x.cause != 0 && !m.held) = false := by rcases hlead with h | h <;> simp [h]
  rw [exec_spliceSwitch hv hx, hok, hgo]; rfl

/-! ### SPLICE_TIMEOUT -/

theorem exec_spliceTimeout (hv : s.slotSvc? n = some v) (hx : v.follow.splice = some x) :
    exec (.spliceTimeout n wait) s = .next
      (if x.cause = 0 then
        if (s.advance wait).elapsed x.started 2000000000 then
          (s.advance wait).modSvc n (fun y => { y with follow := { y.follow with splice := some { x with fallback := true } } })
        else s
       else if (s.advance wait).elapsed x.started (s.force.follow.nat 12 10 * 1000000000) then (s.advance wait).abandonSplice n
       else s) := by
  simp only [exec, execSpliceTimeout, hv, hx]

theorem spliceTimeout_fallsBack (hv : s.slotSvc? n = some v) (hx : v.follow.splice = some x) (hc : x.cause = 0)
    (hlate : x.started.toNat + 2000000000 ≤ (s.advance wait).now) :
    exec (.spliceTimeout n wait) s = .next ((s.advance wait).modSvc n
      (fun y => { y with follow := { y.follow with splice := some { x with fallback := true } } })) := by
  rw [exec_spliceTimeout hv hx, if_pos hc, State.elapsed_of_le hlate, if_pos rfl]

theorem spliceTimeout_abandons (hv : s.slotSvc? n = some v) (hx : v.follow.splice = some x) (hc : x.cause ≠ 0)
    (hlate : x.started.toNat + s.force.follow.nat 12 10 * 1000000000 ≤ (s.advance wait).now) :
    exec (.spliceTimeout n wait) s = .next ((s.advance wait).abandonSplice n) := by
  rw [exec_spliceTimeout hv hx, if_neg hc, State.elapsed_of_le hlate, if_pos rfl]

theorem spliceTimeout_earlyFailure (hv : s.slotSvc? n = some v) (hx : v.follow.splice = some x) (hc : x.cause = 0)
    (hearly : (s.advance wait).now < x.started.toNat + 2000000000) : exec (.spliceTimeout n wait) s = .next s := by
  rw [exec_spliceTimeout hv hx, if_pos hc, State.elapsed_of_lt hearly]; rfl

theorem spliceTimeout_early (hv : s.slotSvc? n = some v) (hx : v.follow.splice = some x) (hc : x.cause ≠ 0)
    (hearly : (s.advance wait).now < x.started.toNat + s.force.follow.nat 12 10 * 1000000000) :
    exec (.spliceTimeout n wait) s = .next s := by
  rw [exec_spliceTimeout hv hx, if_neg hc, State.elapsed_of_lt hearly]; rfl

/-- Without a splice in the slot, neither row changes anything (log entry 2). -/
theorem spliceRows_none (h : ∀ v, s.slotSvc? n = some v → v.follow.splice = none) :
    (∀ m, exec (.spliceSwitch n m wait) s = .next s) ∧ exec (.spliceTimeout n wait) s = .next s := by
  cases hv : s.slotSvc? n with
  | none => simp only [exec, execSpliceSwitch, execSpliceTimeout, hv, implies_true, and_self]
  | some v => simp only [exec, execSpliceSwitch, execSpliceTimeout, hv, h v hv, implies_true, and_self]

end

end Sys2Proof.Machine
end

section
/-! PROOFS. The row that ends alerts and routings (R272, R275), and O41. -/

namespace Sys2Proof.Machine

section
variable {s : State} {n wait : Nat} {v : Service}

/-! ### What the end of alerts leaves alone -/

/-- The alerts, the services and the time of a state. -/
def State.alertView (s : State) : List Alert × List Service × TimeSt := (s.alerts, s.services, s.time)

@[simp] theorem alertView_raise (s : State) (code : Nat) (f : W16) (ps : List Byte) :
    (s.raise code f ps).alertView = s.alertView := of_raise State.alertView (fun _ => rfl) ..

@[simp] theorem ite_alertView {c : Prop} [Decidable c] (a b : State) :
    (if c then a else b).alertView = if c then a.alertView else b.alertView := apply_ite State.alertView c a b

/-- The units and the event of an alert change no alert, service or time. -/
theorem alertView_sayAlert (s : State) (a : Alert) (st : Nat) (stamp : W64) (sig : List Byte) :
    (s.sayAlert a st stamp sig).alertView = s.alertView := by
  unfold State.sayAlert
  dsimp only
  simp only [ite_alertView, alertView_raise, ite_self]
  exact foldl_keeps State.alertView _ _ (fun s v => by split <;> rfl) s

theorem alertView_routeSwitch (s : State) (v : Service) : (s.routeSwitch v).alertView = s.alertView := by
  unfold State.routeSwitch
  repeat' split
  all_goals rfl

/-! ### Routings that end -/

/-- A service without a routing (R275). -/
def Service.unrouted (v : Service) : Service := { v with follow := { v.follow with routing := none } }

theorem Service.unrouted_of_none (h : v.follow.routing = none) : v.unrouted = v := by
  rw [Service.unrouted, ← h]

theorem Service.unrouted_slot (v : Service) : v.unrouted.slot = v.slot := rfl

/-- A slot has no routing, or its service has one. -/
theorem State.routing_cases (s : State) (n : Nat) : (∀ v, s.slotSvc? n = some v → v.follow.routing = none) ∨
    ∃ v r, s.slotSvc? n = some v ∧ v.follow.routing = some r := by
  by_cases h : ∀ v, s.slotSvc? n = some v → v.follow.routing = none
  · exact .inl h
  · simp only [not_forall] at h
    obtain ⟨v, hv, hr⟩ := h
    exact .inr ⟨v, (Option.ne_none_iff_exists'.1 hr).imp fun _ hr => ⟨hv, hr⟩⟩

/-- A slot without a routing has none to end. -/
theorem State.endRouting_of_none (h : ∀ v, s.slotSvc? n = some v → v.follow.routing = none) : s.endRouting n = s := by
  cases hv : s.slotSvc? n with
  | none => simp only [State.endRouting, hv]
  | some v => simp only [State.endRouting, hv, h v hv]

/-- A routing that ends leaves its service without one, and switches out unless it had yet to switch in. -/
theorem State.endRouting_of_some {r : Routing} (hv : s.slotSvc? n = some v) (hr : v.follow.routing = some r) :
    s.endRouting n = if r.pending then s.modSvc n Service.unrouted else (s.modSvc n Service.unrouted).routeSwitch v := by
  simp only [State.endRouting, hv, hr]
  rfl

/-- The end of a slot's routing, as alerts, services and time see it. -/
theorem alertView_endRouting (s : State) (n : Nat) :
    (s.endRouting n).alertView = s.alertView ∧ (∀ v, s.slotSvc? n = some v → v.follow.routing = none) ∨
      (s.endRouting n).alertView = (s.modSvc n Service.unrouted).alertView := by
  rcases s.routing_cases n with h | ⟨v, r, hv, hr⟩
  · exact .inl ⟨congrArg State.alertView (State.endRouting_of_none h), h⟩
  · refine .inr ?_
    rw [State.endRouting_of_some hv hr, ite_alertView, alertView_routeSwitch, ite_self]

theorem endRouting_alerts (s : State) (n : Nat) : (s.endRouting n).alerts = s.alerts := by
  rcases alertView_endRouting s n with ⟨h, -⟩ | h <;> exact congrArg (·.1) h

theorem endRouting_time (s : State) (n : Nat) : (s.endRouting n).time = s.time := by
  rcases alertView_endRouting s n with ⟨h, -⟩ | h <;> exact congrArg (·.2.2) h

/-- After the routing of a slot has ended, its service has none. -/
theorem slotSvc?_endRouting_self (s : State) (n : Nat) : (s.endRouting n).slotSvc? n = (s.slotSvc? n).map Service.unrouted := by
  rcases alertView_endRouting s n with ⟨h, hnone⟩ | h
  · rw [State.slotSvc?_congr (congrArg (·.2.1) h)]
    cases hv : s.slotSvc? n with
    | none => rfl
    | some v => rw [Option.map_some, Service.unrouted_of_none (hnone v hv)]
  · rw [State.slotSvc?_congr (congrArg (·.2.1) h)]
    cases hv : s.slotSvc? n with
    | none => rw [State.slotSvc?_modSvc Service.unrouted_slot, hv]; rfl
    | some v => exact State.slotSvc?_modSvc_self Service.unrouted_slot hv

/-- The end of any slot's routing leaves the service of a slot as it was, or without a routing. -/
theorem slotSvc?_endRouting (s : State) (k n : Nat) : (s.endRouting k).slotSvc? n = s.slotSvc? n ∨
    (s.endRouting k).slotSvc? n = (s.slotSvc? n).map Service.unrouted := by
  by_cases hk : n = k
  · subst hk; exact .inr (slotSvc?_endRouting_self s n)
  · refine .inl ?_
    rcases alertView_endRouting s k with ⟨h, -⟩ | h
    · exact State.slotSvc?_congr (congrArg (·.2.1) h) n
    · exact (State.slotSvc?_congr (congrArg (·.2.1) h) n).trans (State.slotSvc?_modSvc_ne Service.unrouted_slot hk)

/-- Two states agree in alerts and time, and the service of a slot is the same or has lost its routing. -/
structure RoutesEnded (n : Nat) (s t : State) : Prop where
  alerts : t.alerts = s.alerts
  time : t.time = s.time
  slot : t.slotSvc? n = s.slotSvc? n ∨ t.slotSvc? n = (s.slotSvc? n).map Service.unrouted

theorem RoutesEnded.endRouting {t : State} (h : RoutesEnded n s t) (k : Nat) : RoutesEnded n s (t.endRouting k) where
  alerts := (endRouting_alerts t k).trans h.alerts
  time := (endRouting_time t k).trans h.time
  slot := by
    rcases slotSvc?_endRouting t k n with e | e <;> rcases h.slot with h | h
    · exact .inl (e.trans h)
    · exact .inr (e.trans h)
    · exact .inr (e.trans (congrArg _ h))
    · exact .inr (e.trans (by rw [h, Option.map_map]; rfl))

theorem routesEnded_endRoutes (s : State) (n : Nat) : RoutesEnded n s s.endRoutes := by
  refine List.foldlRecOn s.services _ (motive := RoutesEnded n s) ⟨rfl, rfl, .inl rfl⟩ fun t ht v _ => ?_
  split
  · split
    · exact ht
    · exact ht.endRouting v.slot
  · exact ht

/-! ### The end of alerts -/

/-- The state with the alerts that have not ended. -/
def State.keepAlerts (s : State) (p : Alert → Bool) : State := { s with alerts := s.alerts.filter (fun a => !p a) }

/-- Alerts that end leave the list; a routing may end with them (R272, R275). -/
theorem routesEnded_alertOff (s : State) (p : Alert → Bool) (stamp : W64) (sig : List Byte) (n : Nat) :
    RoutesEnded n (s.keepAlerts p) (s.alertOff p stamp sig) := by
  have hsaid := foldl_keeps State.alertView (fun s a => s.sayAlert a 2 stamp sig) (s.alerts.filter p)
    (fun s a => alertView_sayAlert s a 2 stamp sig) (s.keepAlerts p)
  obtain ⟨ha, ht, hslot⟩ := routesEnded_endRoutes
    ((s.alerts.filter p).foldl (fun s a => s.sayAlert a 2 stamp sig) (s.keepAlerts p)) n
  rw [State.slotSvc?_congr (congrArg (·.2.1) hsaid)] at hslot
  exact ⟨ha.trans (congrArg (·.1) hsaid), ht.trans (congrArg (·.2.2) hsaid), hslot⟩

/-- Without a routing anywhere, none ends. -/
theorem State.endRoutes_of_none (h : ∀ v ∈ s.services, v.follow.routing = none) : s.endRoutes = s :=
  List.foldlRecOn s.services _ (motive := fun t => t = s) rfl fun t ht v hv => by simp only [h v hv, ht]

/-- Where no alert has ended and nothing is routed, the end of alerts changes nothing. -/
theorem State.alertOff_none {p : Alert → Bool} {stamp : W64} {sig : List Byte} (ha : ∀ a ∈ s.alerts, p a = false)
    (hr : ∀ v ∈ s.services, v.follow.routing = none) : s.alertOff p stamp sig = s := by
  have hended : s.alerts.filter p = [] := List.filter_eq_nil_iff.2 fun a h => by simp [ha a h]
  have hkept : s.alerts.filter (fun a => !p a) = s.alerts := List.filter_eq_self.2 fun a h => by simp [ha a h]
  simp only [State.alertOff, hended, hkept, List.foldl_nil]
  exact State.endRoutes_of_none hr

/-! ### ALERT_TIMEOUT -/

/-- An alert whose routing into a slot has reached its limit is not routed there again (R275). -/
def Alert.spentIn (n : Nat) (r : Routing) (a : Alert) : Alert :=
  if a.type == r.type && a.key == r.key then { a with spent := a.spent ++ [n] } else a

theorem Alert.spentIn_eq (n : Nat) (r : Routing) (a : Alert) : a.spentIn n r = { a with spent := (a.spentIn n r).spent } := by
  unfold Alert.spentIn
  split <;> rfl

/-- The state after the alerts that have timed out have ended. -/
def State.timedOut (s : State) : State := s.alertOff s.alertTimedOut s.time.dt []

/-- The state after the routing of a slot has reached its limit. -/
def State.routeSpent (s : State) (n : Nat) (r : Routing) : State :=
  ({ s with alerts := s.alerts.map (Alert.spentIn n r) } : State).endRouting n

/-- The routing of a service has reached its limit (R275). -/
def State.routeLimit (s : State) (v : Service) (r : Routing) : Bool :=
  s.elapsed r.since (v.force.alertLimit.toNat * 1000000000)

/-- The state after the routing of a slot has ended where it has reached its limit. -/
def State.routeDue (s : State) (n : Nat) : State :=
  match s.slotSvc? n with
  | none => s
  | some v => match v.follow.routing with
    | none => s
    | some r => if s.routeLimit v r then s.routeSpent n r else s

theorem exec_alertTimeout : exec (.alertTimeout n wait) s = .next ((s.advance wait).timedOut.routeDue n) := rfl

theorem State.routeDue_of_none (h : ∀ v, s.slotSvc? n = some v → v.follow.routing = none) : s.routeDue n = s := by
  cases hv : s.slotSvc? n with
  | none => simp only [State.routeDue, hv]
  | some v => simp only [State.routeDue, hv, h v hv]

theorem State.routeDue_of_some {r : Routing} (hv : s.slotSvc? n = some v) (hr : v.follow.routing = some r) :
    s.routeDue n = if s.routeLimit v r then s.routeSpent n r else s := by
  simp only [State.routeDue, hv, hr]

/-- The routing of a slot ends, or the slot has none that has reached its limit. -/
theorem State.routeDue_cases (s : State) (n : Nat) : (∃ r, s.routeDue n = s.routeSpent n r) ∨
    s.routeDue n = s ∧ ∀ v r, s.slotSvc? n = some v → v.follow.routing = some r → s.routeLimit v r = false := by
  rcases s.routing_cases n with h | ⟨v, r, hv, hr⟩
  · refine .inr ⟨State.routeDue_of_none h, fun v r hv hr => ?_⟩
    cases (h v hv).symm.trans hr
  · rw [State.routeDue_of_some hv hr]
    cases hl : s.routeLimit v r with
    | true => exact .inl ⟨r, rfl⟩
    | false =>
      refine .inr ⟨rfl, fun w q hw hq => ?_⟩
      cases hv.symm.trans hw
      cases hr.symm.trans hq
      exact hl

/-- The alerts of `t` are those of `s` that have not timed out, but for the slots whose route limit they have used up. -/
def AlertsKept (s t : State) : Prop :=
  (∀ a ∈ t.alerts, s.alertTimedOut a = false) ∧
    ∀ a ∈ s.alerts, s.alertTimedOut a = false → ∃ b ∈ t.alerts, b = { a with spent := b.spent }

theorem alertsKept_timedOut (s : State) : AlertsKept s s.timedOut := by
  have hmem (a : Alert) : a ∈ s.timedOut.alerts ↔ a ∈ s.alerts ∧ s.alertTimedOut a = false := by
    rw [State.timedOut, (routesEnded_alertOff s s.alertTimedOut s.time.dt [] 0).alerts]
    simp [State.keepAlerts, List.mem_filter]
  exact ⟨fun a ha => ((hmem a).1 ha).2, fun a ha hin => ⟨a, (hmem a).2 ⟨ha, hin⟩, rfl⟩⟩

/-- Whether an alert has timed out does not rest on the slots that it is spent in. -/
theorem State.alertTimedOut_spentIn (s : State) (n : Nat) (r : Routing) (a : Alert) :
    s.alertTimedOut (a.spentIn n r) = s.alertTimedOut a := by
  rw [Alert.spentIn_eq]; rfl

theorem AlertsKept.routeSpent {t : State} (h : AlertsKept s t) (n : Nat) (r : Routing) : AlertsKept s (t.routeSpent n r) := by
  obtain ⟨hin, hkept⟩ := h
  have halerts : (t.routeSpent n r).alerts = t.alerts.map (Alert.spentIn n r) := endRouting_alerts ..
  refine ⟨fun b hb => ?_, fun a ha hno => ?_⟩
  · obtain ⟨a, ha, rfl⟩ := List.mem_map.1 (halerts ▸ hb)
    rw [State.alertTimedOut_spentIn, hin a ha]
  · obtain ⟨b, hb, hab⟩ := hkept a ha hno
    refine ⟨b.spentIn n r, halerts ▸ List.mem_map_of_mem hb, ?_⟩
    rw [Alert.spentIn_eq, hab]

/-- ALERT_TIMEOUT keeps the alerts that have not timed out and no other, and a routing of the slot that is at its limit ends,
whether by its alert's end or by the limit. -/
theorem alertTimeout_ends (s : State) (n wait : Nat) :
    ∃ t, exec (.alertTimeout n wait) s = .next t ∧ AlertsKept (s.advance wait) t ∧
      ∀ v r, s.slotSvc? n = some v → v.follow.routing = some r →
        r.since.toNat + v.force.alertLimit.toNat * 1000000000 ≤ (s.advance wait).now →
        ∃ w, t.slotSvc? n = some w ∧ w.follow.routing = none := by
  have hkept := alertsKept_timedOut (s.advance wait)
  obtain ⟨-, htime, hslot⟩ :=
    routesEnded_alertOff (s.advance wait) (s.advance wait).alertTimedOut (s.advance wait).time.dt [] n
  have hslot' (v : Service) (hv : s.slotSvc? n = some v) :
      (s.advance wait).timedOut.slotSvc? n = some v ∨ (s.advance wait).timedOut.slotSvc? n = some v.unrouted := by
    have : ((s.advance wait).keepAlerts (s.advance wait).alertTimedOut).slotSvc? n = some v := hv
    rw [this] at hslot
    exact hslot
  rcases (s.advance wait).timedOut.routeDue_cases n with ⟨r, hdue⟩ | ⟨hdue, hlimit⟩
  · refine ⟨_, exec_alertTimeout.trans (congrArg _ hdue), hkept.routeSpent n r, fun v _ hv _ _ => ⟨v.unrouted, ?_, rfl⟩⟩
    have hself : ((s.advance wait).timedOut.routeSpent n r).slotSvc? n
        = ((s.advance wait).timedOut.slotSvc? n).map Service.unrouted := slotSvc?_endRouting_self _ n
    rcases hslot' v hv with h | h <;> rw [hself, h] <;> rfl
  · refine ⟨_, exec_alertTimeout.trans (congrArg _ hdue), hkept, fun v r hv hr hlate => ?_⟩
    rcases hslot' v hv with h | h
    · have hnow : (s.advance wait).timedOut.now = (s.advance wait).now := congrArg (fun x : TimeSt => x.dt.toNat) htime
      have hover : (s.advance wait).timedOut.routeLimit v r = true := State.elapsed_of_le (hnow ▸ hlate)
      rw [hlimit v r h hr] at hover
      cases hover
    · exact ⟨_, h, rfl⟩

/-- Where no alert has timed out and nothing is routed, only time passes. -/
theorem alertTimeout_quiet (ha : ∀ a ∈ s.alerts, (s.advance wait).alertTimedOut a = false)
    (hr : ∀ v ∈ s.services, v.follow.routing = none) : exec (.alertTimeout n wait) s = .next (s.advance wait) := by
  have hsame : (s.advance wait).timedOut = s.advance wait := State.alertOff_none ha hr
  rw [exec_alertTimeout, hsame, State.routeDue_of_none (s := s.advance wait) fun v hv => hr v (List.mem_of_find?_eq_some hv)]

end

/-- Settles O41: a splice ends by the switch to its target or by giving its lanes up, and what an alert's end says and
unroutes leaves the other alerts. -/
theorem splicesAndAlertsEnd : Obligations.SplicesAndAlertsEnd := by
  unfold Obligations.SplicesAndAlertsEnd
  intro n wait s s1
  refine ⟨fun v x hv hslot hx => ?_, spliceRows_none, ?_, alertTimeout_quiet⟩
  · have hv1 : s1.slotSvc? n = some v := hv
    have hgone := State.slotSvc?_modSvc_self (s := s1.dropJoining n) (f := Service.spliceDropped s1.time.dt) (fun _ => rfl) hv
    have hothers (k : Nat) (hk : k ≠ n) : ((s1.dropJoining n).modSvc n (Service.spliceDropped s1.time.dt)).slotSvc? k
        = s.slotSvc? k := State.slotSvc?_modSvc_ne (fun _ => rfl) hk
    refine ⟨fun m => spliceSwitch_waits hv hx, fun m hok hc hlead => ?_, fun m hok hlead => ?_,
      spliceTimeout_fallsBack hv hx, spliceTimeout_earlyFailure hv hx, fun hc hlate => ?_, spliceTimeout_early hv hx⟩
    · exact ⟨_, (spliceSwitch_abandons hv hx hok hc hlead).trans (congrArg _ (State.abandonSplice_eq hv1)), hgone, hothers,
        rfl, rfl⟩
    · subst hslot
      obtain ⟨w, hw, hs⟩ := State.switchSplice_spliced hv1 x m
      exact ⟨_, w, spliceSwitch_switches hv hx hok hlead, hw, hs.rx, hs.diversity, hs.state, hs.reason, hs.splice, hs.margin,
        hs.acc, hs.inc⟩
    · exact ⟨_, (spliceTimeout_abandons hv hx hc hlate).trans (congrArg _ (State.abandonSplice_eq hv1)), hgone, hothers,
        rfl, rfl⟩
  · obtain ⟨t, hexec, ⟨hended, hkept⟩, hroute⟩ := alertTimeout_ends s n wait
    exact ⟨t, hexec, hended, hkept, fun v r hv _ hr => hroute v r hv hr⟩

end Sys2Proof.Machine
end

section
/-! PROOFS. The queries and the settings of rings, the archive, audio ports and packet ports (O7, O8). -/

namespace Sys2Proof.Machine

/-! ### Checks of a parameter against its largest value -/

/-- A parameter that does not exceed its largest value passes check 7. -/
theorem State.refuseIf_of_le {s : State} {st : Status} {k : State × Answer} {m n : Nat} (hn : n ≤ m) :
    s.refuseIf (decide (m < n)) st k = k := State.refuseIf_false _ _ _ _ (decide_eq_false (Nat.not_lt.2 hn))

/-- A parameter that exceeds its largest value is refused. -/
theorem State.refuseIf_of_lt {s : State} {st : Status} {k : State × Answer} {m n : Nat} (hn : m < n) :
    s.refuseIf (decide (m < n)) st k = refuse s st := State.refuseIf_true _ _ _ _ (decide_eq_true hn)

/-- A settings command with its selector in range and no item reads back the settings in force after the selector (R409). -/
theorem itemCmd_readsBack {s : State} {st : Status} {m n : Nat} (hn : n ≤ m) (tbl : List ItemSpec) (applies : Nat → Bool)
    (pre : List Byte) (force acc : ItemTable) (put : ItemTable → State × Answer) :
    s.refuseIf (decide (m < n)) st (s.itemCmd tbl applies pre force acc [] put) = (s, answer .ok (pre ++ readTable tbl force)) :=
  State.refuseIf_of_le hn

section
variable {h : CmdHdr} {s : State}

/-! ### The queries -/

/-- The state of a ring as RING_QUERY answers it: disabled, enabled, or in fault (Table 15.12). -/
def RingSt.code (x : RingSt) : Nat := if x.on = false then 0 else if x.fault then 2 else 1

/-- What RING_QUERY answers of a ring (R280, Table 15.12). -/
def State.ringRow (s : State) (r : Byte) : List Byte :=
  let x := s.ring r.toNat
  [r] ++ le 1 x.code ++ le 2 (s.streams.filter (fun y => y.ring == some r.toNat)).length ++ le 4 x.producer ++ le 4 x.consumer
    ++ le 4 x.wraps ++ le 8 x.records ++ le 4 x.tags.length ++ le 4 (s.ringLoad r.toNat)

theorem ringQuery_reads {r : Byte} (hk : Taken (gateNotRelay 0x0502) h s) (hr : r.toNat ≤ 63) :
    Reads (exec (.ringQuery h r) s) 0x0502 h s ((s.advance h.wait).ringRow r) := by
  refine runCmd_reads _ h s _ _ hk ((State.refuseIf_of_le hr).trans ?_)
  simp only [State.ringRow, RingSt.code, Bool.not_eq_true']

theorem ringQuery_badRing {r : Byte} (hk : Taken (gateNotRelay 0x0502) h s) (hr : 63 < r.toNat) :
    Replies (exec (.ringQuery h r) s) 0x0502 h s .badParam noTick [] (s.advance h.wait) :=
  runCmd_refuses _ h s _ _ hk (State.refuseIf_of_lt hr)

/-- The entries that ARCHIVE_QUERY pages: the extents held, or the chunk that each stream writes (R307, Table 15.12). -/
def State.archiveEntries (s : State) (w : Byte) : List (List Byte) :=
  if w = 0#8 then s.archive.extents.map (fun e => le 8 e.start ++ le 8 e.remaining)
  else s.streams.filterMap (fun x => x.chunk.map (fun c =>
    le 2 x.slot.toNat ++ le 1 x.kind ++ [0] ++ le 2 c.epoch ++ zeros 2 ++ le 8 c.start ++ le 4 c.used ++ zeros 4))

theorem archiveQuery_reads {w : Byte} {first : W16} (hk : Taken (gateNotRelay 0x0505) h s) (hw : w.toNat ≤ 1) :
    let pg := page 24 first.toNat (s.archiveEntries w)
    Reads (exec (.archiveQuery h w first) s) 0x0505 h s
      (le 2 s.archive.epoch ++ le 2 s.archive.extents.length ++ le 2 pg.1.length ++ le 2 pg.2
        ++ le 8 s.archive.unassigned ++ pg.1.flatten) :=
  runCmd_reads _ h s _ _ hk (State.refuseIf_of_le hw)

/-- What AUDIO_PORT_QUERY answers of a port: its state, Q, pilot and counters, and its programmes (R331, Table 15.13). -/
def State.audioRow (s : State) (p : Byte) : List Byte :=
  let a := s.audioPort p.toNat
  [p] ++ le 1 a.state ++ le 1 a.progs.length ++ zeros 1 ++ le 4 a.q
    ++ le 2 (match a.pilot with | some f => f.toNat | none => 0xFFFF) ++ le 1 a.pilotWhy ++ zeros 1 ++ leInt 4 a.y
    ++ leInt 4 a.ep ++ le 8 a.firstFrame.toNat ++ le 4 a.underruns ++ le 4 a.overruns ++ le 4 a.fades ++ le 4 a.faults
    ++ a.progs.flatMap progEntry

theorem audioPortQuery_reads {p : Byte} (hk : Taken (gateNotRelay 0x0602) h s) (hp : p.toNat ≤ 3) :
    Reads (exec (.audioPortQuery h p) s) 0x0602 h s (s.audioRow p) :=
  runCmd_reads _ h s _ _ hk (State.refuseIf_of_le hp)

theorem audioPortQuery_badPort {p : Byte} (hk : Taken (gateNotRelay 0x0602) h s) (hp : 3 < p.toNat) :
    Replies (exec (.audioPortQuery h p) s) 0x0602 h s .badParam noTick [] (s.advance h.wait) :=
  runCmd_refuses _ h s _ _ hk (State.refuseIf_of_lt hp)

/-- What PKT_PORT_QUERY answers of a packet port: whether it is enabled, its service, its rate and its counters (R308, Table
15.13). -/
def State.pktRow (s : State) (p : Byte) : List Byte :=
  let x := s.pkts.getD p.toNat ⟨[], none, 0, 0, 0, 0, 0, 0⟩
  [p] ++ le 1 ((s.pktSet p.toNat).nat 1) ++ zeros 2
    ++ le 2 (match s.pktStream p.toNat with | some y => y.slot.toNat | none => 0xFFFF) ++ zeros 2 ++ le 4 x.rate
    ++ le 4 x.sent ++ le 4 x.dropped ++ le 4 x.late

theorem pktPortQuery_reads {p : Byte} (hk : Taken (gateNotRelay 0x0702) h s) (hp : p.toNat ≤ 3) :
    Reads (exec (.pktPortQuery h p) s) 0x0702 h s (s.pktRow p) :=
  runCmd_reads _ h s _ _ hk (State.refuseIf_of_le hp)

theorem pktPortQuery_badPort {p : Byte} (hk : Taken (gateNotRelay 0x0702) h s) (hp : 3 < p.toNat) :
    Replies (exec (.pktPortQuery h p) s) 0x0702 h s .badParam noTick [] (s.advance h.wait) :=
  runCmd_refuses _ h s _ _ hk (State.refuseIf_of_lt hp)

/-! ### RING_CONFIG -/

variable {items : List Item} {t : ItemTable}

/-- The items that an enabled ring keeps, base, size and control block, of which `old` and `new` differ in one (R277). -/
def ringMoved (old new : ItemTable) : Bool := [2, 3, 4].any (fun i => old.at i != new.at i)

/-- A ring counts as enabled while it is so by an accepted change or in force (R277). -/
def State.ringEnabled (s : State) (r : Nat) : Bool := (s.acc.rings.getD r []).nat 1 == 1 || (s.ringSet r).nat 1 == 1

/-- Items in range are set while the ring is not enabled (R277, R410). -/
theorem ringConfig_sets {r : Byte} (hk : Taken (gateNotRelay 0x0501) h s) (hr : r.toNat ≤ 63) (hne : items ≠ [])
    (ha : applyItems (tbl101 r.toNat) (fun _ => true) (s.acc.rings.getD r.toNat []) items = some t)
    (hc : ringIncomplete t = false) (hoff : s.ringEnabled r.toNat = false) :
    Sets (exec (.ringConfig h r items) s) 0x0501 h s none { s.acc with rings := s.acc.rings.set r.toNat t } := by
  have hfree : (s.ringEnabled r.toNat && ringMoved (s.acc.rings.getD r.toNat []) t) = false := by rw [hoff, Bool.false_and]
  exact runCmd_sets _ h s _ none (fun a => { a with rings := a.rings.set r.toNat t }) [] hk
    ((State.refuseIf_of_le hr).trans ((itemCmd_put hne ha).trans
      ((State.refuseIf_false _ _ _ _ hc).trans (State.refuseIf_false _ _ _ _ hfree))))

/-- An enabled ring keeps its base, its size and its control block (R277). -/
theorem ringConfig_busy {r : Byte} (hk : Taken (gateNotRelay 0x0501) h s) (hr : r.toNat ≤ 63) (hne : items ≠ [])
    (ha : applyItems (tbl101 r.toNat) (fun _ => true) (s.acc.rings.getD r.toNat []) items = some t)
    (hc : ringIncomplete t = false) (hon : s.ringEnabled r.toNat = true)
    (hmoved : ringMoved (s.acc.rings.getD r.toNat []) t = true) :
    Replies (exec (.ringConfig h r items) s) 0x0501 h s .busyRunning noTick [] (s.advance h.wait) := by
  have hbusy : (s.ringEnabled r.toNat && ringMoved (s.acc.rings.getD r.toNat []) t) = true := by rw [hon, hmoved, Bool.and_self]
  exact runCmd_refuses _ h s _ _ hk
    ((State.refuseIf_of_le hr).trans ((itemCmd_put hne ha).trans
      ((State.refuseIf_false _ _ _ _ hc).trans (State.refuseIf_true _ _ _ _ hbusy))))

/-! ### ARCHIVE_CONFIG -/

/-- Items 1 and 2 are set; Flush, the item that would act on the extents held, is not among the items (R300). -/
theorem archiveConfig_sets (hk : Taken (gateNotRelay 0x0503) h s) (hne : items ≠ []) (hflush : ∀ i ∈ items, i.item ≠ 3#8)
    (ha : applyItems tbl109 (fun _ => true) s.acc.archive items = some t) :
    Sets (exec (.archiveConfig h items) s) 0x0503 h s none { s.acc with archive := t.take 2 ++ [ItemV.num 0] } := by
  have hnone : ¬ items.any (fun i => i.item == 3#8) = true := by simpa using hflush
  exact runCmd_sets _ h s _ none (fun a => { a with archive := t.take 2 ++ [ItemV.num 0] }) [] hk
    ((itemCmd_put hne ha).trans (if_neg hnone))

/-! ### AUDIO_PORT_CONFIG and PKT_PORT_CONFIG -/

/-- A STOPPED port takes its framing and clock items as it takes the others (R313). -/
theorem audioPortConfig_sets {p : Byte} (hk : Taken (gateNotRelay 0x0601) h s) (hp : p.toNat ≤ 3) (hne : items ≠ [])
    (ha : applyItems tbl111 (fun _ => true) (s.acc.audio.getD p.toNat []) items = some t) (hok : audioItemsOk t = true)
    (hstop : (s.audioPort p.toNat).state = 0) :
    Sets (exec (.audioPortConfig h p items) s) 0x0601 h s none { s.acc with audio := s.acc.audio.set p.toNat t } := by
  have hbound : (!audioItemsOk t) = false := by rw [hok]; rfl
  have hfree : (decide ((s.audioPort p.toNat).state ≠ 0)
      && (List.range 12).any (fun i => (s.acc.audio.getD p.toNat []).at (i + 1) != t.at (i + 1))) = false := by
    rw [decide_eq_false (not_not_intro hstop), Bool.false_and]
  exact runCmd_sets _ h s _ none (fun a => { a with audio := a.audio.set p.toNat t }) [] hk
    ((State.refuseIf_of_le hp).trans ((itemCmd_put hne ha).trans
      ((State.refuseIf_false _ _ _ _ hbound).trans (State.refuseIf_false _ _ _ _ hfree))))

/-- The divider of a packet port, in units of 2^-32, keeps its mean clock within 135 MHz (R308, Table 10.10). -/
theorem pktPortConfig_sets {p : Byte} (hk : Taken (gateNotRelay 0x0701) h s) (hp : p.toNat ≤ 3) (hne : items ≠ [])
    (ha : applyItems tbl1010 (fun _ => true) (s.acc.pkt.getD p.toNat []) items = some t)
    (hclk : 1228800000 * 2 ^ 32 ≤ 135000000 * (field (t.raw 2) 0 4 * 2 ^ 32 + field (t.raw 2) 4 4)) :
    Sets (exec (.pktPortConfig h p items) s) 0x0701 h s none { s.acc with pkt := s.acc.pkt.set p.toNat t } :=
  runCmd_sets _ h s _ none (fun a => { a with pkt := a.pkt.set p.toNat t }) [] hk
    ((State.refuseIf_of_le hp).trans ((itemCmd_put hne ha).trans (State.refuseIf_of_le hclk)))

end

/-- Settles O7: every query's body answers from the state it is given and hands it back, once its ring or port is in range. -/
theorem outputQueriesAnswer : Obligations.OutputQueriesAnswer := by
  unfold Obligations.OutputQueriesAnswer
  intro h s
  refine ⟨?_, ?_, ?_, ?_, ?_, ?_, ?_⟩
  · exact fun r hk hr => ringQuery_reads hk hr
  · exact fun r hk hr => ringQuery_badRing hk hr
  · exact fun w first hk hw => archiveQuery_reads hk hw
  · exact fun first hk => runCmd_reads _ h s _ _ hk rfl
  · exact fun p hk hp => audioPortQuery_reads hk hp
  · exact fun p hk hp => pktPortQuery_reads hk hp
  · exact fun p hp => ⟨fun hk => audioPortQuery_badPort hk hp, fun hk => pktPortQuery_badPort hk hp⟩

/-- Settles O8: each body is a commit of settings under checks of its items, or a read-back. -/
theorem outputSettings : Obligations.OutputSettings := by
  unfold Obligations.OutputSettings
  intro h s
  refine ⟨?_, ?_, ?_, ?_, ?_, ?_, ?_, ?_, ?_⟩
  · intro r items t hk hr hne ha hc hacc hforce
    exact ringConfig_sets hk hr hne ha hc (by rw [State.ringEnabled, beq_false_of_ne hacc, beq_false_of_ne hforce]; rfl)
  · intro r items t hk hr hne ha hc hon hmoved
    exact ringConfig_busy hk hr hne ha hc (by simpa [State.ringEnabled] using hon) (by simpa [ringMoved] using hmoved)
  · exact fun r hk hr => runCmd_reads _ h s _ _ hk (itemCmd_readsBack hr ..)
  · exact fun items t hk hne hflush ha => archiveConfig_sets hk hne hflush ha
  · exact fun hk => runCmd_reads _ h s _ _ hk rfl
  · exact fun p items t hk hp hne ha hok hstop => audioPortConfig_sets hk hp hne ha hok hstop
  · exact fun p hk hp => runCmd_reads _ h s _ _ hk (itemCmd_readsBack hp ..)
  · exact fun p items t hk hp hne ha hclk => pktPortConfig_sets hk hp hne ha hclk
  · exact fun p hk hp => runCmd_reads _ h s _ _ hk (itemCmd_readsBack hp ..)

end Sys2Proof.Machine
end

section
/-! PROOFS. One audio port changes at a time: what a change of a port leaves, what a start makes of it (R327), and a fold over
the ports (O34). -/

namespace Sys2Proof.Machine

/-! ### The change of one port -/

/-- A port that exists takes its change in its place. -/
theorem State.modAudio_eq_set {s : State} {p : Nat} (f : AudioSt → AudioSt) (hp : p < s.audio.length) :
    s.modAudio p f = { s with audio := s.audio.set p (f (s.audioPort p)) } := by
  have hget : s.audio.get ⟨p, hp⟩ = s.audioPort p := (List.getD_eq_getElem _ _ hp).symm
  rw [State.modAudio, List.modify_eq_set_get f hp, hget]

/-- Two changes of a port are one. -/
theorem State.modAudio_modAudio (s : State) (p : Nat) (f g : AudioSt → AudioSt) :
    (s.modAudio p f).modAudio p g = s.modAudio p (g ∘ f) := by
  simp only [State.modAudio, List.modify_modify_eq]

theorem State.modAudio_audioPort_self {s : State} {p : Nat} (f : AudioSt → AudioSt) (hp : p < s.audio.length) :
    (s.modAudio p f).audioPort p = f (s.audioPort p) := (State.modAudio_audioPort f hp).trans (if_pos rfl)

/-- The state but for what its audio ports hold and the count of free values. -/
def State.besidePorts (s : State) : State := { s with audio := List.replicate s.audio.length AudioSt.reset, freeCtr := 0 }

@[simp] theorem State.besidePorts_modAudio (s : State) (p : Nat) (f : AudioSt → AudioSt) :
    (s.modAudio p f).besidePorts = s.besidePorts := by
  simp only [State.besidePorts, State.modAudio, List.length_modify]

theorem State.audioLength_of_besidePorts {s t : State} (h : t.besidePorts = s.besidePorts) : t.audio.length = s.audio.length := by
  simpa only [State.besidePorts, List.length_replicate] using congrArg (·.audio.length) h

/-- What can be seen of a state without its ports stays where only ports change. -/
theorem State.eq_of_besidePorts {β : Type} (view : State → β) (hview : ∀ u, view u.besidePorts = view u) {s t : State}
    (h : t.besidePorts = s.besidePorts) : view t = view s :=
  (hview t).symm.trans ((congrArg view h).trans (hview s))

/-- At most one audio port changes, and a count of free values. -/
structure State.OnlyPort (p : Nat) (s t : State) : Prop where
  beside : t.besidePorts = s.besidePorts
  others : ∀ q, q ≠ p → t.audioPort q = s.audioPort q

theorem State.onlyPort_refl (p : Nat) (s : State) : State.OnlyPort p s s := ⟨rfl, fun _ _ => rfl⟩

/-- A step on each port of a list gives each of them what it promises, since no other port's step touches it. -/
theorem foldl_onlyPort {f : State → Nat → State} {P : Nat → AudioSt → Prop} {s : State} {ps : List Nat} (hd : ps.Nodup)
    (hf : ∀ t : State, ∀ p ∈ ps, t.besidePorts = s.besidePorts → t.audioPort p = s.audioPort p →
      State.OnlyPort p t (f t p) ∧ P p ((f t p).audioPort p)) {t : State}
    (hbeside : t.besidePorts = s.besidePorts) (hport : ∀ p ∈ ps, t.audioPort p = s.audioPort p) :
    (ps.foldl f t).besidePorts = s.besidePorts ∧ (∀ p ∈ ps, P p ((ps.foldl f t).audioPort p)) ∧
      ∀ q, q ∉ ps → (ps.foldl f t).audioPort q = t.audioPort q := by
  induction ps generalizing t with
  | nil => exact ⟨hbeside, nofun, fun _ _ => rfl⟩
  | cons p ps ih =>
    obtain ⟨hp, hd⟩ := List.nodup_cons.1 hd
    obtain ⟨honly, hP⟩ := hf t p List.mem_cons_self hbeside (hport p List.mem_cons_self)
    have hlater : ∀ q ∈ ps, (f t p).audioPort q = s.audioPort q := fun q hq =>
      (honly.others q (ne_of_mem_of_not_mem hq hp)).trans (hport q (List.mem_cons_of_mem _ hq))
    obtain ⟨hbeside', hps, hout⟩ := ih hd (fun t q hq => hf t q (List.mem_cons_of_mem _ hq)) (honly.beside.trans hbeside) hlater
    refine ⟨hbeside', fun q hq => ?_, fun q hq => ?_⟩
    · obtain rfl | hq := List.mem_cons.1 hq
      · exact (hout q hp).symm ▸ hP
      · exact hps q hq
    · rw [List.mem_cons, not_or] at hq
      obtain ⟨hqp, hq⟩ := hq
      exact (hout q hq).trans (honly.others q hqp)

/-! ### The start of a port -/

/-- An audio port but for its Q, its pilot, its programmes and their waiting changes. -/
def AudioSt.untuned (a : AudioSt) : AudioSt := { a with q := 0, pilot := none, pilotWhy := 0, progs := [], changes := [] }

/-- The state with one audio port untuned. -/
def State.untuned (p : Nat) (s : State) : State := s.modAudio p AudioSt.untuned

theorem State.untuned_modAudio (s : State) (p : Nat) {f : AudioSt → AudioSt} (hf : ∀ a, (f a).untuned = a.untuned) :
    (s.modAudio p f).untuned p = s.untuned p :=
  (s.modAudio_modAudio p f _).trans (congrArg (s.modAudio p) (funext hf))

theorem State.untuned_zcAdd (s : State) (p : Nat) (g : Prog) (k : ZcKind) : (s.zcAdd p g k).untuned p = s.untuned p :=
  s.untuned_modAudio p (f := fun a => { a with changes := a.changes ++ _ }) fun _ => rfl

/-- A programme's path concerns the programmes and the waiting changes of its port only (R325). -/
theorem State.untuned_repath (s : State) (p : Nat) (g : Prog) : (s.repath p g).untuned p = s.untuned p := by
  unfold State.repath
  dsimp only
  split
  · rfl
  · split
    · exact s.untuned_modAudio p fun _ => rfl
    · split
      · rfl
      · split
        · exact s.untuned_modAudio p fun _ => rfl
        · exact (State.untuned_zcAdd ..).trans (s.untuned_modAudio p fun _ => rfl)

theorem State.untuned_repilot (s : State) (p : Nat) : (s.repilot p).untuned p = s.untuned p :=
  (foldl_keeps (State.untuned p) _ _ (fun s g => s.untuned_repath p g) _).trans (s.untuned_modAudio p fun _ => rfl)

theorem State.untuned_modProg (s : State) (p : Nat) (f : W16) (k : Prog → Prog) : (s.modProg p f k).untuned p = s.untuned p :=
  s.untuned_modAudio p fun _ => rfl

/-- A programme's L concerns the programmes of its port only (R318, R319). -/
theorem State.untuned_setDelay (s : State) (p : Nat) (g : Prog) : (s.setDelay p g).untuned p = s.untuned p := by
  unfold State.setDelay
  dsimp only
  split
  · rfl
  · split
    · exact State.untuned_modProg ..
    · split <;> exact State.untuned_modProg ..

/-- A port that its trigger has set running (R327). -/
def AudioSt.begun (first : W64) (a : AudioSt) : AudioSt :=
  { a with state := 2, armed := none, firstFrame := first, stopping := false, y := 0, ep := 0, goodMs := 0 }

theorem State.untuned_startPort (s : State) (p : Nat) (first : W64) :
    (s.startPort p first).untuned p = (s.modAudio p (AudioSt.begun first)).untuned p := by
  refine (foldl_keeps (State.untuned p) _ _ (fun s g => s.untuned_setDelay p g) _).trans ?_
  refine (State.untuned_modAudio _ p ?_).trans (State.untuned_repilot _ p)
  exact fun _ => rfl

/-- What a start leaves of its port: it runs, with its first frame sync at an instant, and waits for no trigger. -/
structure AudioSt.Started (first : W64) (a : AudioSt) : Prop where
  state : a.state = 2
  armed : a.armed = none
  stopping : a.stopping = false
  firstFrame : a.firstFrame = first

theorem State.startPort_started {s : State} {p : Nat} (first : W64) (hp : p < s.audio.length) :
    State.OnlyPort p s (s.startPort p first) ∧ ((s.startPort p first).audioPort p).Started first := by
  have h := s.untuned_startPort p first
  have hbeside : (s.startPort p first).besidePorts = s.besidePorts := by
    simpa only [State.untuned, State.besidePorts_modAudio] using congrArg State.besidePorts h
  have hp' : p < (s.startPort p first).audio.length := State.audioLength_of_besidePorts hbeside ▸ hp
  have hp1 : p < (s.modAudio p (AudioSt.begun first)).audio.length :=
    State.audioLength_of_besidePorts (s.besidePorts_modAudio p _) ▸ hp
  refine ⟨⟨hbeside, fun q hq => ?_⟩, ?_⟩
  · simpa only [State.untuned, State.modAudio_audioPort _ hp', State.modAudio_audioPort _ hp1, State.modAudio_audioPort _ hp,
      if_neg hq] using congrArg (·.audioPort q) h
  · have hself : ((s.startPort p first).audioPort p).untuned = ((s.audioPort p).begun first).untuned := by
      simpa only [State.untuned, State.modAudio_audioPort_self _ hp', State.modAudio_audioPort_self _ hp1,
        State.modAudio_audioPort_self _ hp] using congrArg (·.audioPort p) h
    exact ⟨congrArg AudioSt.state hself, congrArg AudioSt.armed hself, congrArg AudioSt.stopping hself,
      congrArg AudioSt.firstFrame hself⟩

end Sys2Proof.Machine
end

section
/-! PROOFS. AUD_START_EDGE, AUDIO_PORT_TRIGGER, SLAVE_CLOCK_CHECK, AUDIO_UNDERRUN, ZERO_CROSSING_SWITCH and
ZERO_CROSSING_TIMEOUT (O34). -/

namespace Sys2Proof.Machine

/-! ### Starts -/

/-- What becomes of a port where some ports may start: one that does has its first frame sync as `ok` says, any other stays. -/
structure AudioSt.StartsIf (on : Prop) (ok : W64 → Prop) (a b : AudioSt) : Prop where
  starts : on → ∃ d, b.Started d ∧ ok d
  stays : ¬ on → b = a

/-- An event that goes through the ports and starts some of them leaves the others, the streams and host memory alone; where it
starts none it leaves even the time. -/
theorem portsStart {α : Type} {s : State} {wait : Nat} {f : State → α → State} {l : List α} {g : State → Nat → State}
    {on : Nat → Prop} {ok : Nat → W64 → Prop} (hlen : s.audio.length = 4)
    (hall : l.foldl f (s.advance wait) = (List.range 4).foldl g (s.advance wait))
    (hon : ∀ t : State, ∀ p, on p → t.besidePorts = (s.advance wait).besidePorts → p < t.audio.length →
      State.OnlyPort p t (g t p) ∧ ∃ d, ((g t p).audioPort p).Started d ∧ ok p d)
    (hoff : ∀ t p, ¬ on p → g t p = t) :
    ∃ u, Host.Outcome.next (if l.isEmpty then s else l.foldl f (s.advance wait)) = (.next u : Res) ∧ u.streams = s.streams ∧
      u.host = s.host ∧ ∀ p < 4, (s.audioPort p).StartsIf (on p) (ok p) (u.audioPort p) := by
  have hstep : ∀ t : State, ∀ p ∈ List.range 4, t.besidePorts = (s.advance wait).besidePorts →
      t.audioPort p = (s.advance wait).audioPort p →
      State.OnlyPort p t (g t p) ∧ (s.audioPort p).StartsIf (on p) (ok p) ((g t p).audioPort p) := by
    intro t p hp hbeside hport
    by_cases h : on p
    · have hpt : p < t.audio.length := by
        rw [State.audioLength_of_besidePorts hbeside]
        exact hlen.symm ▸ List.mem_range.1 hp
      obtain ⟨honly, hstarted⟩ := hon t p h hbeside hpt
      exact ⟨honly, fun _ => hstarted, fun hno => absurd h hno⟩
    · rw [hoff t p h]
      exact ⟨State.onlyPort_refl p t, fun h' => absurd h' h, fun _ => hport⟩
  obtain ⟨hbeside, hports, -⟩ := foldl_onlyPort List.nodup_range hstep rfl fun _ _ => rfl
  have hstreams := State.eq_of_besidePorts State.streams (fun _ => rfl) hbeside
  have hhost := State.eq_of_besidePorts State.host (fun _ => rfl) hbeside
  rw [← hall] at hstreams hhost hports
  refine ⟨_, rfl, ?_⟩
  cases l with
  | nil => exact ⟨rfl, rfl, fun p hp => hports p (List.mem_range.2 hp)⟩
  | cons a l => exact ⟨hstreams, hhost, fun p hp => hports p (List.mem_range.2 hp)⟩

/-- Whether an ARMED port waits for an AUD_START edge of the kind named (R327). -/
def AudioSt.armedFor (a : AudioSt) (trigger : Nat) : Bool := a.state == 1 && a.armed.any (·.trigger == trigger)

theorem AudioSt.armedFor_iff {a : AudioSt} {n : Nat} : a.armedFor n = true ↔ a.state = 1 ∧ ∃ d, a.armed = some ⟨n, d⟩ := by
  rw [AudioSt.armedFor, Bool.and_eq_true, beq_iff_eq]
  refine and_congr_right fun _ => ?_
  rcases a.armed with _ | ⟨m, d⟩ <;> simp

/-- A port starts at an instant that the board decides (Table 11.4). -/
def State.startAtEdge (s : State) (p : Nat) : State := (s.edgeFrame p).1.startPort p (s.edgeFrame p).2

theorem State.startAtEdge_started {s : State} {p : Nat} (hp : p < s.audio.length) :
    State.OnlyPort p s (s.startAtEdge p) ∧ ((s.startAtEdge p).audioPort p).Started (s.edgeFrame p).2 := by
  obtain ⟨honly, hstarted⟩ := State.startPort_started (s := (s.edgeFrame p).1) (s.edgeFrame p).2 hp
  exact ⟨⟨honly.beside, honly.others⟩, hstarted⟩

/-- The first frame sync of a MASTER port comes t_SL after the edge, 19.99 to 20.01 us (Table 11.4). -/
def afterEdge (now : Nat) (d : W64) : Prop := ∃ k, 19990 ≤ k ∧ k ≤ 20010 ∧ d = BitVec.ofNat 64 (now + k)

theorem State.edgeFrame_master {s : State} {p : Nat} (hm : portMaster (s.audioSet p) = true) :
    afterEdge s.now (s.edgeFrame p).2 := by
  refine ⟨19990 + s.free.2 % 21, by omega, by omega, ?_⟩
  rw [State.edgeFrame, hm, if_pos rfl]

/-- The ports of a state that wait for an AUD_START edge of the kind named. -/
def State.armedPorts (s : State) (trigger : Nat) : List Nat := (List.range 4).filter fun p => (s.audioPort p).armedFor trigger

theorem exec_audStartEdge (rising : Bool) (wait : Nat) (s : State) :
    exec (.audStartEdge rising wait) s = .next
      (if (s.armedPorts (if rising then 0 else 1)).isEmpty then s
       else (s.armedPorts (if rising then 0 else 1)).foldl State.startAtEdge (s.advance wait)) := by
  refine congrArg (fun ps : List Nat =>
    (.next (if ps.isEmpty then s else ps.foldl State.startAtEdge (s.advance wait)) : Res)) (List.filter_congr fun p _ => ?_)
  unfold AudioSt.armedFor
  rcases (s.audioPort p).armed with _ | x <;> rfl

/-- An AUD_START edge starts every port armed for it, and no other (R327). -/
theorem audStartEdge_starts {s : State} (hlen : s.audio.length = 4) (rising : Bool) (wait : Nat) :
    ∃ u, exec (.audStartEdge rising wait) s = .next u ∧ u.streams = s.streams ∧ u.host = s.host ∧ ∀ p < 4,
      (s.audioPort p).StartsIf ((s.audioPort p).armedFor (if rising then 0 else 1) = true)
        (fun d => portMaster (s.audioSet p) = true → afterEdge (s.advance wait).now d) (u.audioPort p) := by
  rw [exec_audStartEdge]
  refine portsStart (ok := fun p d => portMaster (s.audioSet p) = true → afterEdge (s.advance wait).now d) hlen
    List.foldl_filter (fun t p hon hbeside hp => ?_) fun t p hoff => if_neg hoff
  rw [if_pos hon]
  obtain ⟨honly, hstarted⟩ := State.startAtEdge_started hp
  have hnow : t.now = (s.advance wait).now := State.eq_of_besidePorts State.now (fun _ => rfl) hbeside
  have hset : t.audioSet p = (s.advance wait).audioSet p :=
      State.eq_of_besidePorts (·.audioSet p) (fun _ => rfl) hbeside
  exact ⟨honly, _, hstarted, fun hm => hnow ▸ State.edgeFrame_master (hset.symm ▸ hm)⟩

/-- The start DT of an ARMED port, once it has come (R327). -/
def AudioSt.dueAt (now : Nat) (a : AudioSt) : Option W64 :=
  (a.armed.filter fun x => a.state = 1 ∧ x.trigger = 2 ∧ x.dt.toNat ≤ now).map (·.dt)

theorem AudioSt.dueAt_eq_some {now : Nat} {a : AudioSt} {d : W64} :
    a.dueAt now = some d ↔ a.state = 1 ∧ a.armed = some ⟨2, d⟩ ∧ d.toNat ≤ now := by
  unfold AudioSt.dueAt
  rcases a.armed with _ | ⟨n, e⟩
  · simp
  · simp only [Option.map_eq_some_iff, Option.filter_eq_some_iff, Option.some.injEq, decide_eq_true_eq]
    constructor
    · rintro ⟨x, ⟨rfl, hst, rfl, hnow⟩, rfl⟩
      exact ⟨hst, rfl, hnow⟩
    · rintro ⟨hst, ⟨⟩, hnow⟩
      exact ⟨_, ⟨rfl, hst, rfl, hnow⟩, rfl⟩

/-- A port starts at its start DT: a MASTER port with its first frame sync then, a SLAVE port as the board's frames decide. -/
def State.startAtDate (s : State) (x : Nat × W64) : State :=
  if portMaster (s.audioSet x.1) then s.startPort x.1 x.2 else s.startAtEdge x.1

theorem State.startAtDate_started {s : State} {p : Nat} (d : W64) (hp : p < s.audio.length) :
    State.OnlyPort p s (s.startAtDate (p, d)) ∧ ∃ e, ((s.startAtDate (p, d)).audioPort p).Started e ∧
      (portMaster (s.audioSet p) = true → e = d) := by
  unfold State.startAtDate
  split
  next hm =>
    obtain ⟨honly, hstarted⟩ := State.startPort_started d hp
    exact ⟨honly, d, hstarted, fun _ => rfl⟩
  next hm =>
    obtain ⟨honly, hstarted⟩ := State.startAtEdge_started hp
    exact ⟨honly, _, hstarted, fun h => absurd h hm⟩

/-- The ports of a state whose start DT has come, each with it. -/
def State.duePorts (s : State) (now : Nat) : List (Nat × W64) :=
  (List.range 4).filterMap fun p => ((s.audioPort p).dueAt now).map fun d => (p, d)

theorem exec_audioPortTrigger (wait : Nat) (s : State) :
    exec (.audioPortTrigger wait) s = .next
      (if (s.duePorts (s.advance wait).now).isEmpty then s
       else (s.duePorts (s.advance wait).now).foldl State.startAtDate (s.advance wait)) := by
  refine congrArg (fun ps : List (Nat × W64) =>
    (.next (if ps.isEmpty then s else ps.foldl State.startAtDate (s.advance wait)) : Res)) (List.filterMap_congr fun p _ => ?_)
  refine congrArg (Option.map fun d => (p, d)) ?_
  beta_reduce
  unfold AudioSt.dueAt
  rcases (s.audioPort p).armed with _ | x
  · rfl
  · simp only [Option.filter_some, decide_eq_true_eq, apply_ite (Option.map _), Option.map_some, Option.map_none]

/-- AUDIO_PORT_TRIGGER starts every port whose start DT has come, and no other (R327). -/
theorem audioPortTrigger_starts {s : State} (hlen : s.audio.length = 4) (wait : Nat) :
    ∃ u, exec (.audioPortTrigger wait) s = .next u ∧ u.streams = s.streams ∧ u.host = s.host ∧ ∀ p < 4,
      (s.audioPort p).StartsIf (((s.audioPort p).dueAt (s.advance wait).now).isSome = true)
        (fun d => portMaster (s.audioSet p) = true → (s.audioPort p).dueAt (s.advance wait).now = some d) (u.audioPort p) := by
  rw [exec_audioPortTrigger]
  refine portsStart (on := fun p => ((s.audioPort p).dueAt (s.advance wait).now).isSome = true)
    (ok := fun p d => portMaster (s.audioSet p) = true → (s.audioPort p).dueAt (s.advance wait).now = some d) hlen
    List.foldl_filterMap (fun t p hon hbeside hp => ?_) fun t p hoff => ?_
  · obtain ⟨d, hd⟩ := Option.isSome_iff_exists.1 hon
    obtain ⟨honly, e, hstarted, he⟩ := State.startAtDate_started d hp
    have hset : t.audioSet p = (s.advance wait).audioSet p :=
      State.eq_of_besidePorts (·.audioSet p) (fun _ => rfl) hbeside
    simp only [hd, Option.map_some]
    exact ⟨honly, e, hstarted, fun hm => congrArg some (he (hset.symm ▸ hm)).symm⟩
  · simp only [Option.not_isSome_iff_eq_none.1 hoff, Option.map_none]

/-! ### Clock faults -/

theorem slaveBad_iff {t : ItemTable} {m : SlaveClock} :
    slaveBad t m = true ↔ m.fsBits ≠ portF t ∨ 1000 < m.ppm.natAbs ∨ 10 ≤ m.missing := decide_eq_true_iff

section
variable {s : State} {p : Nat} {f : AudioSt → AudioSt}

/-- EV_PORT_UNDERRUN of a port that has raised none before (R331). -/
theorem State.portEvent_first (slot : W16) (portSlot kind cause silentUs : Nat) (hp : p < s.audio.length)
    (h : (f (s.audioPort p)).lastEvent = none) :
    (s.modAudio p f).portEvent p slot portSlot kind cause silentUs
      = ({ s with audio := s.audio.set p { f (s.audioPort p) with since := 0, lastEvent := some s.power.uptime } } : State).raise
          0x8014 slot (le 1 p ++ le 1 portSlot ++ le 1 kind ++ le 1 cause ++ le 4 silentUs
            ++ le 4 ((f (s.audioPort p)).since + 1)) := by
  simp only [State.portEvent, State.modAudio_audioPort_self f hp, h, Bool.false_eq_true, if_false, State.modAudio_modAudio]
  rw [State.modAudio_eq_set _ hp]
  rfl

/-- A port that raised EV_PORT_UNDERRUN in the last 100 ticks counts the event alone (R331). -/
theorem State.portEvent_early (slot : W16) (portSlot kind cause silentUs : Nat) {t : Nat} (hp : p < s.audio.length)
    (h : (f (s.audioPort p)).lastEvent = some t) (ht : s.power.uptime < t + 100) :
    (s.modAudio p f).portEvent p slot portSlot kind cause silentUs
      = { s with audio := s.audio.set p { f (s.audioPort p) with since := (f (s.audioPort p)).since + 1 } } := by
  have hearly : decide ((s.modAudio p f).power.uptime < t + 100) = true := decide_eq_true ht
  simp only [State.portEvent, State.modAudio_audioPort_self f hp, h, hearly, if_true, State.modAudio_modAudio]
  rw [State.modAudio_eq_set _ hp]
  simp only [Function.comp, h]

end

section
variable {s : State} {m : SlaveClock} {wait : Nat}

theorem slaveClockCheck_other (h : portMaster (s.audioSet m.port) = true ∨ (s.audioPort m.port).state < 2) :
    exec (.slaveClockCheck m wait) s = .next s := by
  have hskip : (portMaster (s.audioSet m.port) || decide ((s.audioPort m.port).state < 2)) = true := by simpa using h
  exact congrArg Host.Outcome.next (if_pos hskip)

/-- What SLAVE_CLOCK_CHECK does to a SLAVE port that is RUNNING or in CLOCK_FAULT (R326). -/
theorem exec_slaveClockCheck (hslave : portMaster (s.audioSet m.port) = false) (hst : 2 ≤ (s.audioPort m.port).state) :
    exec (.slaveClockCheck m wait) s = .next
      (if slaveBad (s.audioSet m.port) m then
        if (s.audioPort m.port).state = 3 then (s.advance wait).modAudio m.port (fun a => { a with goodMs := 0 })
        else ((s.advance wait).modAudio m.port
          (fun a => { a with state := 3, goodMs := 0, faults := sat32 (a.faults + 1) })).portEvent m.port noSlot 0xFF 0 3 0
      else if (s.audioPort m.port).state = 3 then (s.advance wait).modAudio m.port
        (fun a => if 90 ≤ a.goodMs then { a with state := 2, goodMs := 0 } else { a with goodMs := a.goodMs + 10 })
      else s.advance wait) := by
  have hgo : ¬ (portMaster (s.audioSet m.port) || decide ((s.audioPort m.port).state < 2)) = true := by
    simpa [hslave] using Nat.not_lt.2 hst
  exact congrArg Host.Outcome.next (if_neg hgo)

end

/-! ### Underruns -/

/-- A port that has counted one more underrun (R330). -/
def AudioSt.underrun (a : AudioSt) : AudioSt := { a with underruns := sat32 (a.underruns + 1) }

/-- An underrun of a playing programme is counted, and told of unless it is excused (R330, R331, log entry 48). -/
theorem exec_audioUnderrun {s : State} {u : Underrun} {g : Prog} (wait : Nat)
    (hg : (s.audioPort u.port).progs.find? (fun g => g.portSlot == u.portSlot) = some g) (hst : (s.audioPort u.port).state = 2)
    (hplay : g.playing = true) (hkind : u.kind = 0) (hcause : u.cause < 2) :
    exec (.audioUnderrun u wait) s = .next
      (if s.excused g then (s.advance wait).modAudio u.port AudioSt.underrun
       else ((s.advance wait).modAudio u.port AudioSt.underrun).portEvent
        u.port g.slot u.portSlot 0 u.cause u.silentUs) := by
  have hgo : ¬ ((s.audioPort u.port).state ≠ 2 ∨ (!g.playing) = true ∨ 1 < u.kind ∨ 2 < u.cause
      ∨ ((u.kind = 1 ∨ u.cause = 2) ∧ g.path ≠ 1)) := by
    simp [hst, hplay, hkind, hcause.ne, hcause.le]
  simp only [exec, execAudioUnderrun, hg, hkind, if_true] at hgo ⊢
  rw [if_neg hgo]
  rfl

/-! ### Zero crossings -/

/-- The last change that waits on a port takes place on its channel (R328). -/
theorem State.crossChannel_last {s : State} {p ch : Nat} {g : Prog} {since : W64} {k : ZcKind} (hp : p < s.audio.length)
    (hchanges : (s.audioPort p).changes = [⟨ch, k, since⟩]) (hprogs : (s.audioPort p).progs = [g]) (hlo : g.portSlot ≤ ch)
    (hhi : ch < g.portSlot + g.channels) :
    s.crossChannel p ch = (s.modAudio p (fun a => { a with changes := [] })).changeDone p g k := by
  have hmod : s.modAudio p (fun a => { a with changes := a.changes.filter (fun c => c.channel != ch) })
      = s.modAudio p (fun a => { a with changes := [] }) := by
    rw [State.modAudio_eq_set _ hp, State.modAudio_eq_set _ hp, hchanges]
    simp
  have hport := State.modAudio_audioPort_self (fun a => { a with changes := [] }) hp
  simp [State.crossChannel, hmod, hport, hchanges, hprogs, hlo, hhi]

/-- A port's only programme changes as the port's last waiting change takes place (R328). -/
theorem State.modProg_only {s : State} {p : Nat} {g : Prog} (k : Prog → Prog) (hp : p < s.audio.length)
    (hprogs : (s.audioPort p).progs = [g]) :
    (s.modAudio p (fun a => { a with changes := [] })).modProg p g.slot k
      = { s with audio := s.audio.set p { s.audioPort p with changes := [], progs := [k g] } } := by
  rw [State.modProg, State.modAudio_modAudio, State.modAudio_eq_set _ hp]
  simp [hprogs]

theorem zeroCrossing_nothing {s : State} {p ch : Nat} (wait : Nat)
    (h : (s.audioPort p).changes.any (fun c => c.channel == ch) = false) :
    exec (.zeroCrossingSwitch p ch wait) s = .next s ∧ exec (.zeroCrossingTimeout p ch wait) s = .next s := by
  have hlate : (s.audioPort p).changes.any
      (fun c => c.channel == ch && (s.advance wait).elapsed c.since ((s.audioSet p).nat 16 10 * 1000000)) = false := by
    rw [List.any_eq_false] at h ⊢
    exact fun c hc hno => h c hc (Bool.and_eq_true_iff.1 hno).1
  exact ⟨by simp only [exec, execZeroCrossingSwitch, h, Bool.not_false, if_true],
    by simp only [exec, execZeroCrossingTimeout, hlate, Bool.not_false, if_true]⟩

/-- A port that has counted one more crossfade (R329). -/
def AudioSt.faded (a : AudioSt) : AudioSt := { a with fades := sat32 (a.fades + 1) }

section
variable {s : State} {p ch wait : Nat} {g : Prog} {since : W64} {k : ZcKind}

/-- What a crossing makes of the last change of a port's only programme (R328). -/
theorem zeroCrossingSwitch_last (hp : p < s.audio.length)
    (hchanges : (s.audioPort p).changes = [⟨ch, k, since⟩]) (hprogs : (s.audioPort p).progs = [g]) (hlo : g.portSlot ≤ ch)
    (hhi : ch < g.portSlot + g.channels) :
    exec (.zeroCrossingSwitch p ch wait) s
      = .next (((s.advance wait).modAudio p (fun a => { a with changes := [] })).changeDone p g k) := by
  have hany : (s.audioPort p).changes.any (fun c => c.channel == ch) = true := by simp [hchanges]
  simp only [exec, execZeroCrossingSwitch, hany, Bool.not_true, Bool.false_eq_true, if_false]
  rw [State.crossChannel_last (s := s.advance wait) hp hchanges hprogs hlo hhi]

/-- ZERO_CROSSING_TIMEOUT on a port where one change waits (R328, R329). -/
theorem exec_zeroCrossingTimeout_one (hchanges : (s.audioPort p).changes = [⟨ch, k, since⟩]) :
    exec (.zeroCrossingTimeout p ch wait) s = .next
      (if since.toNat + (s.audioSet p).nat 16 10 * 1000000 ≤ (s.advance wait).now
       then ((s.advance wait).modAudio p AudioSt.faded).crossChannel p ch else s) := by
  have hlate : (s.audioPort p).changes.any
      (fun c => c.channel == ch && (s.advance wait).elapsed c.since ((s.audioSet p).nat 16 10 * 1000000))
      = decide (since.toNat + (s.audioSet p).nat 16 10 * 1000000 ≤ (s.advance wait).now) := by
    simp [hchanges, State.elapsed]
  simp only [exec, execZeroCrossingTimeout, hlate, Bool.not_eq_true', decide_eq_false_iff_not, ite_not]
  rfl

/-- What the timeout makes of the last change of a port's only programme: it counts a crossfade first (R329). -/
theorem zeroCrossingTimeout_last (hp : p < s.audio.length)
    (hchanges : (s.audioPort p).changes = [⟨ch, k, since⟩]) (hprogs : (s.audioPort p).progs = [g]) (hlo : g.portSlot ≤ ch)
    (hhi : ch < g.portSlot + g.channels) (h : since.toNat + (s.audioSet p).nat 16 10 * 1000000 ≤ (s.advance wait).now) :
    exec (.zeroCrossingTimeout p ch wait) s = .next
      ((((s.advance wait).modAudio p AudioSt.faded).modAudio p (fun a => { a with changes := [] })).changeDone p g k) := by
  have hport : ((s.advance wait).modAudio p AudioSt.faded).audioPort p = (s.audioPort p).faded :=
    State.modAudio_audioPort_self (s := s.advance wait) _ hp
  have hlen : p < ((s.advance wait).modAudio p AudioSt.faded).audio.length := (List.length_modify ..).symm ▸ hp
  have hchanges' : (((s.advance wait).modAudio p AudioSt.faded).audioPort p).changes = [⟨ch, k, since⟩] := by
    rw [hport]; exact hchanges
  have hprogs' : (((s.advance wait).modAudio p AudioSt.faded).audioPort p).progs = [g] := by
    rw [hport]; exact hprogs
  rw [exec_zeroCrossingTimeout_one hchanges, if_pos h, State.crossChannel_last hlen hchanges' hprogs' hlo hhi]

end

/-- Settles O34: a start concerns its own port, and every other event is one change of a port. -/
theorem audioPortsRun : Obligations.AudioPortsRun := by
  unfold Obligations.AudioPortsRun
  intro wait s hlen
  have hport {p : Nat} (hp : p < 4) : p < (s.advance wait).audio.length := hlen.symm ▸ hp
  refine ⟨?_, ?_, ?_, ?_, ?_, ?_⟩
  · intro rising
    obtain ⟨u, hexec, hstreams, hhost, hports⟩ := audStartEdge_starts hlen rising wait
    refine ⟨u, hexec, hstreams, hhost, fun p hp => ⟨fun hon => ?_, fun hoff => ?_⟩⟩
    · obtain ⟨d, hstarted, hd⟩ := (hports p hp).starts (AudioSt.armedFor_iff.2 hon)
      exact ⟨hstarted.state, hstarted.armed, hstarted.stopping, fun hm => hstarted.firstFrame ▸ hd hm⟩
    · exact (hports p hp).stays fun h => hoff (AudioSt.armedFor_iff.1 h)
  · obtain ⟨u, hexec, hstreams, hhost, hports⟩ := audioPortTrigger_starts hlen wait
    refine ⟨u, hexec, hstreams, hhost, fun p hp => ⟨fun hdue => ?_, fun hno => ?_⟩⟩
    · obtain ⟨hst, d, harmed, hd⟩ := hdue
      have hdate := AudioSt.dueAt_eq_some.2 ⟨hst, harmed, hd⟩
      obtain ⟨e, hstarted, he⟩ := (hports p hp).starts (Option.isSome_iff_exists.2 ⟨d, hdate⟩)
      refine ⟨hstarted.state, hstarted.armed, fun hm => ?_⟩
      rw [hstarted.firstFrame, harmed, ← he hm, hdate]
      rfl
    · refine (hports p hp).stays fun h => hno ?_
      obtain ⟨d, hd⟩ := Option.isSome_iff_exists.1 h
      obtain ⟨hst, harmed, hcome⟩ := AudioSt.dueAt_eq_some.1 hd
      exact ⟨hst, d, harmed, hcome⟩
  · intro m hm
    refine ⟨fun h => slaveClockCheck_other h, fun hs hst hok => ?_, fun hs hst hbad hfirst => ?_, fun hs hst hok => ?_,
      fun hs hst hbad => ?_⟩
    · rw [exec_slaveClockCheck hs hst.ge, if_neg (mt slaveBad_iff.1 hok), if_neg (by rw [hst]; decide)]
    · rw [exec_slaveClockCheck hs hst.ge, if_pos (slaveBad_iff.2 hbad), if_neg (by rw [hst]; decide),
        State.portEvent_first _ _ _ _ _ (hport hm) hfirst]
      rfl
    · rw [exec_slaveClockCheck hs (by omega), if_neg (mt slaveBad_iff.1 hok), if_pos hst, State.modAudio_eq_set _ (hport hm)]
      rfl
    · rw [exec_slaveClockCheck hs (by omega), if_pos (slaveBad_iff.2 hbad), if_pos hst, State.modAudio_eq_set _ (hport hm)]
      rfl
  · intro u g hp a hg hst hplay hkind hcause
    rw [exec_audioUnderrun wait hg hst hplay hkind hcause]
    refine ⟨fun hex => ?_, fun hex hfirst => ?_, fun t hex hlast ht => ?_⟩
    · rw [if_pos hex, State.modAudio_eq_set _ (hport hp)]
      rfl
    · rw [if_neg (by rw [hex]; decide), State.portEvent_first _ _ _ _ _ (hport hp) hfirst]
      rfl
    · rw [if_neg (by rw [hex]; decide), State.portEvent_early _ _ _ _ _ (hport hp) hlast ht]
      rfl
  · intro p ch g since k hp a hchanges hprogs hlo hhi
    refine ⟨fun hk => ?_, fun w hk => ?_, fun hk h => ?_, fun h => ?_⟩
    · rw [zeroCrossingSwitch_last (s := s) (hport hp) hchanges hprogs hlo hhi, hk]
      exact congrArg Host.Outcome.next (State.modProg_only _ (hport hp) hprogs)
    · rw [zeroCrossingSwitch_last (s := s) (hport hp) hchanges hprogs hlo hhi, hk]
      exact congrArg Host.Outcome.next (State.modProg_only _ (hport hp) hprogs)
    · rw [zeroCrossingTimeout_last (s := s) (hport hp) hchanges hprogs hlo hhi h, hk, State.modAudio_modAudio]
      exact congrArg Host.Outcome.next (State.modAudio_eq_set _ (hport hp))
    · rw [exec_zeroCrossingTimeout_one hchanges, if_neg (Nat.not_le.2 h)]
  · exact fun p ch h => zeroCrossing_nothing wait h

end Sys2Proof.Machine
end

section
/-! PROOFS. The commands of the trunk (O16). -/

namespace Sys2Proof.Machine

section
variable {h : CmdHdr} {s : State}

/-! ### TRUNK_CONFIG, TRUNK_MASK and the queries -/

/-- TRUNK_CONFIG within the modes that its change of role allows (R333). -/
theorem trunkConfig_sets {items : List Item} {t : ItemTable} (hk : Taken (gateAll 0x0C01) h s) (hne : items ≠ [])
    (ha : applyItems tbl121 (fun _ => true) s.acc.trunk items = some t)
    (hrole : t.nat 1 = s.acc.trunk.nat 1 ∨ s.power.mode = .dormant ∨ s.power.mode = .maintain) :
    Sets (exec (.trunkConfig h items) s) 0x0C01 h s (some 0) { s.acc with trunk := t } := by
  have hok : (t.nat 1 != s.acc.trunk.nat 1 && !(s.power.mode == .dormant || s.power.mode == .maintain)) = false := by
    rcases hrole with e | e | e <;> simp [e]
  exact runCmd_sets _ h s _ (some 0) (fun a => { a with trunk := t }) [] hk
    ((itemCmd_put hne ha).trans (State.refuseIf_false _ _ _ _ hok))

/-- The role changes in DORMANT and MAINTAIN only (R333). -/
theorem trunkConfig_wrongMode {items : List Item} {t : ItemTable} (hk : Taken (gateAll 0x0C01) h s) (hne : items ≠ [])
    (ha : applyItems tbl121 (fun _ => true) s.acc.trunk items = some t) (hrole : t.nat 1 ≠ s.acc.trunk.nat 1)
    (hd : s.power.mode ≠ .dormant) (hm : s.power.mode ≠ .maintain) :
    Replies (exec (.trunkConfig h items) s) 0x0C01 h s .wrongMode noTick [] (s.advance h.wait) := by
  have hbad : (t.nat 1 != s.acc.trunk.nat 1 && !(s.power.mode == .dormant || s.power.mode == .maintain)) = true := by
    simp [hrole, hd, hm]
  exact runCmd_refuses _ h s _ _ hk ((itemCmd_put hne ha).trans (State.refuseIf_true _ _ _ _ hbad))

theorem trunkQuery_reads (hk : Taken (gateAll 0x0C02) h s) :
    ∃ rest, Reads (exec (.trunkQuery h) s) 0x0C02 h s
      (le 1 s.trunk.state.code ++ le 1 s.role ++ le 1 s.trunk.profTx ++ le 1 s.trunk.profRx ++ le 4 (s.force.trunk.nat 2)
        ++ leInt 4 s.trunk.a ++ le 4 s.trunk.d ++ leInt 8 s.trunk.e ++ rest) := by
  have hread : Reads (exec (.trunkQuery h) s) 0x0C02 h s _ := runCmd_reads _ h s _ _ hk rfl
  simp only [List.append_assoc] at hread ⊢
  exact ⟨_, hread⟩

theorem trunkMask_sets {rs : List MaskRange} (hk : Taken (gateHead 0x0C05) h s) (hrs : maskRangesOk rs = true) :
    Sets (exec (.trunkMask h rs) s) 0x0C05 h s (some 0) { s.acc with trunkMask := rs } :=
  runCmd_sets _ h s _ (some 0) (fun a => { a with trunkMask := rs }) [] hk (State.refuseIf_false _ _ _ _ (by simp [hrs]))

theorem trunkNoiseQuery_pages {e : Byte} {first : W16} (hk : Taken (gateHead 0x0C07) h s) (he : e.toNat ≤ 1)
    (hlo : 80 ≤ first.toNat) (hhi : first.toNat ≤ 4000) (hst : s.trunk.state ≠ .off) :
    ∃ entries, Replies (exec (.trunkNoiseQuery h e first) s) 0x0C07 h s .ok noTick
      (le 4 (if e = 0#8 then s.trunk.mh else s.trunk.hm).noiseF.toNat
        ++ le 2 ((carrierNs.filter (fun n => decide (first.toNat ≤ n))).take 1016).length
        ++ le 2 (((carrierNs.filter (fun n => decide (first.toNat ≤ n))).drop 1016).headD 0xFFFF) ++ entries)
      { s.advance h.wait with freeCtr := s.freeCtr + 4001 } := by
  have hrange : (decide (1 < e.toNat) || decide (first.toNat < 80 ∨ 4000 < first.toNat)) = false := by
    simp only [Bool.or_eq_false_iff, decide_eq_false_iff_not]; omega
  have hon : (s.trunk.state == LinkState.off) = false := by simpa using hst
  have hpage : ∃ entries next, next = ((carrierNs.filter (fun n => decide (first.toNat ≤ n))).drop 1016).headD 0xFFFF
      ∧ Replies (exec (.trunkNoiseQuery h e first) s) 0x0C07 h s .ok noTick
        (le 4 (if e = 0#8 then s.trunk.mh else s.trunk.hm).noiseF.toNat
          ++ le 2 ((carrierNs.filter (fun n => decide (first.toNat ≤ n))).take 1016).length ++ le 2 next ++ entries)
        { s.advance h.wait with freeCtr := s.freeCtr + 4001 } := by
    refine ⟨_, _, ?_, runCmd_replies _ h s _ _ _ _ _ hk ((State.refuseIf_false _ _ _ _ hrange).trans
      ((State.refuseIf_false _ _ _ _ hon).trans rfl))⟩
    generalize (carrierNs.filter (fun n => decide (first.toNat ≤ n))).drop 1016 = rest
    cases rest <;> rfl
  obtain ⟨entries, next, hnext, hreply⟩ := hpage
  exact ⟨entries, hnext ▸ hreply⟩

/-! ### TRUNK_SLEEP and TRUNK_WAKE -/

/-- TRUNK_SLEEP with a first window not before its effective tick (R357). -/
theorem trunkSleep_queues {dt : W64} (hk : Taken (gateHead 0x0C03) h s) (hst : s.trunk.state = .data)
    (heff : (s.advance h.wait).effTickIdx * 1000000 ≤ dt.toNat) (hne : dt ≠ 0#64) :
    Replies (exec (.trunkSleep h dt) s) 0x0C03 h s .ok (s.advance h.wait).effTick (le 8 dt.toNat)
      { s.advance h.wait with trunk := { s.trunk with
        sleepTicks := some (s.advance h.wait).effTicks, firstWin := dt
        pS := s.force.trunk.nat 6 60, wMs := s.force.trunk.nat 7 10 * 2
        toSend := s.trunk.toSend ++ [⟨2, 0, trunkPacket 10 (le 8 dt.toNat ++ le 2 (s.force.trunk.nat 6 60)
          ++ le 2 (s.force.trunk.nat 7 10 * 2) ++ [1#8] ++ zeros 3)⟩] } } := by
  have hdata : ((s.advance h.wait).trunk.state != LinkState.data) = false := by simp [hst]
  have hrange : (dt != 0#64 && decide (dt.toNat < (s.advance h.wait).effTickIdx * 1000000)) = false := by simp [heff]
  refine runCmd_replies _ h s _ _ _ _ _ hk ((State.refuseIf_false _ _ _ _ hdata).trans
    ((State.refuseIf_false _ _ _ _ hrange).trans ?_))
  simp only [if_neg hne]
  rfl

theorem trunkSleep_busy {dt : W64} (hk : Taken (gateHead 0x0C03) h s) (hst : s.trunk.state ≠ .data) :
    Replies (exec (.trunkSleep h dt) s) 0x0C03 h s .busyRunning noTick [] (s.advance h.wait) :=
  runCmd_refuses _ h s _ _ hk (State.refuseIf_true _ _ _ _ (by simpa using hst))

/-- TRUNK_WAKE outside OFF asks for the call that the state of the link has (R358, R362). -/
theorem trunkWake_asks {t : State} (hk : Taken (gateHead 0x0C04) h s) (hst : s.trunk.state ≠ .off)
    (ht : (s.advance h.wait).askCall = t) : Replies (exec (.trunkWake h) s) 0x0C04 h s .ok noTick [] t :=
  ht ▸ runCmd_replies _ h s _ _ _ _ _ hk (State.refuseIf_false _ _ _ _ (by simpa using hst))

theorem askCall_sleep (hst : s.trunk.state = .sleep) :
    s.askCall = { s with trunk := { s.trunk with callType := 2, callDue := some s.time.dt } } := by
  unfold State.askCall
  split
  · rfl
  · next h => exact absurd (hst.symm.trans h) (by decide)
  · next h _ => exact absurd hst h

theorem askCall_lost (hst : s.trunk.state = .lost) :
    s.askCall = { s with trunk := { s.trunk with callType := 3, callDue := some s.time.dt } } := by
  unfold State.askCall
  split
  · next h => exact absurd (hst.symm.trans h) (by decide)
  · rfl
  · next _ h => exact absurd hst h

/-! ### TRUNK_REMOTE -/

/-- TRUNK_REMOTE in DATA is kept, and its packet joins those that wait for the mast (R364, R394). -/
theorem trunkRemote_awaits {pkt : List Byte} (hk : Taken (gateHead 0x0C06) h s) (hst : s.trunk.state = .data) :
    Awaits (exec (.trunkRemote h pkt) s) h s
      { s.advance h.wait with trunk := { s.trunk with
        remotes := s.trunk.remotes ++ [⟨s.nextId, h.tr, h.seq, BitVec.ofNat 16 (field pkt 4 2), pkt, 0,
          (s.advance h.wait).time.dt, none, none⟩]
        toSend := s.trunk.toSend ++ [⟨2, s.nextId + 2, trunkPacket 2 pkt⟩] } } := by
  have hup : ((s.advance h.wait).trunk.state == LinkState.off || (s.advance h.wait).trunk.state == LinkState.lost) = false := by
    simp [hst]
  have hmasks : (s.advance h.wait).trunk.state.masks = true := by simp [hst, LinkState.masks]
  have hsleep : ¬ (s.advance h.wait).trunk.state = .sleep := by simp [hst]
  exact runCmd_awaits _ h s _ _ hk ((State.refuseIf_false _ _ _ _ hup).trans
    (congrArg (·, Answer.later) ((if_neg hsleep).trans (if_pos hmasks)))) rfl

theorem trunkRemote_notFound {pkt : List Byte} (hk : Taken (gateHead 0x0C06) h s)
    (hst : s.trunk.state = .off ∨ s.trunk.state = .lost) :
    Replies (exec (.trunkRemote h pkt) s) 0x0C06 h s .notFound noTick [] (s.advance h.wait) :=
  runCmd_refuses _ h s _ _ hk (State.refuseIf_true _ _ _ _ (by rcases hst with e | e <;> simp [e]))

end

/-- Settles O16: each command's body passes its checks, and then is one commit, one answer, or one change of the trunk. -/
theorem trunkCommands : Obligations.TrunkCommands := by
  unfold Obligations.TrunkCommands
  intro h s
  refine ⟨?_, ?_, ?_, ?_, ?_, ?_, ?_, ?_, ?_, ?_, ?_⟩
  · exact fun items t hk hne ha hrole => trunkConfig_sets hk hne ha hrole
  · exact fun items t hk hne ha hrole hd hm => trunkConfig_wrongMode hk hne ha hrole hd hm
  · exact trunkQuery_reads
  · exact fun rs hk hrs => trunkMask_sets hk hrs
  · exact fun e first hk he hlo hhi hst => trunkNoiseQuery_pages hk he hlo hhi hst
  · exact fun dt hk hst heff hne => trunkSleep_queues hk hst heff hne
  · exact fun dt hk hst => trunkSleep_busy hk hst
  · exact fun hk hst => trunkWake_asks hk (by rw [hst]; decide) (askCall_sleep (s := s.advance h.wait) hst)
  · exact fun hk hst => trunkWake_asks hk (by rw [hst]; decide) (askCall_lost (s := s.advance h.wait) hst)
  · exact fun pkt hk hst => trunkRemote_awaits hk hst
  · exact fun pkt hk hst => trunkRemote_notFound hk hst

end Sys2Proof.Machine
end

section
/-! PROOFS. What the operations of the trunk leave alone (O48): its queues, tables, masks and SEQ spaces, and what lies beyond the
link. -/

namespace Sys2Proof.Machine

/-! ### Queues, tables and masks -/

/-- The trunk without its queues, tables, masks, SEQ spaces and counters, and without what is measured and reported. -/
def TrunkSt.bare (k : TrunkSt) : TrunkSt :=
  { k with
    pendMask := none, mask := [], maskGen := 0, toSend := [], remotes := [], hm := TrunkSt.reset.hm, mh := TrunkSt.reset.mh
    data := SpaceSt.reset, ctrl := SpaceSt.reset, sent := 0, retx := 0
    profTx := 0, snrRep := 0, snrAge := 0, mySnr := 0, d := 0, e := 0, estimate := 0 }

/-- The state without what `TrunkSt.bare` leaves out, without the queues of the trunk's transport, and without the count of free
values. -/
def State.bare (s : State) : State := { s with trunk := s.trunk.bare, pTrunk := Port.reset, freeCtr := 0 }

/-- What a state says beside its queues, tables and masks is the same in two states that differ in those only. -/
theorem of_bare {α : Type} (p : State → α) (hp : ∀ s : State, p s.bare = p s) {s t : State} (h : t.bare = s.bare) : p t = p s := by
  rw [← hp t, h, hp]

/-- What each of two choices keeps, the choice between them keeps. -/
theorem ite_keeps {α β : Type} (p : α → β) {c : Prop} [Decidable c] {a b : α} {y : β} (ha : p a = y) (hb : p b = y) :
    p (if c then a else b) = y := by
  split
  · exact ha
  · exact hb

theorem bare_modTrunk (s : State) (f : TrunkSt → TrunkSt) (hf : ∀ k, (f k).bare = k.bare) : (s.modTrunk f).bare = s.bare :=
  congrArg (fun k => ({ s with trunk := k, pTrunk := Port.reset, freeCtr := 0 } : State)) (hf s.trunk)

theorem bare_modRx (s : State) (f : DirSt → DirSt) : (s.modRx f).bare = s.bare :=
  bare_modTrunk s _ fun k => by split <;> rfl

theorem bare_modTx (s : State) (f : DirSt → DirSt) : (s.modTx f).bare = s.bare :=
  bare_modTrunk s _ fun k => by split <;> rfl

theorem bare_modSpace (s : State) (ctrl : Bool) (f : SpaceSt → SpaceSt) : (s.modSpace ctrl f).bare = s.bare :=
  bare_modTrunk s _ fun k => by split <;> rfl

theorem bare_trunkSend (s : State) (rank tag type : Nat) (body : List Byte) : (s.trunkSend rank tag type body).bare = s.bare := rfl

theorem bare_sendLoading (s : State) (t : LoadTable) (frame : Nat) : (s.sendLoading t frame).bare = s.bare :=
  (bare_trunkSend ..).trans (bare_modRx ..)

theorem bare_sendMask (s : State) (gen : W16) (values : List Byte) (frame : Nat) : (s.sendMask gen values frame).bare = s.bare := by
  unfold State.sendMask
  dsimp only
  split
  · exact (bare_sendLoading ..).trans rfl
  · rfl

theorem bare_maskFrame (s : State) : s.maskFrame.bare = s.bare := by
  unfold State.maskFrame
  split
  · rfl
  · split
    · rfl
    · split
      · exact bare_sendMask ..
      · rfl

theorem bare_queueRemotes (s : State) : s.queueRemotes.bare = s.bare := by
  unfold State.queueRemotes
  refine (foldl_keeps State.bare _ _ (fun u r => ?_) _).trans rfl
  split <;> rfl

/-- Packets that join those that wait change nothing else, however many they are. -/
theorem bare_foldl_trunkSend {α : Type} (rank tag type : Nat) (body : α → List Byte) (l : List α) (s : State) :
    (l.foldl (fun s x => s.trunkSend rank tag type (body x)) s).bare = s.bare :=
  foldl_keeps State.bare (fun s x => s.trunkSend rank tag type (body x)) l (fun _ _ => rfl) s

theorem bare_receivePart (s : State) (rx : List RxCodeword) : (s.receivePart rx).bare = s.bare := by
  unfold State.receivePart
  split
  · rfl
  · exact (bare_modTrunk _ _ fun _ => rfl).trans (bare_foldl_trunkSend 1 0 4 _ _ _)

theorem bare_takeReplies (n : Nat) (s : State) : (State.takeReplies n s).bare = s.bare := by
  induction n generalizing s with
  | zero => rfl
  | succ n ih =>
    unfold State.takeReplies
    split
    · rfl
    · split
      · rfl
      · rw [ih]
        split <;> rfl

theorem bare_takeOutgoing (s : State) : s.takeOutgoing.bare = s.bare := by
  unfold State.takeOutgoing
  split
  · rfl
  · exact (bare_foldl_trunkSend 2 0 3 Event.packet _ _).trans (bare_takeReplies s.pTrunk.outbox.length s)

theorem bare_framePackets (s : State) (f : TrunkFrameIn) : (s.framePackets f).bare = s.bare := by
  unfold State.framePackets
  dsimp only
  split <;> rfl

theorem bare_noteEnds (s : State) (ctrl : Bool) (room next : Nat) (ends : List (Nat × Nat)) :
    (s.noteEnds ctrl room next ends).bare = s.bare := by
  refine foldl_keeps State.bare _ _ (fun u x => ?_) s
  dsimp only
  split
  · rfl
  · split <;> rfl

/-! ### One part leaves -/

theorem length_fillCodewords (f : Fill) (room next n : Nat) : (fillCodewords f room next n).length = n := by
  induction n with
  | zero => rfl
  | succ n ih => rw [fillCodewords, List.length_append, ih]; rfl

/-- A part's new codewords and the ones sent again are as many as the part has. -/
theorem length_partCodewords (f : Fill) (room next n k : Nat) (failed : List TxCodeword) (bytes : TxCodeword → List Byte) :
    ((fillCodewords f room next (n - (failed.take (n - k)).length) ++ (failed.take (n - k)).map TxCodeword.again).map bytes).length
      = n := by
  simp only [List.length_map, List.length_append, length_fillCodewords, List.length_take]
  omega

/-- A part of `n` codewords, beside queues and SEQ spaces: those codewords leave, new ones and ones sent again (R335, R343). -/
theorem bare_sendPart (s : State) (ctrl : Bool) (rate n : Nat) :
    ∃ cws, cws.length = n ∧ (s.sendPart ctrl rate n).bare = (s.emit (.trunkFrame ctrl cws)).bare := by
  have hleaves (f : SpaceSt → SpaceSt) (g : TrunkSt → TrunkSt) (hg : ∀ k, (g k).bare = k.bare) (room next : Nat)
      (ends : List (Nat × Nat)) (cws : List (List Byte)) :
      ((((s.modSpace ctrl f).modTrunk g).noteEnds ctrl room next ends).emit (.trunkFrame ctrl cws)).bare
        = (s.emit (.trunkFrame ctrl cws)).bare :=
    congrArg (·.emit (.trunkFrame ctrl cws)) ((bare_noteEnds ..).trans ((bare_modTrunk _ g hg).trans (bare_modSpace ..)))
  unfold State.sendPart
  split <;> exact ⟨_, length_partCodewords .., hleaves _ _ (by intro k; rfl) ..⟩

/-- A control burst is one codeword (R338). -/
theorem bare_sendBurst (s : State) : ∃ cw, s.sendBurst.bare = (s.emit (.trunkFrame true [cw])).bare := by
  unfold State.sendBurst
  obtain ⟨cws, hlen, hbare⟩ := bare_sendPart (s.modTrunk (fun k => { k with
    profTx := if s.trunk.state.masks then s.trunk.nextProfile else 3 })) true 0 1
  obtain ⟨cw, rfl⟩ := List.length_eq_one_iff.1 hlen
  exact ⟨cw, hbare⟩

/-! ### Beyond the link -/

/-- The state without the trunk, the references, the power state, the count of free values, and what carries replies and events out
of the block. -/
def State.beyond (s : State) : State :=
  { s.core with trunk := TrunkSt.reset, refs := State.reset.refs, power := State.reset.power, freeCtr := 0 }

/-- What a state says of what lies beyond the link is the same in two states that differ in the link only. -/
theorem of_beyond {α : Type} (p : State → α) (hp : ∀ s : State, p s.beyond = p s) {s t : State} (h : t.beyond = s.beyond) :
    p t = p s := by
  rw [← hp t, h, hp]

theorem beyond_of_core {s t : State} (h : t.core = s.core) : t.beyond = s.beyond :=
  of_core State.beyond (fun _ => rfl) h

theorem beyond_of_bare {s t : State} (h : t.bare = s.bare) : t.beyond = s.beyond :=
  of_bare State.beyond (fun _ => rfl) h

theorem beyond_raise (s : State) (code : Nat) (ps : List Byte) : (s.raise code noSlot ps).beyond = s.beyond :=
  beyond_of_core (core_raise_noSlot ..)

theorem beyond_setTState (s : State) (t : TState) : (s.setTState t).beyond = s.beyond := by
  unfold State.setTState
  split
  · rfl
  · exact (beyond_of_core (core_setIntBoth ..)).trans rfl

theorem beyond_refEvent (s : State) (reason role prev new ref : Nat) : (s.refEvent reason role prev new ref).beyond = s.beyond :=
  beyond_raise ..

theorem beyond_refSay (s : State) (reason role ref : Nat) : (s.refSay reason role ref).beyond = s.beyond := beyond_refEvent ..

theorem beyond_modRef (s : State) (c : Nat) (f : RefState → RefState) : (s.modRef c f).beyond = s.beyond := rfl

theorem beyond_freqLost (s : State) (c : Nat) : (s.freqLost c).beyond = s.beyond :=
  (beyond_refSay ..).trans (beyond_refEvent ..)

theorem beyond_timeLost (s : State) (c : Nat) : (s.timeLost c).beyond = s.beyond := by
  have hdrop : (s.dropSource c).beyond = s.beyond := beyond_refEvent ..
  unfold State.timeLost
  split
  · exact (beyond_refSay ..).trans ((beyond_setTState (s.dropSource c) .holdover).trans hdrop)
  · exact (beyond_setTState ..).trans hdrop
  · exact hdrop

/-- An operation that keeps what lies beyond the link keeps it where it is done only sometimes. -/
theorem beyond_when {c : Prop} [Decidable c] (f : State → State) (hf : ∀ u, (f u).beyond = u.beyond) (s : State) :
    (if c then f s else s).beyond = s.beyond := ite_keeps State.beyond (hf s) rfl

/-- What the loss of a reference changes is the references' (R123, R127). -/
theorem beyond_loseRef (s : State) (c : Nat) : (s.loseRef c).beyond = s.beyond :=
  (beyond_when (·.timeLost c) (beyond_timeLost · c) _).trans <|
  (beyond_when (·.freqLost c) (beyond_freqLost · c) _).trans <|
  (beyond_when (·.refSay 8 1 c) (beyond_refSay · 8 1 c) _).trans <|
  (beyond_when (·.refSay 8 0 c) (beyond_refSay · 8 0 c) _).trans <|
  (beyond_when (·.modRef c RefState.loseT) (beyond_modRef · c _) _).trans <|
  beyond_when (·.modRef c RefState.loseF) (beyond_modRef · c _) { s with refs := s.refs.forget c }

theorem beyond_enterSearch (s : State) : s.enterSearch.beyond = s.beyond :=
  ite_keeps State.beyond ((beyond_loseRef ..).trans rfl) rfl

end Sys2Proof.Machine
end

section
/-! PROOFS. TRUNK_FRAME: what a frame takes in, and the part that it sends (O48; R335, R339, R343 to R348). -/

namespace Sys2Proof.Machine

/-! ### What a frame takes in -/

/-- The bare state without the DT at which the partner was heard, which a frame's measurements note. -/
def State.onLine (s : State) : State := s.bare.modTrunk fun k => { k with lastHeard := 0 }

/-- What a state says of the link beside its queues, tables and measurements is the same in two states that differ in those only. -/
theorem of_onLine {α : Type} (p : State → α) (hp : ∀ s : State, p s.onLine = p s) {s t : State} (h : t.onLine = s.onLine) :
    p t = p s := by
  rw [← hp t, h, hp]

theorem onLine_of_bare {s t : State} (h : t.bare = s.bare) : t.onLine = s.onLine := of_bare State.onLine (fun _ => rfl) h

theorem beyond_of_onLine {s t : State} (h : t.onLine = s.onLine) : t.beyond = s.beyond := of_onLine State.beyond (fun _ => rfl) h

/-- A frame begins with its number: the head's by the tick, the mast's one more than the last (R335). -/
def State.frameNumber (s : State) : Nat := if s.isHead then s.tickNow / 2 % 2 ^ 32 else (s.trunk.frame + 1) % 2 ^ 32

/-- The state with the next frame number and the counts of frames. -/
def State.nextFrame (s : State) : State :=
  s.modTrunk fun k => { k with
    frame := s.frameNumber, timeRun := if k.timeSeen then k.timeRun + 1 else 0, timeSeen := false
    ackFrames := k.ackFrames + 1, goodAcks := if k.ackFrames = 0 then k.goodAcks else 0 }

/-- A frame's measurements, masks and tables that come into force, and the partner's part. -/
def State.frameTaken (s : State) (f : TrunkFrameIn) : State :=
  let u := (s.nextFrame.frameMeasures f).maskFrame.tableFrame
  if u.trunk.state = .data then u.receivePart f.rx else u

/-- The packets that go with a frame, and those that have waited for it. -/
def State.frameLoaded (s : State) (f : TrunkFrameIn) : State :=
  if s.trunk.talks then (s.framePackets f).takeOutgoing else s

/-- This device's part of a frame. -/
def State.framePart (s : State) : State :=
  if s.trunk.state = .data && !s.trunk.useBursts then
    s.sendPart false s.txDir.table.rate (s.txDir.table.codewords (s.dirSyms s.isHead))
  else s.sendBurst

/-- The state that a frame leaves. -/
def State.afterFrame (s : State) (f : TrunkFrameIn) : State :=
  if !(s.frameTaken f).sends then s.frameTaken f else ((s.frameTaken f).frameLoaded f).framePart

/-- A frame that is served outside OFF takes in what came, and sends where the link does. -/
theorem exec_trunkFrame {s : State} (f : TrunkFrameIn) (hst : s.trunk.state ≠ .off) (hs : s.serving = true)
    (hh : s.isHead = true → s.tickNow % 2 = 0) :
    exec (.trunkFrame f) s = .next (s.afterFrame f) := by
  have hgo : ¬ (decide (s.trunk.state = .off) || !s.serving || (s.isHead && s.tickNow % 2 != 0)) = true := by
    simpa [hst, hs] using hh
  exact congrArg Host.Outcome.next (if_neg hgo)

theorem trunkFrame_nothing {s : State} (f : TrunkFrameIn)
    (h : s.trunk.state = .off ∨ s.serving = false ∨ (s.isHead = true ∧ s.tickNow % 2 ≠ 0)) : exec (.trunkFrame f) s = .next s := by
  have hstop : (decide (s.trunk.state = .off) || !s.serving || (s.isHead && s.tickNow % 2 != 0)) = true := by
    rcases h with h | h | ⟨h, hodd⟩
    · simp [h]
    · simp [h]
    · simp [h, bne_iff_ne.2 hodd]
  exact congrArg Host.Outcome.next (if_pos hstop)

/-- The measurements of a frame, beside tables and values measured, note at most when the partner was heard (R336, R348). -/
theorem bare_frameMeasures (s : State) (f : TrunkFrameIn) :
    ∃ w, (s.frameMeasures f).bare = (s.modTrunk fun k => { k with lastHeard := w }).bare := by
  unfold State.frameMeasures
  dsimp only
  split
  · exact ⟨s.trunk.lastHeard, bare_modRx ..⟩
  · exact ⟨s.time.dt, (bare_modRx ..).trans (ite_keeps State.bare (ite_keeps State.bare ((bare_modTrunk _ _ (by intro k; rfl)).trans
      ((bare_modRx ..).trans rfl)) ((bare_modRx ..).trans rfl)) rfl)⟩

theorem onLine_frameMeasures (s : State) (f : TrunkFrameIn) : (s.frameMeasures f).onLine = s.onLine := by
  obtain ⟨w, hbare⟩ := bare_frameMeasures s f
  exact (onLine_of_bare hbare).trans rfl

/-- The link enters DATA with one event, and otherwise changes tables, queues and its own state (R345). -/
theorem enterData_frame (s : State) : s.enterData.trunk.frame = s.trunk.frame ∧ s.enterData.beyond = s.beyond := by
  have hup (u : State) : u.trunkUpEvent.trunk.frame = u.trunk.frame ∧ u.trunkUpEvent.beyond = u.beyond :=
    ⟨of_core (·.trunk.frame) (fun _ => rfl) (core_raise_noSlot ..), beyond_raise ..⟩
  have hreturn (u : State) : u.relayReturn.trunk = u.trunk ∧ u.relayReturn.beyond = u.beyond := by
    unfold State.relayReturn
    split <;> exact ⟨rfl, rfl⟩
  have hqueue (u : State) : u.queueRemotes.trunk.frame = u.trunk.frame ∧ u.queueRemotes.beyond = u.beyond :=
    ⟨of_bare (·.trunk.frame) (fun _ => rfl) (bare_queueRemotes u), beyond_of_bare (bare_queueRemotes u)⟩
  have henter (u : State) : u.trunkUpEvent.relayReturn.queueRemotes.trunk.frame = u.trunk.frame
      ∧ u.trunkUpEvent.relayReturn.queueRemotes.beyond = u.beyond :=
    ⟨(hqueue _).1.trans ((congrArg (·.frame) (hreturn _).1).trans (hup u).1),
      (hqueue _).2.trans ((hreturn _).2.trans (hup u).2)⟩
  exact ⟨(henter _).1.trans (ite_keeps (fun u : State => u.trunk.frame) rfl rfl), (henter _).2.trans (ite_keeps State.beyond rfl rfl)⟩

theorem tableFrame_frame (s : State) : s.tableFrame.trunk.frame = s.trunk.frame ∧ s.tableFrame.beyond = s.beyond := by
  unfold State.tableFrame
  dsimp only
  split
  · split
    · exact enterData_frame s
    · exact ⟨rfl, rfl⟩
  · split
    · exact ⟨of_bare (·.trunk.frame) (fun _ => rfl) (bare_modTx s _), beyond_of_bare (bare_modTx s _)⟩
    · exact ⟨rfl, rfl⟩
  · exact ⟨rfl, rfl⟩

/-- A table switch leaves the state of the link outside CONTROL (R350). -/
theorem bare_tableFrame {s : State} (hst : s.trunk.state ≠ .control) : s.tableFrame.bare = s.bare := by
  unfold State.tableFrame
  dsimp only
  split
  · next h => exact absurd h hst
  · split
    · exact bare_modTx ..
    · rfl
  · rfl

theorem frameTaken_frame (s : State) (f : TrunkFrameIn) :
    (s.frameTaken f).trunk.frame = s.frameNumber ∧ (s.frameTaken f).beyond = s.beyond := by
  obtain ⟨hframe, hbeyond⟩ := tableFrame_frame (s.nextFrame.frameMeasures f).maskFrame
  have hmask := bare_maskFrame (s.nextFrame.frameMeasures f)
  have htables : (s.nextFrame.frameMeasures f).maskFrame.tableFrame.trunk.frame = s.frameNumber
      ∧ (s.nextFrame.frameMeasures f).maskFrame.tableFrame.beyond = s.beyond :=
    ⟨hframe.trans ((of_bare (·.trunk.frame) (fun _ => rfl) hmask).trans
        (of_onLine (·.trunk.frame) (fun _ => rfl) (onLine_frameMeasures s.nextFrame f))),
      hbeyond.trans ((beyond_of_bare hmask).trans ((beyond_of_onLine (onLine_frameMeasures s.nextFrame f)).trans rfl))⟩
  unfold State.frameTaken
  dsimp only
  split
  · have hpart := bare_receivePart (s.nextFrame.frameMeasures f).maskFrame.tableFrame f.rx
    exact ⟨(of_bare (·.trunk.frame) (fun _ => rfl) hpart).trans htables.1, (beyond_of_bare hpart).trans htables.2⟩
  · exact htables

/-- Outside CONTROL a frame takes in what came without a change of the link's state, and nothing leaves. -/
theorem onLine_frameTaken {s : State} (f : TrunkFrameIn) (hst : s.trunk.state ≠ .control) :
    (s.frameTaken f).onLine = s.nextFrame.onLine := by
  have hmask : (s.nextFrame.frameMeasures f).maskFrame.onLine = s.nextFrame.onLine :=
    (onLine_of_bare (bare_maskFrame _)).trans (onLine_frameMeasures ..)
  have hctrl : (s.nextFrame.frameMeasures f).maskFrame.trunk.state ≠ .control := by
    rw [of_onLine (·.trunk.state) (fun _ => rfl) hmask]; exact hst
  have htables := (onLine_of_bare (bare_tableFrame hctrl)).trans hmask
  unfold State.frameTaken
  dsimp only
  split
  · exact (onLine_of_bare (bare_receivePart ..)).trans htables
  · exact htables

/-! ### What a frame sends -/

theorem bare_frameLoaded (s : State) (f : TrunkFrameIn) : (s.frameLoaded f).bare = s.bare := by
  unfold State.frameLoaded
  split
  · exact (bare_takeOutgoing _).trans (bare_framePackets ..)
  · rfl

/-- Outside DATA, and where R347 has the sender do so, the part is one control burst. -/
theorem bare_framePart_burst {s : State} (h : ¬ (s.trunk.state = .data ∧ s.trunk.useBursts = false)) :
    ∃ cw, s.framePart.bare = (s.emit (.trunkFrame true [cw])).bare := by
  have hburst : s.framePart = s.sendBurst := if_neg (by simpa using h)
  rw [hburst]
  exact bare_sendBurst s

/-- In DATA the part is the codewords of the table in use. -/
theorem bare_framePart_data {s : State} (hst : s.trunk.state = .data) (hb : s.trunk.useBursts = false) :
    ∃ cws, s.framePart.bare = (s.emit (.trunkFrame false cws)).bare := by
  have hdata : s.framePart = s.sendPart false s.txDir.table.rate (s.txDir.table.codewords (s.dirSyms s.isHead)) :=
    if_pos (by simp [hst, hb])
  rw [hdata]
  obtain ⟨cws, -, hbare⟩ := bare_sendPart s false s.txDir.table.rate (s.txDir.table.codewords (s.dirSyms s.isHead))
  exact ⟨cws, hbare⟩

/-- A part, beside queues and SEQ spaces, is what leaves. -/
theorem bare_framePart (s : State) : ∃ ctrl cws, s.framePart.bare = (s.emit (.trunkFrame ctrl cws)).bare := by
  by_cases h : s.trunk.state = .data ∧ s.trunk.useBursts = false
  · exact ⟨_, bare_framePart_data h.1 h.2⟩
  · obtain ⟨cw, hbare⟩ := bare_framePart_burst h
    exact ⟨_, _, hbare⟩

theorem frameSent_frame (s : State) (f : TrunkFrameIn) :
    ((s.frameLoaded f).framePart).trunk.frame = s.trunk.frame ∧ ((s.frameLoaded f).framePart).beyond = s.beyond := by
  obtain ⟨ctrl, cws, hpart⟩ := bare_framePart (s.frameLoaded f)
  have hsent := hpart.trans (congrArg (·.emit (.trunkFrame ctrl cws)) (bare_frameLoaded s f))
  exact ⟨of_bare (·.trunk.frame) (fun _ => rfl) (s := s.emit (.trunkFrame ctrl cws)) hsent,
    beyond_of_bare (s := s.emit (.trunkFrame ctrl cws)) hsent⟩

/-- A frame that sends control bursts lets one leave, and the link stays in its state. -/
theorem onLine_frameSent_burst {s u : State} (f : TrunkFrameIn) (hu : s.onLine = u.onLine)
    (h : ¬ (u.trunk.state = .data ∧ u.trunk.useBursts = false)) :
    ∃ cw, ((s.frameLoaded f).framePart).onLine = (u.emit (.trunkFrame true [cw])).onLine := by
  have hload := (onLine_of_bare (bare_frameLoaded s f)).trans hu
  obtain ⟨cw, hpart⟩ := bare_framePart_burst (s := s.frameLoaded f) (by
    rwa [of_onLine (·.trunk.state) (fun _ => rfl) hload, of_onLine (·.trunk.useBursts) (fun _ => rfl) hload])
  exact ⟨cw, (onLine_of_bare hpart).trans (congrArg (·.emit (.trunkFrame true [cw])) hload)⟩

/-- A frame in DATA lets its codewords leave, and the link stays in DATA. -/
theorem onLine_frameSent_data {s u : State} (f : TrunkFrameIn) (hu : s.onLine = u.onLine) (hst : u.trunk.state = .data)
    (hb : u.trunk.useBursts = false) :
    ∃ cws, ((s.frameLoaded f).framePart).onLine = (u.emit (.trunkFrame false cws)).onLine := by
  have hload := (onLine_of_bare (bare_frameLoaded s f)).trans hu
  obtain ⟨cws, hpart⟩ := bare_framePart_data (s := s.frameLoaded f) ((of_onLine (·.trunk.state) (fun _ => rfl) hload).trans hst)
    ((of_onLine (·.trunk.useBursts) (fun _ => rfl) hload).trans hb)
  exact ⟨cws, (onLine_of_bare hpart).trans (congrArg (·.emit (.trunkFrame false cws)) hload)⟩

/-! ### The row -/

section
variable {s : State} (f : TrunkFrameIn)

/-- A frame takes the next number, and changes nothing beyond the link. -/
theorem afterFrame_frame (s : State) (f : TrunkFrameIn) :
    (s.afterFrame f).trunk.frame = s.frameNumber ∧ (s.afterFrame f).beyond = s.beyond := by
  obtain ⟨hframe, hbeyond⟩ := frameTaken_frame s f
  obtain ⟨hsent, hsentBeyond⟩ := frameSent_frame (s.frameTaken f) f
  unfold State.afterFrame
  split
  · exact ⟨hframe, hbeyond⟩
  · exact ⟨hsent.trans hframe, hsentBeyond.trans hbeyond⟩

theorem sends_frameTaken (hst : s.trunk.state ≠ .control) : (s.frameTaken f).sends = s.sends :=
  of_onLine State.sends (fun _ => rfl) (s := s.nextFrame) (onLine_frameTaken f hst)

/-- A head in SEARCH sends one control burst (Table 12.9). -/
theorem afterFrame_headSearch (hh : s.isHead = true) (hst : s.trunk.state = .search) :
    (s.afterFrame f).trunk.state = .search ∧ ∃ cw, (s.afterFrame f).out = s.out ++ [.trunkFrame true [cw]] := by
  have hctrl : s.trunk.state ≠ .control := by rw [hst]; decide
  have hsends : s.sends = true := by simp [State.sends, hst, hh]
  have hafter : s.afterFrame f = ((s.frameTaken f).frameLoaded f).framePart :=
    if_neg (by rw [sends_frameTaken f hctrl, hsends]; decide)
  obtain ⟨cw, hline⟩ := onLine_frameSent_burst f (onLine_frameTaken f hctrl) (fun h => absurd (hst.symm.trans h.1) (by decide))
  rw [hafter]
  exact ⟨(of_onLine (·.trunk.state) (fun _ => rfl) hline).trans hst, cw, of_onLine (·.out) (fun _ => rfl) hline⟩

/-- A mast in SEARCH that has heard no burst sends nothing (Table 12.9). -/
theorem afterFrame_mastSearch (hh : s.isHead = false) (hst : s.trunk.state = .search) (hheard : s.trunk.heard = false) :
    (s.afterFrame f).trunk.state = .search ∧ (s.afterFrame f).out = s.out := by
  have hctrl : s.trunk.state ≠ .control := by rw [hst]; decide
  have hsends : s.sends = false := by simp [State.sends, hst, hh, hheard]
  have hafter : s.afterFrame f = s.frameTaken f := if_pos (by rw [sends_frameTaken f hctrl, hsends]; rfl)
  have hline := onLine_frameTaken f hctrl
  rw [hafter]
  exact ⟨(of_onLine (·.trunk.state) (fun _ => rfl) hline).trans hst, of_onLine (·.out) (fun _ => rfl) (s := s.nextFrame) hline⟩

/-- In DATA a part of data codewords is sent (Table 12.9). -/
theorem afterFrame_data (hst : s.trunk.state = .data) (hb : s.trunk.useBursts = false) :
    (s.afterFrame f).trunk.state = .data ∧ ∃ cws, (s.afterFrame f).out = s.out ++ [.trunkFrame false cws] := by
  have hctrl : s.trunk.state ≠ .control := by rw [hst]; decide
  have hsends : s.sends = true := by simp [State.sends, hst]
  have hafter : s.afterFrame f = ((s.frameTaken f).frameLoaded f).framePart :=
    if_neg (by rw [sends_frameTaken f hctrl, hsends]; decide)
  obtain ⟨cws, hline⟩ := onLine_frameSent_data f (onLine_frameTaken f hctrl) hst hb
  rw [hafter]
  exact ⟨(of_onLine (·.trunk.state) (fun _ => rfl) hline).trans hst, cws, of_onLine (·.out) (fun _ => rfl) hline⟩

end

end Sys2Proof.Machine
end

section
/-! PROOFS. Control bursts, acknowledgements, and the packets of units, commands, replies and events (O48). -/

namespace Sys2Proof.Machine

/-! ### The start of CONTROL -/

/-- The link in CONTROL, beside queues, tables and SEQ spaces. -/
def State.controlBegun (s : State) : State :=
  s.modTrunk fun k => { k with state := .control, since := s.time.dt, ackFrames := 0, goodAcks := 0 }

theorem bare_enterControl (s : State) : s.enterControl.bare = s.controlBegun.bare := by
  unfold State.enterControl
  dsimp only
  split
  · exact (bare_queueRemotes _).trans ((bare_sendMask ..).trans rfl)
  · rfl

theorem isHead_of_isMast {s : State} (hm : s.isMast = true) : s.isHead = false := by
  have hrole : s.role = 1 := by simpa [State.isMast] using hm
  simp [State.isHead, hrole]

/-- A mast enters CONTROL with nothing sent: the head names the mask (Table 12.10 step 4). -/
theorem enterControl_mast {s : State} (hm : s.isMast = true) :
    s.enterControl = s.modTrunk fun t => { t with
      state := .control, since := s.time.dt, data := SpaceSt.reset, ctrl := SpaceSt.reset, ackFrames := 0, goodAcks := 0
      hm := t.hm.still, mh := t.mh.still } :=
  if_neg (show ¬ s.isHead = true by rw [isHead_of_isMast hm]; decide)

/-- The partner has answered: the meet window, if one is open, has succeeded (R358). -/
def State.partnerAnswers (s : State) : State := s.modTrunk fun t => { t with answered := true, winOk := t.winOk || t.winOpen }

/-- That the partner hears this device changes nothing else, but at a mast in SEARCH that has heard a burst. -/
theorem partnerHears_stays {s : State} (h : ¬ (s.isMast = true ∧ s.trunk.state = .search ∧ s.trunk.heard = true)) :
    s.partnerHears = s.partnerAnswers := by
  have hstay : ¬ (s.isMast && s.trunk.state == .search && s.trunk.heard) = true := by simpa [and_assoc] using h
  exact if_neg hstay

/-- A mast in SEARCH that has heard a burst goes to CONTROL when the partner hears it (Table 12.9). -/
theorem partnerHears_control {s : State} (hm : s.isMast = true) (hst : s.trunk.state = .search) (hh : s.trunk.heard = true) :
    s.partnerHears = s.partnerAnswers.enterControl := by
  have hgo : (s.isMast && s.trunk.state == .search && s.trunk.heard) = true := by simp [hm, hst, hh]
  exact if_pos hgo

/-! ### CONTROL_BURST_RECEIVED -/

section
variable {s : State} {b : ControlBurst} (wait : Nat)

theorem controlBurst_nothing (b : ControlBurst)
    (h : s.trunk.state = .off ∨ (s.trunk.state = .sleep ∧ s.trunk.winOpen = false) ∨ s.serving = false) :
    exec (.controlBurstReceived b wait) s = .next s := by
  have hstop : (decide (s.trunk.state = .off) || (s.trunk.state == .sleep && !s.trunk.winOpen) || !s.serving) = true := by
    rcases h with h | ⟨h, hw⟩ | h
    · simp [h]
    · simp [h, hw]
    · simp [h]
  exact congrArg Host.Outcome.next (if_pos hstop)

/-- A link that can hear a burst: not OFF, not asleep outside a window, and served. -/
structure HearsBursts (s : State) : Prop where
  on      : s.trunk.state ≠ .off
  awake   : s.trunk.state = .sleep → s.trunk.winOpen = true
  serving : s.serving = true

theorem HearsBursts.goes (h : HearsBursts s) :
    ¬ (decide (s.trunk.state = .off) || (s.trunk.state == .sleep && !s.trunk.winOpen) || !s.serving) = true := by
  simpa [h.on, h.serving] using h.awake

/-- A burst of another pair is reported and not used (R365). -/
theorem controlBurst_otherPair (h : HearsBursts s) (hp : b.pairId.toNat ≠ s.force.trunk.nat 2) :
    exec (.controlBurstReceived b wait) s
      = .next ((s.advance wait).raise 0x800C noSlot (le 1 3 ++ le 1 s.trunk.state.code ++ zeros 2)) :=
  congrArg Host.Outcome.next ((if_neg h.goes).trans (if_pos hp))

/-- The partner is searched for again where a burst comes in RECOVERY or LOST (Table 12.9). -/
def State.burstSearch (s : State) : State :=
  if s.trunk.state = .recovery || s.trunk.state = .lost then s.enterSearch else s

/-- What a burst of the own pair tells of the partner (R338, R346). -/
def State.noteBurst (s : State) (b : ControlBurst) : State :=
  let fresh := s.isMast && s.trunk.state == .search && !s.trunk.heard
  s.modTrunk fun t => { t with
    heard := true, lastHeard := s.time.dt, profRx := b.profile, bursts := t.bursts + 1, mySnr := snrCode b.snrDb
    winOk := t.winOk || (t.winOpen && s.isHead)
    a := if fresh then 0 else t.a, d := if s.isHead then ((t.a + b.delta) / 2).toNat else t.d }

/-- Where the burst's codeword leads the link: a head in SEARCH goes to CONTROL (Table 12.9). -/
def State.burstLeads (s : State) : State := if s.isHead && s.trunk.state == .search then s.controlBegun else s

/-- A head in SEARCH answers the burst: the packets for the partner wait behind those of CONTROL. -/
def State.burstAnswer (s : State) : State :=
  if s.isHead && s.trunk.state == .search then
    s.enterControl.modTrunk fun t => { t with
      toSend := s.trunk.toSend.filter (fun p => p.rank == 1 && p.tag == 0) ++ t.toSend.filter (fun p => !(p.rank == 1 && p.tag == 0)) }
  else s

theorem bare_burstAnswer (s : State) : s.burstAnswer.bare = s.burstLeads.bare := by
  have hcontrol (f : TrunkSt → TrunkSt) (hf : ∀ k, (f k).bare = k.bare) : (s.enterControl.modTrunk f).bare = s.controlBegun.bare :=
    (bare_modTrunk _ f hf).trans (bare_enterControl s)
  unfold State.burstAnswer State.burstLeads
  by_cases h : (s.isHead && s.trunk.state == .search) = true
  · rw [if_pos h, if_pos h]
    exact hcontrol _ (by intro k; rfl)
  · rw [if_neg h, if_neg h]

/-- Where a burst leads does not turn on queues, tables and SEQ spaces. -/
theorem bare_burstLeads {u v : State} (h : u.bare = v.bare) : u.burstLeads.bare = v.burstLeads.bare := by
  have hcond : (u.isHead && u.trunk.state == .search) = (v.isHead && v.trunk.state == .search) :=
    of_bare (fun x => x.isHead && x.trunk.state == .search) (fun _ => rfl) h
  unfold State.burstLeads
  rw [hcond]
  split
  · exact of_bare (·.controlBegun.bare) (fun _ => rfl) h
  · exact h

/-- The codeword of a burst, where it holds, is acknowledged, and brings the partner's SNR report (R339, R344). -/
def State.burstAcks (s : State) (b : ControlBurst) : State :=
  let c : RxCodeword := ⟨b.bytes, true⟩
  if !cwGood c then s
  else
    (s.modTrunk fun t => { t with
      ctrl := { t.ctrl with rxNext := (cwSeq c + 1) % 4096 }
      snrRep := if cwSnr c < 31 then (cwSnr c : Int) - 16 else t.snrRep
      snrAge := if cwSnr c < 31 then 0 else min 8 (t.snrAge + 1) }).trunkSend 1 0 4
        ([1#8, 0#8] ++ le 2 (cwSeq c) ++ le 2 1 ++ zeros 2 ++ [1#8, 0#8, 0#8, 0#8])

theorem bare_burstAcks (s : State) (b : ControlBurst) : (s.burstAcks b).bare = s.bare := ite_keeps State.bare rfl rfl

/-- A burst of the own pair, beside queues, tables and SEQ spaces. -/
theorem controlBurst_ownPair (h : HearsBursts s) (hp : b.pairId.toNat = s.force.trunk.nat 2) :
    ∃ t, exec (.controlBurstReceived b wait) s = .next t ∧
      t.bare = ((s.advance wait).burstSearch.noteBurst b).burstLeads.bare :=
  ⟨(((s.advance wait).burstSearch.noteBurst b).burstAcks b).burstAnswer,
    congrArg Host.Outcome.next ((if_neg h.goes).trans (if_neg (not_not.2 hp))),
    (bare_burstAnswer _).trans (bare_burstLeads (bare_burstAcks ..))⟩

theorem beyond_burstSearch (s : State) : s.burstSearch.beyond = s.beyond := ite_keeps State.beyond (beyond_enterSearch s) rfl

/-- Outside RECOVERY and LOST nothing is searched for again. -/
theorem burstSearch_stays (hr : s.trunk.state ≠ .recovery) (hl : s.trunk.state ≠ .lost) : s.burstSearch = s :=
  if_neg (by simp [hr, hl])

/-- What the start of CONTROL keeps, a burst keeps. -/
theorem burstLeads_keeps {α : Type} (p : State → α) (hp : ∀ s : State, p s.controlBegun = p s) (s : State) :
    p s.burstLeads = p s := ite_keeps p (hp s) rfl

theorem burstLeads_headSearch (hh : s.isHead = true) (hst : s.trunk.state = .search) : s.burstLeads = s.controlBegun :=
  if_pos (by simp [hh, hst])

theorem burstLeads_stays (h : s.isHead = false ∨ s.trunk.state ≠ .search) : s.burstLeads = s :=
  if_neg (by rcases h with h | h <;> simp [h])

/-- What a burst of the own pair tells, and what lies beyond the link stays. -/
theorem burst_tells {t : State} (ht : t.bare = ((s.advance wait).burstSearch.noteBurst b).burstLeads.bare) :
    t.trunk.profRx = b.profile ∧ t.trunk.lastHeard = (s.advance wait).time.dt ∧ t.trunk.heard = true ∧
      t.acc = s.acc ∧ t.rtc = s.rtc ∧ t.services = s.services := by
  have hkeeps {α : Type} (p : State → α) (hb : ∀ s : State, p s.bare = p s) (hc : ∀ s : State, p s.controlBegun = p s) :
      p t = p ((s.advance wait).burstSearch.noteBurst b) := (of_bare p hb ht).trans (burstLeads_keeps p hc _)
  have hsearch := beyond_burstSearch (s.advance wait)
  have hbeyond : t.beyond = (s.advance wait).beyond := (hkeeps State.beyond (fun _ => rfl) fun _ => rfl).trans hsearch
  exact ⟨hkeeps (·.trunk.profRx) (fun _ => rfl) fun _ => rfl,
    (hkeeps (·.trunk.lastHeard) (fun _ => rfl) fun _ => rfl).trans (of_beyond (·.time.dt) (fun _ => rfl) hsearch),
    hkeeps (·.trunk.heard) (fun _ => rfl) fun _ => rfl,
    of_beyond (·.acc) (fun _ => rfl) (s := s.advance wait) hbeyond, of_beyond (·.rtc) (fun _ => rfl) (s := s.advance wait) hbeyond,
    of_beyond (·.services) (fun _ => rfl) (s := s.advance wait) hbeyond⟩

/-- A head in SEARCH goes to CONTROL with a burst of its pair. -/
theorem burst_headSearch {t : State} (ht : t.bare = ((s.advance wait).burstSearch.noteBurst b).burstLeads.bare)
    (hh : s.isHead = true) (hst : s.trunk.state = .search) : t.trunk.state = .control := by
  rw [burstSearch_stays (s := s.advance wait) (by rw [State.advance_trunk, hst]; decide) (by rw [State.advance_trunk, hst]; decide),
    burstLeads_headSearch (s := (s.advance wait).noteBurst b) hh hst] at ht
  exact (of_bare (·.trunk.state) (fun _ => rfl) ht).trans rfl

/-- In SEARCH at a mast, in CONTROL and in DATA the link stays in its state, and a mast that had heard no burst begins with no
advance (R336). -/
theorem burst_stays {t : State} (ht : t.bare = ((s.advance wait).burstSearch.noteBurst b).burstLeads.bare)
    (hst : (s.isHead = false ∧ s.trunk.state = .search) ∨ s.trunk.state = .control ∨ s.trunk.state = .data) :
    t.trunk.state = s.trunk.state ∧
      (s.trunk.state = .search → s.trunk.heard = false → s.isMast = true → t.trunk.a = 0) := by
  have hr : s.trunk.state ≠ .recovery ∧ s.trunk.state ≠ .lost ∧ (s.isHead = false ∨ s.trunk.state ≠ .search) := by
    rcases hst with ⟨hh, e⟩ | e | e <;> simp [*]
  obtain ⟨hrec, hlost, hstay⟩ := hr
  rw [burstSearch_stays (s := s.advance wait) hrec hlost, burstLeads_stays (s := (s.advance wait).noteBurst b) hstay] at ht
  refine ⟨(of_bare (·.trunk.state) (fun _ => rfl) ht).trans rfl, fun hsearch hheard hm => ?_⟩
  have hfresh : (s.isMast && s.trunk.state == .search && !s.trunk.heard) = true := by simp [hm, hsearch, hheard]
  exact (of_bare (·.trunk.a) (fun _ => rfl) ht).trans (if_pos hfresh)

end

/-! ### TRUNK_ACK -/

section
variable {s : State} (wait : Nat)

@[simp] theorem space_modSpace_same (s : State) (c : Bool) (f : SpaceSt → SpaceSt) : (s.modSpace c f).space c = f (s.space c) := by
  cases c <;> rfl

@[simp] theorem space_modSpace_other (s : State) (c : Bool) (f : SpaceSt → SpaceSt) : (s.modSpace c f).space (!c) = s.space (!c) := by
  cases c <;> rfl

theorem trunkAck_off (a : TrunkAckIn) (hst : s.trunk.state = .off) : exec (.trunkAck a wait) s = .next s :=
  congrArg Host.Outcome.next (if_pos hst)

/-- An ACK outside OFF: what its codewords leave of the SEQ space that it names, before the partner's hearing is noted (R344). -/
theorem trunkAck_takes (a : TrunkAckIn) (hst : s.trunk.state ≠ .off) :
    ∃ u : State, exec (.trunkAck a wait) s = .next u.partnerHears ∧ u = { s.advance wait with trunk := u.trunk } ∧
      (u.trunk.state = s.trunk.state ∧ u.trunk.heard = s.trunk.heard) ∧
      (u.trunk.ackFrames = 0 ∧ u.trunk.goodAcks = s.trunk.goodAcks + 1 ∧ u.trunk.useBursts = false) ∧
      u.space (a.space != 1#8) = s.space (a.space != 1#8) ∧
      u.space (a.space == 1#8)
        = a.bits.zipIdx.foldl (fun x b => x.ackOne ((a.base.toNat + b.2) % 4096) b.1) (s.space (a.space == 1#8)) := by
  refine ⟨_, congrArg Host.Outcome.next (if_neg hst), rfl, ?_, ?_, ?_, ?_⟩
  · generalize (a.space == 1#8) = c
    cases c <;> exact ⟨rfl, rfl⟩
  · generalize (a.space == 1#8) = c
    cases c <;> exact ⟨rfl, rfl, rfl⟩
  · exact space_modSpace_other (s.advance wait) (a.space == 1#8) _
  · exact space_modSpace_same (s.advance wait) (a.space == 1#8) _

theorem trunkAck_one {sp : Byte} {base : W16} {ok : Bool} (hst : s.trunk.state ≠ .off)
    (hstay : ¬ (s.isMast = true ∧ s.trunk.state = .search ∧ s.trunk.heard = true)) :
    ∃ t, exec (.trunkAck ⟨sp, base, [ok]⟩ wait) s = .next t ∧ t = { s.advance wait with trunk := t.trunk } ∧
      t.trunk.ackFrames = 0 ∧ t.trunk.goodAcks = s.trunk.goodAcks + 1 ∧ t.trunk.useBursts = false ∧ t.trunk.answered = true ∧
      t.space (sp != 1#8) = s.space (sp != 1#8) ∧
      t.space (sp == 1#8) = (s.space (sp == 1#8)).ackOne (base.toNat % 4096) ok := by
  obtain ⟨u, hexec, hu, ⟨hstate, hheard⟩, ⟨hframes, hgood, hbursts⟩, hother, hspace⟩ := trunkAck_takes wait ⟨sp, base, [ok]⟩ hst
  have hmast : u.isMast = s.isMast := by rw [hu]; rfl
  rw [partnerHears_stays (by rw [hmast, hstate, hheard]; exact hstay)] at hexec
  refine ⟨_, hexec, ?_, hframes, hgood, hbursts, rfl, hother, hspace⟩
  rw [hu]; rfl

theorem trunkAck_control (a : TrunkAckIn) (hm : s.isMast = true) (hst : s.trunk.state = .search) (hh : s.trunk.heard = true) :
    ∃ t, exec (.trunkAck a wait) s = .next t ∧ t.trunk.state = .control ∧ t.trunk.data = SpaceSt.reset ∧
      t.trunk.ctrl = SpaceSt.reset ∧ t.acc = s.acc := by
  obtain ⟨u, hexec, hu, ⟨hstate, hheard⟩, -, -, -⟩ := trunkAck_takes wait a (s := s) (by rw [hst]; decide)
  have hmast : u.isMast = true := by rw [hu]; exact hm
  rw [partnerHears_control hmast (hstate.trans hst) (hheard.trans hh), enterControl_mast (s := u.partnerAnswers) hmast] at hexec
  refine ⟨_, hexec, rfl, rfl, rfl, ?_⟩
  rw [hu]; rfl

/-! ### Packets of units, commands, replies and events -/

theorem trunkUnitPacket_nothing (u : TrunkUnit)
    (h : s.isHead = false ∨ s.trunk.state ≠ .data ∨ u.record.length < 48) : exec (.trunkUnitPacket u wait) s = .next s := by
  have hstop : (!s.isHead || decide (s.trunk.state ≠ .data) || decide (u.record.length < 48)) = true := by
    rcases h with h | h | h <;> simp [h]
  exact congrArg Host.Outcome.next (if_pos hstop)

/-- A UNIT packet that the head takes: it is in DATA, and the record has its header (R297). -/
structure TakesUnit (s : State) (u : TrunkUnit) : Prop where
  head  : s.isHead = true
  data  : s.trunk.state = .data
  whole : 48 ≤ u.record.length

theorem TakesUnit.goes {u : TrunkUnit} (h : TakesUnit s u) :
    ¬ (!s.isHead || decide (s.trunk.state ≠ .data) || decide (u.record.length < 48)) = true := by
  simpa [h.head, h.data] using h.whole

theorem trunkUnitPacket_noStream {u : TrunkUnit} (h : TakesUnit s u) {x : OutUnit}
    (hx : x = unitOfRecord u.record (s.advance wait).tickNow) (hn : s.stream? x.slot x.kind = none) :
    exec (.trunkUnitPacket u wait) s = .next (s.advance wait) := by
  subst hx
  have hnone : ((s.advance wait).stream? (unitOfRecord u.record (s.advance wait).tickNow).slot
      (unitOfRecord u.record (s.advance wait).tickNow).kind).isNone = true := by
    rw [show (s.advance wait).stream? = s.stream? from rfl, hn]; rfl
  exact congrArg Host.Outcome.next ((if_neg h.goes).trans (if_pos hnone))

/-- Whether STREAM_CTR of a UNIT packet skips, where one of its stream came before (R344). -/
def ctrSkips (was : Option (W16 × Nat × Nat)) (ctr : Byte) : Bool :=
  match was with | some c => (c.2.2 + 1) % 256 != ctr.toNat | none => false

theorem ctrSkips_iff {was : Option (W16 × Nat × Nat)} {ctr : Byte} :
    ctrSkips was ctr = true ↔ ∃ c, was = some c ∧ (c.2.2 + 1) % 256 ≠ ctr.toNat := by
  cases was with
  | none => simp [ctrSkips]
  | some c => simp [ctrSkips]

/-- The unit joins the collector's queue, with GAP_BEFORE where its counter skips (R344). -/
theorem trunkUnitPacket_joins {u : TrunkUnit} (h : TakesUnit s u) {x : OutUnit} {st : Stream}
    (hx : x = unitOfRecord u.record (s.advance wait).tickNow) (hs : s.stream? x.slot x.kind = some st)
    {was : Option (W16 × Nat × Nat)} (hwas : was = s.trunk.unitCtrs.find? (fun c => c.1 == x.slot && c.2.1 == x.kind)) :
    ∃ t, exec (.trunkUnitPacket u wait) s = .next t ∧ t = { s.advance wait with units := t.units, trunk := t.trunk } ∧
      t.units = s.units ++ [if ctrSkips was u.ctr then { x with flags := x.flags ||| fGap } else x] ∧
      t.trunk.unitCtrs.head? = some (x.slot, x.kind, u.ctr.toNat) := by
  subst hx
  have hsome : ¬ ((s.advance wait).stream? (unitOfRecord u.record (s.advance wait).tickNow).slot
      (unitOfRecord u.record (s.advance wait).tickNow).kind).isNone = true := by
    rw [show (s.advance wait).stream? = s.stream? from rfl, hs]; simp
  subst hwas
  exact ⟨_, congrArg Host.Outcome.next ((if_neg h.goes).trans (if_neg hsome)), rfl, rfl,
    congrArg₂ (fun f n => some (f, n, u.ctr.toNat)) (ite_keeps OutUnit.slot rfl rfl) (ite_keeps OutUnit.kind rfl rfl)⟩

theorem trunkCommandPacket_nothing (p : List Byte) (h : s.isMast = false ∨ s.trunk.state = .off ∨ s.serves .trunk = false) :
    exec (.trunkCommandPacket p wait) s = .next s := by
  have hstop : (!s.isMast || decide (s.trunk.state = .off) || !s.serves .trunk) = true := by
    rcases h with h | h | h <;> simp [h]
  exact congrArg Host.Outcome.next (if_pos hstop)

/-- The mast's interpreter takes a wrapped command (R364). -/
theorem trunkCommandPacket_taken (p : List Byte) (hm : s.isMast = true) (hst : s.trunk.state ≠ .off)
    (hs : s.serves .trunk = true) :
    exec (.trunkCommandPacket p wait) s = .next ((s.advance wait).takePacket .trunk false true 4044 p) := by
  have hgo : ¬ (!s.isMast || decide (s.trunk.state = .off) || !s.serves .trunk) = true := by simp [hm, hst, hs]
  exact congrArg Host.Outcome.next (if_neg hgo)

theorem trunkReply_nothing (p : List Byte) (h : s.isHead = false ∨ s.trunk.state = .off) :
    exec (.trunkReplyEventPacket p wait) s = .next s := by
  have hstop : (!s.isHead || decide (s.trunk.state = .off)) = true := by rcases h with h | h <;> simp [h]
  exact congrArg Host.Outcome.next (if_pos hstop)

section
variable {p : List Byte} (hh : s.isHead = true) (hst : s.trunk.state ≠ .off)
include hh hst

theorem trunkReply_goes : ¬ (!s.isHead || decide (s.trunk.state = .off)) = true := by simp [hh, hst]

/-- An event of the mast is wrapped (R364). -/
theorem trunkReply_event (hp : 0x8000 ≤ field p 0 2) :
    exec (.trunkReplyEventPacket p wait) s = .next ((s.advance wait).raise 0x8017 noSlot p) :=
  congrArg Host.Outcome.next ((if_neg (trunkReply_goes hh hst)).trans (if_pos hp))

theorem trunkReply_unknown (hp : field p 0 2 < 0x8000) (hn : ∀ r ∈ s.trunk.remotes, r.wseq.toNat ≠ field p 4 2) :
    exec (.trunkReplyEventPacket p wait) s = .next (s.advance wait) := by
  have hfind : (s.advance wait).trunk.remotes.find? (fun r => r.wseq.toNat == field p 4 2) = none := by
    simpa [List.find?_eq_none] using hn
  refine congrArg Host.Outcome.next ((if_neg (trunkReply_goes hh hst)).trans ((if_neg (Nat.not_le.2 hp)).trans ?_))
  rw [hfind]

/-- A reply of the mast answers the oldest TRUNK_REMOTE where that has its SEQ (R364). -/
theorem trunkReply_answers (hp : field p 0 2 < 0x8000) {r : Remote} {rest : List Remote} (hr : s.trunk.remotes = r :: rest)
    (hseq : r.wseq.toNat = field p 4 2) (hid : ∀ x ∈ rest, x.id ≠ r.id) :
    ∃ t : State, exec (.trunkReplyEventPacket p wait) s
        = .next (t.complete r.tr r.id ⟨0x0C06#16, r.seq, .ok, s.acc.gen, noTick, r.dt, p⟩) ∧
      t.trunk.remotes = rest ∧ t = { s.advance wait with trunk := t.trunk } := by
  have hfind : (s.advance wait).trunk.remotes.find? (fun r => r.wseq.toNat == field p 4 2) = some r := by
    rw [State.advance_trunk, hr]
    exact List.find?_cons_of_pos (by simpa using hseq)
  have hrest : s.trunk.remotes.filter (fun x => x.id != r.id) = rest := by
    rw [hr, List.filter_cons_of_neg (by simp), List.filter_eq_self]
    simpa using hid
  refine ⟨(s.advance wait).modTrunk (fun t => { t with remotes := t.remotes.filter (fun x => x.id != r.id)
                                                       toSend := t.toSend.filter (fun p => p.tag != r.id + 2) }), ?_, hrest, rfl⟩
  refine congrArg Host.Outcome.next ((if_neg (trunkReply_goes hh hst)).trans ((if_neg (Nat.not_le.2 hp)).trans ?_))
  rw [hfind]
  rfl

end

end

/-- Settles O48: each row's condition decides between leaving the state and one effect, and what an effect leaves alone is stated by
the parts of the state that it differs in. -/
theorem trunkFramesAndPackets : Obligations.TrunkFramesAndPackets := by
  unfold Obligations.TrunkFramesAndPackets
  intro wait s
  refine ⟨?_, ?_, ?_, ?_, ?_, ?_, ?_, ?_, ?_, ?_, ?_, ?_, ?_⟩
  · exact fun f h => trunkFrame_nothing f h
  · intro f hst hs hh
    obtain ⟨hframe, hbeyond⟩ := afterFrame_frame s f
    exact ⟨_, exec_trunkFrame f hst hs hh, hframe, of_beyond (·.acc) (fun _ => rfl) hbeyond,
      of_beyond (·.rtc) (fun _ => rfl) hbeyond, of_beyond (·.services) (fun _ => rfl) hbeyond,
      of_beyond (·.cal) (fun _ => rfl) hbeyond, of_beyond (·.flash) (fun _ => rfl) hbeyond,
      of_beyond (·.journal) (fun _ => rfl) hbeyond, afterFrame_headSearch f, afterFrame_mastSearch f, afterFrame_data f⟩
  · exact fun b h => controlBurst_nothing wait b h
  · intro b hon hawake hs
    refine ⟨fun hp => controlBurst_otherPair wait ⟨hon, hawake, hs⟩ hp, fun hp => ?_⟩
    obtain ⟨t, hexec, ht⟩ := controlBurst_ownPair wait ⟨hon, hawake, hs⟩ hp
    obtain ⟨hprof, hlast, hheard, hacc, hrtc, hsvc⟩ := burst_tells wait ht
    refine ⟨t, hexec, hprof, hlast, hheard, hacc, hrtc, hsvc, fun hh hst => burst_headSearch wait ht hh hst, fun hh hst => ?_,
      fun hst => (burst_stays wait ht (Or.inr hst)).1⟩
    obtain ⟨hstate, ha⟩ := burst_stays wait ht (Or.inl ⟨hh, hst⟩)
    exact ⟨hstate.trans hst, ha hst⟩
  · exact fun a hst => trunkAck_off wait a hst
  · intro sp base ok hst hstay
    obtain ⟨t, hexec, ht, hframes, hgood, hbursts, hanswered, hother, hspace⟩ :=
      trunkAck_one wait (sp := sp) (base := base) (ok := ok) hst hstay
    refine ⟨t, hexec, ht, hframes, hgood, hbursts, hanswered, hother, fun hok => ?_, fun hok => ?_⟩
    · rw [hspace, hok]; rfl
    · rw [hspace, hok]; rfl
  · exact fun a hm hst hh => trunkAck_control wait a hm hst hh
  · exact fun u h => trunkUnitPacket_nothing wait u h
  · intro u hh hst hlen
    refine ⟨fun hn => trunkUnitPacket_noStream wait ⟨hh, hst, hlen⟩ rfl hn, fun st hs => ?_⟩
    obtain ⟨t, hexec, ht, hunits, hctrs⟩ := trunkUnitPacket_joins wait ⟨hh, hst, hlen⟩ rfl hs rfl
    refine ⟨t, hexec, ht, ?_, hctrs⟩
    rw [hunits]
    simp only [ctrSkips_iff]
  · exact fun p h => trunkCommandPacket_nothing wait p h
  · exact fun p hm hst hs => trunkCommandPacket_taken wait p hm hst hs
  · exact fun p h => trunkReply_nothing wait p h
  · exact fun p hh hst => ⟨fun hp => trunkReply_event wait hh hst hp, fun hp hn => trunkReply_unknown wait hh hst hp hn,
      fun r rest hp hr hseq hid => trunkReply_answers wait hh hst hp hr hseq hid⟩

end Sys2Proof.Machine
end

section
/-! PROOFS. Loading tables, masks, noise and time of the trunk, and the table that a receiver computes (O49). -/

namespace Sys2Proof.Machine

/-! ### The two directions -/

@[simp] theorem State.modTrunk_trunk (s : State) (f : TrunkSt → TrunkSt) : (s.modTrunk f).trunk = f s.trunk := rfl
@[simp] theorem State.modTrunk_isHead (s : State) (f : TrunkSt → TrunkSt) : (s.modTrunk f).isHead = s.isHead := rfl

@[simp] theorem txDir_modTx (s : State) (f : DirSt → DirSt) : (s.modTx f).txDir = f s.txDir := by
  cases h : s.isHead <;> simp [State.modTx, State.txDir, h]
@[simp] theorem rxDir_modTx (s : State) (f : DirSt → DirSt) : (s.modTx f).rxDir = s.rxDir := by
  cases h : s.isHead <;> simp [State.modTx, State.rxDir, h]
@[simp] theorem rxDir_modRx (s : State) (f : DirSt → DirSt) : (s.modRx f).rxDir = f s.rxDir := by
  cases h : s.isHead <;> simp [State.modRx, State.rxDir, h]
@[simp] theorem txDir_modRx (s : State) (f : DirSt → DirSt) : (s.modRx f).txDir = s.txDir := by
  cases h : s.isHead <;> simp [State.modRx, State.txDir, h]

@[simp] theorem txDir_trunkSend (s : State) (rank tag type : Nat) (body : List Byte) :
    (s.trunkSend rank tag type body).txDir = s.txDir := rfl
@[simp] theorem rxDir_trunkSend (s : State) (rank tag type : Nat) (body : List Byte) :
    (s.trunkSend rank tag type body).rxDir = s.rxDir := rfl

/-- What of the trunk is said of neither direction, a change of the direction sent leaves. -/
theorem modTx_keeps {α : Type} (p : TrunkSt → α) (hm : ∀ k d, p { k with hm := d } = p k) (mh : ∀ k d, p { k with mh := d } = p k)
    (s : State) (f : DirSt → DirSt) : p (s.modTx f).trunk = p s.trunk := ite_keeps p (hm ..) (mh ..)

/-- What of the trunk is said of neither direction, a change of the direction received leaves. -/
theorem modRx_keeps {α : Type} (p : TrunkSt → α) (hm : ∀ k d, p { k with hm := d } = p k) (mh : ∀ k d, p { k with mh := d } = p k)
    (s : State) (f : DirSt → DirSt) : p (s.modRx f).trunk = p s.trunk := ite_keeps p (mh ..) (hm ..)

/-! ### A receiver names a table -/

/-- The ID of the table that a receiver names: the one not in use, and the first in CONTROL (R350). -/
def State.loadingId (s : State) : Nat := if s.trunk.state = .data then 1 - s.rxDir.active else 0

theorem rxDir_sendLoading (s : State) (t : LoadTable) (frame : Nat) :
    (s.sendLoading t frame).rxDir = { s.rxDir with
      table0 := if s.loadingId = 0 then t else s.rxDir.table0, table1 := if s.loadingId = 0 then s.rxDir.table1 else t
      switch := some (s.loadingId, frame), acked := false } := by
  unfold State.sendLoading
  exact (rxDir_trunkSend ..).trans (rxDir_modRx ..)

@[simp] theorem txDir_sendLoading (s : State) (t : LoadTable) (frame : Nat) : (s.sendLoading t frame).txDir = s.txDir := by
  unfold State.sendLoading
  exact (txDir_trunkSend ..).trans (txDir_modRx ..)

theorem toSend_sendLoading (s : State) (t : LoadTable) (frame : Nat) :
    (s.sendLoading t frame).trunk.toSend = s.trunk.toSend ++ [⟨1, 0, trunkPacket 5 (loadingBody s.loadingId t frame)⟩] :=
  congrArg (· ++ [_]) (modRx_keeps (·.toSend) (fun _ _ => rfl) (fun _ _ => rfl) s _)

/-- What of the trunk is said of neither direction nor of the packets that wait, a LOADING packet leaves. -/
theorem sendLoading_keeps {α : Type} (p : TrunkSt → α) (hm : ∀ k d, p { k with hm := d } = p k)
    (mh : ∀ k d, p { k with mh := d } = p k) (hq : ∀ k q, p { k with toSend := q } = p k) (s : State) (t : LoadTable)
    (frame : Nat) : p (s.sendLoading t frame).trunk = p s.trunk := (hq ..).trans (modRx_keeps p hm mh s _)

/-! ### LOADING and LOADING_ACK -/

theorem masks_iff {st : LinkState} : st.masks = true ↔ st = .control ∨ st = .data := by cases st <;> decide

section
variable {s : State} (wait : Nat)

/-- The generation of the mask that will be in force at a frame (R350). -/
def State.loadingGen (s : State) (f : Nat) : W16 :=
  match s.trunk.pendMask with
  | some p => if frameDue f p.frame then p.gen else s.trunk.maskGen
  | none => s.trunk.maskGen

theorem loadingGen_none {f : Nat} (hp : s.trunk.pendMask = none) : s.loadingGen f = s.trunk.maskGen := by
  unfold State.loadingGen
  rw [hp]

/-- Why a LOADING packet is discarded: no tables in this state, another mask, a table or rate that is none, or a table in use
(R350). -/
def State.loadingBad (s : State) (l : LoadingIn) : Bool :=
  !s.trunk.state.masks || l.maskGen != s.loadingGen l.switchF.toNat || decide (1 < l.tableId.toNat ∨ 3 < l.rate.toNat)
    || (s.trunk.state == LinkState.data && l.tableId.toNat == s.txDir.active)

theorem trunkLoading_bad {l : LoadingIn} (h : s.loadingBad l = true) : exec (.trunkLoading l wait) s = .next s :=
  congrArg Host.Outcome.next (if_pos h)

theorem loadingBad_of {l : LoadingIn} (h : ¬ (s.trunk.state = .control ∨ s.trunk.state = .data) ∨ 1 < l.tableId.toNat
    ∨ 3 < l.rate.toNat ∨ (s.trunk.state = .data ∧ l.tableId.toNat = s.txDir.active)) : s.loadingBad l = true := by
  rcases h with h | h | h | ⟨h, ha⟩
  · rw [← masks_iff, Bool.not_eq_true] at h
    simp [State.loadingBad, h]
  · simp [State.loadingBad, h]
  · simp [State.loadingBad, h]
  · simp [State.loadingBad, h, ha]

/-- The table that a LOADING packet carries: at most 12 bits per carrier (R349). -/
def loadingTable (l : LoadingIn) : LoadTable := ⟨l.rate.toNat, l.bits.map (fun b => min b 12), l.maskGen⟩

/-- A LOADING packet that holds is stored for the direction sent, and acknowledged (R350). -/
theorem trunkLoading_stores {l : LoadingIn} (h : s.loadingBad l = false) (hid : l.tableId.toNat ≤ 1) :
    ∃ t, exec (.trunkLoading l wait) s = .next t ∧ t = { s.advance wait with trunk := t.trunk } ∧ t.rxDir = s.rxDir ∧
      t.txDir = { s.txDir with
        table0 := if l.tableId = 0#8 then loadingTable l else s.txDir.table0
        table1 := if l.tableId = 1#8 then loadingTable l else s.txDir.table1
        switch := some (l.tableId.toNat, l.switchF.toNat)
        acked := true } ∧
      t.trunk.toSend = s.trunk.toSend ++ [⟨1, 0, trunkPacket 6 (le 1 l.tableId.toNat ++ zeros 3 ++ le 4 l.switchF.toNat)⟩] := by
  refine ⟨_, congrArg Host.Outcome.next (if_neg (show ¬ s.loadingBad l = true by rw [h]; decide)), rfl,
    rxDir_modTx (s.advance wait) _, ?_,
    congrArg (· ++ [_]) (modTx_keeps (·.toSend) (fun _ _ => rfl) (fun _ _ => rfl) (s.advance wait) _)⟩
  refine (txDir_modTx (s.advance wait) _).trans ?_
  have hcases : l.tableId = 0#8 ∨ l.tableId = 1#8 := by
    have : l.tableId.toNat = 0 ∨ l.tableId.toNat = 1 := by omega
    exact this.imp (fun e => BitVec.eq_of_toNat_eq e) (fun e => BitVec.eq_of_toNat_eq e)
  rcases hcases with e | e <;> rw [e] <;> rfl

theorem trunkLoadingAck_nothing (l : LoadingAckIn) (h : ¬ (s.trunk.state = .control ∨ s.trunk.state = .data)
    ∨ s.rxDir.switch ≠ some (l.tableId.toNat, l.switchF.toNat)) : exec (.trunkLoadingAck l wait) s = .next s := by
  have hstop : (!s.trunk.state.masks || s.rxDir.switch != some (l.tableId.toNat, l.switchF.toNat)) = true := by
    rcases h with h | h
    · rw [← masks_iff, Bool.not_eq_true] at h
      simp [h]
    · simp [h]
  exact congrArg Host.Outcome.next (if_pos hstop)

theorem trunkLoadingAck_marks {l : LoadingAckIn} (hopen : s.trunk.state = .control ∨ s.trunk.state = .data)
    (hsw : s.rxDir.switch = some (l.tableId.toNat, l.switchF.toNat)) :
    ∃ t, exec (.trunkLoadingAck l wait) s = .next t ∧ t = { s.advance wait with trunk := t.trunk } ∧ t.txDir = s.txDir ∧
      t.rxDir = { s.rxDir with acked := true } := by
  have hgo : ¬ (!s.trunk.state.masks || s.rxDir.switch != some (l.tableId.toNat, l.switchF.toNat)) = true := by
    simp [masks_iff.2 hopen, hsw]
  exact ⟨_, congrArg Host.Outcome.next (if_neg hgo), rfl, txDir_modRx (s.advance wait) _, rxDir_modRx (s.advance wait) _⟩

/-! ### TRUNK_MASK -/

theorem trunkMaskPacket_nothing (m : MaskIn) (h : s.isMast = false ∨ ¬ (s.trunk.state = .control ∨ s.trunk.state = .data)) :
    exec (.trunkMaskPacket m wait) s = .next s := by
  have hstop : (!s.isMast || !s.trunk.state.masks) = true := by
    rcases h with h | h
    · simp [h]
    · rw [← masks_iff, Bool.not_eq_true] at h
      simp [h]
  exact congrArg Host.Outcome.next (if_pos hstop)

/-- The mask that a MASK packet has the mast wait for (R354). -/
def maskPending (m : MaskIn) : PendMask := ⟨m.maskGen, m.switchF.toNat, (m.values ++ zeros 3921).take 3921, none, true⟩

theorem trunkMaskPacket_goes (hm : s.isMast = true) (hopen : s.trunk.state = .control ∨ s.trunk.state = .data) :
    ¬ (!s.isMast || !s.trunk.state.masks) = true := by simp [hm, masks_iff.2 hopen]

/-- In CONTROL the mask alone waits for its frame (R354). -/
theorem trunkMaskPacket_control {m : MaskIn} (hm : s.isMast = true) (hst : s.trunk.state = .control) :
    exec (.trunkMaskPacket m wait) s = .next ((s.advance wait).modTrunk fun t => { t with pendMask := some (maskPending m) }) := by
  have hctrl : ¬ s.trunk.state = .data := by rw [hst]; decide
  exact congrArg Host.Outcome.next ((if_neg (trunkMaskPacket_goes hm (Or.inl hst))).trans (if_neg hctrl))

/-- In DATA the mast names its table under the new mask for the same frame (R354). -/
theorem trunkMaskPacket_data {m : MaskIn} (hm : s.isMast = true) (hst : s.trunk.state = .data) :
    exec (.trunkMaskPacket m wait) s
      = .next (((s.advance wait).modTrunk fun t => { t with pendMask := some (maskPending m) }).sendLoading
          (s.rxDir.table.under (maskPending m).values m.maskGen) m.switchF.toNat) :=
  congrArg Host.Outcome.next ((if_neg (trunkMaskPacket_goes hm (Or.inr hst))).trans (if_pos hst))

theorem trunkMaskPacket_waits {m : MaskIn} (hm : s.isMast = true) (hopen : s.trunk.state = .control ∨ s.trunk.state = .data) :
    ∃ t, exec (.trunkMaskPacket m wait) s = .next t ∧ t = { s.advance wait with trunk := t.trunk } ∧ t.txDir = s.txDir ∧
      t.trunk.pendMask = some (maskPending m) ∧ t.trunk.mask = s.trunk.mask ∧ t.trunk.maskGen = s.trunk.maskGen ∧
      (s.trunk.state = .control → t.trunk.toSend = s.trunk.toSend) ∧
      (s.trunk.state = .data → t.rxDir.switch = some (1 - s.rxDir.active, m.switchF.toNat) ∧ t.rxDir.active = s.rxDir.active) := by
  rcases hopen with hst | hst
  · have hno : s.trunk.state ≠ .data := by rw [hst]; decide
    exact ⟨_, trunkMaskPacket_control wait hm hst, rfl, rfl, rfl, rfl, rfl, fun _ => rfl, fun h => absurd h hno⟩
  · have hno : s.trunk.state ≠ .control := by rw [hst]; decide
    refine ⟨_, trunkMaskPacket_data wait hm hst, rfl, txDir_sendLoading .., ?_, ?_, ?_, fun h => absurd h hno, fun _ => ?_⟩
    · exact sendLoading_keeps (·.pendMask) (fun _ _ => rfl) (fun _ _ => rfl) (fun _ _ => rfl) ..
    · exact sendLoading_keeps (·.mask) (fun _ _ => rfl) (fun _ _ => rfl) (fun _ _ => rfl) ..
    · exact sendLoading_keeps (·.maskGen) (fun _ _ => rfl) (fun _ _ => rfl) (fun _ _ => rfl) ..
    · have hid : ((s.advance wait).modTrunk fun t => { t with pendMask := some (maskPending m) }).loadingId
          = 1 - s.rxDir.active := if_pos hst
      rw [rxDir_sendLoading, hid]
      exact ⟨rfl, rfl⟩

/-! ### TRUNK_NOISE and TRUNK_TIME -/

theorem trunkNoise_stores {n : NoiseIn} (hst : s.trunk.state ≠ .off) :
    ∃ t, exec (.trunkNoise n wait) s = .next t ∧ t = { s.advance wait with trunk := t.trunk } ∧ t.rxDir = s.rxDir ∧
      t.txDir = { s.txDir with noise := n.values, noiseF := n.frame } :=
  ⟨_, congrArg Host.Outcome.next (if_neg hst), rfl, rxDir_modTx (s.advance wait) _, txDir_modTx (s.advance wait) _⟩

/-- What a TIME packet brings: the measured error at the mast, the advance at the head (R336). -/
def State.timeTaken (s : State) (x : TrunkTimeIn) : State :=
  s.modTrunk fun k => { k with
    a := if s.isHead then x.value else k.a + x.value, d := if s.isHead then k.d else x.d
    frame := if s.isHead then k.frame else x.frame.toNat, timeSeen := true }

theorem exec_trunkTime (x : TrunkTimeIn) (hst : s.trunk.state ≠ .off) :
    exec (.trunkTime x wait) s = .next ((s.advance wait).timeTaken x).partnerHears := congrArg Host.Outcome.next (if_neg hst)

theorem trunkTime_stays (x : TrunkTimeIn) (hst : s.trunk.state ≠ .off)
    (hstay : ¬ (s.isMast = true ∧ s.trunk.state = .search ∧ s.trunk.heard = true)) :
    exec (.trunkTime x wait) s = .next ((s.advance wait).timeTaken x).partnerAnswers := by
  rw [exec_trunkTime wait x hst, partnerHears_stays (s := (s.advance wait).timeTaken x) hstay]

theorem trunkTime_control (x : TrunkTimeIn) (hm : s.isMast = true) (hst : s.trunk.state = .search) (hh : s.trunk.heard = true) :
    ∃ t, exec (.trunkTime x wait) s = .next t ∧ t.trunk.state = .control ∧ t.trunk.a = s.trunk.a + x.value := by
  refine ⟨_, exec_trunkTime wait x (by rw [hst]; decide), ?_⟩
  rw [partnerHears_control (s := (s.advance wait).timeTaken x) hm hst hh,
    enterControl_mast (s := ((s.advance wait).timeTaken x).partnerAnswers) hm]
  exact ⟨rfl, if_neg (show ¬ s.isHead = true by rw [isHead_of_isMast hm]; decide)⟩

end

/-! ### The best table -/

/-- The table that a receiver computes at one rate: b of every carrier that the mask leaves on (R349). -/
def tableAt (rate : Nat) (snr : List Int) (margin : Int) (mask : List Byte) (gen : W16) : LoadTable :=
  ⟨rate, List.zipWith (fun n x => if (List.zip carrierNs mask).any (fun y => y.1 == n && y.2 == 0xFF#8) then 0
    else bitsFor rate margin x) dataCarriers snr, gen⟩

/-- Of a list with a first element, the fold that keeps the larger picks one of the largest. -/
theorem foldl_larger {α : Type} (size : α → Nat) (l : List α) (b : α) :
    (l.foldl (fun b t => if size b < size t then t else b) b) ∈ b :: l ∧
      ∀ t ∈ b :: l, size t ≤ size (l.foldl (fun b t => if size b < size t then t else b) b) := by
  induction l generalizing b with
  | nil => simp
  | cons x l ih =>
    obtain ⟨hmem, hmax⟩ := ih (if size b < size x then x else b)
    rw [List.foldl_cons]
    by_cases h : size b < size x
    · rw [if_pos h] at hmem hmax ⊢
      refine ⟨List.mem_cons_of_mem _ hmem, fun t ht => ?_⟩
      rcases List.mem_cons.1 ht with rfl | ht
      · exact h.le.trans (hmax x List.mem_cons_self)
      · exact hmax t ht
    · rw [if_neg h] at hmem hmax ⊢
      refine ⟨?_, fun t ht => ?_⟩
      · rcases List.mem_cons.1 hmem with e | hmem
        · rw [e]; exact List.mem_cons_self
        · exact List.mem_cons_of_mem _ (List.mem_cons_of_mem _ hmem)
      · rcases List.mem_cons.1 ht with rfl | ht
        · exact hmax t List.mem_cons_self
        · rcases List.mem_cons.1 ht with rfl | ht
          · exact (Nat.not_lt.1 h).trans (hmax b List.mem_cons_self)
          · exact hmax t (List.mem_cons_of_mem _ ht)

/-- A carrier is off where the mask says so of its number. -/
theorem contains_off (mask : List Byte) (n : Nat) :
    (((List.zip carrierNs mask).filter (fun x => x.2 == 0xFF#8)).map (·.1)).contains n
      = (List.zip carrierNs mask).any (fun y => y.1 == n && y.2 == 0xFF#8) := by
  rw [Bool.eq_iff_iff]
  simp only [List.contains_iff_mem, List.mem_map, List.mem_filter, List.any_eq_true, Bool.and_eq_true, beq_iff_eq]
  exact ⟨fun ⟨y, ⟨hy, hoff⟩, e⟩ => ⟨y, hy, e, hoff⟩, fun ⟨y, hy, e, hoff⟩ => ⟨y, ⟨hy, hoff⟩, e⟩⟩

theorem bestTable_eq (snr : List Int) (margin : Int) (mask : List Byte) (gen : W16) (syms : Nat) :
    bestTable snr margin mask gen syms
      = [tableAt 1 snr margin mask gen, tableAt 2 snr margin mask gen, tableAt 3 snr margin mask gen].foldl
          (fun b t => if b.codewords syms * rateK b.rate < t.codewords syms * rateK t.rate then t else b)
          (tableAt 0 snr margin mask gen) := by
  unfold bestTable tableAt
  simp only [contains_off]

/-- The best table is that of a rate, and no other rate's carries more (R349). -/
theorem bestTable_best (snr : List Int) (margin : Int) (mask : List Byte) (gen : W16) (syms : Nat) :
    (bestTable snr margin mask gen syms).rate ≤ 3 ∧ (bestTable snr margin mask gen syms).maskGen = gen ∧
      ∀ q, q ≤ 3 → (tableAt q snr margin mask gen).codewords syms * rateK q
        ≤ (bestTable snr margin mask gen syms).codewords syms * rateK (bestTable snr margin mask gen syms).rate := by
  obtain ⟨hmem, hmax⟩ := foldl_larger (fun t => t.codewords syms * rateK t.rate)
    [tableAt 1 snr margin mask gen, tableAt 2 snr margin mask gen, tableAt 3 snr margin mask gen] (tableAt 0 snr margin mask gen)
  rw [← bestTable_eq] at hmem hmax
  have hq : ∃ q, q ≤ 3 ∧ bestTable snr margin mask gen syms = tableAt q snr margin mask gen := by
    simp only [List.mem_cons, List.not_mem_nil, or_false] at hmem
    rcases hmem with e | e | e | e
    · exact ⟨0, by decide, e⟩
    · exact ⟨1, by decide, e⟩
    · exact ⟨2, by decide, e⟩
    · exact ⟨3, by decide, e⟩
  obtain ⟨q, hq3, hbest⟩ := hq
  refine ⟨by rw [hbest]; exact hq3, by rw [hbest]; rfl, fun q hq => hmax _ ?_⟩
  interval_cases q <;> simp

/-! ### LOADING_RECOMPUTE -/

/-- What the receiver's table of a second leaves: all beside the trunk, the SNR, the direction sent, the table in use and the link's
state. -/
def State.received (s : State) : State × List Int × DirSt × Nat × LinkState :=
  ({ s with trunk := TrunkSt.reset, freeCtr := 0 }, s.rxDir.snr, s.txDir, s.rxDir.active, s.trunk.state)

theorem received_sendLoading (s : State) (t : LoadTable) (frame : Nat) : (s.sendLoading t frame).received = s.received := by
  have hstate := sendLoading_keeps (·.state) (fun _ _ => rfl) (fun _ _ => rfl) (fun _ _ => rfl) s t frame
  unfold State.received
  rw [hstate, txDir_sendLoading, rxDir_sendLoading]
  rfl

section
variable {s : State} (wait : Nat)

theorem loadingRecompute_nothing (r : RecomputeIn) (h : ¬ (s.trunk.state = .control ∨ s.trunk.state = .data)) :
    exec (.loadingRecompute r wait) s = .next s := by
  rw [← masks_iff, Bool.not_eq_true] at h
  exact congrArg Host.Outcome.next (if_pos (by rw [h]; rfl))

/-- The SNR of a receiver's second is stored. -/
def State.snrStored (s : State) (r : RecomputeIn) : State := s.modRx fun d => { d with snr := r.snr }

theorem received_snrStored (s : State) (r : RecomputeIn) :
    (s.snrStored r).received = ({ s with trunk := TrunkSt.reset, freeCtr := 0 }, r.snr, s.txDir, s.rxDir.active, s.trunk.state) := by
  have hstate := modRx_keeps (·.state) (fun _ _ => rfl) (fun _ _ => rfl) s (fun d => { d with snr := r.snr })
  unfold State.received State.snrStored
  rw [hstate, txDir_modRx, rxDir_modRx]
  rfl

/-- The receiver's table of a second where no notch is lifted: in CONTROL the first, and in DATA one that differs enough (R350,
R351). -/
def State.tableSent (s : State) (r : RecomputeIn) : State :=
  let (mask, gen) := match s.trunk.pendMask with | some p => (p.values, p.gen) | none => (s.maskNow, s.trunk.maskGen)
  let t := bestTable r.snr s.loadMargin mask gen (s.dirSyms (!s.isHead))
  let at_ := match s.trunk.pendMask with
    | some p => if frameDue p.frame s.switchFrame.2 then p.frame else s.switchFrame.2
    | none => s.switchFrame.2
  let past := match s.rxDir.switch with | some (_, f) => frameDue s.trunk.frame f | none => true
  if s.trunk.state = .control then (if past && !s.rxDir.acked then s.switchFrame.1.sendLoading t at_ else s)
  else if past && tableChanged s.rxDir.table t (s.dirSyms (!s.isHead)) s.loadMargin r then s.switchFrame.1.sendLoading t at_ else s

theorem received_tableSent (s : State) (r : RecomputeIn) : (s.tableSent r).received = s.received := by
  have hsent (t : LoadTable) (f : Nat) : (s.switchFrame.1.sendLoading t f).received = s.received := (received_sendLoading ..).trans rfl
  unfold State.tableSent
  split
  exact ite_keeps State.received (ite_keeps State.received (hsent ..) rfl) (ite_keeps State.received (hsent ..) rfl)

/-- In CONTROL, with no mask waiting and no table named, the best table is sent (R349, R350). -/
theorem tableSent_control {r : RecomputeIn} (hst : s.trunk.state = .control) (hmask : s.trunk.pendMask = none)
    (hsw : s.rxDir.switch = none) (hacked : s.rxDir.acked = false) :
    s.tableSent r = s.switchFrame.1.sendLoading
      (bestTable r.snr s.loadMargin s.maskNow s.trunk.maskGen (s.dirSyms (!s.isHead))) s.switchFrame.2 := by
  simp only [State.tableSent, hst, hmask, hsw, hacked, Bool.not_false, Bool.and_self, if_true]

/-- Whether the head lifts a notch whose lane has stopped (R351). -/
def State.liftsNotch (s : State) : Bool :=
  s.trunk.state = .data && s.isHead && s.trunk.pendMask.isNone && s.maskWanted != s.maskNow

theorem loadingRecompute_sends {r : RecomputeIn} (hopen : s.trunk.state = .control ∨ s.trunk.state = .data)
    (hlift : ((s.advance wait).snrStored r).liftsNotch = false) :
    exec (.loadingRecompute r wait) s = .next (((s.advance wait).snrStored r).tableSent r) := by
  have hgo : ¬ (!s.trunk.state.masks) = true := by simp [masks_iff.2 hopen]
  exact congrArg Host.Outcome.next ((if_neg hgo).trans
    (if_neg (show ¬ ((s.advance wait).snrStored r).liftsNotch = true by rw [hlift]; decide)))

/-- A head that lifts a notch sends a mask and a table, which are the receiver's own (R351, R354). -/
theorem loadingRecompute_lifts {r : RecomputeIn} (hopen : s.trunk.state = .control ∨ s.trunk.state = .data)
    (hlift : ((s.advance wait).snrStored r).liftsNotch = true) :
    ∃ t, exec (.loadingRecompute r wait) s = .next t ∧ t.received = ((s.advance wait).snrStored r).received := by
  have hgo : ¬ (!s.trunk.state.masks) = true := by simp [masks_iff.2 hopen]
  exact ⟨_, congrArg Host.Outcome.next ((if_neg hgo).trans (if_pos hlift)), (received_sendLoading ..).trans rfl⟩

theorem loadingRecompute_received (r : RecomputeIn) (hopen : s.trunk.state = .control ∨ s.trunk.state = .data) :
    ∃ t, exec (.loadingRecompute r wait) s = .next t ∧ t = { s.advance wait with trunk := t.trunk, freeCtr := t.freeCtr } ∧
      t.rxDir.snr = r.snr ∧ t.txDir = s.txDir ∧ t.rxDir.active = s.rxDir.active ∧ t.trunk.state = s.trunk.state := by
  have hkept : ∃ t, exec (.loadingRecompute r wait) s = .next t ∧ t.received = ((s.advance wait).snrStored r).received := by
    cases hlift : ((s.advance wait).snrStored r).liftsNotch with
    | true => exact loadingRecompute_lifts wait hopen hlift
    | false => exact ⟨_, loadingRecompute_sends wait hopen hlift, received_tableSent ..⟩
  obtain ⟨t, hexec, hreceived⟩ := hkept
  rw [received_snrStored] at hreceived
  simp only [State.received, Prod.mk.injEq] at hreceived
  obtain ⟨hrest, hsnr, htx, hactive, hstate⟩ := hreceived
  exact ⟨t, hexec, congrArg (fun u : State => { u with trunk := t.trunk, freeCtr := t.freeCtr }) hrest, hsnr, htx, hactive, hstate⟩

/-- The first table of a receiver: of ID 0, for the mask in force, at a frame that it chooses, and none better (R349, R350). -/
theorem loadingRecompute_first {r : RecomputeIn} (hst : s.trunk.state = .control) (hmask : s.trunk.pendMask = none)
    (hsw : s.rxDir.switch = none) (hacked : s.rxDir.acked = false) :
    ∃ (t : State) (f : Nat), exec (.loadingRecompute r wait) s = .next t ∧ t.rxDir.switch = some (0, f) ∧ t.rxDir.acked = false ∧
      t.rxDir.table0 = bestTable r.snr s.loadMargin s.maskNow s.trunk.maskGen (s.dirSyms (!s.isHead)) ∧
      f = (s.trunk.frame + 3 + Config.freeValue s.freeCtr % (2 ^ 31 - 4)) % 2 ^ 32 ∧
      t.trunk.toSend = s.trunk.toSend ++ [⟨1, 0, trunkPacket 5 (loadingBody 0 t.rxDir.table0 f)⟩] := by
  obtain ⟨u, hu⟩ : ∃ u, u = (s.advance wait).snrStored r := ⟨_, rfl⟩
  have hkeeps {α : Type} (p : TrunkSt → α) (hm : ∀ k d, p { k with hm := d } = p k) (mh : ∀ k d, p { k with mh := d } = p k) :
      p u.trunk = p s.trunk := by rw [hu]; exact modRx_keeps p hm mh (s.advance wait) _
  have hrx : u.rxDir = { s.rxDir with snr := r.snr } := by rw [hu]; exact rxDir_modRx ..
  have hstate : u.trunk.state = .control := (hkeeps (·.state) (fun _ _ => rfl) fun _ _ => rfl).trans hst
  have hframe : u.trunk.frame = s.trunk.frame := hkeeps (·.frame) (fun _ _ => rfl) fun _ _ => rfl
  have hsend := tableSent_control (r := r) hstate ((hkeeps (·.pendMask) (fun _ _ => rfl) fun _ _ => rfl).trans hmask)
    (by rw [hrx]; exact hsw) (by rw [hrx]; exact hacked)
  have hbest : bestTable r.snr u.loadMargin u.maskNow u.trunk.maskGen (u.dirSyms (!u.isHead))
      = bestTable r.snr s.loadMargin s.maskNow s.trunk.maskGen (s.dirSyms (!s.isHead)) := by
    have hnow : u.maskNow = s.maskNow := congrArg (fun m => if m.isEmpty then List.replicate 3921 0#8 else m)
      (hkeeps (·.mask) (fun _ _ => rfl) fun _ _ => rfl)
    rw [hnow, show u.trunk.maskGen = s.trunk.maskGen from hkeeps (·.maskGen) (fun _ _ => rfl) fun _ _ => rfl, hu]
    rfl
  rw [hbest] at hsend
  have hid : u.switchFrame.1.loadingId = 0 := if_neg (show ¬ u.trunk.state = .data by rw [hstate]; decide)
  have hlift : u.liftsNotch = false := by simp [State.liftsNotch, hstate]
  refine ⟨_, u.switchFrame.2, (loadingRecompute_sends wait (Or.inl hst) (hu ▸ hlift)).trans
    (congrArg Host.Outcome.next ((congrArg (State.tableSent · r) hu.symm).trans hsend)), ?_, ?_, ?_, ?_, ?_⟩
  · rw [rxDir_sendLoading, hid]
  · rw [rxDir_sendLoading]
  · rw [rxDir_sendLoading, hid]
    rfl
  · show (u.trunk.frame + 3 + Config.freeValue u.freeCtr % (2 ^ 31 - 4)) % 2 ^ 32 = _
    rw [hframe, hu]
    rfl
  · rw [rxDir_sendLoading, toSend_sendLoading, hid]
    exact congrArg (· ++ [_]) (hkeeps (·.toSend) (fun _ _ => rfl) fun _ _ => rfl)

end

/-- Settles O49: a packet that its condition refuses leaves the state; one that it takes changes the one direction, or the mask, that
it names; and the receiver's first table is the largest of the four rates. -/
theorem trunkTablesAndMeasurements : Obligations.TrunkTablesAndMeasurements := by
  unfold Obligations.TrunkTablesAndMeasurements
  intro wait s
  refine ⟨?_, ?_, ?_, ?_, ?_, ?_, ?_, ?_, ?_, ?_, ?_, ?_, ?_, ?_, ?_⟩
  · exact fun l h => trunkLoading_bad wait (loadingBad_of h)
  · intro l hp hgen
    refine trunkLoading_bad wait ?_
    simp [State.loadingBad, loadingGen_none hp, hgen]
  · intro l hopen hp hgen hid hrate hactive
    refine trunkLoading_stores wait ?_ hid
    have hused : (s.trunk.state == LinkState.data && l.tableId.toNat == s.txDir.active) = false := by simpa using hactive
    have hrange : decide (1 < l.tableId.toNat ∨ 3 < l.rate.toNat) = false := by simp [hid, hrate]
    simp [State.loadingBad, masks_iff.2 hopen, loadingGen_none hp, hgen, hused, hrange]
  · exact fun l h => trunkLoadingAck_nothing wait l h
  · exact fun l hopen hsw => trunkLoadingAck_marks wait hopen hsw
  · exact fun m h => trunkMaskPacket_nothing wait m h
  · exact fun m hm hopen => trunkMaskPacket_waits wait hm hopen
  · exact fun n hst => congrArg Host.Outcome.next (if_pos hst)
  · exact fun n hst => trunkNoise_stores wait hst
  · exact fun x hst => congrArg Host.Outcome.next (if_pos hst)
  · intro x hst hstay
    refine ⟨_, trunkTime_stays wait x hst hstay, rfl, rfl, rfl, fun hh => ?_, fun hh => ?_⟩
    · exact ⟨if_pos hh, if_pos hh, if_pos hh⟩
    · have hno : ¬ s.isHead = true := by rw [hh]; decide
      exact ⟨if_neg hno, if_neg hno, if_neg hno⟩
  · exact fun x hm hst hh => trunkTime_control wait x hm hst hh
  · exact fun r h => loadingRecompute_nothing wait r h
  · exact fun r hopen => loadingRecompute_received wait r hopen
  · intro r hst hmask hsw hacked
    obtain ⟨t, f, hexec, hswitch, hack, htable, hf, hsend⟩ := loadingRecompute_first wait (r := r) hst hmask hsw hacked
    obtain ⟨hrate, hgen, hbest⟩ := bestTable_best r.snr s.loadMargin s.maskNow s.trunk.maskGen (s.dirSyms (!s.isHead))
    rw [← htable] at hrate hgen hbest
    exact ⟨t, f, hexec, hswitch, hack, hgen, hrate, hf, hsend, hbest⟩

end Sys2Proof.Machine
end

section
/-! PROOFS. A mast's sub-state as its link falls asleep, by which the statement about sleep, calls and loss fails (O50). -/

namespace Sys2Proof.Machine

/-! ### TRUNK_SLEEP_PACKET -/

/-- A link's schedule and the start of its sleep, as the mast reads them in a SLEEP packet (R357). -/
def TrunkSt.sleepBy (k : TrunkSt) (p : SleepIn) (dt : W64) : TrunkSt :=
  { k with
    pS := p.pS.toNat, wMs := p.wMs.toNat
    state := .sleep, fromState := k.state, since := dt, firstWin := p.first, nextWin := p.first
    winOpen := false, heard := false, hm := k.hm.still, mh := k.mh.still }

theorem trunkSleepPacket_sleeps {s : State} {p : SleepIn} (wait : Nat) (hm : s.isMast = true) (hst : s.trunk.state.masks = true)
    (hp : p.sleep = true) :
    exec (.trunkSleepPacket p wait) s
      = .next (({ s.advance wait with trunk := s.trunk.sleepBy p (s.advance wait).time.dt } : State).relayLeave 3) := by
  have hopen : ¬ (!s.isMast || !s.trunk.state.masks) = true := by simp [hm, hst]
  have hsleep : ¬ (!p.sleep) = true := by simp [hp]
  exact congrArg Host.Outcome.next ((if_neg hopen).trans (if_neg hsleep))

/-- A mast that leaves RELAY asks for the sub-state that its trunk, as it then is, allows (R483, R486). -/
theorem relayLeave_change {s : State} {cause : Nat} (hm : s.isMast = true) (hr : s.power.mode = .relay) :
    (s.relayLeave cause).power.change = some ⟨.dormant, s.subWanted, cause, 0, false⟩ := by
  have hleave : (s.isMast && s.power.mode == .relay) = true := by simp [hm, hr]
  exact congrArg (fun u : State => u.power.change) (if_pos hleave)

/-! ### The sub-state of a trunk that is awake, and of one that sleeps -/

/-- A link that sleeps, with no window open, does not keep the trunk awake (R486). -/
theorem trunkAwake_asleep {s : State} (hst : s.trunk.state = .sleep) (hw : s.trunk.winOpen = false) : s.trunkAwake = false := by
  simp [State.trunkAwake, hst, hw]

/-- While the trunk is not awake, the wake budget alone selects the sub-state (R484). -/
theorem subWanted_of_not_awake {s : State} (h : s.trunkAwake = false) : s.subWanted = subForBudget s.force.wakeBudget.toNat := by
  simp [State.subWanted, h]

/-- A mast in RELAY with its link in CONTROL, and with the wake budget that a device has after power-on, 500 ms. -/
def mastInControl : State :=
  { State.reset with
    force := { State.reset.force with trunk := State.reset.force.trunk.set 0 (.num 1) }
    power := { State.reset.power with mode := .relay }
    trunk := { TrunkSt.reset with state := .control } }

/-- A SLEEP packet that puts the link to sleep. -/
def sleepNowPacket : SleepIn := ⟨0#64, 60#16, 20#16, true⟩

theorem mastInControl_subWanted : mastInControl.subWanted = .warm := by decide +kernel

theorem mastInControl_budget : subForBudget mastInControl.force.wakeBudget.toNat = .cool := by decide +kernel

theorem mastInControl_asleep_subWanted (dt : W64) :
    ({ mastInControl.advance 0 with trunk := mastInControl.trunk.sleepBy sleepNowPacket dt } : State).subWanted = .cool := by
  have hasleep : ({ mastInControl.advance 0 with trunk := mastInControl.trunk.sleepBy sleepNowPacket dt } : State).trunkAwake = false :=
    trunkAwake_asleep rfl rfl
  rw [subWanted_of_not_awake hasleep]
  exact mastInControl_budget

/-- Refutes O50: its clause on the SLEEP packet has a mast that leaves RELAY ask for the sub-state `s.subWanted` of the state before
the packet, in which the trunk is awake and holds the device in WARM (R486). In the state `mastInControl` every premise of the clause
holds, the model puts the link to sleep first, and the sub-state asked for is COOL, that of the wake budget alone. -/
theorem not_trunkSleepCallsAndLoss : ¬ Obligations.TrunkSleepCallsAndLoss := by
  unfold Obligations.TrunkSleepCallsAndLoss
  intro h
  obtain ⟨-, -, -, -, -, hsleep, -⟩ := h 0 mastInControl
  obtain ⟨-, hsleep⟩ := hsleep sleepNowPacket rfl (Or.inl rfl)
  obtain ⟨t, hexec, -, -, -, -, -, -, -, hrelay⟩ := hsleep rfl
  rw [trunkSleepPacket_sleeps 0 rfl rfl rfl] at hexec
  have hchange := congrArg (·.change) (hrelay rfl)
  rw [← Host.Outcome.next.inj hexec, relayLeave_change rfl rfl, mastInControl_asleep_subWanted] at hchange
  have hsub := congrArg (·.map (·.sub)) hchange
  rw [mastInControl_subWanted] at hsub
  exact absurd hsub (by decide)

end Sys2Proof.Machine
end

section
/-! PROOFS. Fields, entries and item lists in the bytes of a packet read back as they were written (O58; R2, R410). -/

namespace Sys2Proof

open Sys2Proof.Machine

/-! ### Little-endian fields -/

@[simp] theorem Machine.length_le (n v : Nat) : (le n v).length = n := by
  induction n generalizing v with
  | zero => rfl
  | succ n ih => rw [le, List.length_cons, ih]

/-- The bytes of a value read back as the value, up to what their number holds. -/
theorem Machine.unle_le (n v : Nat) : unle (le n v) = v % 256 ^ n := by
  induction n generalizing v with
  | zero => rw [le, unle, pow_zero, Nat.mod_one]
  | succ n ih => rw [le, unle, ih, BitVec.toNat_ofNat, pow_succ' 256 n, Nat.mod_mul]

theorem Machine.field_eq_field_drop (p : List Byte) (o n : Nat) : field p o n = field (p.drop o) 0 n := by
  simp only [field, List.drop_zero]

/-- The field at the start of some bytes. -/
theorem Machine.field_le_append {n v : Nat} (h : v < 256 ^ n) (r : List Byte) : field (le n v ++ r) 0 n = v := by
  rw [field, List.drop_zero, List.take_left' (length_le n v), unle_le, Nat.mod_eq_of_lt h]

theorem Machine.field_le {n v : Nat} (h : v < 256 ^ n) : field (le n v) 0 n = v := by
  simpa using field_le_append h []

/-- A field past the first byte. -/
@[simp] theorem Machine.field_cons_succ (b : Byte) (p : List Byte) (o n : Nat) : field (b :: p) (o + 1) n = field p o n := rfl

/-- A field past the first bytes. -/
theorem Machine.field_append_right {a : List Byte} {o : Nat} (h : a.length ≤ o) (r : List Byte) (n : Nat) :
    field (a ++ r) o n = field r (o - a.length) n := by
  rw [field, List.drop_append, List.drop_eq_nil_of_le h, List.nil_append, field]

@[simp] theorem f8_cons_zero (b : Byte) (p : List Byte) : f8 (b :: p) 0 = b := rfl
@[simp] theorem f8_cons_succ (b : Byte) (p : List Byte) (o : Nat) : f8 (b :: p) (o + 1) = f8 p o := rfl
@[simp] theorem f16_cons_succ (b : Byte) (p : List Byte) (o : Nat) : f16 (b :: p) (o + 1) = f16 p o := rfl
@[simp] theorem f32_cons_succ (b : Byte) (p : List Byte) (o : Nat) : f32 (b :: p) (o + 1) = f32 p o := rfl
@[simp] theorem f64_cons_succ (b : Byte) (p : List Byte) (o : Nat) : f64 (b :: p) (o + 1) = f64 p o := rfl

/-- The byte at an offset past the first bytes. -/
theorem f8_append_right {a : List Byte} {o : Nat} (h : a.length ≤ o) (r : List Byte) : f8 (a ++ r) o = f8 r (o - a.length) := by
  rw [f8, List.getD_append_right _ _ _ _ h, f8]

theorem f16_append_right {a : List Byte} {o : Nat} (h : a.length ≤ o) (r : List Byte) : f16 (a ++ r) o = f16 r (o - a.length) := by
  rw [f16, field_append_right h, f16]
theorem f32_append_right {a : List Byte} {o : Nat} (h : a.length ≤ o) (r : List Byte) : f32 (a ++ r) o = f32 r (o - a.length) := by
  rw [f32, field_append_right h, f32]
theorem f64_append_right {a : List Byte} {o : Nat} (h : a.length ≤ o) (r : List Byte) : f64 (a ++ r) o = f64 r (o - a.length) := by
  rw [f64, field_append_right h, f64]

@[simp] theorem length_e16 (v : W16) : (e16 v).length = 2 := length_le ..
@[simp] theorem length_e32 (v : W32) : (e32 v).length = 4 := length_le ..
@[simp] theorem length_e64 (v : W64) : (e64 v).length = 8 := length_le ..

@[simp] theorem f16_e16 (v : W16) (r : List Byte) : f16 (e16 v ++ r) 0 = v := by
  rw [f16, e16, field_le_append v.isLt, BitVec.ofNat_toNat, BitVec.setWidth_eq]
@[simp] theorem f32_e32 (v : W32) (r : List Byte) : f32 (e32 v ++ r) 0 = v := by
  rw [f32, e32, field_le_append v.isLt, BitVec.ofNat_toNat, BitVec.setWidth_eq]
@[simp] theorem f64_e64 (v : W64) (r : List Byte) : f64 (e64 v ++ r) 0 = v := by
  rw [f64, e64, field_le_append v.isLt, BitVec.ofNat_toNat, BitVec.setWidth_eq]

@[simp] theorem f16_e16_end (v : W16) : f16 (e16 v) 0 = v := by simpa using f16_e16 v []
@[simp] theorem f32_e32_end (v : W32) : f32 (e32 v) 0 = v := by simpa using f32_e32 v []
@[simp] theorem f64_e64_end (v : W64) : f64 (e64 v) 0 = v := by simpa using f64_e64 v []

/-! ### Entries of one length -/

/-- A layout whose writer gives `k` bytes that its reader takes back, whatever follows them. -/
structure RoundTrips {α : Type} (k : Nat) (rd : List Byte → α) (wr : α → List Byte) : Prop where
  length (x : α) : (wr x).length = k
  read (x : α) (r : List Byte) : rd (wr x ++ r) = x

theorem RoundTrips.length_flatMap {α : Type} {k : Nat} {rd : List Byte → α} {wr : α → List Byte} (h : RoundTrips k rd wr)
    (l : List α) : (l.flatMap wr).length = k * l.length := by
  induction l with
  | nil => rfl
  | cons x l ih => rw [List.flatMap_cons, List.length_append, h.length, ih, List.length_cons]; ring

/-- The entries of a list read back. -/
theorem RoundTrips.entries {α : Type} {k : Nat} {rd : List Byte → α} {wr : α → List Byte} (h : RoundTrips k rd wr)
    (l : List α) : entries k rd l.length (l.flatMap wr) = l := by
  induction l with
  | nil => rfl
  | cons x l ih =>
    rw [List.flatMap_cons, List.length_cons, Sys2Proof.entries, h.read, List.drop_left' (h.length x), ih]

theorem roundTrips_binding : RoundTrips 8 readBinding bindingBytes := ⟨fun _ => rfl, fun _ _ => rfl⟩
theorem roundTrips_tcField : RoundTrips 8 readTcField tcFieldBytes := ⟨fun _ => rfl, fun _ _ => rfl⟩
theorem roundTrips_range : RoundTrips 16 readRange rangeBytes :=
  ⟨fun _ => by simp [rangeBytes], fun _ _ => by simp [rangeBytes, readRange, f32_append_right]⟩

/-! ### Item lists (R410) -/

/-- The bytes of one item, padded to a multiple of 4. -/
def itemBytes (it : Item) : List Byte := [it.item, 0] ++ le 2 it.value.length ++ pad4 it.value

theorem encodeItemList_cons (it : Item) (items : List Item) :
    encodeItemList (it :: items) = itemBytes it ++ encodeItemList items := by
  simp [encodeItemList, itemBytes]

@[simp] theorem length_pad4 (v : List Byte) : (pad4 v).length = v.length + padLen 4 v.length := by
  simp [pad4, zeros]

theorem length_itemBytes (it : Item) : (itemBytes it).length = 4 + it.value.length + padLen 4 it.value.length := by
  simp [itemBytes]; omega

/-- What `decodeItems` does with bytes that are left (R410). -/
theorem decodeItems_of_ne_nil {p : List Byte} (hp : p ≠ []) (fuel : Nat) :
    decodeItems (fuel + 1) p = if p.length < 4 + field p 2 2 + padLen 4 (field p 2 2) then none
      else (decodeItems fuel (p.drop (4 + field p 2 2 + padLen 4 (field p 2 2)))).map
        (⟨f8 p 0, (p.drop 4).take (field p 2 2)⟩ :: ·) := by
  cases p with
  | nil => contradiction
  | cons b p => rfl

/-- The first item of a list reads back, and the rest of the list follows it. -/
theorem decodeItems_itemBytes {it : Item} (h : it.value.length < 256 ^ 2) (fuel : Nat) (rest : List Byte) :
    decodeItems (fuel + 1) (itemBytes it ++ rest) = (decodeItems fuel rest).map (it :: ·) := by
  have hlen : field (itemBytes it ++ rest) 2 2 = it.value.length := by
    simp only [itemBytes, List.cons_append, List.nil_append, List.append_assoc]
    exact field_le_append h _
  have hval : ((itemBytes it ++ rest).drop 4).take it.value.length = it.value := by simp [itemBytes, pad4, le]
  have hshort : ¬ (itemBytes it ++ rest).length < 4 + it.value.length + padLen 4 it.value.length := by
    rw [List.length_append, length_itemBytes]; omega
  rw [decodeItems_of_ne_nil (by simp [itemBytes]), hlen, if_neg hshort, List.drop_left' (length_itemBytes it), hval]
  rfl

/-- An item list reads back (R410). -/
theorem decodeItems_encodeItemList {items : List Item} {fuel : Nat} (hf : items.length ≤ fuel)
    (h : ∀ it ∈ items, it.value.length < 256 ^ 2) : decodeItems fuel (encodeItemList items) = some items := by
  induction items generalizing fuel with
  | nil => cases fuel <;> rfl
  | cons it items ih =>
    obtain ⟨f, rfl⟩ : ∃ f, fuel = f + 1 := ⟨fuel - 1, by simp at hf; omega⟩
    rw [encodeItemList_cons, decodeItems_itemBytes (h it (by simp)),
      ih (by simpa using hf) (fun x hx => h x (by simp [hx])), Option.map_some]

/-- Each item takes at least four bytes, and its value no more than the list has. -/
theorem length_encodeItemList (items : List Item) : items.length ≤ (encodeItemList items).length
    ∧ ∀ it ∈ items, it.value.length ≤ (encodeItemList items).length := by
  induction items with
  | nil => simp
  | cons it items ih =>
    rw [encodeItemList_cons, List.length_append, length_itemBytes, List.length_cons]
    refine ⟨by omega, fun x hx => ?_⟩
    rcases List.mem_cons.1 hx with rfl | hx
    · omega
    · have := ih.2 x hx; omega

/-- A selector and an item list read back. -/
theorem withItems_encode {sel : List Byte} {items : List Item} (mk : List Item → Instr)
    (h : (sel ++ encodeItemList items).length < 256 ^ 2) :
    withItems (sel ++ encodeItemList items) sel.length mk = some (mk items) := by
  obtain ⟨hn, hv⟩ := length_encodeItemList items
  rw [List.length_append] at h
  have hd := decodeItems_encodeItemList (fuel := (sel ++ encodeItemList items).length) (items := items)
    (by rw [List.length_append]; omega) (fun it hit => by have := hv it hit; omega)
  rw [withItems, if_neg (by rw [List.length_append]; omega), List.drop_left, hd, Option.map_some]

/-! ### The layouts of Tables 15.4 to 15.20 -/

theorem roundTrips_extent : RoundTrips 16 readExtent extentBytes :=
  ⟨fun _ => by simp [extentBytes], fun _ _ => by simp [extentBytes, readExtent, f64_append_right]⟩
theorem roundTrips_leap : RoundTrips 16 readLeap (fun e => leapBytes e 0) :=
  ⟨fun _ => by simp [leapBytes, zeros], fun _ _ => by simp [leapBytes, readLeap, f8_append_right, f16_append_right]⟩
theorem roundTrips_ref : RoundTrips 8 readRef refBytes :=
  ⟨fun _ => by simp [refBytes], fun _ _ => by simp [refBytes, readRef]⟩
theorem roundTrips_band : RoundTrips 4 readBand bandBytes :=
  ⟨fun _ => by simp [bandBytes], fun _ _ => by simp [bandBytes, readBand]⟩
theorem roundTrips_class : RoundTrips 6 readClass classBytes :=
  ⟨fun _ => by simp [classBytes], fun _ _ => by simp [classBytes, readClass, f8_append_right, f16_append_right]⟩
theorem roundTrips_maskRange : RoundTrips 8 readMaskRange maskRangeBytes :=
  ⟨fun _ => by simp [maskRangeBytes], fun _ _ => by simp [maskRangeBytes, readMaskRange, f8_append_right, f16_append_right]⟩
theorem roundTrips_key : RoundTrips 8 (fun q => f64 q 0) e64 := ⟨length_e64, f64_e64⟩
theorem roundTrips_coeff : RoundTrips 4 (fun q => f32 q 0) e32 := ⟨length_e32, f32_e32⟩

/-! ### Each family's parameters read back -/

theorem drop_append_right {a : List Byte} {o : Nat} (h : a.length ≤ o) (r : List Byte) : (a ++ r).drop o = r.drop (o - a.length) := by
  rw [List.drop_append, List.drop_eq_nil_of_le h, List.nil_append]

/-- The number of entries that an 8-bit field holds reads back. -/
theorem byteCount_toNat {n : Nat} (h : byteCount n = true) : (BitVec.ofNat 8 n).toNat = n := by
  rw [BitVec.toNat_ofNat, Nat.mod_eq_of_lt (by simpa [byteCount] using h)]

section
variable (h : CmdHdr)

theorem readAttrs_attrBytes {a : AttrBlock} (hc : byteCount a.bindings.length = true) : readAttrs (attrBytes a) = some a := by
  have hl := roundTrips_binding.length_flatMap a.bindings
  simp [readAttrs, attrBytes, lenIf, f8_append_right, drop_append_right, byteCount_toNat hc, roundTrips_binding.entries, hl,
    -BitVec.toNat_ofNat]
  omega

theorem decode_surveyConfig {x : SurveyParams} (hc : byteCount x.ranges.length = true) :
    decodeParams 0x0301 h (surveyBytes x) = some (.surveyConfig h (some x)) := by
  have hl := roundTrips_range.length_flatMap x.ranges
  simp [decodeParams, decodeServices, surveyBytes, fixed, lenIf, f8_append_right, drop_append_right, byteCount_toNat hc,
    roundTrips_range.entries, hl, -BitVec.toNat_ofNat, -List.length_flatMap]
  omega

theorem decode_linksetSet (i : Byte) {keys : List W64} (hc : byteCount keys.length = true) :
    decodeParams 0x0402 h ([i, BitVec.ofNat 8 keys.length, 0, 0] ++ keys.flatMap e64) = some (.linksetSet h i keys) := by
  have hl := roundTrips_key.length_flatMap keys
  simp [decodeParams, decodeServices, fixed, lenIf, byteCount_toNat hc, roundTrips_key.entries, hl, -BitVec.toNat_ofNat,
    -List.length_flatMap]
  omega

theorem decode_archiveExtentAdd {xs : List Extent} (hc : xs.length < 256 ^ 2) :
    decodeParams 0x0504 h (le 2 xs.length ++ [0, 0] ++ xs.flatMap extentBytes) = some (.archiveExtentAdd h xs) := by
  have hl := roundTrips_extent.length_flatMap xs
  simp [decodeParams, decodeOutputs, fixed, lenIf, field_le_append hc, drop_append_right, roundTrips_extent.entries, hl,
    -List.length_flatMap]
  omega

theorem decode_leapTableSet (m : Byte) (x : W64) {es : List LeapEntry} (hc : byteCount es.length = true) :
    decodeParams 0x0803 h ([m, BitVec.ofNat 8 es.length, 0, 0, 0, 0, 0, 0] ++ e64 x ++ es.flatMap (fun e => leapBytes e 0))
      = some (.leapTableSet h m x es) := by
  have hl := roundTrips_leap.length_flatMap es
  have hr := roundTrips_leap.entries es
  simp [decodeParams, decodeTimeRf, fixed, lenIf, byteCount_toNat hc, -BitVec.toNat_ofNat, -List.length_flatMap] at hl hr ⊢
  exact ⟨by omega, hr⟩

theorem decode_refConfig {x : RefParams} (hc : byteCount x.entries.length = true) :
    decodeParams 0x0807 h (refParamBytes x) = some (.refConfig h (some x)) := by
  have hl := roundTrips_ref.length_flatMap x.entries
  simp [decodeParams, decodeTimeRf, refParamBytes, fixed, lenIf, f8_append_right, drop_append_right, byteCount_toNat hc,
    roundTrips_ref.entries, hl, -BitVec.toNat_ofNat, -List.length_flatMap]
  omega

theorem decode_firBankLoad (c b p : Byte) {cs : List W32} (hc : byteCount cs.length = true) :
    decodeParams 0x0A01 h ([c, b, p, BitVec.ofNat 8 cs.length] ++ cs.flatMap e32) = some (.firBankLoad h c b p cs) := by
  have hl := roundTrips_coeff.length_flatMap cs
  simp [decodeParams, decodeEngines, fixed, lenIf, byteCount_toNat hc, roundTrips_coeff.entries, hl, -BitVec.toNat_ofNat,
    -List.length_flatMap]
  omega

theorem decode_trunkMask {rs : List MaskRange} (hc : rs.length < 256 ^ 2) :
    decodeParams 0x0C05 h (le 2 rs.length ++ [0, 0] ++ rs.flatMap maskRangeBytes) = some (.trunkMask h rs) := by
  have hl := roundTrips_maskRange.length_flatMap rs
  simp [decodeParams, decodeCalTrunk, fixed, lenIf, field_le_append hc, drop_append_right, roundTrips_maskRange.entries, hl,
    -List.length_flatMap]
  omega

theorem decode_ldpcPolicy {bs : List LdpcBand} (hc : bs.length = 4) :
    decodeParams 0x0A0D h (bs.flatMap bandBytes) = some (.ldpcPolicy h (some bs)) := by
  have hl := roundTrips_band.length_flatMap bs
  have hr := roundTrips_band.entries bs
  rw [hc] at hl hr
  simp [decodeParams, decodeEngines, fixed, lenIf, hr, hl, -List.length_flatMap]

theorem readClock_clockBytes {b : ClockBody} (hc : ∀ t r, b = .other t r → 6 ≤ t.toNat) : readClock (clockBytes b) = some b := by
  cases b with
  | lock g w n => cases g <;> simp [readClock, clockBytes, lenIf, f16_append_right]
  | clkout en d dv m => simp [readClock, clockBytes, lenIf, f32_append_right]
  | ppsOut en sq w => simp [readClock, clockBytes, lenIf]
  | adc b dv d => cases b <;> simp [readClock, clockBytes, lenIf]
  | other t rest =>
    have ht := hc t rest rfl
    rw [clockBytes, readClock, f8_cons_zero]
    split
    case h_7 => rfl
    all_goals omega

theorem readFormat_formatBytes {f : TcFormat} (hc : byteCount f.fields.length = true) : readFormat (formatBytes f) = some f := by
  have hl := roundTrips_tcField.length_flatMap f.fields
  simp [readFormat, formatBytes, lenIf, f8_append_right, f16_append_right, drop_append_right, roundTrips_class.length, roundTrips_class.read, byteCount_toNat hc,
    roundTrips_tcField.entries, hl, -BitVec.toNat_ofNat, -List.length_flatMap]
  omega

theorem readCalBlock_calBlockBytes {b : CalBlock} (hc : b.body.length < 256 ^ 4) : readCalBlock (calBlockBytes b) = some b := by
  simp [readCalBlock, calBlockBytes, lenIf, f64_append_right, f16_append_right, drop_append_right, field_le_append hc, zeros]
  omega

theorem decode_mapRead (b : Byte) (first : W16) (key : W64) :
    decodeParams 0x0303 h ([b, 0] ++ e16 first ++ zeros 4 ++ e64 key) = some (.mapRead h b first key) := by
  simp [decodeParams, decodeServices, fixed, lenIf, f64_append_right, zeros]

theorem decode_eventRoute (t : Byte) (m : BitVec 128) :
    decodeParams 0x0004 h ([t, 0, 0, 0] ++ le 16 m.toNat) = some (.eventRoute h t (some m)) := by
  simp [decodeParams, decodeSystem, fixed, lenIf, field_le (n := 16) m.isLt]

theorem decode_backupWrite (o : Byte) {d : List Byte} (hc : byteCount d.length = true) :
    decodeParams 0x0E03 h ([o, BitVec.ofNat 8 d.length, 0, 0] ++ pad4 d) = some (.backupWrite h o d) := by
  simp [decodeParams, decodeFirmware, fixed, lenIf, byteCount_toNat hc, -BitVec.toNat_ofNat]
  exact ⟨by omega, List.take_left⟩

theorem readCalendar_calendarBytes (c : Calendar) (b : Byte) : readCalendar (calendarBytes c b) = c := by
  simp [readCalendar, calendarBytes, f8_append_right]

end

theorem calendarBytes_length (c : Calendar) (b : Byte) : (calendarBytes c b).length = 8 := rfl

theorem f8_calendarBytes (c : Calendar) (b : Byte) : f8 (calendarBytes c b) 7 = b := rfl

/-- What the well-formedness of a host command says of its counts and of the length of its parameters. -/
theorem Instr.wf_host {i : Instr} {op : Nat} {h : CmdHdr} {p : List Byte} (hwf : i.wf = true)
    (e : encodeParams i = some (op, h, p)) : i.countsOk = true ∧ p.length ≤ maxParams h.tr := by
  rw [Instr.wf, e] at hwf
  simp only [Bool.and_eq_true, decide_eq_true_eq] at hwf
  exact ⟨hwf.1.1, hwf.2⟩

theorem maxParams_le (t : Transport) : maxParams t ≤ 4072 := by cases t <;> decide

/-- The parameters of every well-formed host command read back (check 4 of Table 14.6). -/
theorem decodeParams_encodeParams {i : Instr} {op : Nat} {h : CmdHdr} {p : List Byte} (hwf : i.wf = true)
    (e : encodeParams i = some (op, h, p)) : decodeParams op h p = some i := by
  obtain ⟨hc, hlen⟩ := Instr.wf_host hwf e
  have hmax := maxParams_le h.tr
  have hitems : p.length < 256 ^ 2 := by omega
  cases i with
  | cmdRingConfig h items => cases e; exact withItems_encode (sel := []) _ hitems
  | followPolicy h items => cases e; exact withItems_encode (sel := []) _ hitems
  | ringConfig h r items => cases e; exact withItems_encode (sel := [r, 0, 0, 0]) _ hitems
  | archiveConfig h items => cases e; exact withItems_encode (sel := []) _ hitems
  | audioPortConfig h q items => cases e; exact withItems_encode (sel := [q, 0, 0, 0]) _ hitems
  | pktPortConfig h q items => cases e; exact withItems_encode (sel := [q, 0, 0, 0]) _ hitems
  | coexConfig h items => cases e; exact withItems_encode (sel := []) _ hitems
  | laneConfig h items => cases e; exact withItems_encode (sel := []) _ hitems
  | analogueConfig h items => cases e; exact withItems_encode (sel := []) _ hitems
  | dabConfig h items => cases e; exact withItems_encode (sel := []) _ hitems
  | tvConfig h items => cases e; exact withItems_encode (sel := []) _ hitems
  | calConfig h items => cases e; exact withItems_encode (sel := []) _ hitems
  | trunkConfig h items => cases e; exact withItems_encode (sel := []) _ hitems
  | serviceAdd h a => cases e; simp [decodeParams, decodeServices, readAttrs_attrBytes hc]
  | serviceModify h a => cases e; simp [decodeParams, decodeServices, readAttrs_attrBytes hc]
  | clockConfig h b =>
    cases e
    have hb := readClock_clockBytes (b := b) fun t r hb => by subst hb; simpa [Instr.countsOk] using hc
    simp [decodeParams, decodeTimeRf, hb]
  | timecodeFormatLoad h f => cases e; simp [decodeParams, decodeEngines, readFormat_formatBytes hc]
  | calWrite h b =>
    cases e
    have hl : b.body.length ≤ (calBlockBytes b).length := by simp [calBlockBytes]; omega
    simp [decodeParams, decodeCalTrunk, readCalBlock_calBlockBytes (b := b) (by omega)]
  | nop h data => cases e; exact if_pos hc
  | eventRoute h t m =>
    cases m with
    | none => cases e; simp [decodeParams, decodeSystem]
    | some m => cases e; exact decode_eventRoute h t m
  | serviceQuery h key =>
    cases key with
    | none => cases e; simpa [Instr.countsOk, decodeParams, decodeServices, fixed, lenIf] using hc
    | some k => cases e; simpa [Instr.countsOk, decodeParams, decodeServices, fixed, lenIf] using hc
  | placementPolicy h x =>
    cases x with
    | none => cases e; simp [decodeParams, decodeServices]
    | some x => cases e; simp [decodeParams, decodeServices, fixed, lenIf]
  | surveyConfig h x =>
    cases x with
    | none => cases e; simp [decodeParams, decodeServices]
    | some x => cases e; exact decode_surveyConfig h hc
  | mapRead h b first key => cases e; exact decode_mapRead h b first key
  | linksetSet h i keys => cases e; exact decode_linksetSet h i hc
  | alertConfig h x =>
    cases x with
    | none => cases e; simp [decodeParams, decodeServices]
    | some x => cases e; simp [decodeParams, decodeServices, fixed, lenIf, f32_append_right]
  | archiveExtentAdd h xs =>
    cases e
    have hl := roundTrips_extent.length_flatMap xs
    rw [List.length_append, hl] at hitems
    exact decode_archiveExtentAdd h (by omega)
  | leapTableSet h m x es => cases e; exact decode_leapTableSet h m x hc
  | refConfig h x =>
    cases x with
    | none => cases e; simp [decodeParams, decodeTimeRf]
    | some x => cases e; exact decode_refConfig h hc
  | planPolicy h x =>
    cases x with
    | none => cases e; simp [decodeParams, decodeTimeRf]
    | some x => cases e; simp [decodeParams, decodeTimeRf, fixed, lenIf]
  | firBankLoad h c b ph cs => cases e; exact decode_firBankLoad h c b ph hc
  | ldpcPolicy h x =>
    cases x with
    | none => cases e; simp [decodeParams, decodeEngines]
    | some bs => cases e; exact decode_ldpcPolicy h (by simpa [Instr.countsOk] using hc)
  | trunkMask h rs =>
    cases e
    have hl := roundTrips_maskRange.length_flatMap rs
    rw [List.length_append, hl] at hitems
    exact decode_trunkMask h (by omega)
  | trunkRemote h pkt => cases e; exact if_pos hc
  | imageData h s o d =>
    cases e
    simp [Instr.countsOk, decodeParams, decodeFirmware, lenIf] at hc hlen ⊢
    omega
  | otpKey h a k c hash =>
    cases e
    simp [Instr.countsOk, decodeParams, decodeFirmware, fixed, lenIf] at hc ⊢
    omega
  | rtcSet h c o =>
    cases e
    simp [decodeParams, decodeFirmware, fixed, lenIf, readCalendar_calendarBytes, calendarBytes_length, f8_calendarBytes]
  | rtcAlarm h c o =>
    cases e
    simp [decodeParams, decodeFirmware, fixed, lenIf, readCalendar_calendarBytes, calendarBytes_length, f8_calendarBytes]
  | backupWrite h o d => cases e; exact decode_backupWrite h o hc
  | _ =>
    cases e <;> simp [decodeParams, decodeSystem, decodeServices, decodeOutputs, decodeTimeRf, decodeEngines, decodeCalTrunk,
      decodeFirmware, fixed, lenIf, f16_append_right]

end Sys2Proof
end

section
/-! PROOFS. The packet of a well-formed host command passes checks 1 to 4 and is read back as that command (O58). -/

namespace Sys2Proof.Machine

open Sys2Proof

/-- Every host command has an opcode that R414 assigns (check 3 of Table 14.6). -/
theorem assigned_of_encodeParams {i : Instr} {op : Nat} {h : CmdHdr} {p : List Byte} (e : encodeParams i = some (op, h, p)) :
    assigned op = true := by
  unfold encodeParams at e
  split at e <;> cases e <;> rfl

theorem lt_of_assigned {op : Nat} (ha : assigned op = true) : op < 256 ^ 2 := by
  by_contra hlt
  have hsize : familySizes.getD (op / 0x100) 0 = 0 := List.getD_eq_default _ _ (by simp [familySizes]; omega)
  simp only [assigned, hsize, Bool.and_eq_true, decide_eq_true_eq] at ha
  omega

/-- The header and the parameters of a command packet: what its trailer is computed over (R386). -/
def packetBody (op : Nat) (h : CmdHdr) (p : List Byte) : List Byte :=
  le 2 op ++ [1#8, if h.noReply then 1 else 0] ++ e16 h.seq ++ le 2 p.length ++ e16 h.slot ++ zeros 6 ++ p

/-- A packet with the trailer `x`. -/
def packetWith (op : Nat) (h : CmdHdr) (p : List Byte) (x : W32) : List Byte := packetBody op h p ++ le 4 x.toNat

theorem commandPacket_eq (op : Nat) (h : CmdHdr) (p : List Byte) :
    commandPacket op h p = packetWith op h p (crc32 (packetBody op h p)) := rfl

section
variable {op : Nat} {h : CmdHdr} {p : List Byte} {x : W32}

theorem length_packetBody : (packetBody op h p).length = 16 + p.length := by simp [packetBody, zeros]; omega

theorem length_packetWith : (packetWith op h p x).length = 20 + p.length := by
  rw [packetWith, List.length_append, length_packetBody, length_le]; omega

theorem take_packetWith : (packetWith op h p x).take (16 + p.length) = packetBody op h p :=
  List.take_left' length_packetBody

theorem packetWith_params : ((packetWith op h p x).drop 16).take p.length = p := by
  have hd : (packetWith op h p x).drop 16 = p ++ le 4 x.toNat := by
    simp [packetWith, packetBody, zeros, drop_append_right]
  rw [hd, List.take_left]

theorem packetWith_opcode (ho : op < 256 ^ 2) : f16 (packetWith op h p x) 0 = BitVec.ofNat 16 op := by
  rw [f16, packetWith, packetBody]
  simp only [List.append_assoc]
  rw [field_le_append ho]

theorem packetWith_fields (hp : p.length < 256 ^ 2) :
    f8 (packetWith op h p x) 2 = 1#8 ∧ f8 (packetWith op h p x) 3 = (if h.noReply then 1 else 0) ∧
      f16 (packetWith op h p x) 4 = h.seq ∧ field (packetWith op h p x) 6 2 = p.length ∧
      f16 (packetWith op h p x) 8 = h.slot := by
  simp [packetWith, packetBody, f8_append_right, f16_append_right, field_append_right, field_le_append hp]

theorem packetWith_trailer : f32 (packetWith op h p x) (16 + p.length) = x := by
  rw [packetWith, f32_append_right (Nat.le_of_eq length_packetBody), length_packetBody, Nat.sub_self]
  exact f32_e32_end x

theorem noReply_flag (b : Bool) : (if b then (1 : Byte) else 0).getLsbD 0 = b ∧ (if b then (1 : Byte) else 0).getLsbD 7 = false := by
  cases b <;> decide

end

/-- What checks 1 to 4 make of a command packet, by its trailer. -/
theorem parsePacket_packetWith {i : Instr} {op : Nat} {h : CmdHdr} {p : List Byte} (hwf : i.wf = true)
    (e : encodeParams i = some (op, h, p)) (x : W32) :
    parsePacket h.tr h.viaRing true (maxParams h.tr) h.wait (packetWith op h p x)
      = if crc32 (packetBody op h p) ≠ x then .badCrc (BitVec.ofNat 16 op) h.seq h.slot h.noReply
        else (decodeParams op { h with trailer := x } p).elim (.badLength (BitVec.ofNat 16 op) { h with trailer := x })
          (.command (BitVec.ofNat 16 op) { h with trailer := x }) := by
  have hlen := (Instr.wf_host hwf e).2
  have hmax := maxParams_le h.tr
  have ha := assigned_of_encodeParams e
  have ho := lt_of_assigned ha
  obtain ⟨hver, hflags, hseq, hn, hslot⟩ := packetWith_fields (op := op) (h := h) (p := p) (x := x) (by omega)
  have hop : (BitVec.ofNat 16 op).toNat = op := by rw [BitVec.toNat_ofNat]; exact Nat.mod_eq_of_lt ho
  obtain ⟨hflag0, hflag7⟩ := noReply_flag h.noReply
  have hwhole : ¬ (20 + p.length < 20 + p.length ∨ 4092 < 20 + p.length) := by omega
  have hfits : ¬ (maxParams h.tr < p.length ∨ (True ∧ 20 + p.length ≠ 20 + p.length)) := by simp; omega
  have hgood : ¬ ((1#8 : Byte) ≠ 1#8 ∨ false = true ∨ assigned op = false) := by simp [ha]
  rw [parsePacket]
  simp only [hn, length_packetWith, if_neg hwhole, take_packetWith, packetWith_trailer, packetWith_opcode ho, hseq, hslot, hflags,
    hflag0, hflag7, hver, hop, if_neg hfits, if_neg hgood, packetWith_params]
  cases decodeParams op { h with trailer := x } p <;> rfl

/-- The interpreter gives every host command the effect of its row (R395). -/
theorem exec_eq_interpret {i : Instr} {op : Nat} {h : CmdHdr} {p : List Byte} (e : encodeParams i = some (op, h, p)) (s : State) :
    exec i s = .next (s.interpret i) := by
  unfold encodeParams at e
  split at e <;> cases e <;> rfl

/-- Settles O58: each layout's encoder is read back by its decoder, and the header by checks 1 to 4. -/
theorem commandPacketsRoundTrip : Obligations.CommandPacketsRoundTrip := by
  unfold Obligations.CommandPacketsRoundTrip
  intro i op h p hwf e
  have htake : (commandPacket op h p).take (16 + p.length) = packetBody op h p := take_packetWith
  refine ⟨fun ht => ?_, fun x hx => ?_, exec_eq_interpret e⟩
  · rw [htake] at ht
    rw [commandPacket_eq, parsePacket_packetWith hwf e, if_neg (by simp), ← ht, decodeParams_encodeParams hwf e]
    rfl
  · rw [htake] at hx ⊢
    exact (parsePacket_packetWith hwf e x).trans (if_pos hx.symm)

end Sys2Proof.Machine
end

section
/-! PROOFS. What the bounds of the transports, the canonical form of the memories and the detection of retries look at, and which
of the shared operations keep them (O54, O59, O60; R396, R400, log entry 6). -/

namespace Sys2Proof.Machine

/-! ### The part of the state that the two invariants look at -/

/-- The transports and the memories of the block. -/
structure Kept where
  pPcie : Port
  pTw   : Port
  pSvc  : Port
  pTrunk : Port
  host  : Memory
  bankP : Memory
  bankT : Memory
  table : Memory
  flash : Memory

/-- The transports and the memories of a state. -/
def State.kept (s : State) : Kept :=
  ⟨s.pPcie, s.pTw, s.pSvc, s.pTrunk, s.host, s.busP.bank, s.busT.bank, s.pcie.table, s.flash.mem⟩

@[simp] theorem kept_mk (pending out freeCtr time refs clk acc force sched rf plan coex pPcie pTw pSvc pTrunk nextId rings busP busT
    scratch pcie svc tw host power thermal flash journal rtc diag services place lanes carriers ldpc map alerts rds streams units
    side outRings tags archive pkts audio trunk cal jtag) :
    (State.mk pending out freeCtr time refs clk acc force sched rf plan coex pPcie pTw pSvc pTrunk nextId rings busP busT
      scratch pcie svc tw host power thermal flash journal rtc diag services place lanes carriers ldpc map alerts rds streams units
      side outRings tags archive pkts audio trunk cal jtag).kept
      = ⟨pPcie, pTw, pSvc, pTrunk, host, busP.bank, busT.bank, pcie.table, flash.mem⟩ := by
  simp only [State.kept]

@[simp] theorem kept_eta (s : State) :
    (⟨s.pPcie, s.pTw, s.pSvc, s.pTrunk, s.host, s.busP.bank, s.busT.bank, s.pcie.table, s.flash.mem⟩ : Kept) = s.kept := by
  simp only [State.kept]

@[simp] theorem kept_ite {c : Prop} [Decidable c] (a b : State) : (if c then a else b).kept = if c then a.kept else b.kept :=
  apply_ite State.kept c a b

/-- Every transport keeps to its bounds. -/
def Kept.bounded (k : Kept) : Bool := k.pPcie.bounded && k.pTw.bounded && k.pSvc.bounded && k.pTrunk.bounded

/-- Every memory is canonical. -/
def Kept.memWf (k : Kept) : Bool :=
  Memory.wf ramDefault k.host && Memory.wf ramDefault k.bankP && Memory.wf ramDefault k.bankT && Memory.wf ramDefault k.table
    && Memory.wf flashDefault k.flash

/-- By what a transport knows a retry of each packet that it keeps: SEQ and trailer (R396). -/
def Port.keys (p : Port) : List (W16 × W32) := p.dups.map (fun d => (d.seq, d.trailer))

/-- By what each transport knows a retry. -/
def Kept.keys (k : Kept) : List (List (W16 × W32)) := [k.pPcie.keys, k.pTw.keys, k.pSvc.keys, k.pTrunk.keys]

/-- What `b` holds is within the bounds if what `a` holds is, and canonical if it is; where the relation is the strict one, `b`
also knows the same packets as retries. The effect of a command keeps strictly; taking its packet keeps, but not strictly. -/
def Keeps (strict : Bool) (a b : Kept) : Prop :=
  (a.bounded = true → b.bounded = true) ∧ (a.memWf = true → b.memWf = true) ∧ (strict = true → b.keys = a.keys)

variable {strict : Bool}

@[simp] theorem Keeps.refl (a : Kept) : Keeps strict a a := ⟨id, id, fun _ => rfl⟩

theorem Keeps.trans {a b c : Kept} (h : Keeps strict a b) (k : Keeps strict b c) : Keeps strict a c := by
  obtain ⟨hb, hm, hk⟩ := h
  obtain ⟨kb, km, kk⟩ := k
  exact ⟨kb ∘ hb, km ∘ hm, fun hs => (kk hs).trans (hk hs)⟩

/-- What is kept strictly is kept. -/
theorem Keeps.weaken {a b : Kept} (h : Keeps true a b) : Keeps strict a b := by
  obtain ⟨hb, hm, hk⟩ := h
  exact ⟨hb, hm, fun _ => hk rfl⟩

@[simp] theorem keeps_ite {c : Prop} [Decidable c] (a x y : Kept) :
    Keeps strict a (if c then x else y) ↔ (c → Keeps strict a x) ∧ (¬ c → Keeps strict a y) := by split <;> simp [*]

@[simp] theorem keeps_foldl {α : Type} {a : Kept} {s : State} (f : State → α → State) (l : List α) (hf : ∀ s x, Keeps strict s.kept (f s x).kept)
    (h : Keeps strict a s.kept) : Keeps strict a (l.foldl f s).kept := by
  induction l generalizing s with
  | nil => exact h
  | cons x l ih => exact ih (h.trans (hf s x))

@[simp] theorem kept_foldl {α : Type} (f : State → α → State) (l : List α) (hf : ∀ s x, (f s x).kept = s.kept) (s : State) :
    (l.foldl f s).kept = s.kept := foldl_keeps State.kept f l hf s

/-! ### One port or one memory changes -/

theorem keeps_setPort {a : Kept} {s : State} (t : Transport) {p : Port} (hp : (s.port t).bounded = true → p.bounded = true)
    (hkeys : strict = true → p.keys = (s.port t).keys) (h : Keeps strict a s.kept) : Keeps strict a (s.setPort t p).kept := by
  refine h.trans ⟨fun hb => ?_, fun hm => ?_, fun hs => ?_⟩
  · simp only [Kept.bounded, Bool.and_eq_true] at hb ⊢
    obtain ⟨⟨⟨h1, h2⟩, h3⟩, h4⟩ := hb
    cases t
    · exact ⟨⟨⟨hp h1, h2⟩, h3⟩, h4⟩
    · exact ⟨⟨⟨h1, hp h2⟩, h3⟩, h4⟩
    · exact ⟨⟨⟨h1, h2⟩, hp h3⟩, h4⟩
    · exact ⟨⟨⟨h1, h2⟩, h3⟩, hp h4⟩
  · cases t <;> exact hm
  · have hk := hkeys hs
    cases t <;> simp only [Kept.keys, State.kept, State.setPort, hk] <;> rfl

/-- The replies that wait are not bounded (R402). -/
theorem Port.bounded_outbox (p : Port) (o : List OutEntry) (r : Nat) :
    ({ p with outbox := o, retries := r } : Port).bounded = p.bounded := rfl

/-- A write into host memory keeps it canonical. -/
theorem keeps_hostMem {a : Kept} {s : State} {m : Memory}
    (hm : Memory.wf ramDefault s.host = true → Memory.wf ramDefault m = true) (h : Keeps strict a s.kept) :
    Keeps strict a ({ s with host := m } : State).kept := by
  refine h.trans ⟨id, fun hw => ?_, fun _ => rfl⟩
  simp only [Kept.memWf, Bool.and_eq_true] at hw ⊢
  obtain ⟨⟨⟨⟨h1, h2⟩, h3⟩, h4⟩, h5⟩ := hw
  exact ⟨⟨⟨⟨hm h1, h2⟩, h3⟩, h4⟩, h5⟩

/-- A write into the flash keeps it canonical. -/
theorem keeps_flashMem {a : Kept} {s : State} {f : FlashSt}
    (hm : Memory.wf flashDefault s.flash.mem = true → Memory.wf flashDefault f.mem = true) (h : Keeps strict a s.kept) :
    Keeps strict a ({ s with flash := f } : State).kept := by
  refine h.trans ⟨id, fun hw => ?_, fun _ => rfl⟩
  simp only [Kept.memWf, Bool.and_eq_true] at hw ⊢
  obtain ⟨⟨⟨⟨h1, h2⟩, h3⟩, h4⟩, h5⟩ := hw
  exact ⟨⟨⟨⟨h1, h2⟩, h3⟩, h4⟩, hm h5⟩

/-- A write into the MSI-X table keeps it canonical. -/
theorem keeps_table {a : Kept} {s : State} {p : Pcie}
    (hm : Memory.wf ramDefault s.pcie.table = true → Memory.wf ramDefault p.table = true) (h : Keeps strict a s.kept) :
    Keeps strict a ({ s with pcie := p } : State).kept := by
  refine h.trans ⟨id, fun hw => ?_, fun _ => rfl⟩
  simp only [Kept.memWf, Bool.and_eq_true] at hw ⊢
  obtain ⟨⟨⟨⟨h1, h2⟩, h3⟩, h4⟩, h5⟩ := hw
  exact ⟨⟨⟨⟨h1, h2⟩, h3⟩, hm h4⟩, h5⟩

/-- A write into a mailbox bank keeps it canonical. -/
theorem keeps_setBus {a : Kept} {s : State} (b : Bus) {r : BusRegs}
    (hm : Memory.wf ramDefault (s.bus b).bank = true → Memory.wf ramDefault r.bank = true) (h : Keeps strict a s.kept) :
    Keeps strict a (s.setBus b r).kept := by
  refine h.trans ⟨fun hb => by cases b <;> exact hb, fun hw => ?_, fun _ => by cases b <;> rfl⟩
  simp only [Kept.memWf, Bool.and_eq_true] at hw ⊢
  obtain ⟨⟨⟨⟨h1, h2⟩, h3⟩, h4⟩, h5⟩ := hw
  cases b
  · exact ⟨⟨⟨⟨h1, hm h2⟩, h3⟩, h4⟩, h5⟩
  · exact ⟨⟨⟨⟨h1, h2⟩, hm h3⟩, h4⟩, h5⟩

@[simp] theorem keeps_hostWrite {a : Kept} {s : State} (x : Nat) (bs : List Byte) (h : Keeps strict a s.kept) :
    Keeps strict a (s.hostWrite x bs).kept := keeps_hostMem (Memory.wf_writeN _ _ _ _) h

/-! ### Interrupts and the reply ring -/

/-- Registers of a bus beside its bank. -/
@[simp] theorem kept_setBus (s : State) (b : Bus) (r : BusRegs) (hr : r.bank = (s.bus b).bank) : (s.setBus b r).kept = s.kept := by
  cases b <;> simp only [State.setBus, kept_mk, hr] <;> rfl

@[simp] theorem kept_emit (s : State) (o : Out) : (s.emit o).kept = s.kept := (rfl)
@[simp] theorem kept_advance (s : State) (n : Nat) : (s.advance n).kept = s.kept := (rfl)

@[simp] theorem kept_msix (s : State) (v : Nat) : (s.msix v).kept = s.kept := by
  unfold State.msix
  dsimp only
  split <;> rfl

@[simp] theorem kept_intEdge (s : State) (b : Bus) (old : W32) : (s.intEdge b old).kept = s.kept := by
  unfold State.intEdge
  cases b
  · dsimp only
    split
    · rfl
    · exact kept_msix s 0
  · dsimp only
    split <;> split <;> rfl

@[simp] theorem kept_setIntWord (s : State) (b : Bus) (f : W32 → W32) : (s.setIntWord b f).kept = s.kept := by
  simp [State.setIntWord]

@[simp] theorem kept_setInt (s : State) (b : Bus) (n : Nat) : (s.setInt b n).kept = s.kept := kept_setIntWord ..
@[simp] theorem kept_setIntBoth (s : State) (n : Nat) : (s.setIntBoth n).kept = s.kept := by simp [State.setIntBoth]
@[simp] theorem kept_ringsFault (s : State) : s.ringsFault.kept = s.kept := by simp [State.ringsFault]
@[simp] theorem kept_signalReplyRing (s : State) : s.signalReplyRing.kept = s.kept := by simp [State.signalReplyRing]

@[simp] theorem kept_fireMatch (s : State) (b : Bus) : (s.fireMatch b).kept = s.kept := by
  unfold State.fireMatch
  dsimp only
  split <;> simp

@[simp] theorem kept_readReplyConsumer (s : State) : s.readReplyConsumer.kept = s.kept := by
  unfold State.readReplyConsumer
  dsimp only
  repeat' split
  all_goals simp

/-- The ring state that a pad before the end of the reply/event ring leaves (R279). -/
theorem keeps_pad {a : Kept} {s : State} {c : Prop} [Decidable c] (x : Nat) (bs : List Byte) (r : CmdRings) (h : Keeps strict a s.kept) :
    Keeps strict a (if c then ({ s.hostWrite x bs with rings := r } : State) else s).kept := by
  split
  · exact keeps_hostWrite x bs h
  · exact h

@[simp] theorem keeps_replyRingPut {a : Kept} {s : State} (pkt : List Byte) (h : Keeps strict a s.kept) :
    Keeps strict a (s.replyRingPut pkt).kept := by
  have hp : ∀ {c : Prop} [Decidable c] x bs r, Keeps strict a (if c then ({ s.hostWrite x bs with rings := r } : State) else s).kept :=
    fun x bs r => keeps_pad x bs r h
  unfold State.replyRingPut
  simp only [kept_ite, keeps_ite, kept_signalReplyRing, kept_mk, kept_eta]
  refine ⟨fun _ => ?_, fun _ => ⟨fun _ => ?_, fun _ => ?_⟩⟩ <;>
    exact keeps_hostWrite _ _ (keeps_hostWrite _ _ (hp ..))

@[simp] theorem keeps_replyRingTry {a : Kept} {s : State} (pkt : List Byte) (h : Keeps strict a s.kept) :
    Keeps strict a (s.replyRingTry pkt).1.kept := by
  unfold State.replyRingTry
  dsimp only
  repeat' split
  all_goals simp [h]

@[simp] theorem keeps_mailboxAnswer {a : Kept} {s : State} (b : Bus) (e : OutEntry) (r : Reply) (h : Keeps strict a s.kept) :
    Keeps strict a (s.mailboxAnswer b e r).kept := by
  unfold State.mailboxAnswer
  dsimp only
  rw [kept_setInt]
  refine keeps_setBus b (fun hw => ?_) h
  dsimp only
  split
  · exact hw
  · exact Memory.wf_writeN _ _ _ _ hw

/-! ### Delivery -/

/-- Dropping replies from an outbox. -/
theorem keeps_dropReply {a : Kept} {s : State} (t : Transport) (o : List OutEntry) (h : Keeps strict a s.kept) :
    Keeps strict a (s.setPort t { s.port t with outbox := o }).kept := keeps_setPort t (fun hb => hb) (fun _ => rfl) h

@[simp] theorem keeps_deliverOne {a : Kept} {s : State} (t : Transport) (h : Keeps strict a s.kept) :
    Keeps strict a (s.deliverOne t).1.kept := by
  unfold State.deliverOne
  dsimp only
  split
  · exact h
  · split
    · exact h
    · cases t <;> dsimp only
      · split
        · split
          · exact keeps_dropReply .pcie _ h
          · have hr := keeps_replyRingTry ‹Reply›.packet h
            split <;> (rename_i heq; rw [heq] at hr)
            · exact keeps_dropReply .pcie _ hr
            · exact hr
        · exact keeps_mailboxAnswer _ _ _ (keeps_dropReply .pcie _ h)
      · exact keeps_mailboxAnswer _ _ _ (keeps_dropReply .twoWire _ h)
      · split
        · exact keeps_dropReply .service _ h
        · exact h
      · split
        · exact keeps_dropReply .trunk _ h
        · exact h

@[simp] theorem keeps_deliverReplies {a : Kept} {s : State} (n : Nat) (t : Transport) (h : Keeps strict a s.kept) :
    Keeps strict a (State.deliverReplies n s t).kept := by
  induction n generalizing s with
  | zero => exact h
  | succ n ih =>
    have hone := keeps_deliverOne t h
    unfold State.deliverReplies
    split <;> (rename_i heq; rw [heq] at hone)
    · exact ih hone
    · exact hone

@[simp] theorem keeps_deliverEvents {a : Kept} {s : State} (n : Nat) (h : Keeps strict a s.kept) :
    Keeps strict a (State.deliverEvents n s).kept := by
  induction n generalizing s with
  | zero => exact h
  | succ n ih =>
    unfold State.deliverEvents
    split
    · exact h
    next e rest hev =>
      split
      · exact h
      · have hr := keeps_replyRingTry e.packet h
        have hp := port_replyRingTry s e.packet .pcie
        split <;> (rename_i s' heq; rw [heq] at hr hp)
        · refine ih (keeps_setPort .pcie (fun hb => ?_) (fun _ => rfl) hr)
          have hpp : s'.pPcie = s.pPcie := hp
          change s'.pPcie.bounded = true at hb
          simp only [hpp, Port.bounded, Bool.and_eq_true, decide_eq_true_eq, hev, List.length_cons] at hb ⊢
          omega
        · exact hr

@[simp] theorem keeps_flush {a : Kept} {s : State} (t : Transport) (h : Keeps strict a s.kept) : Keeps strict a (s.flush t).kept := by
  have hr := keeps_deliverReplies (s.port t).outbox.length t h
  unfold State.flush
  cases t <;> dsimp only
  · exact keeps_deliverEvents _ hr
  · exact hr
  · split <;> exact hr
  · exact hr

/-! ### Packets and events -/

@[simp] theorem bounded_count (p : Port) (st : Status) : (p.count st).bounded = p.bounded := by
  unfold Port.count
  split <;> rfl

@[simp] theorem keys_count (p : Port) (st : Status) : (p.count st).keys = p.keys := by
  unfold Port.count
  split <;> rfl

@[simp] theorem port_nextId (s : State) (n : Nat) (t : Transport) : ({ s with nextId := n } : State).port t = s.port t := by
  cases t <;> rfl

/-- The duplicate record keeps the last 32 packets (R396). -/
theorem length_dups_kept {α : Type} (l : List α) (x : α) : ((l ++ [x]).drop (l.length + 1 - 32)).length ≤ 32 := by
  rw [List.length_drop, List.length_append, List.length_singleton]; omega

@[simp] theorem keeps_post {a : Kept} {s : State} (hd : CmdHdr) (keep : Bool) (r : Option Reply) (h : Keeps false a s.kept) :
    Keeps false a (s.post hd keep r).kept := by
  unfold State.post
  refine keeps_flush _ (keeps_setPort (s := { s with nextId := s.nextId + 1 }) _ (fun hb => ?_) Bool.noConfusion h)
  rw [port_nextId] at hb
  have hdups : (if keep then ((s.port hd.tr).dups ++ [(⟨hd.seq, hd.trailer, s.nextId, r⟩ : DupEntry)]).drop
      ((s.port hd.tr).dups.length + 1 - 32) else (s.port hd.tr).dups).length ≤ 32 := by
    split
    · exact length_dups_kept ..
    · simp only [Port.bounded, Bool.and_eq_true, decide_eq_true_eq] at hb; exact hb.1
  cases r <;> simp only [bounded_count] <;>
    simp only [Port.bounded, Bool.and_eq_true, decide_eq_true_eq] at hb ⊢ <;> exact ⟨hdups, hb.2⟩

@[simp] theorem keeps_resend {a : Kept} {s : State} (hd : CmdHdr) (d : DupEntry) (h : Keeps strict a s.kept) :
    Keeps strict a (s.resend hd d).kept := keeps_flush _ (keeps_setPort _ (fun hb => hb) (fun _ => rfl) h)

@[simp] theorem keeps_finish {a : Kept} {s : State} (dt : W64) (hd : CmdHdr) (op : Nat) (x : Answer) (h : Keeps false a s.kept) :
    Keeps false a (s.finish dt hd op x).kept := by
  unfold State.finish
  split <;> exact keeps_post _ _ _ h

@[simp] theorem keeps_complete {a : Kept} {s : State} (t : Transport) (id : Nat) (r : Reply) (h : Keeps strict a s.kept) :
    Keeps strict a (s.complete t id r).kept := by
  refine keeps_flush _ (keeps_setPort _ (fun hb => ?_) (fun _ => ?_) h)
  · rw [bounded_count]
    simpa [Port.bounded] using hb
  · rw [keys_count]
    unfold Port.keys
    dsimp only
    rw [List.map_map]
    refine List.map_congr_left fun d _ => ?_
    dsimp only [Function.comp]
    split <;> rfl

/-- An event that joins a queue of at most 128 leaves at most 128 (R400). -/
theorem bounded_queued {p : Port} (e : Event) (n : W16) (d : Nat) (h : p.bounded = true) :
    ({ p with events := if p.events.length ≥ 128 then (p.events ++ [e]).tail else p.events ++ [e], evSeq := n, evDropped := d } :
      Port).bounded = true := by
  simp only [Port.bounded, Bool.and_eq_true, decide_eq_true_eq] at h ⊢
  refine ⟨h.1, ?_⟩
  split
  · simp; omega
  · simp; omega

@[simp] theorem keeps_queueEvent {a : Kept} {s : State} (t : Transport) (c f : W16) (ps : List Byte) (h : Keeps strict a s.kept) :
    Keeps strict a (s.queueEvent t c f ps).kept := by
  have hq := keeps_setPort t (fun hb => bounded_queued (s.eventFor (s.port t) c f ps) ((s.port t).evSeq + 1)
    (if (s.port t).events.length ≥ 128 then sat32 ((s.port t).evDropped + 1) else (s.port t).evDropped) hb)
    (fun _ => rfl) h
  unfold State.queueEvent
  cases t <;> dsimp only
  · exact keeps_flush _ ((kept_intEdge ..).symm ▸ hq)
  · exact (kept_intEdge ..).symm ▸ hq
  · split <;> exact hq
  · exact hq

@[simp] theorem kept_pushUnit (s : State) (f : W16) (kind : Nat) (gen : W16) (dt : W64) (spanNs : Nat) (flags : W32)
    (payload : List Byte) : (s.pushUnit f kind gen dt spanNs flags payload).kept = s.kept := (rfl)

@[simp] theorem kept_eventCopy (s : State) (c f : W16) (ps : List Byte) : (s.eventCopy c f ps).kept = s.kept := by
  unfold State.eventCopy
  split <;> rfl

@[simp] theorem kept_copyEvent (s : State) (c f : W16) (ps : List Byte) : (s.copyEvent c f ps).kept = s.kept := by
  unfold State.copyEvent
  split
  · rfl
  · exact kept_eventCopy ..

@[simp] theorem keeps_raise {a : Kept} {s : State} (c : Nat) (f : W16) (ps : List Byte) (h : Keeps strict a s.kept) :
    Keeps strict a (s.raise c f ps).kept := by
  rw [raise_eq]
  refine keeps_foldl _ _ (fun s t => ?_) (by rw [kept_copyEvent]; exact h)
  unfold State.offerEvent
  split
  · exact keeps_queueEvent t _ f ps (.refl _)
  · exact .refl _

/-! ### Commands -/

@[simp] theorem kept_markDirty (s : State) (g : Option Nat) : (s.markDirty g).kept = s.kept := by
  unfold State.markDirty
  split
  · rfl
  · split <;> rfl

@[simp] theorem kept_modSvc (s : State) (n : Nat) (f : Service → Service) : (s.modSvc n f).kept = s.kept := (rfl)

@[simp] theorem kept_commitDev (s : State) (g : Option Nat) (f : Settings → Settings) (ps : List Byte) :
    (s.commitDev g f ps).1.kept = s.kept := by
  unfold State.commitDev
  split <;> simp

@[simp] theorem kept_commitSvc (s : State) (n : Nat) (f : SvcSettings → SvcSettings) (ps : List Byte) :
    (s.commitSvc n f ps).1.kept = s.kept := by
  unfold State.commitSvc
  dsimp only
  repeat' split
  all_goals simp

/-- A command's effect keeps the bounds and the memories, and what its transports know as retries. -/
def KeepsIn (s : State) (r : State × Answer) : Prop := Keeps true s.kept r.1.kept

theorem keepsIn_answer (s : State) (x : Answer) : KeepsIn s (s, x) := .refl _
theorem keepsIn_refuse (s : State) (st : Status) : KeepsIn s (refuse s st) := .refl _
theorem keepsIn_of_kept {s : State} {r : State × Answer} (h : r.1.kept = s.kept) : KeepsIn s r := by
  unfold KeepsIn; rw [h]; exact .refl _

theorem keepsIn_refuseIf {s : State} (c : Bool) (st : Status) {k : State × Answer} (h : KeepsIn s k) :
    KeepsIn s (s.refuseIf c st k) := by
  cases c
  · exact h
  · exact keepsIn_refuse s st

theorem keepsIn_itemCmd (s : State) (tbl : List ItemSpec) (applies : Nat → Bool) (pre : List Byte) (force acc : ItemTable)
    (items : List Item) (put : ItemTable → State × Answer) (h : ∀ t, KeepsIn s (put t)) :
    KeepsIn s (s.itemCmd tbl applies pre force acc items put) := by
  unfold State.itemCmd
  split
  · exact keepsIn_answer s _
  · split
    · exact keepsIn_refuse s _
    · exact h _

theorem keeps_checked {s : State} (g : Gate) (hd : CmdHdr) (body : State → State × Answer) (hb : ∀ u, KeepsIn u (body u)) :
    Keeps true s.kept (s.checked g hd body).1.kept := by
  unfold State.checked
  split
  · exact .refl _
  · split
    · exact .refl _
    · exact hb s

/-- A command packet keeps the invariants where its effect does. -/
theorem keeps_runCmd {a : Kept} {s : State} (g : Gate) (hd : CmdHdr) (body : State → State × Answer)
    (hb : ∀ u, KeepsIn u (body u)) (h : Keeps false a s.kept) : Keeps false a (s.runCmd g hd body).kept := by
  unfold State.runCmd
  split
  · exact h
  · dsimp only
    split
    · exact keeps_resend _ _ h
    · exact keeps_finish _ _ _ _ (h.trans (keeps_checked (s := s.advance hd.wait) g hd body hb).weaken)

end Sys2Proof.Machine
end

section
/-! PROOFS. Shared operations, registers, time, references and inputs:
what each operation keeps of the transports and the memories (O59, O60). -/

namespace Sys2Proof.Machine
variable {strict : Bool}

/-! ### Shared operations -/

@[simp] theorem kept_releaseMsix (s : State) : s.releaseMsix.kept = s.kept := by
  unfold State.releaseMsix
  simp

@[simp] theorem kept_modStream (s : State) (f : W16) (kind : Nat) (g : Stream → Stream) :
    (s.modStream f kind g).kept = s.kept := (rfl)

@[simp] theorem keeps_refuse (s : State) (st : Status) : Keeps strict s.kept (refuse s st).1.kept := .refl _

@[simp] theorem kept_free (s : State) : (s.free).1.kept = s.kept := (rfl)

/-! ### System commands -/

@[simp] theorem keeps_itemCmd {s : State} (tbl : List ItemSpec) (applies : Nat → Bool) (pre : List Byte) (force acc : ItemTable)
    (items : List Item) (put : ItemTable → State × Answer) (h : ∀ t, Keeps true s.kept (put t).1.kept) :
    Keeps true s.kept (s.itemCmd tbl applies pre force acc items put).1.kept := keepsIn_itemCmd s tbl applies pre force acc items put h

/-- A refused command changes nothing. -/
@[simp] theorem keeps_refuseIf {s : State} (c : Bool) (st : Status) (k : State × Answer) :
    Keeps strict s.kept (s.refuseIf c st k).1.kept ↔ (c = false → Keeps strict s.kept k.1.kept) := by
  cases c <;> simp [State.refuseIf, refuse]

/-! ### Registers -/

@[simp] theorem kept_latch (s : State) (b : Bus) (addr : Nat) (hi : Nat) : (s.latch b addr hi).kept = s.kept := by
  unfold State.latch
  simp

theorem kept_ite_fst {α : Type} {c : Prop} [Decidable c] (a b : State × α) :
    (if c then a else b).1.kept = if c then a.1.kept else b.1.kept := by split <;> rfl

@[simp] theorem kept_readWord (s : State) (b : Bus) (addr : Nat) (first : Bool) :
    (s.readWord b addr first).1.kept = s.kept := by
  unfold State.readWord
  extract_lets r two
  have htwo : ∀ v, (two v).1.kept = s.kept := fun v => by simp only [two]; split <;> simp
  simp only [kept_ite_fst, htwo, ite_self]

@[simp] theorem kept_writeIntStatus (s : State) (b : Bus) (v : W32) : (s.writeIntStatus b v).kept = s.kept := by
  unfold State.writeIntStatus
  simp

@[simp] theorem kept_writeIntEnable (s : State) (b : Bus) (v : W32) : (s.writeIntEnable b v).kept = s.kept := by
  unfold State.writeIntEnable
  simp

@[simp] theorem kept_commitMatch (s : State) (b : Bus) (hi : W32) : (s.commitMatch b hi).kept = s.kept := by
  unfold State.commitMatch
  simp

@[simp] theorem keeps_writePlain {a : Kept} {s : State} (b : Bus) (addr : Nat) (v : W32) (hk : Keeps strict a s.kept) :
    Keeps strict a (s.writePlain b addr v).kept := by
  have hbank : Keeps strict a (s.setBus b { s.bus b with
      bank := Memory.writeN ramDefault (s.bus b).bank (addr - 0x1000) (le 4 v.toNat) }).kept :=
    keeps_setBus b (Memory.wf_writeN _ _ _ _) hk
  have htable : Keeps strict a ({ s with pcie := { s.pcie with
      table := Memory.writeN ramDefault s.pcie.table (addr - 0x2000) (le 4 v.toNat) } } : State).kept :=
    keeps_table (Memory.wf_writeN _ _ _ _) hk
  unfold State.writePlain
  simp only [kept_ite, keeps_ite]
  refine ⟨fun _ => by simp [hk], fun _ => ⟨fun _ => by simp [hk], fun _ => ⟨fun _ => by simp [hk], fun _ => ⟨fun _ => by simp [hk],
    fun _ => ⟨fun _ => hk, fun _ => ⟨fun _ => ⟨fun _ => hk, fun _ => hbank⟩,
      fun _ => ⟨fun _ => ⟨fun _ => ?_, fun _ => htable⟩, fun _ => hk⟩⟩⟩⟩⟩⟩⟩
  rw [kept_releaseMsix]
  exact hk

@[simp] theorem kept_twReadByte (s : State) (first : Bool) : (s.twReadByte first).1.kept = s.kept := by
  unfold State.twReadByte
  simp

@[simp] theorem kept_twReadBytes (n : Nat) (first : Bool) (s : State) : (s.twReadBytes n first).1.kept = s.kept := by
  induction n generalizing first s with
  | zero => rfl
  | succ n ih => simp [State.twReadBytes, ih]

@[simp] theorem keeps_attnAttempt {a : Kept} {s : State} (w : AttnWrite) (r : AttnResult) (hk : Keeps strict a s.kept) :
    Keeps strict a (s.attnAttempt w r).kept := by
  have hgone : Keeps strict a ({ s with tw := { s.tw with attn := none }, pTw := { s.pTw with evDropped := sat32 (s.pTw.evDropped + 1) } } :
      State).kept := keeps_setPort .twoWire (fun hb => hb) (fun _ => rfl) hk
  unfold State.attnAttempt
  split
  · exact hk
  · split
    · exact hgone
    · exact hk
  · split
    · exact hgone
    · exact hk

/-! ### Time -/

@[simp] theorem keeps_refEvent {k₀ : Kept} {s : State} (reason : Nat) (role : Nat) (prev : Nat) (new : Nat) (ref : Nat)
    (hk : Keeps strict k₀ s.kept) : Keeps strict k₀ (s.refEvent reason role prev new ref).kept := by
  unfold State.refEvent
  simp [hk]

@[simp] theorem keeps_refSay {k₀ : Kept} {s : State} (reason : Nat) (role : Nat) (ref : Nat) (hk : Keeps strict k₀ s.kept) :
    Keeps strict k₀ (s.refSay reason role ref).kept := by
  unfold State.refSay
  simp [hk]

@[simp] theorem kept_setTState (s : State) (t : TState) : (s.setTState t).kept = s.kept := by
  unfold State.setTState
  simp

@[simp] theorem keeps_enterLocked {k₀ : Kept} {s : State} (hk : Keeps strict k₀ s.kept) : Keeps strict k₀ s.enterLocked.kept := by
  unfold State.enterLocked
  simp [hk]

@[simp] theorem kept_schedNow (s : State) : s.schedNow.kept = s.kept := (rfl)

@[simp] theorem keeps_stepState {k₀ : Kept} {s : State} (d : Int) (hk : Keeps strict k₀ s.kept) : Keeps strict k₀ (s.stepState d).kept := by
  unfold State.stepState
  dsimp only
  repeat' split
  all_goals simp [hk]

@[simp] theorem keeps_applyStep {k₀ : Kept} {s : State} (before : Nat) (dt : Int) (hk : Keeps strict k₀ s.kept) :
    Keeps strict k₀ (s.applyStep before dt).kept := by
  unfold State.applyStep
  simp [hk]

/-! ### The real-time clock -/

@[simp] theorem kept_setRtc (s : State) (r : RtcSt) : (s.setRtc r).kept = s.kept := by
  unfold State.setRtc
  simp

@[simp] theorem kept_seedDt (s : State) : s.seedDt.kept = s.kept := (rfl)

@[simp] theorem keeps_modeEvent {k₀ : Kept} {s : State} (old : Nat) (cause : Nat) (hk : Keeps strict k₀ s.kept) :
    Keeps strict k₀ (s.modeEvent old cause).kept := by
  unfold State.modeEvent
  simp [hk]

@[simp] theorem keeps_setReady {k₀ : Kept} {s : State} (hk : Keeps strict k₀ s.kept) : Keeps strict k₀ s.setReady.kept := by
  unfold State.setReady
  simp [hk]

@[simp] theorem keeps_unlock {k₀ : Kept} {s : State} (hk : Keeps strict k₀ s.kept) : Keeps strict k₀ s.unlock.kept := by
  unfold State.unlock
  simp [hk]

/-! ### References -/

@[simp] theorem kept_modRef (s : State) (c : Nat) (f : RefState → RefState) : (s.modRef c f).kept = s.kept := (rfl)

@[simp] theorem keeps_freqLost {k₀ : Kept} {s : State} (c : Nat) (hk : Keeps strict k₀ s.kept) : Keeps strict k₀ (s.freqLost c).kept := by
  unfold State.freqLost
  simp [hk]

@[simp] theorem keeps_dropSource {k₀ : Kept} {s : State} (c : Nat) (hk : Keeps strict k₀ s.kept) : Keeps strict k₀ (s.dropSource c).kept := by
  unfold State.dropSource
  simp [hk]

@[simp] theorem keeps_beginHoldover {k₀ : Kept} {s : State} (c : Nat) (hk : Keeps strict k₀ s.kept) :
    Keeps strict k₀ (s.beginHoldover c).kept := by
  unfold State.beginHoldover
  simp [hk]

@[simp] theorem keeps_timeLost {a : Kept} {s : State} (c : Nat) (hk : Keeps strict a s.kept) : Keeps strict a (s.timeLost c).kept := by
  have hd := keeps_dropSource c hk
  unfold State.timeLost
  split
  · exact keeps_beginHoldover _ hd
  · exact (kept_setTState ..).symm ▸ hd
  · exact hd

@[simp] theorem keeps_disqualify {a : Kept} {s : State} (c : Nat) (freq time : Bool) (hk : Keeps strict a s.kept) :
    Keeps strict a (s.disqualify c freq time).kept := by
  unfold State.disqualify
  extract_lets r s1 s2 s3 s4 s5
  have h2 : Keeps strict a s2.kept := by simp [s2, s1, hk]
  have h3 : Keeps strict a s3.kept := by simp [s3, h2]
  have h4 : Keeps strict a s4.kept := by simp [s4, h3]
  have h5 : Keeps strict a s5.kept := by simp [s5, h4]
  simp [h5]

@[simp] theorem keeps_loseRef {a : Kept} {s : State} (c : Nat) (hk : Keeps strict a s.kept) : Keeps strict a (s.loseRef c).kept :=
  keeps_disqualify (s := { s with refs := s.refs.forget c }) _ _ _ hk

@[simp] theorem keeps_labelEdge {k₀ : Kept} {s : State} (returning : Bool) (hk : Keeps strict k₀ s.kept) :
    Keeps strict k₀ (s.labelEdge returning).kept := by
  unfold State.labelEdge
  dsimp only
  repeat' split
  all_goals simp [hk]

@[simp] theorem kept_refCount (s : State) (edgeA : Bool) (edgeB : Bool) (trunkTime : Bool) :
    (s.refCount edgeA edgeB trunkTime).kept = s.kept := (rfl)

@[simp] theorem keeps_freqTick {k₀ : Kept} {s : State} (eps : Int) (slewDone : Bool) (hk : Keeps strict k₀ s.kept) :
    Keeps strict k₀ (s.freqTick eps slewDone).kept := by
  unfold State.freqTick
  simp [hk]

@[simp] theorem keeps_timeTick {k₀ : Kept} {s : State} (errors : List (Nat × Int)) (hk : Keeps strict k₀ s.kept) :
    Keeps strict k₀ (s.timeTick errors).kept := by
  unfold State.timeTick
  dsimp only
  repeat' split
  all_goals simp [hk]

@[simp] theorem kept_stepTick (s : State) : s.stepTick.kept = s.kept := by
  unfold State.stepTick
  dsimp only
  repeat' split
  all_goals simp

/-! ### Inputs -/

@[simp] theorem kept_modInput (s : State) (i : Nat) (f : InputSt → InputSt) : (s.modInput i f).kept = s.kept := (rfl)

@[simp] theorem kept_rfOne (s : State) (old : Settings) (i : Nat) (m : InputMeas) : (s.rfOne old i m).kept = s.kept := (rfl)

@[simp] theorem kept_rfTick (s : State) (old : Settings) (ms : List InputMeas) : (s.rfTick old ms).kept = s.kept := by
  unfold State.rfTick
  simp

@[simp] theorem kept_wire (s : State) (name : String) (i : Nat) (asserted : Bool) :
    (s.wire name i asserted).kept = s.kept := (rfl)

@[simp] theorem kept_setGntOut (s : State) (b : Bool) : (s.setGntOut b).kept = s.kept := by
  unfold State.setGntOut
  simp

@[simp] theorem kept_setReqOut (s : State) (b : Bool) : (s.setReqOut b).kept = s.kept := by
  unfold State.setReqOut
  simp

@[simp] theorem keeps_coexEvent {k₀ : Kept} {s : State} (reason : Nat) (hk : Keeps strict k₀ s.kept) :
    Keeps strict k₀ (s.coexEvent reason).kept := by
  unfold State.coexEvent
  simp [hk]

@[simp] theorem kept_coexOff (s : State) : s.coexOff.kept = s.kept := by
  unfold State.coexOff
  simp

end Sys2Proof.Machine
end

section
/-! PROOFS. Services, lanes, plans and the placement round:
what each operation keeps of the transports and the memories (O59, O60). -/

namespace Sys2Proof.Machine
variable {strict : Bool}

/-! ### The trunk mask -/

@[simp] theorem kept_trunkSend (s : State) (rank : Nat) (tag : Nat) (type : Nat) (body : List Byte) :
    (s.trunkSend rank tag type body).kept = s.kept := (rfl)

/-! ### Services -/

@[simp] theorem kept_useInc (s : State) (v : Service) : (s.useInc v).kept = s.kept := (rfl)

@[simp] theorem kept_nextOrder (s : State) : (s.nextOrder).1.kept = s.kept := (rfl)

@[simp] theorem keeps_serviceEvent {k₀ : Kept} {s : State} (v : Service) (old : SvcState) (new : SvcState) (reason : Nat)
    (hk : Keeps strict k₀ s.kept) : Keeps strict k₀ (s.serviceEvent v old new reason).kept := by
  unfold State.serviceEvent
  simp [hk]

@[simp] theorem kept_enterState (s : State) (n : Nat) (st : SvcState) (reason : Nat) :
    (s.enterState n st reason).kept = s.kept := (rfl)

@[simp] theorem keeps_moveState {k₀ : Kept} {s : State} (n : Nat) (st : SvcState) (reason : Nat) (hk : Keeps strict k₀ s.kept) :
    Keeps strict k₀ (s.moveState n st reason).kept := by
  unfold State.moveState
  repeat' split
  all_goals simp [hk]

@[simp] theorem kept_flagStreams (s : State) (f : W16) (flags : W32) : (s.flagStreams f flags).kept = s.kept := (rfl)

@[simp] theorem kept_gapStreams (s : State) (f : W16) : (s.gapStreams f).kept = s.kept := (rfl)

@[simp] theorem kept_endStream (s : State) (f : W16) (kind : Nat) : (s.endStream f kind).kept = s.kept := by
  unfold State.endStream
  dsimp only
  repeat' split
  all_goals simp

@[simp] theorem kept_endStreams (s : State) (f : W16) : (s.endStreams f).kept = s.kept := by
  unfold State.endStreams
  simp

@[simp] theorem kept_openStream (s : State) (v : Service) (i : Nat) (b : Binding) : (s.openStream v i b).kept = s.kept := by
  unfold State.openStream
  simp

@[simp] theorem kept_openStreams (s : State) (n : Nat) : (s.openStreams n).kept = s.kept := by
  unfold State.openStreams
  dsimp only
  repeat' split
  all_goals simp

@[simp] theorem kept_leaveLanes (s : State) (n : Nat) : (s.leaveLanes n).kept = s.kept := (rfl)

@[simp] theorem keeps_park {k₀ : Kept} {s : State} (n : Nat) (reason : Nat) (hk : Keeps strict k₀ s.kept) :
    Keeps strict k₀ (s.park n reason).kept := by
  unfold State.park
  simp [hk]

@[simp] theorem kept_takeSlot (s : State) (h : CmdHdr) (a : AttrBlock) (slot : Nat) (inc : Nat) :
    (s.takeSlot h a slot inc).1.kept = s.kept := (rfl)

@[simp] theorem kept_awaitSlot (s : State) (a : AttrBlock) (slot : Nat) (inc : Nat) :
    (s.awaitSlot a slot inc).1.kept = s.kept := (rfl)

/-! ### Lanes -/

/-- Putting a user on a band lane touches the lanes only. -/
theorem kept_takeBand {s t : State} {n : Nat} {join : Bool} {b : Branch} {l : Lane} (h : s.takeBand n join b = some (t, l)) :
    t.kept = s.kept := by
  unfold State.takeBand at h
  dsimp only at h
  split at h
  · cases h; rfl
  · split at h
    · cases h
    · obtain ⟨i, -, hi⟩ := Option.map_eq_some_iff.mp h
      cases hi; rfl

@[simp] theorem kept_takeBranch (s : State) (n : Nat) (join : Bool) (b : Branch) : (s.takeBranch n join b).kept = s.kept := by
  unfold State.takeBranch
  split
  · rfl
  next t l h =>
    have ht := kept_takeBand h
    repeat' split
    all_goals exact ht

@[simp] theorem keeps_startMigration {k₀ : Kept} {s : State} (n : Nat) (dest : Reception) (toHead : Bool)
    (hk : Keeps strict k₀ s.kept) : Keeps strict k₀ (s.startMigration n dest toHead).kept := by
  unfold State.startMigration
  simp [hk]

@[simp] theorem kept_layOne (s : State) (bs : List Branch) (n : Nat) : (s.layOne bs n).kept = s.kept := by
  unfold State.layOne
  dsimp only
  repeat' split
  all_goals simp

@[simp] theorem keeps_moveOne {k₀ : Kept} {s : State} (bs : List Branch) (n : Nat) (hk : Keeps strict k₀ s.kept) :
    Keeps strict k₀ (s.moveOne bs n).kept := by
  unfold State.moveOne
  repeat' split
  all_goals simp [hk]

@[simp] theorem keeps_moveLanes {k₀ : Kept} {s : State} (hk : Keeps strict k₀ s.kept) : Keeps strict k₀ s.moveLanes.kept := by
  unfold State.moveLanes
  dsimp only
  repeat' split
  all_goals simp [hk]

@[simp] theorem kept_layLanes (s : State) : s.layLanes.kept = s.kept := by
  unfold State.layLanes
  dsimp only
  repeat' split
  all_goals simp

@[simp] theorem kept_restartLanes (s : State) (inputs : List Nat) : (s.restartLanes inputs).kept = s.kept := by
  unfold State.restartLanes
  dsimp only
  repeat' split
  all_goals simp

@[simp] theorem kept_settleLanes (s : State) (n : Nat) : (s.settleLanes n).kept = s.kept := (rfl)

@[simp] theorem kept_dropJoining (s : State) (n : Nat) : (s.dropJoining n).kept = s.kept := (rfl)

/-! ### The placement round -/

@[simp] theorem kept_addProg (s : State) (p : Nat) (f : W16) (slot : Nat) (chans : Nat) :
    (s.addProg p f slot chans).kept = s.kept := (rfl)

@[simp] theorem kept_bindAudio (s : State) (v : Service) (auto : Option (Nat × Nat)) : (s.bindAudio v auto).kept = s.kept := by
  unfold State.bindAudio
  dsimp only
  repeat' split
  all_goals simp

@[simp] theorem keeps_hintLost {k₀ : Kept} {s : State} (n : Nat) (hk : Keeps strict k₀ s.kept) : Keeps strict k₀ (s.hintLost n).kept := by
  unfold State.hintLost
  repeat' split
  all_goals simp [hk]

@[simp] theorem keeps_takeIn {k₀ : Kept} {s : State} (n : Nat) (pl : Placement) (reason : Nat) (ev : Bool)
    (hk : Keeps strict k₀ s.kept) : Keeps strict k₀ (s.takeIn n pl reason ev).kept := by
  unfold State.takeIn
  dsimp only
  repeat' split
  all_goals simp [hk]

@[simp] theorem keeps_tryAdmit {k₀ : Kept} {s : State} (n reason : Nat) (ev : Bool) (hk : Keeps strict k₀ s.kept) :
    Keeps strict k₀ (s.tryAdmit n reason ev).1.kept := by
  have hparked : ∀ vs : List Nat, Keeps strict k₀ (vs.foldl (fun s m => s.park m 0x03) s).kept := fun vs =>
    keeps_foldl _ _ (fun s m => by simp) hk
  unfold State.tryAdmit
  dsimp only
  repeat' split
  all_goals simp [hk, hparked]

@[simp] theorem kept_freeSlotOf (s : State) (n : Nat) : (s.freeSlotOf n).kept = s.kept := (rfl)

@[simp] theorem keeps_roundReply {k₀ : Kept} {s : State} (p : PendSvc) (st : Status) (gen : W16) (eff : W32)
    (params : List Byte) (hk : Keeps strict k₀ s.kept) : Keeps strict k₀ (s.roundReply p st gen eff params).kept := by
  unfold State.roundReply
  simp [hk]

@[simp] theorem keeps_replySvc {k₀ : Kept} {s : State} (p : PendSvc) (n : Nat) (hk : Keeps strict k₀ s.kept) :
    Keeps strict k₀ (s.replySvc p n).kept := by
  unfold State.replySvc
  repeat' split
  all_goals simp [hk]

@[simp] theorem keeps_roundAdd {k₀ : Kept} {s : State} (serve : Bool) (p : PendSvc) (hk : Keeps strict k₀ s.kept) :
    Keeps strict k₀ (s.roundAdd serve p).kept := by
  unfold State.roundAdd
  split
  · simp [hk]
  next v _ =>
    have htry := keeps_tryAdmit v.slot 0 false hk
    extract_lets n parked
    have hparked : ∀ {s : State} (r : Nat), Keeps strict k₀ s.kept → Keeps strict k₀ (parked s r).kept := fun r h => by simp [parked, h]
    split
    · simp [hk, hparked]
    · split <;> (rename_i heq; rw [heq] at htry)
      · simp [htry]
      · split <;> simp [htry, hparked]

@[simp] theorem keeps_roundFound {k₀ : Kept} {s : State} (serve : Bool) (n : Nat) (hk : Keeps strict k₀ s.kept) :
    Keeps strict k₀ (s.roundFound serve n).kept := by
  have htry := keeps_tryAdmit n 1 true hk
  unfold State.roundFound
  split
  · exact hk
  · dsimp only
    split
    · simp [hk]
    · split <;> (rename_i heq; rw [heq] at htry)
      · exact htry
      · split <;> simp [htry]

@[simp] theorem keeps_modHints {k₀ : Kept} {s : State} (n : Nat) (old : Service) (hk : Keeps strict k₀ s.kept) :
    Keeps strict k₀ (s.modHints n old).kept := by
  unfold State.modHints
  split
  · exact hk
  · extract_lets a pinned free pl rx div ok changed keep ok' s1 want
    have h1 : Keeps strict k₀ s1.kept := by simp [s1, hk]
    split
    · exact h1
    · split
      · simp [h1]
      · exact keeps_startMigration _ _ _ ((kept_modSvc ..).symm ▸ h1)

@[simp] theorem keeps_roundModify {k₀ : Kept} {s : State} (p : PendSvc) (hk : Keeps strict k₀ s.kept) :
    Keeps strict k₀ (s.roundModify p).kept := by
  unfold State.roundModify
  split
  · simp [hk]
  next v _ =>
    extract_lets n g _ acc v' others grows s1 s2
    have h1 : Keeps strict k₀ s1.kept := by simp [s1, hk]
    have h2 : Keeps strict k₀ s2.kept := by simp [s2, h1]
    split
    · simp [hk]
    · split
      · simp [hk]
      · simp [h2]

@[simp] theorem keeps_rescue {k₀ : Kept} {s : State} (n : Nat) (hk : Keeps strict k₀ s.kept) : Keeps strict k₀ (s.rescue n).kept := by
  unfold State.rescue
  split
  · exact hk
  · split
    · exact hk
    · split
      · split <;> simp [hk]
      · split
        · split <;> simp [hk]
        · extract_lets lost s1 s2
          have h1 : Keeps strict k₀ s1.kept := by simp [s1, hk]
          have h2 : Keeps strict k₀ s2.kept := by simp [s2, h1]
          split <;> simp [h2]

@[simp] theorem keeps_moveToHead {k₀ : Kept} (k : Nat) {s : State} (hk : Keeps strict k₀ s.kept) :
    Keeps strict k₀ (State.moveToHead k s).kept := by
  induction k generalizing s with
  | zero => exact hk
  | succ k ih =>
    unfold State.moveToHead
    dsimp only
    split
    · exact hk
    · split
      · exact hk
      · exact ih (keeps_startMigration _ _ _ hk)

@[simp] theorem keeps_moveToMast {k₀ : Kept} {s : State} (hk : Keeps strict k₀ s.kept) : Keeps strict k₀ s.moveToMast.kept := by
  unfold State.moveToMast
  dsimp only
  repeat' split
  all_goals simp [hk]

@[simp] theorem keeps_parkLoad {k₀ : Kept} (k : Nat) {s : State} (hk : Keeps strict k₀ s.kept) :
    Keeps strict k₀ (State.parkLoad k s).kept := by
  induction k generalizing s with
  | zero => exact hk
  | succ k ih =>
    unfold State.parkLoad
    dsimp only
    split
    · exact hk
    · split
      · exact hk
      · exact ih (keeps_park _ _ hk)

@[simp] theorem keeps_losses {k₀ : Kept} {s : State} (hk : Keeps strict k₀ s.kept) : Keeps strict k₀ s.losses.kept :=
  keeps_parkLoad _ (keeps_moveToHead _ (keeps_foldl _ _ (fun _ n => keeps_rescue n (.refl _)) hk))

@[simp] theorem kept_noteFit (s : State) : s.noteFit.kept = s.kept := by
  unfold State.noteFit
  simp

@[simp] theorem keeps_placementRound {k₀ : Kept} {s : State} (hk : Keeps strict k₀ s.kept) : Keeps strict k₀ s.placementRound.kept := by
  unfold State.placementRound
  extract_lets serve ps _ s1 s2 s3 s4 s5 s6 s7
  have h2 : Keeps strict k₀ s2.kept := keeps_foldl (s := s1) _ _ (fun s p => keeps_roundModify p (.refl _)) hk
  have h3 : Keeps strict k₀ s3.kept := keeps_losses h2
  have h4 : Keeps strict k₀ s4.kept := keeps_foldl _ _ (fun s n => keeps_roundFound serve n (.refl _)) h3
  have h5 : Keeps strict k₀ s5.kept := by
    simp only [s5, kept_ite, keeps_ite]
    exact ⟨fun _ => keeps_foldl _ _ (fun s n => keeps_tryAdmit n _ _ (.refl _)) h4, fun _ => h4⟩
  have h6 : Keeps strict k₀ s6.kept := keeps_foldl _ _ (fun s p => keeps_roundAdd serve p (.refl _)) h5
  have h7 : Keeps strict k₀ s7.kept := by simp [s7, h6]
  simp [h7]

@[simp] theorem kept_zcAdd (s : State) (p : Nat) (g : Prog) (k : ZcKind) : (s.zcAdd p g k).kept = s.kept := (rfl)

@[simp] theorem kept_zcSwitch (s : State) (v : Service) (k : ZcKind) : (s.zcSwitch v k).kept = s.kept := by
  unfold State.zcSwitch
  repeat' split
  all_goals simp

@[simp] theorem keeps_abandonMigration {k₀ : Kept} {s : State} (n : Nat) (hk : Keeps strict k₀ s.kept) :
    Keeps strict k₀ (s.abandonMigration n).kept := by
  unfold State.abandonMigration
  dsimp only
  repeat' split
  all_goals simp [hk]

/-! ### Clocks and coexistence -/

@[simp] theorem keeps_planEvent {k₀ : Kept} {s : State} (proposed : Nat) (reason : Nat) (changeTick : Nat)
    (hk : Keeps strict k₀ s.kept) : Keeps strict k₀ (s.planEvent proposed reason changeTick).kept := by
  unfold State.planEvent
  simp [hk]

@[simp] theorem keeps_dropProposal {k₀ : Kept} {s : State} (hk : Keeps strict k₀ s.kept) : Keeps strict k₀ s.dropProposal.kept := by
  unfold State.dropProposal
  dsimp only
  repeat' split
  all_goals simp [hk]

@[simp] theorem keeps_planRound {k₀ : Kept} {s : State} (hk : Keeps strict k₀ s.kept) : Keeps strict k₀ s.planRound.kept := by
  unfold State.planRound
  dsimp only
  repeat' split
  all_goals simp [hk]

@[simp] theorem keeps_planTick {k₀ : Kept} {s : State} (hk : Keeps strict k₀ s.kept) : Keeps strict k₀ s.planTick.kept := by
  unfold State.planTick
  simp [hk]

@[simp] theorem keeps_planLeave {k₀ : Kept} {s : State} (hk : Keeps strict k₀ s.kept) : Keeps strict k₀ s.planLeave.kept := by
  unfold State.planLeave
  simp [hk]

@[simp] theorem keeps_abandonSplice {k₀ : Kept} {s : State} (n : Nat) (hk : Keeps strict k₀ s.kept) :
    Keeps strict k₀ (s.abandonSplice n).kept := by
  unfold State.abandonSplice
  simp [hk]

@[simp] theorem keeps_abandonRf {k₀ : Kept} {s : State} (hk : Keeps strict k₀ s.kept) : Keeps strict k₀ s.abandonRf.kept := by
  unfold State.abandonRf
  simp [hk]

@[simp] theorem kept_markRf (s : State) (resume : W64) : (s.markRf resume).kept = s.kept := (rfl)

@[simp] theorem keeps_interruptRf {k₀ : Kept} {s : State} (durNs : Nat) (hk : Keeps strict k₀ s.kept) :
    Keeps strict k₀ (s.interruptRf durNs).kept := by
  unfold State.interruptRf
  simp [hk]

@[simp] theorem keeps_lockS {k₀ : Kept} {s : State} (lock : LockRun) (hk : Keeps strict k₀ s.kept) : Keeps strict k₀ (s.lockS lock).kept := by
  unfold State.lockS
  simp [hk]

@[simp] theorem keeps_planChanged {k₀ : Kept} {s : State} (old : Nat) (stop : W64) (resume : W64) (hk : Keeps strict k₀ s.kept) :
    Keeps strict k₀ (s.planChanged old stop resume).kept := by
  unfold State.planChanged
  simp [hk]

@[simp] theorem kept_setPlan (s : State) (p : Nat) : (s.setPlan p).kept = s.kept := (rfl)

@[simp] theorem keeps_planForce {k₀ : Kept} {s : State} (old : PlanPolicyParams) (hk : Keeps strict k₀ s.kept) :
    Keeps strict k₀ (s.planForce old).kept := by
  unfold State.planForce
  simp [hk]

end Sys2Proof.Machine
end

section
/-! PROOFS. Carriers, following, the map, alerts and outputs:
what each operation keeps of the transports and the memories (O59, O60). -/

namespace Sys2Proof.Machine
variable {strict : Bool}

/-! ### Side data -/

@[simp] theorem kept_sideRec (s : State) (f : W16) (stamp : W64) (type : Nat) (check : Bool) (body : List Byte) :
    (s.sideRec f stamp type check body).kept = s.kept := by
  unfold State.sideRec
  simp

@[simp] theorem kept_gapKinds (s : State) (f : W16) (kinds : List Nat) : (s.gapKinds f kinds).kept = s.kept := by
  unfold State.gapKinds
  simp

@[simp] theorem kept_unsettlePcm (s : State) (v : Service) : (s.unsettlePcm v).kept = s.kept := (rfl)

@[simp] theorem kept_interrupted (s : State) (v : Service) : (s.interrupted v).kept = s.kept := by
  rw [State.interrupted, kept_unsettlePcm, kept_gapKinds]

@[simp] theorem kept_layEngines (s : State) (v : Service) : (s.layEngines v).kept = s.kept := by
  unfold State.layEngines
  simp

@[simp] theorem kept_layCarriers (s : State) : s.layCarriers.kept = s.kept := by
  unfold State.layCarriers
  simp

@[simp] theorem kept_setDab (s : State) (key : W64) (p : DabEngine → Bool) (d : DabEngine) :
    (s.setDab key p d).kept = s.kept := (rfl)

@[simp] theorem kept_setTv (s : State) (key : W64) (p : TvEngine → Bool) (d : TvEngine) :
    (s.setTv key p d).kept = s.kept := (rfl)

@[simp] theorem keeps_scopedCmd {s : State} (tbl : List ItemSpec) (applies : Nat → Bool) (force acc : ItemTable)
    (items : List Item)
    (put : ItemTable → State × Answer) (h : ∀ t, Keeps true s.kept (put t).1.kept) :
    Keeps true s.kept (s.scopedCmd tbl applies force acc items put).1.kept := by
  unfold State.scopedCmd
  split
  · exact .refl _
  · exact keeps_itemCmd _ _ _ _ _ _ _ h

/-! ### Carriers -/

@[simp] theorem kept_dabReconfigured (old : DabEngine) (new : DabEngine) (s : State) (v : Service) :
    (State.dabReconfigured old new s v).kept = s.kept := by
  unfold State.dabReconfigured
  simp

@[simp] theorem kept_signalled (s : State) (carrier : W64) (t : TvSignal) : (s.signalled carrier t).kept = s.kept :=
  (kept_foldl _ _ (fun _ _ => kept_sideRec ..) _).trans (kept_foldl _ _ (fun _ _ => kept_modSvc ..) s)

@[simp] theorem kept_tvReconfigured (t : TvSignal) (s : State) (v : Service) : (State.tvReconfigured t s v).kept = s.kept := by
  unfold State.tvReconfigured
  simp

@[simp] theorem kept_tvChanged (s : State) (v : Service) (t : ItemTable) : (s.tvChanged v t).kept = s.kept := by
  unfold State.tvChanged
  simp

/-! ### Analogue engines -/

@[simp] theorem kept_analogueChanged (s : State) (v : Service) (new : SvcSettings) :
    (s.analogueChanged v new).kept = s.kept := by
  unfold State.analogueChanged
  simp

@[simp] theorem kept_modAnalogue (s : State) (slot : Nat) (wait : Nat) (p : Service → Bool) (f : AnalogueSt → AnalogueSt) :
    (s.modAnalogue slot wait p f).kept = s.kept := by
  unfold State.modAnalogue
  repeat' split
  all_goals simp

@[simp] theorem keeps_tcFailed {k₀ : Kept} {s : State} (hk : Keeps strict k₀ s.kept) : Keeps strict k₀ s.tcFailed.kept := by
  unfold State.tcFailed
  simp [hk]

@[simp] theorem keeps_tcDecoded {k₀ : Kept} {s : State} (frameNs : Nat) (label : W64) (stamp : W64) (hk : Keeps strict k₀ s.kept) :
    Keeps strict k₀ (s.tcDecoded frameNs label stamp).kept := by
  unfold State.tcDecoded
  simp [hk]

@[simp] theorem keeps_tcIndicate {k₀ : Kept} {s : State} (slot : Nat) (f : TcFormat) (ms : List Nat) (reason : Nat)
    (label : W64) (stamp : W64) (hk : Keeps strict k₀ s.kept) : Keeps strict k₀ (s.tcIndicate slot f ms reason label stamp).kept := by
  unfold State.tcIndicate
  simp [hk]

/-! ### Pilots -/

@[simp] theorem kept_modAudio (s : State) (p : Nat) (f : AudioSt → AudioSt) : (s.modAudio p f).kept = s.kept := (rfl)

@[simp] theorem kept_repath (s : State) (p : Nat) (g : Prog) : (s.repath p g).kept = s.kept := by
  unfold State.repath
  dsimp only
  repeat' split
  all_goals simp

@[simp] theorem kept_repilot (s : State) (p : Nat) : (s.repilot p).kept = s.kept := by
  unfold State.repilot
  simp

@[simp] theorem kept_repilotAll (s : State) : s.repilotAll.kept = s.kept := kept_foldl _ _ kept_repilot s

/-! ### Following -/

@[simp] theorem kept_raiseDelay (s : State) (v : Service) : (s.raiseDelay v).kept = s.kept := by
  unfold State.raiseDelay
  dsimp only
  repeat' split
  all_goals simp

@[simp] theorem kept_followStart (s : State) (n : Nat) : (s.followStart n).kept = s.kept := by
  unfold State.followStart
  dsimp only
  repeat' split
  all_goals simp

@[simp] theorem kept_followRebuild (s : State) : s.followRebuild.kept = s.kept := by
  unfold State.followRebuild
  refine kept_foldl _ _ (fun s x => ?_) _
  repeat' split
  all_goals simp

@[simp] theorem kept_yieldProbes (s : State) (need : Vec) : (s.yieldProbes need).kept = s.kept := by
  unfold State.yieldProbes
  simp

@[simp] theorem keeps_startSplice {k₀ : Kept} {s : State} (v : Service) (cause : Nat) (c : Candidate) (hk : Keeps strict k₀ s.kept) :
    Keeps strict k₀ (s.startSplice v cause c).kept := by
  unfold State.startSplice
  simp [hk]

@[simp] theorem keeps_followEval {k₀ : Kept} {s : State} (v : Service) (lost : Bool) (hk : Keeps strict k₀ s.kept) :
    Keeps strict k₀ (s.followEval v lost).kept := by
  unfold State.followEval
  dsimp only
  repeat' split
  all_goals simp [hk]

@[simp] theorem keeps_spliceEval {k₀ : Kept} {s : State} (v : Service) (x : Splice) (m : SourceMeas) (hk : Keeps strict k₀ s.kept) :
    Keeps strict k₀ (s.spliceEval v x m).kept := by
  unfold State.spliceEval
  simp [hk]

@[simp] theorem keeps_followTick {k₀ : Kept} {s : State} (ms : List SourceMeas) (hk : Keeps strict k₀ s.kept) :
    Keeps strict k₀ (s.followTick ms).kept := by
  unfold State.followTick
  refine keeps_foldl _ _ (fun s m => ?_) hk
  dsimp only
  split
  · exact .refl _
  · split
    · exact .refl _
    · split
      · exact keeps_followEval _ _ ((kept_modSvc ..).symm ▸ .refl _)
      · exact keeps_spliceEval _ _ _ ((kept_modSvc ..).symm ▸ .refl _)
      · exact (kept_modSvc ..).symm ▸ .refl _

@[simp] theorem keeps_switchEvent {k₀ : Kept} {s : State} (v : Service) (x : Splice) (m : SpliceIn) (delta : Int) (d : Nat)
    (hk : Keeps strict k₀ s.kept) : Keeps strict k₀ (s.switchEvent v x m delta d).kept := by
  unfold State.switchEvent
  simp [hk]

@[simp] theorem kept_markSwitch (s : State) (v : Service) (method : Nat) : (s.markSwitch v method).kept = s.kept := (rfl)

@[simp] theorem keeps_switchSplice {k₀ : Kept} {s : State} (v : Service) (x : Splice) (m : SpliceIn) (hk : Keeps strict k₀ s.kept) :
    Keeps strict k₀ (s.switchSplice v x m).kept := by
  unfold State.switchSplice
  dsimp only
  repeat' split
  all_goals simp [hk]

/-! ### The map -/

@[simp] theorem kept_observe (s : State) (k : W64) : (s.observe k).kept = s.kept := (rfl)

@[simp] theorem kept_setShadow (s : State) (es : List MapEntry) : (s.setShadow es).kept = s.kept := (rfl)

@[simp] theorem kept_upsert (s : State) (e : MapEntry) : (s.upsert e).kept = s.kept := by
  unfold State.upsert
  dsimp only
  repeat' split
  all_goals simp

@[simp] theorem kept_touch (s : State) (key : W64) (f : MapEntry → MapEntry) : (s.touch key f).kept = s.kept := by
  unfold State.touch
  dsimp only
  repeat' split
  all_goals simp

@[simp] theorem kept_listFreqs (s : State) (key : W64) (fs : List Nat) : (s.listFreqs key fs).kept = s.kept := by
  unfold State.listFreqs
  simp

@[simp] theorem kept_relink (s : State) : s.relink.kept = s.kept := (rfl)

@[simp] theorem kept_dropLearned (s : State) : s.dropLearned.kept = s.kept := (rfl)

@[simp] theorem keeps_publishOne {k₀ : Kept} {s : State} (n : Nat) (hk : Keeps strict k₀ s.kept) : Keeps strict k₀ (s.publishOne n).kept := by
  unfold State.publishOne
  dsimp only
  repeat' split
  all_goals simp [hk]

@[simp] theorem kept_recarrier (s : State) : s.recarrier.kept = s.kept := (rfl)

@[simp] theorem keeps_publish {k₀ : Kept} {s : State} (hk : Keeps strict k₀ s.kept) : Keeps strict k₀ s.publish.kept := by
  unfold State.publish
  simp [hk]

@[simp] theorem kept_mapTick (s : State) : s.mapTick.kept = s.kept := by
  unfold State.mapTick
  simp

@[simp] theorem kept_carrierLists (s : State) (carrier : W64) (keys : List W64) :
    (s.carrierLists carrier keys).kept = s.kept := (rfl)

@[simp] theorem kept_probeFor (s : State) (slot : Nat) (key : W64) (p : ProbeOut) : (s.probeFor slot key p).kept = s.kept := by
  unfold State.probeFor
  dsimp only
  repeat' split
  all_goals simp

@[simp] theorem kept_endPass (s : State) : s.endPass.kept = s.kept := (rfl)

/-! ### Alerts -/

@[simp] theorem keeps_sayAlert {k₀ : Kept} {s : State} (a : Alert) (state : Nat) (stamp : W64) (sig : List Byte)
    (hk : Keeps strict k₀ s.kept) : Keeps strict k₀ (s.sayAlert a state stamp sig).kept := by
  unfold State.sayAlert
  simp [hk]

@[simp] theorem kept_routeSwitch (s : State) (v : Service) : (s.routeSwitch v).kept = s.kept := by
  unfold State.routeSwitch
  repeat' split
  all_goals simp

@[simp] theorem kept_endRouting (s : State) (n : Nat) : (s.endRouting n).kept = s.kept := by
  unfold State.endRouting
  dsimp only
  repeat' split
  all_goals simp

@[simp] theorem kept_startRouting (s : State) (v : Service) (r : Routing) : (s.startRouting v r).kept = s.kept := by
  unfold State.startRouting
  simp

@[simp] theorem kept_spend (s : State) (a : Alert) (n : Nat) : (s.spend a n).kept = s.kept := (rfl)

@[simp] theorem keeps_tryRoute {k₀ : Kept} {s : State} (a : Alert) (n : Nat) (hk : Keeps strict k₀ s.kept) :
    Keeps strict k₀ (s.tryRoute a n).kept := by
  unfold State.tryRoute
  dsimp only
  repeat' split
  all_goals simp [hk]

@[simp] theorem keeps_routeAll {k₀ : Kept} {s : State} (hk : Keeps strict k₀ s.kept) : Keeps strict k₀ s.routeAll.kept := by
  unfold State.routeAll
  refine keeps_foldl _ _ (fun s x => ?_) hk
  simp

@[simp] theorem kept_endRoutes (s : State) : s.endRoutes.kept = s.kept := by
  unfold State.endRoutes
  refine kept_foldl _ _ (fun s x => ?_) _
  repeat' split
  all_goals simp

@[simp] theorem keeps_alertOn {k₀ : Kept} {s : State} (a : Alert) (stamp : W64) (sig : List Byte) (hk : Keeps strict k₀ s.kept) :
    Keeps strict k₀ (s.alertOn a stamp sig).kept := by
  unfold State.alertOn
  dsimp only
  repeat' split
  all_goals simp [hk]

@[simp] theorem keeps_alertOff {k₀ : Kept} {s : State} (p : Alert → Bool) (stamp : W64) (sig : List Byte)
    (hk : Keeps strict k₀ s.kept) : Keeps strict k₀ (s.alertOff p stamp sig).kept := by
  unfold State.alertOff
  simp [hk]

@[simp] theorem keeps_alertTick {k₀ : Kept} {s : State} (hk : Keeps strict k₀ s.kept) : Keeps strict k₀ s.alertTick.kept := by
  unfold State.alertTick
  simp [hk]

/-! ### Broadcast signalling -/

@[simp] theorem kept_parsedLevel (s : State) (carrier : W64) : (s.parsedLevel carrier).1.kept = s.kept := by
  unfold State.parsedLevel
  dsimp only
  repeat' split
  all_goals simp

@[simp] theorem kept_parsed (s : State) (key : W64) (carrier : W64) (khz : Nat) (input : Nat) (f : MapEntry → MapEntry) :
    (s.parsed key carrier khz input f).kept = s.kept := by
  unfold State.parsed
  dsimp only
  repeat' split
  all_goals simp

@[simp] theorem kept_rekey (s : State) (old : W64) (new : W64) : (s.rekey old new).kept = s.kept := by
  unfold State.rekey
  dsimp only
  repeat' split
  all_goals simp

@[simp] theorem kept_setRds (s : State) (r : RdsParse) : (s.setRds r).kept = s.kept := (rfl)

@[simp] theorem keeps_rdsAlerts {k₀ : Kept} {s : State} (r : RdsParse) (key : W64) (khz : Nat) (g : RdsGroup)
    (hk : Keeps strict k₀ s.kept) : Keeps strict k₀ (s.rdsAlerts r key khz g).kept := by
  unfold State.rdsAlerts
  simp [hk]

@[simp] theorem keeps_rdsGroup0 {k₀ : Kept} {s : State} (v : Service) (x : RdsB) (g : RdsGroup) (hk : Keeps strict k₀ s.kept) :
    Keeps strict k₀ (s.rdsGroup0 v x g).kept := by
  unfold State.rdsGroup0
  simp [hk]

@[simp] theorem kept_rdsGroup1 (s : State) (v : Service) (x : RdsB) (g : RdsGroup) : (s.rdsGroup1 v x g).kept = s.kept := by
  unfold State.rdsGroup1
  simp

@[simp] theorem kept_rdsGroup14A (s : State) (v : Service) (x : RdsB) (g : RdsGroup) : (s.rdsGroup14A v x g).kept = s.kept := by
  unfold State.rdsGroup14A
  dsimp only
  repeat' split
  all_goals simp

@[simp] theorem keeps_rdsGroup14B {k₀ : Kept} {s : State} (v : Service) (x : RdsB) (g : RdsGroup) (hk : Keeps strict k₀ s.kept) :
    Keeps strict k₀ (s.rdsGroup14B v x g).kept := by
  unfold State.rdsGroup14B
  simp [hk]

@[simp] theorem keeps_rdsParse {k₀ : Kept} {s : State} (v : Service) (g : RdsGroup) (hk : Keeps strict k₀ s.kept) :
    Keeps strict k₀ (s.rdsParse v g).kept := by
  unfold State.rdsParse
  dsimp only
  repeat' split
  all_goals simp [hk]

@[simp] theorem kept_dabServices (s : State) (c : CarrierSt) (d : DabEngine) : (s.dabServices c d).kept = s.kept := by
  unfold State.dabServices
  simp

@[simp] theorem kept_dabEcc (s : State) (c : CarrierSt) (ecc : Nat) : (s.dabEcc c ecc).kept = s.kept := by
  unfold State.dabEcc
  simp

@[simp] theorem kept_learnLink (s : State) (active : Bool) (keys : List W64) : (s.learnLink active keys).kept = s.kept := by
  unfold State.learnLink
  dsimp only
  repeat' split
  all_goals simp

@[simp] theorem keeps_fig019 {k₀ : Kept} {s : State} (c : CarrierSt) (cluster : Nat) (asw : W16) (subCh : Nat) (stamp : W64)
    (hk : Keeps strict k₀ s.kept) : Keeps strict k₀ (s.fig019 c cluster asw subCh stamp).kept := by
  unfold State.fig019
  simp [hk]

@[simp] theorem kept_dabTouch (s : State) (c : CarrierSt) (sid : W32) (f : MapEntry → MapEntry) :
    (s.dabTouch c sid f).kept = s.kept := by
  unfold State.dabTouch
  simp

@[simp] theorem keeps_figParse {k₀ : Kept} {s : State} (c : CarrierSt) (stamp : W64) (x : FigItem) (hk : Keeps strict k₀ s.kept) :
    Keeps strict k₀ (State.figParse c stamp s x).kept := by
  unfold State.figParse
  dsimp only
  repeat' split
  all_goals simp [hk]

@[simp] theorem kept_siServices (s : State) (c : CarrierSt) (carrier : W64) (other : Bool) (keyOf : Nat → W64)
    (xs : List SiService) :
    (s.siServices c carrier other keyOf xs).kept = s.kept := by
  unfold State.siServices
  extract_lets khz signal one
  have hone : ∀ s x, (one s x).kept = s.kept := fun s x => by
    simp only [one]
    repeat' split
    all_goals simp
  split
  · rfl
  · exact kept_foldl _ _ hone s

@[simp] theorem keeps_learnLeap {k₀ : Kept} {s : State} (dt : W64) (deleted : Bool) (l : W16) (hk : Keeps strict k₀ s.kept) :
    Keeps strict k₀ (s.learnLeap dt deleted l).kept := by
  unfold State.learnLeap
  dsimp only
  repeat' split
  all_goals simp [hk]

@[simp] theorem keeps_secParse {k₀ : Kept} {s : State} (c : CarrierSt) (x : SectionIn) (hk : Keeps strict k₀ s.kept) :
    Keeps strict k₀ (s.secParse c x).kept := by
  unfold State.secParse
  dsimp only
  repeat' split
  all_goals simp [hk]

/-! ### Streams, rings and the archive -/

@[simp] theorem kept_modRing (s : State) (r : Nat) (f : RingSt → RingSt) : (s.modRing r f).kept = s.kept := (rfl)

@[simp] theorem kept_readConsumer (s : State) (r : Nat) : (s.readConsumer r).kept = s.kept := by
  unfold State.readConsumer
  simp

@[simp] theorem kept_readConsumers (s : State) : s.readConsumers.kept = s.kept := kept_foldl _ _ kept_readConsumer s

@[simp] theorem kept_signalRing (s : State) (r : Nat) : (s.signalRing r).kept = s.kept := by
  unfold State.signalRing
  simp

@[simp] theorem keeps_ringForce {k₀ : Kept} {s : State} (old : Settings) (hk : Keeps strict k₀ s.kept) :
    Keeps strict k₀ (s.ringForce old).kept := by
  unfold State.ringForce
  simp [hk]

@[simp] theorem kept_ringAuto (s : State) : s.ringAuto.kept = s.kept := by
  unfold State.ringAuto
  refine kept_foldl _ _ (fun s x => ?_) _
  repeat' split
  all_goals simp

@[simp] theorem kept_issueTag (s : State) (t : Nat) : (s.issueTag t).kept = s.kept := (rfl)

@[simp] theorem keeps_archiveLow {k₀ : Kept} {s : State} (hk : Keeps strict k₀ s.kept) : Keeps strict k₀ s.archiveLow.kept := by
  unfold State.archiveLow
  simp [hk]

@[simp] theorem kept_retireChunks (s : State) (old : Nat) (new : Nat) : (s.retireChunks old new).kept = s.kept := by
  unfold State.retireChunks
  simp

@[simp] theorem keeps_newChunk {k₀ : Kept} {s : State} (n fuel : Nat) (hk : Keeps strict k₀ s.kept) :
    Keeps strict k₀ (s.newChunk n fuel).1.kept := by
  induction fuel generalizing s with
  | zero => exact hk
  | succ fuel ih =>
    unfold State.newChunk
    split
    · exact hk
    next a c _ =>
      have hlow : Keeps strict k₀ (({ s with archive := a }).retireChunks s.archive.epoch a.epoch).archiveLow.kept := by simp [hk]
      dsimp only
      split
      · exact hlow
      · exact ih hlow

@[simp] theorem keeps_archivePlace {k₀ : Kept} {s : State} (x : Stream) (n : Nat) (hk : Keeps strict k₀ s.kept) :
    Keeps strict k₀ (s.archivePlace x n).1.kept := by
  unfold State.archivePlace
  extract_lets fits r
  have hr : Keeps strict k₀ r.1.kept := by
    clear_value fits
    cases fits with
    | none => exact keeps_newChunk n _ hk
    | some c => exact hk
  clear_value r
  obtain ⟨t, _ | c⟩ := r
  · dsimp only
    split
    · exact hr
    · exact keeps_raise _ _ _ hr
  · exact (kept_modStream ..).symm ▸ hr

@[simp] theorem keeps_ringPut {k₀ : Kept} {s : State} (r tag : Nat) (slot : W16) (bytes : List Byte) (hk : Keeps strict k₀ s.kept) :
    Keeps strict k₀ (s.ringPut r tag slot bytes).kept := by
  unfold State.ringPut
  extract_lets t base size n p₀ s1 p pad s2 s3 q s4 x s5
  have h1 : Keeps strict k₀ s1.kept := by simp [s1, hk]
  have h2 : Keeps strict k₀ s2.kept := keeps_hostWrite _ _ h1
  have h3 : Keeps strict k₀ s3.kept := h2
  have h4 : Keeps strict k₀ s4.kept := by simp [s4, h3]
  have h5 : Keeps strict k₀ s5.kept := keeps_hostWrite _ _ h4
  split
  · simp [h5]
  · split <;> simp [h5]

@[simp] theorem kept_ringRoom (s : State) (r : Nat) (len : Nat) : (s.ringRoom r len).1.kept = s.kept := by
  unfold State.ringRoom
  dsimp only
  repeat' split
  all_goals simp

@[simp] theorem kept_toPkt (s : State) (p : Nat) (u : OutUnit) : (s.toPkt p u).kept = s.kept := by
  unfold State.toPkt
  simp

@[simp] theorem kept_pktTick (s : State) : s.pktTick.kept = s.kept := (rfl)

@[simp] theorem kept_countRaw (s : State) (v : Service) (c : Content) : (s.countRaw v c).kept = s.kept := by
  unfold State.countRaw
  dsimp only
  repeat' split
  all_goals simp

@[simp] theorem kept_unitDone (s : State) (v : Service) (x : Stream) (u : UnitIn) : (s.unitDone v x u).kept = s.kept := by
  unfold State.unitDone
  simp

@[simp] theorem kept_closeStream (s : State) (u : OutUnit) : (s.closeStream u).kept = s.kept := by
  unfold State.closeStream
  simp

@[simp] theorem kept_noteIndex (s : State) (u : OutUnit) (archive : Nat) (seq : Nat) (bytes : Nat) :
    (s.noteIndex u archive seq bytes).kept = s.kept := (rfl)

@[simp] theorem keeps_writeRecord {k₀ : Kept} {s : State} (r : Nat) (tag : Nat) (x : Stream) (u : OutUnit)
    (hk : Keeps strict k₀ s.kept) : Keeps strict k₀ (s.writeRecord r tag x u).kept := by
  unfold State.writeRecord
  dsimp only
  repeat' split
  all_goals simp [hk]

@[simp] theorem kept_canLeave (s : State) (x : Stream) (u : OutUnit) : (s.canLeave x u).1.kept = s.kept := by
  unfold State.canLeave
  dsimp only
  repeat' split
  all_goals simp

@[simp] theorem keeps_unitLeaves {k₀ : Kept} {s : State} (x : Stream) (u : OutUnit) (hk : Keeps strict k₀ s.kept) :
    Keeps strict k₀ (s.unitLeaves x u).kept := by
  unfold State.unitLeaves
  dsimp only
  repeat' split
  all_goals simp [hk]

@[simp] theorem keeps_collect {k₀ : Kept} {s : State} (xs : List Stream) (hk : Keeps strict k₀ s.kept) :
    Keeps strict k₀ (s.collect xs).kept := by
  induction xs generalizing s with
  | nil => exact hk
  | cons x xs ih =>
    unfold State.collect
    split
    · exact ih hk
    next u _ =>
      have hc : Keeps strict k₀ (s.canLeave x u).1.kept := (kept_canLeave ..).symm ▸ hk
      split <;> (rename_i heq; rw [heq] at hc)
      · exact ih hc
      · exact (kept_modStream ..).symm ▸ keeps_unitLeaves x u hc

@[simp] theorem kept_statStart (s : State) (n : Nat) : (s.statStart n).kept = s.kept := by
  unfold State.statStart
  dsimp only
  repeat' split
  all_goals simp

/-! ### Audio ports -/

@[simp] theorem kept_modProg (s : State) (p : Nat) (f : W16) (k : Prog → Prog) : (s.modProg p f k).kept = s.kept := (rfl)

@[simp] theorem kept_setDelay (s : State) (p : Nat) (g : Prog) : (s.setDelay p g).kept = s.kept := by
  unfold State.setDelay
  dsimp only
  repeat' split
  all_goals simp

@[simp] theorem kept_raiseQ (s : State) (p : Nat) : (s.raiseQ p).kept = s.kept := by
  unfold State.raiseQ
  dsimp only
  split
  · rfl
  · refine (kept_foldl _ _ (fun s g => ?_) _).trans (kept_modAudio ..)
    repeat' split
    all_goals simp

@[simp] theorem kept_startPort (s : State) (p : Nat) (firstFrame : W64) : (s.startPort p firstFrame).kept = s.kept := by
  unfold State.startPort
  simp

@[simp] theorem kept_portStopped (s : State) (p : Nat) : (s.portStopped p).kept = s.kept := (rfl)

@[simp] theorem kept_stopDone (s : State) (p : Nat) : (s.stopDone p).kept = s.kept := by
  unfold State.stopDone
  simp

@[simp] theorem kept_stopPort (s : State) (p : Nat) : (s.stopPort p).kept = s.kept := by
  unfold State.stopPort
  simp

@[simp] theorem kept_stopPorts (s : State) : s.stopPorts.kept = s.kept := by
  unfold State.stopPorts
  simp

@[simp] theorem kept_edgeFrame (s : State) (p : Nat) : (s.edgeFrame p).1.kept = s.kept := (rfl)

@[simp] theorem kept_dropProg (s : State) (p : Nat) (f : W16) : (s.dropProg p f).kept = s.kept := (rfl)

@[simp] theorem kept_changeDone (s : State) (p : Nat) (g : Prog) (k : ZcKind) : (s.changeDone p g k).kept = s.kept := by
  unfold State.changeDone
  dsimp only
  repeat' split
  all_goals simp

@[simp] theorem kept_crossChannel (s : State) (p : Nat) (ch : Nat) : (s.crossChannel p ch).kept = s.kept := by
  unfold State.crossChannel
  dsimp only
  repeat' split
  all_goals simp

@[simp] theorem keeps_portEvent {k₀ : Kept} {s : State} (p : Nat) (slot : W16) (portSlot : Nat) (kind : Nat) (cause : Nat)
    (silentUs : Nat) (hk : Keeps strict k₀ s.kept) : Keeps strict k₀ (s.portEvent p slot portSlot kind cause silentUs).kept := by
  unfold State.portEvent
  simp [hk]

@[simp] theorem kept_armTick (s : State) (p : Nat) : (s.armTick p).kept = s.kept := by
  unfold State.armTick
  dsimp only
  repeat' split
  all_goals simp

@[simp] theorem kept_steerTick (s : State) (p : Nat) (errs : List (Nat × Int)) : (s.steerTick p errs).kept = s.kept := by
  unfold State.steerTick
  dsimp only
  repeat' split
  all_goals simp

@[simp] theorem kept_progTick (s : State) (p : Nat) (g : Prog) : (s.progTick p g).kept = s.kept := by
  unfold State.progTick
  simp

@[simp] theorem kept_audioTick (s : State) (errs : List (Nat × Int)) : (s.audioTick errs).kept = s.kept := by
  unfold State.audioTick
  refine kept_foldl _ _ (fun s p => ?_) s
  extract_lets s1 s2 s3
  have h3 : s3.kept = s.kept := by
    simp only [s3, s2, s1]
    split <;> simp
  exact (kept_foldl _ _ (fun s g => by simp) _).trans h3

@[simp] theorem kept_playUnit (s : State) (p : Nat) (g : Prog) (v : Service) (stamp : W64) (xs : List (BitVec 24)) :
    (s.playUnit p g v stamp xs).kept = s.kept := (rfl)

@[simp] theorem kept_audioUnit (s : State) (v : Service) (u : UnitIn) (settled : Bool) :
    (s.audioUnit v u settled).kept = s.kept := by
  unfold State.audioUnit
  dsimp only
  repeat' split
  all_goals simp

end Sys2Proof.Machine
end

section
/-! PROOFS. The trunk, calibration, decoding, the journal, images and power:
what each operation keeps of the transports and the memories (O59, O60). -/

namespace Sys2Proof.Machine
variable {strict : Bool}

/-! ### The trunk -/

@[simp] theorem kept_modTrunk (s : State) (f : TrunkSt → TrunkSt) : (s.modTrunk f).kept = s.kept := (rfl)

@[simp] theorem kept_modTx (s : State) (f : DirSt → DirSt) : (s.modTx f).kept = s.kept := (rfl)

@[simp] theorem kept_modRx (s : State) (f : DirSt → DirSt) : (s.modRx f).kept = s.kept := (rfl)

@[simp] theorem kept_modSpace (s : State) (ctrl : Bool) (f : SpaceSt → SpaceSt) : (s.modSpace ctrl f).kept = s.kept := (rfl)

@[simp] theorem kept_sendLoading (s : State) (t : LoadTable) (frame : Nat) : (s.sendLoading t frame).kept = s.kept := (rfl)

@[simp] theorem kept_switchFrame (s : State) : (s.switchFrame).1.kept = s.kept := (rfl)

@[simp] theorem kept_sendMask (s : State) (gen : W16) (values : List Byte) (frame : Nat) :
    (s.sendMask gen values frame).kept = s.kept := by
  unfold State.sendMask
  simp

@[simp] theorem kept_newMask (s : State) (values : List Byte) : (s.newMask values).kept = s.kept := by
  unfold State.newMask
  simp

@[simp] theorem kept_maskRound (s : State) : s.maskRound.kept = s.kept := by
  unfold State.maskRound
  simp

@[simp] theorem kept_maskFrame (s : State) : s.maskFrame.kept = s.kept := by
  unfold State.maskFrame
  repeat' split
  all_goals simp

@[simp] theorem keeps_trunkLostEvent {k₀ : Kept} {s : State} (reason : Nat) (hk : Keeps strict k₀ s.kept) :
    Keeps strict k₀ (s.trunkLostEvent reason).kept := by
  unfold State.trunkLostEvent
  simp [hk]

@[simp] theorem keeps_trunkUpEvent {k₀ : Kept} {s : State} (hk : Keeps strict k₀ s.kept) : Keeps strict k₀ s.trunkUpEvent.kept := by
  unfold State.trunkUpEvent
  simp [hk]

@[simp] theorem kept_relayLeave (s : State) (cause : Nat) : (s.relayLeave cause).kept = s.kept := by
  unfold State.relayLeave
  simp

@[simp] theorem kept_relayReturn (s : State) : s.relayReturn.kept = s.kept := by
  unfold State.relayReturn
  simp

@[simp] theorem keeps_enterSearch {k₀ : Kept} {s : State} (hk : Keeps strict k₀ s.kept) : Keeps strict k₀ s.enterSearch.kept := by
  unfold State.enterSearch
  simp [hk]

@[simp] theorem kept_queueRemotes (s : State) : s.queueRemotes.kept = s.kept := by
  unfold State.queueRemotes
  simp

@[simp] theorem kept_enterControl (s : State) : s.enterControl.kept = s.kept := by
  unfold State.enterControl
  dsimp only
  repeat' split
  all_goals simp

@[simp] theorem keeps_enterData {k₀ : Kept} {s : State} (hk : Keeps strict k₀ s.kept) : Keeps strict k₀ s.enterData.kept := by
  unfold State.enterData
  simp [hk]

@[simp] theorem keeps_dropRemote {k₀ : Kept} {s : State} (r : Remote) (hk : Keeps strict k₀ s.kept) :
    Keeps strict k₀ (s.dropRemote r).kept := by
  unfold State.dropRemote
  simp [hk]

@[simp] theorem keeps_enterIdle {k₀ : Kept} {s : State} (st : LinkState) (hk : Keeps strict k₀ s.kept) :
    Keeps strict k₀ (s.enterIdle st).kept := by
  unfold State.enterIdle
  simp [hk]

@[simp] theorem kept_noteEnds (s : State) (ctrl : Bool) (room : Nat) (next : Nat) (ends : List (Nat × Nat)) :
    (s.noteEnds ctrl room next ends).kept = s.kept := by
  unfold State.noteEnds
  simp

@[simp] theorem kept_sendPart (s : State) (ctrl : Bool) (rate : Nat) (n : Nat) : (s.sendPart ctrl rate n).kept = s.kept := by
  unfold State.sendPart
  simp

@[simp] theorem kept_receivePart (s : State) (rx : List RxCodeword) : (s.receivePart rx).kept = s.kept := by
  unfold State.receivePart
  simp

@[simp] theorem kept_frameMeasures (s : State) (f : TrunkFrameIn) : (s.frameMeasures f).kept = s.kept := by
  unfold State.frameMeasures
  dsimp only
  repeat' split
  all_goals simp

@[simp] theorem keeps_tableFrame {k₀ : Kept} {s : State} (hk : Keeps strict k₀ s.kept) : Keeps strict k₀ s.tableFrame.kept := by
  unfold State.tableFrame
  dsimp only
  repeat' split
  all_goals simp [hk]

@[simp] theorem keeps_takeReplies {a : Kept} (n : Nat) {s : State} (hk : Keeps strict a s.kept) :
    Keeps strict a (State.takeReplies n s).kept := by
  induction n generalizing s with
  | zero => exact hk
  | succ n ih =>
    unfold State.takeReplies
    split
    · exact hk
    · split
      · exact hk
      next e rest _ _ _ _ =>
        have hdrop : Keeps strict a ({ s with pTrunk := { s.pTrunk with outbox := rest } } : State).kept :=
          keeps_dropReply .trunk rest hk
        refine ih ?_
        split
        · exact hdrop
        · exact hdrop

@[simp] theorem keeps_takeOutgoing {a : Kept} {s : State} (hk : Keeps strict a s.kept) : Keeps strict a s.takeOutgoing.kept := by
  unfold State.takeOutgoing
  split
  · exact hk
  · refine keeps_foldl _ _ (fun s x => by simp) (keeps_setPort .trunk (fun hb => ?_) (fun _ => rfl) (keeps_takeReplies _ hk))
    simp only [Port.bounded, Bool.and_eq_true, decide_eq_true_eq] at hb ⊢
    exact ⟨hb.1, Nat.zero_le _⟩

@[simp] theorem kept_framePackets (s : State) (f : TrunkFrameIn) : (s.framePackets f).kept = s.kept := by
  unfold State.framePackets
  simp

@[simp] theorem kept_sendBurst (s : State) : s.sendBurst.kept = s.kept := by
  unfold State.sendBurst
  simp

@[simp] theorem kept_partnerHears (s : State) : s.partnerHears.kept = s.kept := by
  unfold State.partnerHears
  simp

/-! ### Trunk packets -/

@[simp] theorem kept_sleepNow (s : State) : s.sleepNow.kept = s.kept := (rfl)

@[simp] theorem kept_askCall (s : State) : s.askCall.kept = s.kept := by
  unfold State.askCall
  split <;> rfl

@[simp] theorem kept_sendCall (s : State) (type : Nat) : (s.sendCall type).kept = s.kept := (rfl)

@[simp] theorem kept_nextCall (s : State) : (s.nextCall).1.kept = s.kept := (rfl)

@[simp] theorem keeps_trunkForce {k₀ : Kept} {s : State} (old : Settings) (hk : Keeps strict k₀ s.kept) :
    Keeps strict k₀ (s.trunkForce old).kept := by
  unfold State.trunkForce
  simp [hk]

@[simp] theorem kept_trunkTick (s : State) : s.trunkTick.kept = s.kept := by
  unfold State.trunkTick
  dsimp only
  repeat' split
  all_goals simp

/-! ### Calibration -/

@[simp] theorem kept_modCal (s : State) (f : CalSt → CalSt) : (s.modCal f).kept = s.kept := (rfl)

@[simp] theorem kept_modAdc (s : State) (i : Nat) (f : AdcCal → AdcCal) : (s.modAdc i f).kept = s.kept := (rfl)

@[simp] theorem kept_modFlat (s : State) (i : Nat) (f : FlatCal → FlatCal) : (s.modFlat i f).kept = s.kept := (rfl)

@[simp] theorem keeps_calEvent {k₀ : Kept} {s : State} (block : Nat) (target : Nat) (outcome : Nat) (q : Int) (q2 : Int)
    (hk : Keeps strict k₀ s.kept) : Keeps strict k₀ (s.calEvent block target outcome q q2).kept := by
  unfold State.calEvent
  simp [hk]

@[simp] theorem kept_journalRetired (s : State) (adc : Nat) (m : W32) : (s.journalRetired adc m).kept = s.kept := by
  unfold State.journalRetired
  simp

@[simp] theorem keeps_retireSlice {k₀ : Kept} {s : State} (adc : Nat) (sl : Nat) (q : Int) (q2 : Int) (hk : Keeps strict k₀ s.kept) :
    Keeps strict k₀ (s.retireSlice adc sl q q2).kept := by
  unfold State.retireSlice
  simp [hk]

@[simp] theorem keeps_estimateSlice {k₀ : Kept} {s : State} (adc : Nat) (q : Int) (q2 : Int) (e : Nat × Int × Int × Int)
    (hk : Keeps strict k₀ s.kept) : Keeps strict k₀ (s.estimateSlice adc q q2 e).kept := by
  unfold State.estimateSlice
  simp [hk]

@[simp] theorem keeps_measureSlice {k₀ : Kept} {s : State} (adc : Nat) (plan : Nat) (q : Int × Int)
    (e : Nat × Nat × List (Int × Int × Int)) (hk : Keeps strict k₀ s.kept) : Keeps strict k₀ (s.measureSlice adc plan q e).kept := by
  unfold State.measureSlice
  simp [hk]

@[simp] theorem keeps_measureAdc {k₀ : Kept} {s : State} (c : StartCal) (adc plan : Nat) (hk : Keeps strict k₀ s.kept) :
    Keeps strict k₀ (s.measureAdc c adc plan).kept := by
  unfold State.measureAdc
  extract_lets q s1 s2
  have h1 : Keeps strict k₀ s1.kept := keeps_foldl _ _ (fun s x => by simp) hk
  have h2 : Keeps strict k₀ s2.kept := by simp [s2, h1]
  split
  · simp [hk]
  · simp [h2]

@[simp] theorem keeps_measureFlat {k₀ : Kept} {s : State} (c : StartCal) (i : Nat) (hk : Keeps strict k₀ s.kept) :
    Keeps strict k₀ (s.measureFlat c i).kept := by
  unfold State.measureFlat
  simp [hk]

@[simp] theorem keeps_measureClocks {k₀ : Kept} {s : State} (c : StartCal) (keep : Bool) (hk : Keeps strict k₀ s.kept) :
    Keeps strict k₀ (s.measureClocks c keep).kept := by
  unfold State.measureClocks
  simp [hk]

@[simp] theorem keeps_startCal {k₀ : Kept} {s : State} (c : StartCal) (hk : Keeps strict k₀ s.kept) :
    Keeps strict k₀ (s.startCal c).kept := by
  unfold State.startCal
  extract_lets s1 skip k flat s2 s3 s4 s5
  have h1 : Keeps strict k₀ s1.kept := by simp [s1, hk]
  have h2 : Keeps strict k₀ s2.kept := by simp [s2, h1]
  have h3 : Keeps strict k₀ s3.kept := by simp [s3, h2]
  have h4 : Keeps strict k₀ s4.kept := by
    simp only [s4, kept_ite, keeps_ite]
    exact ⟨fun _ => keeps_foldl _ _ (fun s i => keeps_measureFlat _ _ (.refl _)) h3, fun _ => h3⟩
  have h5 : Keeps strict k₀ s5.kept := by simp [s5, h4]
  simp [h5]

@[simp] theorem keeps_calResults {k₀ : Kept} {s : State} (rs : List StartCal) (hk : Keeps strict k₀ s.kept) :
    Keeps strict k₀ (s.calResults rs).kept := by
  unfold State.calResults
  split
  · exact hk
  next j _ =>
    split
    · exact hk
    · rw [kept_modCal]
      refine keeps_foldl _ _ (fun s x => ?_) hk
      dsimp only
      split
      · exact keeps_foldl _ _ (fun s i => keeps_measureAdc _ _ _ (.refl _)) (.refl _)
      · split
        · exact keeps_foldl _ _ (fun s i => keeps_measureFlat _ _ (.refl _)) (.refl _)
        · simp

@[simp] theorem kept_putBlock (s : State) (b : CalBlock) : (s.putBlock b).kept = s.kept := by
  unfold State.putBlock
  simp

/-! ### LDPC decoding -/

@[simp] theorem keeps_overrun {k₀ : Kept} {s : State} (cls : Nat) (tiles : Nat) (slots : List Nat) (hk : Keeps strict k₀ s.kept) :
    Keeps strict k₀ (s.overrun cls tiles slots).kept := by
  unfold State.overrun
  simp [hk]

@[simp] theorem kept_gapSlots (s : State) (slots : List Nat) : (s.gapSlots slots).kept = s.kept := by
  unfold State.gapSlots
  simp

@[simp] theorem kept_ldpcPace (s : State) (batches : List CwBatch) : (s.ldpcPace batches).kept = s.kept := by
  unfold State.ldpcPace
  simp

@[simp] theorem keeps_ldpcBandTick {k₀ : Kept} {s : State} (left : Nat) (b : Nat) (hk : Keeps strict k₀ s.kept) :
    Keeps strict k₀ (s.ldpcBandTick left b).1.kept := by
  unfold State.ldpcBandTick
  dsimp only
  repeat' split
  all_goals simp [hk]

/-- A fold whose state carries a value beside it. -/
theorem keeps_foldl_fst {α β : Type} {k₀ : Kept} {x : State × β} (f : State × β → α → State × β) (l : List α)
    (hf : ∀ x a, Keeps strict x.1.kept (f x a).1.kept) (h : Keeps strict k₀ x.1.kept) : Keeps strict k₀ (l.foldl f x).1.kept := by
  induction l generalizing x with
  | nil => exact h
  | cons a l ih => exact ih (h.trans (hf x a))

@[simp] theorem keeps_ldpcTick {k₀ : Kept} {s : State} (batches : List CwBatch) (hk : Keeps strict k₀ s.kept) :
    Keeps strict k₀ (s.ldpcTick batches).kept := by
  unfold State.ldpcTick
  extract_lets t left run
  have ht : Keeps strict k₀ t.kept := by simp [t, hk]
  have hrun : Keeps strict k₀ run.1.kept := keeps_foldl_fst _ _ (fun x b => keeps_ldpcBandTick _ _ (.refl _)) ht
  simpa only [kept_mk, kept_eta] using hrun

/-! ### The journal -/

@[simp] theorem keeps_nvEvent {k₀ : Kept} {s : State} (hk : Keeps strict k₀ s.kept) : Keeps strict k₀ s.nvEvent.kept := by
  unfold State.nvEvent
  simp [hk]

@[simp] theorem keeps_writeGroup {k₀ : Kept} {s : State} (c : CommitIn) (hk : Keeps strict k₀ s.kept) :
    Keeps strict k₀ (s.writeGroup c).kept := by
  unfold State.writeGroup
  simp [hk]

@[simp] theorem keeps_writeSystem {k₀ : Kept} {s : State} (f : SysRecord → SysRecord) (hk : Keeps strict k₀ s.kept) :
    Keeps strict k₀ (s.writeSystem f).kept := by
  unfold State.writeSystem
  simp [hk]

@[simp] theorem kept_resetGroup (s : State) (g : Nat) : (s.resetGroup g).kept = s.kept := by
  unfold State.resetGroup
  simp

/-! ### Images -/

@[simp] theorem kept_modSlot (s : State) (i : Nat) (f : ImgSlot → ImgSlot) : (s.modSlot i f).kept = s.kept := by
  unfold State.modSlot
  dsimp only
  repeat' split
  all_goals simp

@[simp] theorem keeps_imageEvent {k₀ : Kept} {s : State} (i : Nat) (reason : Nat) (hk : Keeps strict k₀ s.kept) :
    Keeps strict k₀ (s.imageEvent i reason).kept := by
  unfold State.imageEvent
  simp [hk]

@[simp] theorem keeps_imgBegin {a : Kept} {s : State} (o : ImgOwner) (i len : Nat) (seq : Byte) (hk : Keeps strict a s.kept) :
    Keeps strict a (s.imgBegin o i len seq).1.kept := by
  unfold State.imgBegin
  dsimp only
  repeat' split
  all_goals try exact hk
  exact keeps_imageEvent _ _ ((kept_modSlot ..).symm ▸ keeps_flashMem (Memory.wf_clear _ _ _ _) hk)

@[simp] theorem keeps_imgRefuse {k₀ : Kept} {s : State} (i : Nat) (reason : Nat) (drop : Bool) (hk : Keeps strict k₀ s.kept) :
    Keeps strict k₀ (s.imgRefuse i reason drop).kept := by
  unfold State.imgRefuse
  simp [hk]

/-- Sectors erased one after another keep the canonical form. -/
theorem wf_clears (f : Nat → Nat) (n : Nat → Nat) (c : Nat → Prop) [DecidablePred c] (l : List Nat) (m : Memory)
    (hm : Memory.wf flashDefault m = true) :
    Memory.wf flashDefault (l.foldl (fun m k => if c k then m else Memory.clear m (f k) (n k)) m) = true := by
  induction l generalizing m with
  | nil => exact hm
  | cons k l ih =>
    refine ih _ ?_
    dsimp only
    split
    · exact hm
    · exact Memory.wf_clear _ _ _ _ hm

@[simp] theorem keeps_imgProgram {a : Kept} {s : State} (i off : Nat) (data : List Byte) (hk : Keeps strict a s.kept) :
    Keeps strict a (s.imgProgram i off data).kept := by
  unfold State.imgProgram
  exact keeps_flashMem (fun hm => Memory.wf_writeN _ _ _ _ (wf_clears _ _ _ _ _ hm)) hk

@[simp] theorem keeps_imgData {k₀ : Kept} {s : State} (o : ImgOwner) (i : Nat) (off : Nat) (data : List Byte) (seq : Byte)
    (hk : Keeps strict k₀ s.kept) : Keeps strict k₀ (s.imgData o i off data seq).1.kept := by
  unfold State.imgData
  dsimp only
  repeat' split
  all_goals simp [hk]

@[simp] theorem keeps_imgEnd {a : Kept} {s : State} (o : ImgOwner) (i : Nat) (hk : Keeps strict a s.kept) :
    Keeps strict a (s.imgEnd o i).1.kept := by
  unfold State.imgEnd
  repeat' split
  all_goals simp only [kept_modSlot, hk, keeps_imgRefuse]
  exact keeps_imageEvent _ _ ((kept_modSlot ..).symm ▸ keeps_flashMem (Memory.wf_writeN _ _ _ _) hk)

@[simp] theorem keeps_imgCancel {k₀ : Kept} {s : State} (i : Nat) (hk : Keeps strict k₀ s.kept) : Keeps strict k₀ (s.imgCancel i).kept := by
  unfold State.imgCancel
  simp [hk]

@[simp] theorem keeps_imgActivate {k₀ : Kept} {s : State} (i : Nat) (dt : Nat) (hk : Keeps strict k₀ s.kept) :
    Keeps strict k₀ (s.imgActivate i dt).1.kept := by
  unfold State.imgActivate
  simp [hk]

/-! ### Modes, resets and the start -/

@[simp] theorem kept_flashAfter (s : State) (src : Nat) : (s.flashAfter src).mem = s.flash.mem := rfl

@[simp] theorem keeps_afterReset {a : Kept} {s : State} (src : Nat) (hk : Keeps false a s.kept) :
    Keeps false a (s.afterReset src).kept := by
  refine hk.trans ⟨fun _ => rfl, fun hm => ?_, Bool.noConfusion⟩
  simp only [Kept.memWf, Bool.and_eq_true] at hm ⊢
  obtain ⟨⟨⟨⟨h1, h2⟩, h3⟩, h4⟩, h5⟩ := hm
  exact ⟨⟨⟨⟨h1, rfl⟩, rfl⟩, rfl⟩,
    by rw [show (s.afterReset src).kept.flash = s.flash.mem from kept_flashAfter s src]; exact h5⟩

@[simp] theorem keeps_trialFail {k₀ : Kept} {s : State} (hk : Keeps strict k₀ s.kept) : Keeps strict k₀ s.trialFail.kept := by
  unfold State.trialFail
  extract_lets y s1 s2
  have h1 : Keeps strict k₀ s1.kept := by simp [s1, hk]
  have h2 : Keeps strict k₀ s2.kept := by simp [s2, h1]
  split
  · simp [hk]
  · exact h2

@[simp] theorem keeps_restart {k₀ : Kept} {s : State} (hk : Keeps false k₀ s.kept) : Keeps false k₀ s.restart.kept := by
  unfold State.restart
  simp [hk]

@[simp] theorem kept_startLoader (s : State) : s.startLoader.kept = s.kept := (rfl)

@[simp] theorem kept_startLeap (s : State) (i : Nat) : (s.startLeap i).kept = s.kept := by
  unfold State.startLeap
  dsimp only
  repeat' split
  all_goals simp

@[simp] theorem keeps_startJournal {k₀ : Kept} {s : State} (hk : Keeps strict k₀ s.kept) : Keeps strict k₀ (s.startJournal).1.kept := by
  unfold State.startJournal
  simp [hk]

@[simp] theorem keeps_startImage {k₀ : Kept} {s : State} (i : Nat) (trial : Bool) (boot : Nat) (notes : List Nat)
    (failed : Bool) (hk : Keeps strict k₀ s.kept) : Keeps strict k₀ (s.startImage i trial boot notes failed).kept := by
  unfold State.startImage
  simp [hk]

@[simp] theorem keeps_startHard {k₀ : Kept} {s : State} (inp : StartIn) (hk : Keeps strict k₀ s.kept) :
    Keeps strict k₀ (s.startHard inp).kept := by
  unfold State.startHard
  dsimp only
  repeat' split
  all_goals simp [hk]

@[simp] theorem kept_calWindow (s : State) : s.calWindow.kept = s.kept := by
  unfold State.calWindow
  simp

@[simp] theorem keeps_wakeRf {k₀ : Kept} {s : State} (c : StartCal) (hk : Keeps strict k₀ s.kept) : Keeps strict k₀ (s.wakeRf c).kept := by
  unfold State.wakeRf
  simp [hk]

@[simp] theorem kept_sleepRf (s : State) : s.sleepRf.kept = s.kept := (rfl)

@[simp] theorem keeps_leaveMode {k₀ : Kept} {s : State} (target : Mode) (hk : Keeps strict k₀ s.kept) :
    Keeps strict k₀ (s.leaveMode target).kept := by
  unfold State.leaveMode
  extract_lets m s1 s2 _ s3 s4
  have h1 : Keeps strict k₀ s1.kept := by
    simp only [s1, kept_ite, keeps_ite]
    exact ⟨fun _ => keeps_foldl _ _ (fun s v => keeps_park _ _ (.refl _)) hk, fun _ => hk⟩
  have h2 : Keeps strict k₀ s2.kept := by simp [s2, h1]
  have h3 : Keeps strict k₀ s3.kept := by simp [s3, h2]
  have h4 : Keeps strict k₀ s4.kept := by simp [s4, h3]
  split
  · exact h4
  · exact h4

@[simp] theorem keeps_dormantPower {k₀ : Kept} {s : State} (sub : SubState) (hk : Keeps strict k₀ s.kept) :
    Keeps strict k₀ (s.dormantPower sub).kept := by
  have hrf : Keeps strict k₀ (if sub = .hot then s else s.sleepRf).kept := by split <;> simp [hk]
  unfold State.dormantPower
  exact keeps_foldl (s := if sub = .hot then s else s.sleepRf) State.loseRef [5, 6, 7] (fun s c => keeps_loseRef c (.refl _)) hrf

@[simp] theorem keeps_subNow {k₀ : Kept} {s : State} (sub : SubState) (cause : Nat) (hk : Keeps strict k₀ s.kept) :
    Keeps strict k₀ (s.subNow sub cause).kept := by
  unfold State.subNow
  simp [hk]

@[simp] theorem keeps_beginChange {k₀ : Kept} {s : State} (c : ModeChange) (cal : StartCal) (segs : List SegLoad)
    (hk : Keeps false k₀ s.kept) :
    Keeps false k₀ (s.beginChange c cal segs).kept := by
  unfold State.beginChange
  extract_lets g s1 _ _ s2 s3 c' _ s4 s5
  have h1 : Keeps false k₀ s1.kept := by simp [s1, hk]
  have h2 : Keeps false k₀ s2.kept := h1
  have h3 : Keeps false k₀ s3.kept := keeps_foldl _ _ (fun s k => by simp) h2
  have h4 : Keeps false k₀ s4.kept := h3
  have h5 : Keeps false k₀ s5.kept := by simp [s5, h4]
  split
  · simp [hk]
  · split <;> simp [h5]

@[simp] theorem keeps_setLevel {k₀ : Kept} {s : State} (n : Nat) (hk : Keeps strict k₀ s.kept) : Keeps strict k₀ (s.setLevel n).kept := by
  unfold State.setLevel
  simp [hk]

@[simp] theorem keeps_shutDown {k₀ : Kept} {s : State} (hk : Keeps false k₀ s.kept) : Keeps false k₀ s.shutDown.kept := by
  unfold State.shutDown
  simp [hk]

@[simp] theorem keeps_thermalTick {k₀ : Kept} {s : State} (temp : W16) (hk : Keeps false k₀ s.kept) :
    Keeps false k₀ (s.thermalTick temp).kept := by
  unfold State.thermalTick
  simp [hk]

@[simp] theorem kept_captureDr (s : State) : (s.captureDr).1.kept = s.kept := by
  unfold State.captureDr
  dsimp only
  repeat' split
  all_goals simp

@[simp] theorem kept_tckEdge (s : State) (e : Bool × Bool) : (s.tckEdge e).kept = s.kept := by
  unfold State.tckEdge
  dsimp only
  repeat' split
  all_goals simp

end Sys2Proof.Machine
end

section
/-! PROOFS. Host commands, the doors and the tick:
what each operation keeps of the transports and the memories (O59, O60). -/

namespace Sys2Proof.Machine
variable {strict : Bool}

/-! ### Packets and the command ring -/

/-- What a host command does is a gate of its opcode and an effect that keeps strictly. -/
def RunsKeeping (i : Instr) (op : Nat) (h : CmdHdr) : Prop :=
  ∃ (g : Gate) (body : State → State × Answer),
    g.opcode = op ∧ (∀ s : State, s.interpret i = s.runCmd g h body) ∧ ∀ u, KeepsIn u (body u)

theorem runs_eventFetch (h : CmdHdr) : RunsKeeping (.eventFetch h) 0x0005 h :=
  ⟨_, _, by rfl, fun _ => rfl, fun u => by
    have hp : Keeps true u.kept (u.setPort h.tr { u.port h.tr with events := (u.port h.tr).events.drop 8 }).kept :=
      keeps_setPort h.tr (fun hb => by
        simp only [Port.bounded, Bool.and_eq_true, decide_eq_true_eq, List.length_drop] at hb ⊢
        exact ⟨hb.1, by omega⟩) (fun _ => rfl) (.refl _)
    dsimp only [KeepsIn]
    split
    · rw [kept_intEdge]; exact hp
    · rw [kept_intEdge]; exact hp
    · exact hp⟩

theorem runs_serviceAdd (h : CmdHdr) (attrs : AttrBlock) : RunsKeeping (.serviceAdd h attrs) 0x0201 h :=
  ⟨_, _, by rfl, fun _ => rfl, fun u => by
    dsimp only
    split
    · exact keepsIn_refuseIf _ _ (keepsIn_answer u _)
    · refine keepsIn_refuseIf _ _ (keepsIn_refuseIf _ _ ?_)
      split
      · exact keepsIn_refuse u _
      · simp [KeepsIn]⟩

theorem runs_serviceQuery (h : CmdHdr) (key : Option W64) : RunsKeeping (.serviceQuery h key) 0x0204 h :=
  ⟨_, _, by rfl, fun _ => rfl, fun u => by
    dsimp only
    split
    · exact keepsIn_refuse u _
    · exact keepsIn_answer u _⟩

theorem runs_mapRead (h : CmdHdr) (byKey : Byte) (first : W16) (key : W64) : RunsKeeping (.mapRead h byKey first key) 0x0303 h :=
  ⟨_, _, by rfl, fun _ => rfl, fun u => by
    dsimp only
    split
    · split
      · exact keepsIn_refuse u _
      · exact keepsIn_answer u _
    · split
      · exact keepsIn_answer u _
      · exact keepsIn_refuse u _⟩

theorem runs_pktPortConfig (h : CmdHdr) (port : Byte) (items : List Item) : RunsKeeping (.pktPortConfig h port items) 0x0701 h :=
  ⟨_, _, by rfl, fun _ => rfl, fun u => keepsIn_refuseIf _ _ <| keepsIn_itemCmd _ _ _ _ _ _ _ _ fun _ =>
    keepsIn_refuseIf _ _ (keepsIn_of_kept (kept_commitDev u ..))⟩

theorem runs_planDefer (h : CmdHdr) (seconds : W16) : RunsKeeping (.planDefer h seconds) 0x0904 h :=
  ⟨_, _, by rfl, fun _ => rfl, fun u => keepsIn_refuseIf _ _ <| keepsIn_refuseIf _ _ <| by
    split
    · split
      · exact keepsIn_answer u _
      · exact keeps_planTick (s := { u with plan := _ }) (.refl _)
    · exact .refl _⟩

theorem runs_laneConfig (h : CmdHdr) (items : List Item) : RunsKeeping (.laneConfig h items) 0x0A04 h :=
  ⟨_, _, by rfl, fun _ => rfl, fun u => by
    unfold KeepsIn
    split
    · split
      · exact .refl _
      · simp
    · simp⟩

theorem runs_timecodeFormatQuery (h : CmdHdr) (format : Byte) : RunsKeeping (.timecodeFormatQuery h format) 0x0A08 h :=
  ⟨_, _, by rfl, fun _ => rfl, fun u => keepsIn_refuseIf _ _ <| by
    split
    · exact keepsIn_refuse u _
    · exact keepsIn_answer u _⟩

theorem runs_dabQuery (h : CmdHdr) : RunsKeeping (.dabQuery h) 0x0A0A h :=
  ⟨_, _, by rfl, fun _ => rfl, fun u => by
    split
    · exact keepsIn_refuse u _
    · refine keepsIn_refuseIf _ _ ?_
      dsimp only
      split <;> exact keepsIn_answer u _⟩

theorem runs_tvQuery (h : CmdHdr) : RunsKeeping (.tvQuery h) 0x0A0C h :=
  ⟨_, _, by rfl, fun _ => rfl, fun u => by
    split
    · exact keepsIn_refuse u _
    · refine keepsIn_refuseIf _ _ ?_
      dsimp only
      split <;> exact keepsIn_answer u _⟩

theorem runs_trunkNoiseQuery (h : CmdHdr) (endOf : Byte) (first : W16) : RunsKeeping (.trunkNoiseQuery h endOf first) 0x0C07 h :=
  ⟨_, _, by rfl, fun _ => rfl, fun _ => keepsIn_refuseIf _ _ (keepsIn_refuseIf _ _ (.refl _))⟩

/-- What every host command does is a gate of its opcode and an effect that keeps the bounds, the memories and the retries. -/
theorem runsKeeping {i : Instr} {op : Nat} {h : CmdHdr} {p : List Byte} (e : encodeParams i = some (op, h, p)) :
    RunsKeeping i op h := by
  cases i
  -- queries that answer whatever they are asked
  case deviceInfo | nop | modeQuery | thermalQuery | placementQuery | mapQuery | outputQuery | timeQuery | leapTableQuery |
      clockQuery | refQuery | planQuery | coexQuery | laneQuery | ldpcQuery | calQuery | trunkQuery | imageQuery |
      settingsQuery | diagQuery | diagLogRead =>
    cases e
    exact ⟨_, _, by rfl, fun _ => rfl, fun _ => .refl _⟩
  -- commands with one run of tests before their one effect
  case cmdRingConfig | wakeBudget | reset | followPolicy | linksetSet | linksetQuery | ringConfig | ringQuery | archiveConfig
      | archiveQuery | audioPortConfig | audioPortQuery | audioPortStart | audioPortStop | pktPortQuery | timeSet |
      leapTableSet | clockConfig | ppsTod | rfConfig | rfQuery | coexConfig | combTest | firBankLoad | timecodeFormatLoad |
      calRun | calRead | calWrite | calConfig | trunkConfig | trunkSleep | trunkWake | trunkMask | trunkRemote | imageBegin |
      imageData | imageEnd | imageActivate | settingsReset | otpKey | chainConfig | rtcSet | rtcQuery | backupWrite |
      backupRead | rtcAlarm =>
    cases e
    exact ⟨_, _, by rfl, fun _ => rfl, fun u => by simp [KeepsIn]⟩
  -- commands whose effect depends on an operand or on the slot named
  case modeSet | serviceRemove | serviceModify | followQuery | archiveExtentAdd | firBankQuery | analogueConfig |
      analogueQuery | dabConfig | tvConfig =>
    cases e
    exact ⟨_, _, by rfl, fun _ => rfl, fun u => by dsimp only [KeepsIn]; split <;> simp⟩
  -- commands whose packet depends on an operand too
  case eventRoute | placementPolicy | surveyConfig | refConfig | planPolicy | ldpcPolicy =>
    rename_i operand
    cases operand <;> cases e <;> exact ⟨_, _, by rfl, fun _ => rfl, fun u => by simp [KeepsIn]⟩
  case alertConfig operand =>
    cases operand <;> cases e <;> exact ⟨_, _, by rfl, fun _ => rfl, fun u => by dsimp only [KeepsIn]; split <;> simp⟩
  case serviceQuery key => cases key <;> cases e <;> exact runs_serviceQuery ..
  case eventFetch => cases e; exact runs_eventFetch ..
  case serviceAdd => cases e; exact runs_serviceAdd ..
  case mapRead => cases e; exact runs_mapRead ..
  case pktPortConfig => cases e; exact runs_pktPortConfig ..
  case planDefer => cases e; exact runs_planDefer ..
  case laneConfig => cases e; exact runs_laneConfig ..
  case timecodeFormatQuery => cases e; exact runs_timecodeFormatQuery ..
  case dabQuery => cases e; exact runs_dabQuery ..
  case tvQuery => cases e; exact runs_tvQuery ..
  case trunkNoiseQuery => cases e; exact runs_trunkNoiseQuery ..
  -- the others are no host commands
  all_goals cases e

/-- What is no host command does nothing in the interpreter. -/
theorem interpret_other {i : Instr} (e : encodeParams i = none) (s : State) : s.interpret i = s := by
  cases i
  case eventRoute | serviceQuery | placementPolicy | surveyConfig | alertConfig | refConfig | planPolicy | ldpcPolicy =>
    rename_i operand
    cases operand <;> cases e
  all_goals cases e
  all_goals rfl

/-- Every host command keeps the bounds and the memories. -/
theorem keeps_interpret_self (s : State) (i : Instr) : Keeps false s.kept (s.interpret i).kept := by
  cases e : encodeParams i with
  | none => rw [interpret_other e]; exact .refl _
  | some x =>
    obtain ⟨op, h, p⟩ := x
    obtain ⟨g, body, -, hrun, hbody⟩ := runsKeeping e
    rw [hrun]
    exact keeps_runCmd g h body hbody (.refl _)

@[simp] theorem keeps_interpret {k₀ : Kept} {s : State} (i : Instr) (hk : Keeps false k₀ s.kept) : Keeps false k₀ (s.interpret i).kept :=
  hk.trans (keeps_interpret_self s i)

@[simp] theorem keeps_refusePacket {k₀ : Kept} {s : State} (h : CmdHdr) (op : W16) (keep : Bool) (st : Status)
    (hk : Keeps false k₀ s.kept) : Keeps false k₀ (s.refusePacket h op keep st).kept := by
  unfold State.refusePacket
  dsimp only
  repeat' split
  all_goals simp [hk]

@[simp] theorem keeps_takePacket {k₀ : Kept} {s : State} (tr : Transport) (viaRing : Bool) (exact_ : Bool) (maxLen : Nat)
    (bs : List Byte) (hk : Keeps false k₀ s.kept) : Keeps false k₀ (s.takePacket tr viaRing exact_ maxLen bs).kept := by
  unfold State.takePacket
  repeat' split
  all_goals simp [hk]

@[simp] theorem keeps_mailboxBell {k₀ : Kept} {s : State} (b : Bus) (hk : Keeps false k₀ s.kept) :
    Keeps false k₀ (s.mailboxBell b).kept := by
  unfold State.mailboxBell
  simp [hk]

@[simp] theorem keeps_cmdConsumed {a : Kept} {s : State} (c : Nat) (hk : Keeps strict a s.kept) : Keeps strict a (s.cmdConsumed c).kept :=
  keeps_hostWrite (s := { s with rings := { s.rings with cmdConsumer := c } }) _ _ hk

/-- The command ring is served packet by packet. -/
@[simp] theorem keeps_serveRing {k₀ : Kept} (n : Nat) {s : State} (hk : Keeps false k₀ s.kept) :
    Keeps false k₀ (State.serveRing n s).kept := by
  induction n generalizing s with
  | zero => exact hk
  | succ n ih =>
    unfold State.serveRing
    extract_lets t c p head len size u
    have ht : Keeps false k₀ t.kept := by simp [t, hk]
    split
    · exact ht
    · split
      · exact ih (keeps_cmdConsumed 0 ht)
      · split
        · rw [kept_ringsFault]
          exact keeps_setPort .pcie (fun hb => hb) (fun _ => rfl) ht
        · split
          · exact ht
          · exact ih (keeps_cmdConsumed _ (keeps_takePacket _ _ _ _ _ ht))

@[simp] theorem keeps_serveCmdRing {k₀ : Kept} {s : State} (hk : Keeps false k₀ s.kept) : Keeps false k₀ s.serveCmdRing.kept :=
  keeps_serveRing _ hk

@[simp] theorem keeps_ringBell {k₀ : Kept} {s : State} (b : Bus) (producer : Nat) (hk : Keeps false k₀ s.kept) :
    Keeps false k₀ (s.ringBell b producer).kept := by
  unfold State.ringBell
  repeat' split
  · exact hk
  · exact keeps_setPort .pcie (fun hb => hb) (fun _ => rfl) hk
  · exact keeps_serveCmdRing hk

@[simp] theorem keeps_hostCells {a : Kept} {s : State} (ws : List (Nat × Byte)) (hk : Keeps strict a s.kept) :
    Keeps strict a (s.hostCells ws).kept := keeps_hostMem (Memory.wf_writeCells _ _ ws) hk

@[simp] theorem keeps_doorbell {k₀ : Kept} {s : State} (b : Bus) (v : W32) (hk : Keeps false k₀ s.kept) :
    Keeps false k₀ (s.doorbell b v).kept := by
  unfold State.doorbell
  repeat' split
  all_goals simp [hk]

@[simp] theorem keeps_writeWord {k₀ : Kept} {s : State} (b : Bus) (addr : Nat) (v : W32) (hk : Keeps false k₀ s.kept) :
    Keeps false k₀ (s.writeWord b addr v).kept := by
  unfold State.writeWord
  simp [hk]

@[simp] theorem keeps_twWriteByte {k₀ : Kept} {s : State} (v : Byte) (hk : Keeps false k₀ s.kept) :
    Keeps false k₀ (s.twWriteByte v).kept := by
  unfold State.twWriteByte
  simp [hk]

/-! ### The tick -/

@[simp] theorem kept_laneMeasures (s : State) (ms : List LaneMeas) : (s.laneMeasures ms).kept = s.kept := (rfl)

@[simp] theorem kept_engineMeasures (s : State) (es : List (Nat × List StatItem)) : (s.engineMeasures es).kept = s.kept := (rfl)

@[simp] theorem kept_ratioMeasures (s : State) (rs : List (W64 × Int)) : (s.ratioMeasures rs).kept = s.kept := (rfl)

@[simp] theorem kept_rateMeasures (s : State) (rs : List (W64 × Nat)) : (s.rateMeasures rs).kept = s.kept := by
  unfold State.rateMeasures
  simp

@[simp] theorem kept_tagTick (s : State) : s.tagTick.kept = s.kept := by
  unfold State.tagTick
  simp

@[simp] theorem keeps_measures {k₀ : Kept} {s : State} (inp : TickIn) (hk : Keeps strict k₀ s.kept) :
    Keeps strict k₀ (s.measures inp).kept := by
  unfold State.measures
  extract_lets s1 s2 s3
  have h1 : Keeps strict k₀ s1.kept := hk
  have h2 : Keeps strict k₀ s2.kept := by simp [s2, h1]
  have h3 : Keeps strict k₀ s3.kept := keeps_foldl _ _ (fun s t => by simp) h2
  simp [h3]

@[simp] theorem keeps_cmdRingForce {k₀ : Kept} {s : State} (old : ItemTable) (hk : Keeps strict k₀ s.kept) :
    Keeps strict k₀ (s.cmdRingForce old).kept := by
  unfold State.cmdRingForce
  simp [hk]

@[simp] theorem kept_pktForce (s : State) (old : Settings) : (s.pktForce old).kept = s.kept := (rfl)

@[simp] theorem keeps_settingsForced {k₀ : Kept} {s : State} (old : Settings) (hk : Keeps strict k₀ s.kept) :
    Keeps strict k₀ (s.settingsForced old).kept := by
  unfold State.settingsForced
  extract_lets t
  have hring := keeps_ringForce old (keeps_planForce old.plan hk)
  have ht : Keeps strict k₀ t.kept := keeps_trunkForce old ((kept_pktForce ..).symm ▸ hring)
  split
  · exact (kept_coexOff ..).symm ▸ ht
  · exact ht

@[simp] theorem keeps_forceDevice {k₀ : Kept} {s : State} (hk : Keeps strict k₀ s.kept) : Keeps strict k₀ s.forceDevice.kept := by
  unfold State.forceDevice
  dsimp only
  repeat' split
  all_goals simp [hk]

@[simp] theorem kept_bindingsForced (s : State) (v : Service) (new : AttrBlock) : (s.bindingsForced v new).kept = s.kept := by
  unfold State.bindingsForced
  simp

@[simp] theorem kept_bindingsNew (s : State) (v : Service) (new : AttrBlock) : (s.bindingsNew v new).kept = s.kept := by
  unfold State.bindingsNew
  simp

@[simp] theorem kept_forceSvc (s : State) (n : Nat) : (s.forceSvc n).kept = s.kept := by
  unfold State.forceSvc
  dsimp only
  repeat' split
  all_goals simp

@[simp] theorem kept_rebank (s : State) (n : Nat) : (s.rebank n).kept = s.kept := (rfl)

@[simp] theorem kept_forceServices (s : State) : s.forceServices.kept = s.kept := by
  unfold State.forceServices
  simp

@[simp] theorem kept_countDown (s : State) : s.countDown.kept = s.kept := (rfl)

@[simp] theorem keeps_forces {k₀ : Kept} {s : State} (hk : Keeps strict k₀ s.kept) : Keeps strict k₀ s.forces.kept := by
  unfold State.forces
  simp [hk]

@[simp] theorem keeps_refTick {k₀ : Kept} {s : State} (inp : TickIn) (hk : Keeps strict k₀ s.kept) :
    Keeps strict k₀ (s.refTick inp).kept := by
  unfold State.refTick
  simp [hk]

@[simp] theorem kept_ppsTick (s : State) : s.ppsTick.kept = s.kept := by
  unfold State.ppsTick
  simp

@[simp] theorem keeps_roundTick {k₀ : Kept} {s : State} (hk : Keeps strict k₀ s.kept) : Keeps strict k₀ s.roundTick.kept := by
  unfold State.roundTick
  simp [hk]

@[simp] theorem kept_ageTick (s : State) : s.ageTick.kept = s.kept := (rfl)

@[simp] theorem kept_subTick (s : State) : s.subTick.kept = s.kept := by
  unfold State.subTick
  simp

@[simp] theorem keeps_serveAll {k₀ : Kept} {s : State} (hk : Keeps false k₀ s.kept) : Keeps false k₀ s.serveAll.kept :=
  keeps_serveCmdRing (keeps_foldl _ _ (fun _ t => keeps_flush t (.refl _)) hk)

@[simp] theorem keeps_tickWork {k₀ : Kept} {s : State} (inp : TickIn) (hk : Keeps false k₀ s.kept) :
    Keeps false k₀ (s.tickWork inp).kept := by
  unfold State.tickWork
  extract_lets old s1 s2 s3 s4 s5 s6
  have hm : Keeps false k₀ ((s.measures inp).forces).kept := by simp [hk]
  have h1 : Keeps false k₀ s1.kept := by simp [s1, hm]
  have h2 : Keeps false k₀ s2.kept := by simp [s2, h1]
  have h3 : Keeps false k₀ s3.kept := by simp [s3, h2]
  have h4 : Keeps false k₀ s4.kept := by
    have hr : Keeps false k₀ (s3.roundTick.followTick inp.sources).kept := by simp [h3]
    simp [s4, hr]
  have h5 : Keeps false k₀ s5.kept := by simp [s5, h4]
  have h6 : Keeps false k₀ s6.kept := by simp [s6, h5]
  have hsub : Keeps false k₀ s6.ageTick.subTick.kept := by simp [h6]
  exact keeps_serveAll hsub

@[simp] theorem kept_nextTick (s : State) : s.nextTick.kept = s.kept := (rfl)

@[simp] theorem keeps_servedTick {k₀ : Kept} {s : State} (inp : TickIn) (hk : Keeps false k₀ s.kept) :
    Keeps false k₀ (s.servedTick inp).kept := by
  unfold State.servedTick
  extract_lets s1 _ s2
  have hc : Keeps false k₀ (s.nextTick.hostCells inp.writes).kept := by simp [hk]
  have h1 : Keeps false k₀ s1.kept := by simp [s1, hc]
  have h2 : Keeps false k₀ s2.kept := h1
  split
  · exact h1
  · split
    · split
      · exact keeps_afterReset 3 h2
      · exact keeps_tickWork inp h2
    · split
      · exact keeps_serveAll h2
      · exact keeps_tickWork inp h2

end Sys2Proof.Machine
end

section
/-! PROOFS. What each row that is no host command keeps of the transports and the memories (O59, O60). -/

namespace Sys2Proof.Machine

theorem outState_next (s t : State) : outState s (.next t) = t := rfl

/-! ### Registers -/

theorem keeps_execIntStatusWrite (bus : Bus) (value : W32) (s : State) :
    Keeps false s.kept (outState s (execIntStatusWrite bus value s)).kept := by
  unfold execIntStatusWrite
  simp [outState]

theorem keeps_execIntEnableWrite (bus : Bus) (value : W32) (s : State) :
    Keeps false s.kept (outState s (execIntEnableWrite bus value s)).kept := by
  unfold execIntEnableWrite
  simp [outState]

theorem keeps_execDtMatchCommit (bus : Bus) (hi : W32) (wait : Nat) (s : State) :
    Keeps false s.kept (outState s (execDtMatchCommit bus hi wait s)).kept := by
  unfold execDtMatchCommit
  simp [outState]

theorem keeps_execDtMatchExpiry (bus : Bus) (wait : Nat) (s : State) :
    Keeps false s.kept (outState s (execDtMatchExpiry bus wait s)).kept := by
  unfold execDtMatchExpiry
  simp [outState]

theorem keeps_execMultiwordSnapshotRead (bus : Bus) (addr : W16) (wait : Nat) (s : State) :
    Keeps false s.kept (outState s (execMultiwordSnapshotRead bus addr wait s)).kept := by
  unfold execMultiwordSnapshotRead
  repeat' split
  all_goals simp [outState]

theorem keeps_execMsixUnmask (enable : Bool) (funcMask : Bool) (masked : W64) (s : State) :
    Keeps false s.kept (outState s (execMsixUnmask enable funcMask masked s)).kept := by
  unfold execMsixUnmask
  simp [outState]

theorem keeps_execPciePowerState (d3 : Bool) (pme : Bool) (s : State) :
    Keeps false s.kept (outState s (execPciePowerState d3 pme s)).kept := by
  unfold execPciePowerState
  simp [outState]

theorem keeps_execPerst (s : State) : Keeps false s.kept (outState s (execPerst s)).kept :=
  ⟨id, fun hm => by
    simp only [Kept.memWf, Bool.and_eq_true] at hm ⊢
    obtain ⟨⟨⟨⟨h1, h2⟩, h3⟩, -⟩, h5⟩ := hm
    exact ⟨⟨⟨⟨h1, h2⟩, h3⟩, rfl⟩, h5⟩, Bool.noConfusion⟩

theorem keeps_execTwReadTransaction (addrByte : Byte) (count : Nat) (wait : Nat) (s : State) :
    Keeps false s.kept (outState s (execTwReadTransaction addrByte count wait s)).kept := by
  unfold execTwReadTransaction
  dsimp only
  repeat' split
  all_goals simp [outState]

theorem keeps_execTwTimeout (s : State) : Keeps false s.kept (outState s (execTwTimeout s)).kept := by
  unfold execTwTimeout
  simp [outState]

theorem keeps_execAttnWrite (result : AttnResult) (wait : Nat) (s : State) :
    Keeps false s.kept (outState s (execAttnWrite result wait s)).kept := by
  unfold execAttnWrite
  dsimp only
  repeat' split
  all_goals simp [outState]

theorem keeps_execAttnWriteRetry (result : AttnResult) (wait : Nat) (s : State) :
    Keeps false s.kept (outState s (execAttnWriteRetry result wait s)).kept := by
  unfold execAttnWriteRetry
  dsimp only
  repeat' split
  all_goals simp [outState]

theorem keeps_execReadStatus (s : State) : Keeps false s.kept (outState s (execReadStatus s)).kept := by
  unfold execReadStatus
  simp [outState]

theorem keeps_execReadPacket (complete : Bool) (s : State) :
    Keeps false s.kept (outState s (execReadPacket complete s)).kept := by
  have hsent : ∀ {u : State} {p : Port}, u.kept = s.kept → (s.pSvc.bounded = true → p.bounded = true) →
      Keeps false s.kept ({ u with pSvc := p } : State).kept := fun {u p} hu hp => by
    have hk : u.pSvc = s.pSvc := congrArg Kept.pSvc hu
    exact keeps_setPort .service (fun hb => hp (hk ▸ hb)) Bool.noConfusion (hu ▸ .refl _)
  unfold execReadPacket
  split
  · exact .refl _
  · extract_lets t p was send
    have hsend : ∀ pkt p', (s.pSvc.bounded = true → p'.bounded = true) → Keeps false s.kept (send pkt p').kept := fun pkt p' hp => by
      simp only [send]
      split
      · split
        · exact keeps_deliverReplies _ _ (hsent rfl hp)
        · exact keeps_deliverReplies _ _ (hsent rfl hp)
      · exact .refl _
    clear_value send
    split
    · exact hsend _ _ (fun hb => hb)
    next e rest hev _ =>
      refine hsend _ _ (fun hb => ?_)
      have hev' : s.pSvc.events = e :: rest := hev
      simp only [Port.bounded, Bool.and_eq_true, decide_eq_true_eq, hev', List.length_cons] at hb ⊢
      exact ⟨hb.1, Nat.le_of_succ_le hb.2⟩
    · exact .refl _

/-! ### Time -/

theorem keeps_execTimeStep (s : State) : Keeps false s.kept (outState s (execTimeStep s)).kept := by
  unfold execTimeStep
  repeat' split
  all_goals simp [outState]

theorem keeps_execDtWrap (s : State) : Keeps false s.kept (outState s (execDtWrap s)).kept := by
  unfold execDtWrap
  repeat' split
  all_goals simp [outState]

/-! ### The real-time clock -/

theorem keeps_execRtcWriteCommit (wait : Nat) (s : State) :
    Keeps false s.kept (outState s (execRtcWriteCommit wait s)).kept := by
  unfold execRtcWriteCommit
  dsimp only
  repeat' split
  all_goals simp [outState]

theorem keeps_execOscillatorStopped (s : State) : Keeps false s.kept (outState s (execOscillatorStopped s)).kept := by
  unfold execOscillatorStopped
  simp [outState]

theorem keeps_execBackupDomainReset (s : State) : Keeps false s.kept (outState s (execBackupDomainReset s)).kept := by
  unfold execBackupDomainReset
  simp [outState]

theorem keeps_execRtcSecondRollover (s : State) : Keeps false s.kept (outState s (execRtcSecondRollover s)).kept := by
  unfold execRtcSecondRollover
  dsimp only
  repeat' split
  all_goals simp [outState]

theorem keeps_execRtcUnlockTimeout (s : State) : Keeps false s.kept (outState s (execRtcUnlockTimeout s)).kept := by
  unfold execRtcUnlockTimeout
  simp [outState]

theorem keeps_execRtcDtCorrection (diffUs wait : Nat) (s : State) :
    Keeps false s.kept (outState s (execRtcDtCorrection diffUs wait s)).kept := by
  unfold execRtcDtCorrection
  extract_lets s1 u late due
  split <;> simp [outState, s1]

/-! ### References -/

theorem keeps_execReferenceLoss (code : Nat) (wait : Nat) (s : State) :
    Keeps false s.kept (outState s (execReferenceLoss code wait s)).kept := by
  unfold execReferenceLoss
  simp [outState]

theorem keeps_execReferenceQualified (code : Nat) (timeRole_ : Bool) (wait : Nat) (s : State) :
    Keeps false s.kept (outState s (execReferenceQualified code timeRole_ wait s)).kept := by
  unfold execReferenceQualified
  dsimp only
  repeat' split
  all_goals simp [outState]

theorem keeps_execHoldoverExpiry (wait : Nat) (s : State) :
    Keeps false s.kept (outState s (execHoldoverExpiry wait s)).kept := by
  unfold execHoldoverExpiry
  dsimp only
  repeat' split
  all_goals simp [outState]

theorem keeps_execPpsEdge (wait : Nat) (s : State) : Keeps false s.kept (outState s (execPpsEdge wait s)).kept := by
  unfold execPpsEdge
  extract_lets s1 _ s2 running returning bad s3 s4 _ s5 lab
  have h2 : Keeps false s.kept s2.kept := by
    simp only [s2]
    split
    · exact keeps_applyStep (s := { s1 with time := _ }) _ _ (.refl _)
    · exact .refl _
  have h3 : Keeps false s.kept s3.kept := by simp [s3, h2]
  have h4 : Keeps false s.kept s4.kept := by simp [s4, h3]
  have h5 : Keeps false s.kept s5.kept := h4
  simp [outState, h5]

theorem keeps_execTimeIndication (ti : TimeInd) (wait : Nat) (s : State) :
    Keeps false s.kept (outState s (execTimeIndication ti wait s)).kept := by
  unfold execTimeIndication
  dsimp only
  repeat' split
  all_goals simp [outState]

/-! ### Inputs -/

theorem keeps_execCoexRequest (pri : Bool) (gntIn : Bool) (wait : Nat) (s : State) :
    Keeps false s.kept (outState s (execCoexRequest pri gntIn wait s)).kept := by
  unfold execCoexRequest
  dsimp only
  repeat' split
  all_goals simp [outState]

theorem keeps_execCoexGrant (wait : Nat) (s : State) : Keeps false s.kept (outState s (execCoexGrant wait s)).kept := by
  unfold execCoexGrant
  dsimp only
  repeat' split
  all_goals simp [outState]

theorem keeps_execCoexRelease (wait : Nat) (s : State) : Keeps false s.kept (outState s (execCoexRelease wait s)).kept := by
  unfold execCoexRelease
  dsimp only
  repeat' split
  all_goals simp [outState]

theorem keeps_execCoexTailExpiry (wait : Nat) (s : State) :
    Keeps false s.kept (outState s (execCoexTailExpiry wait s)).kept := by
  unfold execCoexTailExpiry
  dsimp only
  repeat' split
  all_goals simp [outState]

theorem keeps_execCoexGrantLimit (wait : Nat) (s : State) :
    Keeps false s.kept (outState s (execCoexGrantLimit wait s)).kept := by
  unfold execCoexGrantLimit
  dsimp only
  repeat' split
  all_goals simp [outState]

theorem keeps_execProtectionWindowLead (wait : Nat) (s : State) :
    Keeps false s.kept (outState s (execProtectionWindowLead wait s)).kept := by
  unfold execProtectionWindowLead
  dsimp only
  repeat' split
  all_goals simp [outState]

theorem keeps_execCoexAckTimeout (wait : Nat) (s : State) :
    Keeps false s.kept (outState s (execCoexAckTimeout wait s)).kept := by
  unfold execCoexAckTimeout
  dsimp only
  repeat' split
  all_goals simp [outState]

theorem keeps_execProtectionWindowEnd (wait : Nat) (s : State) :
    Keeps false s.kept (outState s (execProtectionWindowEnd wait s)).kept := by
  unfold execProtectionWindowEnd
  dsimp only
  repeat' split
  all_goals simp [outState]

theorem keeps_execCoexInputStuck (wire : Nat) (wait : Nat) (s : State) :
    Keeps false s.kept (outState s (execCoexInputStuck wire wait s)).kept := by
  unfold execCoexInputStuck
  dsimp only
  repeat' split
  all_goals simp [outState]

/-! ### The placement round -/

theorem keeps_execMigrationSwitch (slot : Nat) (wait : Nat) (s : State) :
    Keeps false s.kept (outState s (execMigrationSwitch slot wait s)).kept := by
  unfold execMigrationSwitch
  dsimp only [outState]
  repeat' split
  all_goals simp

theorem keeps_execMigrationRelease (slot : Nat) (s : State) :
    Keeps false s.kept (outState s (execMigrationRelease slot s)).kept := by
  unfold execMigrationRelease
  dsimp only [outState]
  repeat' split
  all_goals simp

theorem keeps_execMigrationAbandon (slot : Nat) (wait : Nat) (s : State) :
    Keeps false s.kept (outState s (execMigrationAbandon slot wait s)).kept := by
  unfold execMigrationAbandon
  dsimp only [outState]
  repeat' split
  all_goals simp

/-! ### Clocks and coexistence -/

theorem keeps_execPlanDeferralEnd (wait : Nat) (s : State) :
    Keeps false s.kept (outState s (execPlanDeferralEnd wait s)).kept := by
  unfold execPlanDeferralEnd
  dsimp only [outState]
  repeat' split
  all_goals simp

theorem keeps_execPlanChange (lock : LockRun) (s : State) : Keeps false s.kept (outState s (execPlanChange lock s)).kept := by
  unfold execPlanChange
  split
  · exact .refl _
  · extract_lets old stop s1 s2
    have h1 : Keeps false s.kept s1.kept := by simp [s1]
    have h2 : Keeps false s.kept s2.kept := by simp [s2, h1]
    simp only [outState]
    split
    · simp [h2]
    · exact h2

theorem keeps_execPllSLockLost (lock : LockRun) (wait : Nat) (s : State) :
    Keeps false s.kept (outState s (execPllSLockLost lock wait s)).kept := by
  unfold execPllSLockLost
  split
  · exact .refl _
  · extract_lets s1 _ _ c s2 s3
    have h2 : Keeps false s.kept s2.kept := keeps_lockS (s := { s1 with clk := c }) lock (.refl _)
    have h3 : Keeps false s.kept s3.kept := by simp [s3, h2]
    simp only [outState]
    split
    · simp [h3]
    · exact h3

theorem keeps_execPllSRetry (lock : LockRun) (wait : Nat) (s : State) :
    Keeps false s.kept (outState s (execPllSRetry lock wait s)).kept := by
  unfold execPllSRetry
  split
  · exact .refl _
  · extract_lets s1 s2
    have h1 : Keeps false s.kept s1.kept := by simp [s1]
    have h2 : Keeps false s.kept s2.kept := by simp [s2, h1]
    simp only [outState]
    split
    · exact h1
    · split
      · exact keeps_planChanged _ _ _ (s := { s2 with clk := _ }) h2
      · simp [h2]

/-! ### Carriers -/

theorem keeps_execDabSynchronised (carrier : W64) (mode : Nat) (wait : Nat) (s : State) :
    Keeps false s.kept (outState s (execDabSynchronised carrier mode wait s)).kept := by
  unfold execDabSynchronised
  dsimp only [outState]
  repeat' split
  all_goals simp

theorem keeps_execDabSyncLoss (carrier : W64) (wait : Nat) (s : State) :
    Keeps false s.kept (outState s (execDabSyncLoss carrier wait s)).kept := by
  unfold execDabSyncLoss
  dsimp only [outState]
  repeat' split
  all_goals simp

theorem keeps_execDabSearchTimeout (carrier : W64) (wait : Nat) (s : State) :
    Keeps false s.kept (outState s (execDabSearchTimeout carrier wait s)).kept := by
  unfold execDabSearchTimeout
  dsimp only [outState]
  repeat' split
  all_goals simp

theorem keeps_execDabReconfiguration (carrier : W64) (cif : Nat) (wait : Nat) (s : State) :
    Keeps false s.kept (outState s (execDabReconfiguration carrier cif wait s)).kept := by
  unfold execDabReconfiguration
  dsimp only [outState]
  repeat' split
  all_goals simp

theorem keeps_execTvSynchronised (carrier : W64) (t : TvSignal) (wait : Nat) (s : State) :
    Keeps false s.kept (outState s (execTvSynchronised carrier t wait s)).kept := by
  unfold execTvSynchronised
  dsimp only [outState]
  repeat' split
  all_goals simp

theorem keeps_execTvSyncLoss (carrier : W64) (wait : Nat) (s : State) :
    Keeps false s.kept (outState s (execTvSyncLoss carrier wait s)).kept := by
  unfold execTvSyncLoss
  dsimp only [outState]
  repeat' split
  all_goals simp

theorem keeps_execTvSearchTimeout (carrier : W64) (wait : Nat) (s : State) :
    Keeps false s.kept (outState s (execTvSearchTimeout carrier wait s)).kept := by
  unfold execTvSearchTimeout
  simp [outState]

theorem keeps_execTvReconfiguration (carrier : W64) (t : TvSignal) (wait : Nat) (s : State) :
    Keeps false s.kept (outState s (execTvReconfiguration carrier t wait s)).kept := by
  unfold execTvReconfiguration
  dsimp only [outState]
  repeat' split
  all_goals simp

/-! ### Analogue engines -/

theorem keeps_execRdsSynchronisation (slot : Nat) (wait : Nat) (s : State) :
    Keeps false s.kept (outState s (execRdsSynchronisation slot wait s)).kept := by
  unfold execRdsSynchronisation
  simp [outState]

theorem keeps_execRdsSyncLoss (slot : Nat) (wait : Nat) (s : State) :
    Keeps false s.kept (outState s (execRdsSyncLoss slot wait s)).kept := by
  unfold execRdsSyncLoss
  simp [outState]

theorem keeps_execPilotStateChange (slot : Nat) (present : Bool) (wait : Nat) (s : State) :
    Keeps false s.kept (outState s (execPilotStateChange slot present wait s)).kept := by
  unfold execPilotStateChange
  simp [outState]

theorem keeps_execAmSyncLock (slot : Nat) (locked : Bool) (wait : Nat) (s : State) :
    Keeps false s.kept (outState s (execAmSyncLock slot locked wait s)).kept := by
  unfold execAmSyncLock
  dsimp only [outState]
  repeat' split
  all_goals simp

theorem keeps_execTimecodeFrame (slot : Nat) (f : TcFrameIn) (wait : Nat) (s : State) :
    Keeps false s.kept (outState s (execTimecodeFrame slot f wait s)).kept := by
  unfold execTimecodeFrame
  dsimp only [outState]
  repeat' split
  all_goals simp

/-! ### Following -/

theorem keeps_execEngineSettled (slot : Nat) (wait : Nat) (s : State) :
    Keeps false s.kept (outState s (execEngineSettled slot wait s)).kept := by
  unfold execEngineSettled
  dsimp only [outState]
  repeat' split
  all_goals simp

theorem keeps_execSpliceSwitch (slot : Nat) (m : SpliceIn) (wait : Nat) (s : State) :
    Keeps false s.kept (outState s (execSpliceSwitch slot m wait s)).kept := by
  unfold execSpliceSwitch
  dsimp only [outState]
  repeat' split
  all_goals simp

theorem keeps_execSpliceTimeout (slot : Nat) (wait : Nat) (s : State) :
    Keeps false s.kept (outState s (execSpliceTimeout slot wait s)).kept := by
  unfold execSpliceTimeout
  dsimp only [outState]
  repeat' split
  all_goals simp

/-! ### The map -/

theorem keeps_execMapPublication (s : State) : Keeps false s.kept (outState s (execMapPublication s)).kept := by
  unfold execMapPublication
  simp [outState]

theorem keeps_execMapEntryExpiry (key : W64) (s : State) : Keeps false s.kept (outState s (execMapEntryExpiry key s)).kept := by
  unfold execMapEntryExpiry
  simp [outState]

theorem keeps_execProbeStart (p : ProbeIn) (wait : Nat) (s : State) :
    Keeps false s.kept (outState s (execProbeStart p wait s)).kept := by
  unfold execProbeStart
  simp [outState]

theorem keeps_execProbeEnd (p : ProbeOut) (wait : Nat) (s : State) :
    Keeps false s.kept (outState s (execProbeEnd p wait s)).kept := by
  unfold execProbeEnd
  dsimp only [outState]
  repeat' split
  all_goals simp

/-! ### Alerts -/

theorem keeps_execAlertTimeout (slot : Nat) (wait : Nat) (s : State) :
    Keeps false s.kept (outState s (execAlertTimeout slot wait s)).kept := by
  unfold execAlertTimeout
  dsimp only [outState]
  repeat' split
  all_goals simp

/-! ### Broadcast signalling -/

theorem keeps_execRdsGroup (slot : Nat) (x : RdsGroupIn) (wait : Nat) (s : State) :
    Keeps false s.kept (outState s (execRdsGroup slot x wait s)).kept := by
  unfold execRdsGroup
  dsimp only [outState]
  repeat' split
  all_goals simp

theorem keeps_execFibReceived (f : FibIn) (wait : Nat) (s : State) :
    Keeps false s.kept (outState s (execFibReceived f wait s)).kept := by
  unfold execFibReceived
  dsimp only [outState]
  repeat' split
  all_goals simp

theorem keeps_execSectionReceived (x : SectionIn) (wait : Nat) (s : State) :
    Keeps false s.kept (outState s (execSectionReceived x wait s)).kept := by
  unfold execSectionReceived
  dsimp only [outState]
  repeat' split
  all_goals simp

/-! ### Streams, rings and the archive -/

theorem keeps_execRingModerationTimer (ring : Nat) (wait : Nat) (s : State) :
    Keeps false s.kept (outState s (execRingModerationTimer ring wait s)).kept := by
  unfold execRingModerationTimer
  simp [outState]

theorem keeps_execPktPortPacket (port : Nat) (wait : Nat) (s : State) :
    Keeps false s.kept (outState s (execPktPortPacket port wait s)).kept := by
  unfold execPktPortPacket
  dsimp only [outState]
  repeat' split
  all_goals simp

theorem keeps_execCollectorWrite (writes : List (Nat × Byte)) (wait : Nat) (s : State) :
    Keeps false s.kept (outState s (execCollectorWrite writes wait s)).kept :=
  keeps_collect (s := { s.advance wait with host := Memory.writeCells ramDefault s.host writes }) _
    (keeps_hostMem (s := s.advance wait) (Memory.wf_writeCells _ _ writes) (.refl _))

theorem keeps_execEngineHoldDrop (slot : Nat) (kind : Byte) (s : State) :
    Keeps false s.kept (outState s (execEngineHoldDrop slot kind s)).kept := by
  unfold execEngineHoldDrop
  dsimp only [outState]
  repeat' split
  all_goals simp

theorem keeps_execArchiveIndexUnit (slot : Nat) (s : State) :
    Keeps false s.kept (outState s (execArchiveIndexUnit slot s)).kept := by
  unfold execArchiveIndexUnit
  dsimp only [outState]
  repeat' split
  all_goals simp

theorem keeps_execStatisticsIntervalEnd (st : StatIn) (s : State) :
    Keeps false s.kept (outState s (execStatisticsIntervalEnd st s)).kept := by
  unfold execStatisticsIntervalEnd
  dsimp only [outState]
  repeat' split
  all_goals simp

theorem keeps_execSpectrumIntervalEnd (sp : SpectrumIn) (s : State) :
    Keeps false s.kept (outState s (execSpectrumIntervalEnd sp s)).kept := by
  unfold execSpectrumIntervalEnd
  dsimp only [outState]
  repeat' split
  · exact .refl _
  · exact .refl _
  · exact (kept_pushUnit ..).symm ▸ .refl _

/-! ### Audio ports -/

theorem keeps_execAudStartEdge (rising : Bool) (wait : Nat) (s : State) :
    Keeps false s.kept (outState s (execAudStartEdge rising wait s)).kept := by
  unfold execAudStartEdge
  simp [outState]

theorem keeps_execAudioPortTrigger (wait : Nat) (s : State) :
    Keeps false s.kept (outState s (execAudioPortTrigger wait s)).kept := by
  unfold execAudioPortTrigger
  simp [outState]

theorem keeps_execZeroCrossingSwitch (port : Nat) (channel : Nat) (wait : Nat) (s : State) :
    Keeps false s.kept (outState s (execZeroCrossingSwitch port channel wait s)).kept := by
  unfold execZeroCrossingSwitch
  simp [outState]

theorem keeps_execZeroCrossingTimeout (port : Nat) (channel : Nat) (wait : Nat) (s : State) :
    Keeps false s.kept (outState s (execZeroCrossingTimeout port channel wait s)).kept := by
  unfold execZeroCrossingTimeout
  simp [outState]

theorem keeps_execSlaveClockCheck (m : SlaveClock) (wait : Nat) (s : State) :
    Keeps false s.kept (outState s (execSlaveClockCheck m wait s)).kept := by
  unfold execSlaveClockCheck
  simp [outState]

theorem keeps_execAudioUnderrun (u : Underrun) (wait : Nat) (s : State) :
    Keeps false s.kept (outState s (execAudioUnderrun u wait s)).kept := by
  unfold execAudioUnderrun
  dsimp only [outState]
  repeat' split
  all_goals simp

theorem keeps_execUnitCompletion (u : UnitIn) (wait : Nat) (s : State) :
    Keeps false s.kept (outState s (execUnitCompletion u wait s)).kept := by
  unfold execUnitCompletion
  dsimp only [outState]
  repeat' split
  all_goals simp

/-! ### The trunk -/

theorem keeps_execTrunkLoss (wait : Nat) (s : State) : Keeps false s.kept (outState s (execTrunkLoss wait s)).kept := by
  unfold execTrunkLoss
  simp [outState]

theorem keeps_execTrunkFrame (f : TrunkFrameIn) (s : State) : Keeps false s.kept (outState s (execTrunkFrame f s)).kept := by
  unfold execTrunkFrame
  simp [outState]

theorem keeps_execTrunkAckTimeout (wait : Nat) (s : State) :
    Keeps false s.kept (outState s (execTrunkAckTimeout wait s)).kept := by
  unfold execTrunkAckTimeout
  simp [outState]

theorem keeps_execControlBurstReceived (b : ControlBurst) (wait : Nat) (s : State) :
    Keeps false s.kept (outState s (execControlBurstReceived b wait s)).kept := by
  unfold execControlBurstReceived
  simp [outState]

theorem keeps_execTrunkAck (a : TrunkAckIn) (wait : Nat) (s : State) :
    Keeps false s.kept (outState s (execTrunkAck a wait s)).kept := by
  unfold execTrunkAck
  simp [outState]

theorem keeps_execTrunkLoading (l : LoadingIn) (wait : Nat) (s : State) :
    Keeps false s.kept (outState s (execTrunkLoading l wait s)).kept := by
  unfold execTrunkLoading
  simp [outState]

theorem keeps_execTrunkLoadingAck (l : LoadingAckIn) (wait : Nat) (s : State) :
    Keeps false s.kept (outState s (execTrunkLoadingAck l wait s)).kept := by
  unfold execTrunkLoadingAck
  simp [outState]

theorem keeps_execTrunkMaskPacket (m : MaskIn) (wait : Nat) (s : State) :
    Keeps false s.kept (outState s (execTrunkMaskPacket m wait s)).kept := by
  unfold execTrunkMaskPacket
  dsimp only [outState]
  repeat' split
  all_goals simp

theorem keeps_execTrunkNoise (n : NoiseIn) (wait : Nat) (s : State) :
    Keeps false s.kept (outState s (execTrunkNoise n wait s)).kept := by
  unfold execTrunkNoise
  simp [outState]

theorem keeps_execTrunkTime (t : TrunkTimeIn) (wait : Nat) (s : State) :
    Keeps false s.kept (outState s (execTrunkTime t wait s)).kept := by
  unfold execTrunkTime
  simp [outState]

theorem keeps_execTrunkSleepPacket (p : SleepIn) (wait : Nat) (s : State) :
    Keeps false s.kept (outState s (execTrunkSleepPacket p wait s)).kept := by
  unfold execTrunkSleepPacket
  simp [outState]

theorem keeps_execTrunkUnitPacket (u : TrunkUnit) (wait : Nat) (s : State) :
    Keeps false s.kept (outState s (execTrunkUnitPacket u wait s)).kept := by
  unfold execTrunkUnitPacket
  simp [outState]

theorem keeps_execTrunkReplyEventPacket (packet : List Byte) (wait : Nat) (s : State) :
    Keeps false s.kept (outState s (execTrunkReplyEventPacket packet wait s)).kept := by
  unfold execTrunkReplyEventPacket
  dsimp only [outState]
  repeat' split
  all_goals simp

theorem keeps_execLoadingRecompute (r : RecomputeIn) (wait : Nat) (s : State) :
    Keeps false s.kept (outState s (execLoadingRecompute r wait s)).kept := by
  unfold execLoadingRecompute
  simp [outState]

/-! ### Trunk packets -/

theorem keeps_execTrunkRemoteResend (seq : W16) (wait : Nat) (s : State) :
    Keeps false s.kept (outState s (execTrunkRemoteResend seq wait s)).kept := by
  unfold execTrunkRemoteResend
  dsimp only [outState]
  repeat' split
  all_goals simp

theorem keeps_execWakeCallSend (wait : Nat) (s : State) : Keeps false s.kept (outState s (execWakeCallSend wait s)).kept := by
  unfold execWakeCallSend
  dsimp only [outState]
  repeat' split
  all_goals simp

theorem keeps_execLongCall (wait : Nat) (s : State) : Keeps false s.kept (outState s (execLongCall wait s)).kept := by
  unfold execLongCall
  dsimp only [outState]
  repeat' split
  all_goals simp

theorem keeps_execCarrierDetected (wait : Nat) (s : State) :
    Keeps false s.kept (outState s (execCarrierDetected wait s)).kept := by
  unfold execCarrierDetected
  simp [outState]

theorem keeps_execWakeCallAccepted (c : WakeCallIn) (wait : Nat) (s : State) :
    Keeps false s.kept (outState s (execWakeCallAccepted c wait s)).kept := by
  unfold execWakeCallAccepted
  simp [outState]

theorem keeps_execMeetWindowWake (wait : Nat) (s : State) :
    Keeps false s.kept (outState s (execMeetWindowWake wait s)).kept := by
  unfold execMeetWindowWake
  simp [outState]

theorem keeps_execMeetWindowEnd (wait : Nat) (s : State) : Keeps false s.kept (outState s (execMeetWindowEnd wait s)).kept := by
  unfold execMeetWindowEnd
  simp [outState]

theorem keeps_execRecoveryTimeout (wait : Nat) (s : State) :
    Keeps false s.kept (outState s (execRecoveryTimeout wait s)).kept := by
  unfold execRecoveryTimeout
  simp [outState]

/-! ### Calibration -/

theorem keeps_execRotationStep (r : RotationIn) (s : State) : Keeps false s.kept (outState s (execRotationStep r s)).kept := by
  unfold execRotationStep
  simp [outState]

theorem keeps_execEstimationWindow (r : EstimationIn) (s : State) :
    Keeps false s.kept (outState s (execEstimationWindow r s)).kept := by
  unfold execEstimationWindow
  simp [outState]

theorem keeps_execFlatnessBurst (b : BurstIn) (s : State) : Keeps false s.kept (outState s (execFlatnessBurst b s)).kept := by
  unfold execFlatnessBurst
  simp [outState]

theorem keeps_execRtcTrimMeasure (errorCppm : Int) (wait : Nat) (s : State) :
    Keeps false s.kept (outState s (execRtcTrimMeasure errorCppm wait s)).kept := by
  unfold execRtcTrimMeasure
  simp [outState]

theorem keeps_execEqualiserFit (f : EqFit) (wait : Nat) (s : State) :
    Keeps false s.kept (outState s (execEqualiserFit f wait s)).kept := by
  unfold execEqualiserFit
  dsimp only [outState]
  repeat' split
  all_goals simp

/-! ### The journal -/

theorem keeps_execJournalCommit (c : CommitIn) (s : State) : Keeps false s.kept (outState s (execJournalCommit c s)).kept := by
  unfold execJournalCommit
  simp [outState]

/-! ### Images -/

theorem keeps_execChainImageStart (f : ChainFrame) (wait : Nat) (s : State) :
    Keeps false s.kept (outState s (execChainImageStart f wait s)).kept := by
  unfold execChainImageStart
  simp [outState]

theorem keeps_execChainImageBlock (f : ChainFrame) (wait : Nat) (s : State) :
    Keeps false s.kept (outState s (execChainImageBlock f wait s)).kept := by
  unfold execChainImageBlock
  dsimp only [outState]
  repeat' split
  all_goals simp

theorem keeps_execChainImageDone (f : ChainFrame) (wait : Nat) (s : State) :
    Keeps false s.kept (outState s (execChainImageDone f wait s)).kept := by
  unfold execChainImageDone
  simp [outState]

theorem keeps_execChainActivate (f : ChainFrame) (wait : Nat) (s : State) :
    Keeps false s.kept (outState s (execChainActivate f wait s)).kept := by
  unfold execChainActivate
  simp [outState]

theorem keeps_execChainByteReceived (b : Byte) (s : State) :
    Keeps false s.kept (outState s (execChainByteReceived b s)).kept := by
  unfold execChainByteReceived
  simp [outState]

/-! ### Modes, resets and the start -/

theorem keeps_execResetNAsserted (s : State) : Keeps false s.kept (outState s (execResetNAsserted s)).kept := by
  unfold execResetNAsserted
  simp [outState]

theorem keeps_execWatchdogReset (s : State) : Keeps false s.kept (outState s (execWatchdogReset s)).kept := by
  unfold execWatchdogReset
  simp [outState]

theorem keeps_execPllGLockLost (s : State) : Keeps false s.kept (outState s (execPllGLockLost s)).kept := by
  unfold execPllGLockLost
  simp [outState]

theorem keeps_execRailPowerLoss (allDown : Bool) (vbatOk : Bool) (s : State) :
    Keeps false s.kept (outState s (execRailPowerLoss allDown vbatOk s)).kept := by
  unfold execRailPowerLoss
  simp [outState]

theorem keeps_execPowerOnReset (allDown : Bool) (s : State) :
    Keeps false s.kept (outState s (execPowerOnReset allDown s)).kept := by
  unfold execPowerOnReset
  simp [outState]

theorem keeps_execTrialFailure (s : State) : Keeps false s.kept (outState s (execTrialFailure s)).kept := by
  unfold execTrialFailure
  simp [outState]

theorem keeps_execTrialConfirm (s : State) : Keeps false s.kept (outState s (execTrialConfirm s)).kept := by
  unfold execTrialConfirm
  dsimp only [outState]
  repeat' split
  all_goals simp

theorem keeps_execImageActivation (s : State) : Keeps false s.kept (outState s (execImageActivation s)).kept := by
  unfold execImageActivation
  dsimp only [outState]
  repeat' split
  all_goals simp

theorem keeps_execDeviceStart (inp : StartIn) (s : State) : Keeps false s.kept (outState s (execDeviceStart inp s)).kept := by
  unfold execDeviceStart
  split
  · exact .refl _
  · extract_lets s1 _
    have h1 : Keeps false s.kept s1.kept := by simp [s1]
    clear_value s1
    rw [outState_next]
    split
    · simp [h1]
    · extract_lets hd s2 trial g
      have h2 : Keeps false s.kept s2.kept := h1
      split <;> simp [h2]

theorem keeps_execModeTransition (c : StartCal) (segs : List SegLoad) (s : State) :
    Keeps false s.kept (outState s (execModeTransition c segs s)).kept := by
  unfold execModeTransition
  dsimp only [outState]
  repeat' split
  all_goals simp

theorem keeps_execModeTransitionComplete (wait : Nat) (s : State) :
    Keeps false s.kept (outState s (execModeTransitionComplete wait s)).kept := by
  unfold execModeTransitionComplete
  dsimp only [outState]
  repeat' split
  all_goals simp

theorem keeps_execThermalShedStep (s : State) : Keeps false s.kept (outState s (execThermalShedStep s)).kept := by
  unfold execThermalShedStep
  simp [outState]

theorem keeps_execThermalRestart (temp : W16) (s : State) :
    Keeps false s.kept (outState s (execThermalRestart temp s)).kept := by
  unfold execThermalRestart
  simp [outState]

theorem keeps_execBoundaryScan (edges : List (Bool × Bool)) (s : State) :
    Keeps false s.kept (outState s (execBoundaryScan edges s)).kept := by
  unfold execBoundaryScan
  simp [outState]

/-! ### Packets and the command ring -/

theorem keeps_execMailboxDoorbell (bus : Bus) (wait : Nat) (s : State) :
    Keeps false s.kept (outState s (execMailboxDoorbell bus wait s)).kept := by
  unfold execMailboxDoorbell
  simp [outState]

theorem keeps_execCmdRingDoorbell (bus : Bus) (producer : BitVec 24) (writes : List (Nat × Byte)) (wait : Nat)
    (s : State) : Keeps false s.kept (outState s (execCmdRingDoorbell bus producer writes wait s)).kept := by
  unfold execCmdRingDoorbell
  simp [outState]

theorem keeps_execRegisterWrite (bus : Bus) (addr : W16) (len : Nat) (value : W64) (enables : Bool) (s : State) :
    Keeps false s.kept (outState s (execRegisterWrite bus addr len value enables s)).kept := by
  unfold execRegisterWrite
  dsimp only [outState]
  repeat' split
  all_goals simp

theorem keeps_execTwWriteTransaction (addrByte : Byte) (bytes : List Byte) (stopped : Bool) (wait : Nat)
    (s : State) : Keeps false s.kept (outState s (execTwWriteTransaction addrByte bytes stopped wait s)).kept := by
  unfold execTwWriteTransaction
  dsimp only [outState]
  repeat' split
  all_goals simp

theorem keeps_execWritePacket (bytes : List Byte) (cutOff : Bool) (wait : Nat) (s : State) :
    Keeps false s.kept (outState s (execWritePacket bytes cutOff wait s)).kept := by
  unfold execWritePacket
  simp [outState]

theorem keeps_execTrunkCommandPacket (packet : List Byte) (wait : Nat) (s : State) :
    Keeps false s.kept (outState s (execTrunkCommandPacket packet wait s)).kept := by
  unfold execTrunkCommandPacket
  simp [outState]

/-! ### The tick -/

theorem keeps_execTick (inp : TickIn) (s : State) : Keeps false s.kept (outState s (execTick inp s)).kept := by
  unfold execTick
  simp [outState]

end Sys2Proof.Machine
end

section
/-! PROOFS. Every command of the queue keeps the bounds of the transports and the canonical memories (O59, O60). -/

namespace Sys2Proof.Machine

/-- What a command of the queue leaves keeps the bounds and the memories: a host command by its row of the interpreter, the others
by the rule of their row. -/
theorem keeps_exec (i : Instr) (s : State) : Keeps false s.kept (outState s (exec i s)).kept := by
  cases e : encodeParams i with
  | some x => rw [exec_eq_interpret e]; exact keeps_interpret_self s i
  | none =>
    cases i
    case mailboxDoorbell => exact keeps_execMailboxDoorbell ..
    case cmdRingDoorbell => exact keeps_execCmdRingDoorbell ..
    case intStatusWrite => exact keeps_execIntStatusWrite ..
    case intEnableWrite => exact keeps_execIntEnableWrite ..
    case dtMatchCommit => exact keeps_execDtMatchCommit ..
    case multiwordSnapshotRead => exact keeps_execMultiwordSnapshotRead ..
    case registerWrite => exact keeps_execRegisterWrite ..
    case msixUnmask => exact keeps_execMsixUnmask ..
    case pciePowerState => exact keeps_execPciePowerState ..
    case perst => exact keeps_execPerst ..
    case writePacket => exact keeps_execWritePacket ..
    case readStatus => exact keeps_execReadStatus ..
    case readPacket => exact keeps_execReadPacket ..
    case twWriteTransaction => exact keeps_execTwWriteTransaction ..
    case twReadTransaction => exact keeps_execTwReadTransaction ..
    case twTimeout => exact keeps_execTwTimeout ..
    case attnWrite => exact keeps_execAttnWrite ..
    case attnWriteRetry => exact keeps_execAttnWriteRetry ..
    case chainImageStart => exact keeps_execChainImageStart ..
    case chainImageBlock => exact keeps_execChainImageBlock ..
    case chainImageDone => exact keeps_execChainImageDone ..
    case chainActivate => exact keeps_execChainActivate ..
    case tick => exact keeps_execTick ..
    case thermalShedStep => exact keeps_execThermalShedStep ..
    case thermalRestart => exact keeps_execThermalRestart ..
    case engineSettled => exact keeps_execEngineSettled ..
    case migrationSwitch => exact keeps_execMigrationSwitch ..
    case migrationRelease => exact keeps_execMigrationRelease ..
    case migrationAbandon => exact keeps_execMigrationAbandon ..
    case planChange => exact keeps_execPlanChange ..
    case planDeferralEnd => exact keeps_execPlanDeferralEnd ..
    case pllSLockLost => exact keeps_execPllSLockLost ..
    case pllSRetry => exact keeps_execPllSRetry ..
    case pllGLockLost => exact keeps_execPllGLockLost ..
    case ppsEdge => exact keeps_execPpsEdge ..
    case referenceQualified => exact keeps_execReferenceQualified ..
    case referenceLoss => exact keeps_execReferenceLoss ..
    case holdoverExpiry => exact keeps_execHoldoverExpiry ..
    case timeStep => exact keeps_execTimeStep ..
    case dtWrap => exact keeps_execDtWrap ..
    case dtMatchExpiry => exact keeps_execDtMatchExpiry ..
    case coexRequest => exact keeps_execCoexRequest ..
    case coexGrant => exact keeps_execCoexGrant ..
    case coexRelease => exact keeps_execCoexRelease ..
    case coexTailExpiry => exact keeps_execCoexTailExpiry ..
    case coexGrantLimit => exact keeps_execCoexGrantLimit ..
    case protectionWindowLead => exact keeps_execProtectionWindowLead ..
    case protectionWindowEnd => exact keeps_execProtectionWindowEnd ..
    case coexAckTimeout => exact keeps_execCoexAckTimeout ..
    case coexInputStuck => exact keeps_execCoexInputStuck ..
    case audStartEdge => exact keeps_execAudStartEdge ..
    case audioPortTrigger => exact keeps_execAudioPortTrigger ..
    case slaveClockCheck => exact keeps_execSlaveClockCheck ..
    case audioUnderrun => exact keeps_execAudioUnderrun ..
    case zeroCrossingSwitch => exact keeps_execZeroCrossingSwitch ..
    case zeroCrossingTimeout => exact keeps_execZeroCrossingTimeout ..
    case unitCompletion => exact keeps_execUnitCompletion ..
    case collectorWrite => exact keeps_execCollectorWrite ..
    case engineHoldDrop => exact keeps_execEngineHoldDrop ..
    case ringModerationTimer => exact keeps_execRingModerationTimer ..
    case archiveIndexUnit => exact keeps_execArchiveIndexUnit ..
    case statisticsIntervalEnd => exact keeps_execStatisticsIntervalEnd ..
    case spectrumIntervalEnd => exact keeps_execSpectrumIntervalEnd ..
    case pktPortPacket => exact keeps_execPktPortPacket ..
    case rdsGroup => exact keeps_execRdsGroup ..
    case rdsSyncLoss => exact keeps_execRdsSyncLoss ..
    case pilotStateChange => exact keeps_execPilotStateChange ..
    case amSyncLock => exact keeps_execAmSyncLock ..
    case timecodeFrame => exact keeps_execTimecodeFrame ..
    case fibReceived => exact keeps_execFibReceived ..
    case dabReconfiguration => exact keeps_execDabReconfiguration ..
    case dabSyncLoss => exact keeps_execDabSyncLoss ..
    case dabSearchTimeout => exact keeps_execDabSearchTimeout ..
    case sectionReceived => exact keeps_execSectionReceived ..
    case tvSyncLoss => exact keeps_execTvSyncLoss ..
    case tvReconfiguration => exact keeps_execTvReconfiguration ..
    case tvSearchTimeout => exact keeps_execTvSearchTimeout ..
    case timeIndication => exact keeps_execTimeIndication ..
    case alertTimeout => exact keeps_execAlertTimeout ..
    case probeStart => exact keeps_execProbeStart ..
    case probeEnd => exact keeps_execProbeEnd ..
    case mapPublication => exact keeps_execMapPublication ..
    case mapEntryExpiry => exact keeps_execMapEntryExpiry ..
    case spliceSwitch => exact keeps_execSpliceSwitch ..
    case spliceTimeout => exact keeps_execSpliceTimeout ..
    case rotationStep => exact keeps_execRotationStep ..
    case estimationWindow => exact keeps_execEstimationWindow ..
    case flatnessBurst => exact keeps_execFlatnessBurst ..
    case rtcTrimMeasure => exact keeps_execRtcTrimMeasure ..
    case equaliserFit => exact keeps_execEqualiserFit ..
    case modeTransition => exact keeps_execModeTransition ..
    case modeTransitionComplete => exact keeps_execModeTransitionComplete ..
    case trunkFrame => exact keeps_execTrunkFrame ..
    case controlBurstReceived => exact keeps_execControlBurstReceived ..
    case trunkUnitPacket => exact keeps_execTrunkUnitPacket ..
    case trunkCommandPacket => exact keeps_execTrunkCommandPacket ..
    case trunkReplyEventPacket => exact keeps_execTrunkReplyEventPacket ..
    case trunkAck => exact keeps_execTrunkAck ..
    case trunkLoading => exact keeps_execTrunkLoading ..
    case trunkLoadingAck => exact keeps_execTrunkLoadingAck ..
    case trunkMaskPacket => exact keeps_execTrunkMaskPacket ..
    case trunkNoise => exact keeps_execTrunkNoise ..
    case trunkTime => exact keeps_execTrunkTime ..
    case trunkSleepPacket => exact keeps_execTrunkSleepPacket ..
    case loadingRecompute => exact keeps_execLoadingRecompute ..
    case trunkAckTimeout => exact keeps_execTrunkAckTimeout ..
    case trunkLoss => exact keeps_execTrunkLoss ..
    case trunkRemoteResend => exact keeps_execTrunkRemoteResend ..
    case meetWindowWake => exact keeps_execMeetWindowWake ..
    case meetWindowEnd => exact keeps_execMeetWindowEnd ..
    case wakeCallAccepted => exact keeps_execWakeCallAccepted ..
    case wakeCallSend => exact keeps_execWakeCallSend ..
    case recoveryTimeout => exact keeps_execRecoveryTimeout ..
    case longCall => exact keeps_execLongCall ..
    case imageActivation => exact keeps_execImageActivation ..
    case trialConfirm => exact keeps_execTrialConfirm ..
    case trialFailure => exact keeps_execTrialFailure ..
    case journalCommit => exact keeps_execJournalCommit ..
    case powerOnReset => exact keeps_execPowerOnReset ..
    case railPowerLoss => exact keeps_execRailPowerLoss ..
    case resetNAsserted => exact keeps_execResetNAsserted ..
    case watchdogReset => exact keeps_execWatchdogReset ..
    case deviceStart => exact keeps_execDeviceStart ..
    case backupDomainReset => exact keeps_execBackupDomainReset ..
    case rtcSecondRollover => exact keeps_execRtcSecondRollover ..
    case rtcUnlockTimeout => exact keeps_execRtcUnlockTimeout ..
    case rtcWriteCommit => exact keeps_execRtcWriteCommit ..
    case rtcDtCorrection => exact keeps_execRtcDtCorrection ..
    case oscillatorStopped => exact keeps_execOscillatorStopped ..
    case rdsSynchronisation => exact keeps_execRdsSynchronisation ..
    case dabSynchronised => exact keeps_execDabSynchronised ..
    case tvSynchronised => exact keeps_execTvSynchronised ..
    case carrierDetected => exact keeps_execCarrierDetected ..
    case chainByteReceived => exact keeps_execChainByteReceived ..
    case boundaryScan => exact keeps_execBoundaryScan ..
    -- host commands whose packet depends on an operand
    case eventRoute | serviceQuery | placementPolicy | surveyConfig | alertConfig | refConfig | planPolicy | ldpcPolicy =>
      rename_i operand
      cases operand <;> cases e
    -- the other host commands have a packet
    all_goals cases e

/-- A step keeps the bounds and the memories: it is one command on the rest of the queue, or none. -/
theorem keeps_step {s t : State} (h : step s = .next t) : Keeps false s.kept t.kept := by
  unfold step at h
  split at h
  · cases h; exact .refl _
  next i rest _ =>
    have hexec := keeps_exec i { s with pending := rest }
    rw [h] at hexec
    exact hexec

/-- Settles O59: what every command keeps of its transports. -/
theorem everyStepKeepsThePortBounds : Obligations.EveryStepKeepsThePortBounds := by
  unfold Obligations.EveryStepKeepsThePortBounds
  intro s t hb h
  exact (keeps_step h).1 hb

/-- Settles O60: what every command keeps of its memories. -/
theorem everyStepKeepsMemoriesCanonical : Obligations.EveryStepKeepsMemoriesCanonical := by
  unfold Obligations.EveryStepKeepsMemoriesCanonical
  intro s t hm h
  exact (keeps_step h).2.1 hm

end Sys2Proof.Machine
end

section
/-! PROOFS. A step and its front command (O51), the queries of the system family (O1), MODE_SET and RESET (O3). -/

namespace Sys2Proof.Machine

/-- Settles O51: a step is a match on the queue. -/
theorem stepTakesTheFrontCommand : Obligations.StepTakesTheFrontCommand := by
  unfold Obligations.StepTakesTheFrontCommand
  refine ⟨fun c rest s => rfl, fun s hs => ?_⟩
  unfold step
  rw [hs]

/-! ### Queries -/

/-- The counters that DIAG_QUERY gives of a transport (R412). -/
def Port.counters (p : Port) : List Byte := le 4 p.accepted ++ le 4 p.refused ++ le 4 p.retries ++ le 4 p.evDropped

theorem diagQuery_reads {h : CmdHdr} {s : State} (hk : Taken (gateAll 0x0F01) h s) :
    Reads (exec (.diagQuery h) s) 0x0F01 h s
      ([s.pPcie, s.pTw, s.pSvc, s.pTrunk].flatMap Port.counters ++ le 1 s.pcie.speed ++ le 1 s.pcie.width ++ zeros 2
        ++ le 4 s.power.resets) := by
  refine runCmd_reads _ h s _ _ hk ?_
  simp only [List.flatMap_cons, List.flatMap_nil, List.append_nil, Port.counters, List.append_assoc]
  rfl

theorem modeQuery_replies {h : CmdHdr} {s : State} (hk : Taken (gateAll 0x0103) h s) :
    Replies (exec (.modeQuery h) s) 0x0103 h s .ok noTick
      (le 1 s.power.mode.code ++ le 1 s.subCode ++ le 1 s.power.lastReset
        ++ [0] ++ le 4 s.force.wakeBudget.toNat ++ le 4 (Config.freeValue s.freeCtr) ++ le 4 (s.power.uptime / 1000))
      { s.advance h.wait with freeCtr := s.freeCtr + 1 } := runCmd_replies _ h s _ _ _ _ _ hk rfl

/-- Settles O1. -/
theorem systemQueriesAnswer : Obligations.SystemQueriesAnswer := by
  unfold Obligations.SystemQueriesAnswer
  intro h s
  exact ⟨fun hk => runCmd_reads _ h s _ _ hk rfl, fun _ hk => runCmd_reads _ h s _ _ hk rfl, modeQuery_replies,
    fun hk => runCmd_reads _ h s _ _ hk rfl, diagQuery_reads, fun _ hk => runCmd_reads _ h s _ _ hk rfl⟩


/-! ### MODE_SET -/

/-- The role and the segments let the device enter a mode (R481). -/
theorem modeSet_refusals {s : State} {m : Mode} {k : State × Answer} (hreceive : (m = .survey ∨ m = .serve) → s.role ≠ 1)
    (hrelay : m = .relay → s.role = 1) (hsegs : m.receives = true → s.power.segFailed = false) (hchange : s.inTransition = false)
    (hcool : m.receives = true → s.power.mode.receives = false → s.thermal.level = 0) :
    (s.refuseIf (((m == .survey || m == .serve) && s.isMast) || (m == .relay && !s.isMast)) .wrongMode <|
      s.refuseIf (m.receives && s.power.segFailed) .wrongMode <|
      s.refuseIf s.inTransition .busyRunning <|
      s.refuseIf (m.receives && !s.power.mode.receives && decide (1 ≤ s.thermal.level)) .thermalLimit k) = k := by
  have hrole : (((m == .survey || m == .serve) && s.isMast) || (m == .relay && !s.isMast)) = false := by
    unfold State.isMast
    cases m <;> simp_all
  have hseg : (m.receives && s.power.segFailed) = false := by
    cases hm : m.receives
    · rfl
    · rw [hsegs hm]; rfl
  have htemp : (m.receives && !s.power.mode.receives && decide (1 ≤ s.thermal.level)) = false := by
    cases hm : m.receives <;> cases hp : s.power.mode.receives <;> simp_all
  rw [State.refuseIf_false _ _ _ _ hrole, State.refuseIf_false _ _ _ _ hseg, State.refuseIf_false _ _ _ _ hchange,
    State.refuseIf_false _ _ _ _ htemp]

theorem modeSet_changes {h : CmdHdr} {s : State} {b : Byte} {m : Mode} (hk : Taken (gateAll 0x0101) h s)
    (hb : modeOf b.toNat = some m) (hne : m ≠ s.power.mode) (hreceive : (m = .survey ∨ m = .serve) → s.role ≠ 1)
    (hrelay : m = .relay → s.role = 1) (hsegs : m.receives = true → s.power.segFailed = false) (hchange : s.inTransition = false)
    (hcool : m.receives = true → s.power.mode.receives = false → s.thermal.level = 0) :
    Replies (exec (.modeSet h b) s) 0x0101 h s .ok (s.advance h.wait).effTick (le 1 s.power.mode.code ++ zeros 3)
      { s.advance h.wait with power := { s.power with
          change := some ⟨m, (s.advance h.wait).subWanted, 0, (s.advance h.wait).effTicks, false⟩, leftRelay := false } } := by
  refine runCmd_replies _ h s _ _ _ _ _ hk ?_
  simp only [hb]
  exact (modeSet_refusals (s := s.advance h.wait) hreceive hrelay hsegs hchange hcool).trans (if_neg hne)

theorem modeSet_inForce {h : CmdHdr} {s : State} {b : Byte} (hk : Taken (gateAll 0x0101) h s)
    (hb : modeOf b.toNat = some s.power.mode) (hchange : s.inTransition = false)
    (hreceive : (s.power.mode = .survey ∨ s.power.mode = .serve) → s.role ≠ 1)
    (hrelay : s.power.mode = .relay → s.role = 1) (hsegs : s.power.mode.receives = true → s.power.segFailed = false) :
    Reads (exec (.modeSet h b) s) 0x0101 h s (le 1 s.power.mode.code ++ zeros 3) := by
  refine runCmd_reads _ h s _ _ hk ?_
  simp only [hb]
  refine (modeSet_refusals (s := s.advance h.wait) hreceive hrelay hsegs hchange (fun h₁ h₂ => ?_)).trans ?_
  · exact absurd (h₁.symm.trans h₂) (by decide)
  · exact if_pos rfl

theorem modeSet_wrongRole {h : CmdHdr} {s : State} {b : Byte} {m : Mode} (hk : Taken (gateAll 0x0101) h s)
    (hb : modeOf b.toNat = some m) (hbar : ((m = .survey ∨ m = .serve) ∧ s.role = 1) ∨ (m = .relay ∧ s.role ≠ 1)) :
    Replies (exec (.modeSet h b) s) 0x0101 h s .wrongMode noTick [] (s.advance h.wait) := by
  refine runCmd_refuses _ h s _ _ hk ?_
  simp only [hb]
  refine State.refuseIf_true _ _ _ _ ?_
  have hmast : (s.advance h.wait).isMast = (s.role == 1) := rfl
  rw [hmast]
  obtain ⟨rfl | rfl, hr⟩ | ⟨rfl, hr⟩ := hbar <;> simp [hr]

theorem modeSet_busy {h : CmdHdr} {s : State} {b : Byte} (hk : Taken (gateAll 0x0101) h s) (hchange : s.inTransition = true)
    (hb : b = 1#8 ∨ b = 5#8) : Replies (exec (.modeSet h b) s) 0x0101 h s .busyRunning noTick [] (s.advance h.wait) := by
  refine runCmd_refuses _ h s _ _ hk ?_
  have hbusy : (s.advance h.wait).inTransition = true := hchange
  obtain rfl | rfl := hb <;> simp [modeOf, Mode.receives, State.refuseIf, hbusy]

/-! ### RESET -/

theorem reset_ok {h : CmdHdr} {s : State} {k : Byte} (hk : Taken (gateAll 0x0104) h s) (hkind : k.toNat ≤ 1) :
    Replies (exec (.reset h k 0x9484#16) s) 0x0104 h s .ok noTick []
      { s.advance h.wait with power := { s.power with
          resetIn := some (((s.advance h.wait).now + 10999999 - s.time.boundary) / 1000000 + 1), enterMaintain := k == 1#8 } } := by
  refine runCmd_replies _ h s _ _ _ _ _ hk ?_
  exact State.refuseIf_false _ _ _ _ (by simpa using hkind)

theorem reset_badParam {h : CmdHdr} {s : State} {k : Byte} {c : W16} (hk : Taken (gateAll 0x0104) h s)
    (hbad : 1 < k.toNat ∨ c ≠ 0x9484#16) :
    Replies (exec (.reset h k c) s) 0x0104 h s .badParam noTick [] (s.advance h.wait) :=
  runCmd_refuses _ h s _ _ hk (State.refuseIf_true _ _ _ _ (by simpa using hbad))

/-- Settles O3. -/
theorem modeSetAndResetAnswer : Obligations.ModeSetAndResetAnswer := by
  unfold Obligations.ModeSetAndResetAnswer
  intro h s
  exact ⟨fun _ _ => modeSet_changes, fun _ => modeSet_inForce, fun _ _ => modeSet_wrongRole, fun _ hk _ => modeSet_busy hk,
    fun _ => reset_ok, fun _ _ => reset_badParam⟩

end Sys2Proof.Machine
end

section
/-! PROOFS. The commands of calibration (O15) and of the backup domain (O18). -/

namespace Sys2Proof.Machine

/-- Beside delivery, a state of the same core will do. -/
theorem Replies.of_core {r : Res} {op : Nat} {h : CmdHdr} {s t u : State} {st : Status} {eff : W32} {ps : List Byte}
    (hr : Replies r op h s st eff ps t) (hc : t.core = u.core) : Replies r op h s st eff ps u := by
  obtain ⟨v, hv, hcore, hlast⟩ := hr
  have hgen : t.replyGen h.slot = u.replyGen h.slot := Sys2Proof.Machine.of_core (·.replyGen h.slot) (fun _ => rfl) hc
  exact ⟨v, hv, hcore.trans hc, hgen ▸ hlast⟩

/-! ### Reading calibration -/

theorem calRead_reads {h : CmdHdr} {s : State} {b : Byte} (hk : Taken (gateAll 0x0B03) h s) (hb : b.toNat ∈ calOrder) :
    Reads (exec (.calRead h b) s) 0x0B03 h s (s.cal.header b.toNat ++ s.cal.body b.toNat) := by
  refine runCmd_reads _ h s _ _ hk ?_
  exact State.refuseIf_false _ _ _ _ (by simpa using hb)

theorem calRead_badParam {h : CmdHdr} {s : State} {b : Byte} (hk : Taken (gateAll 0x0B03) h s) (hb : b.toNat ∉ calOrder) :
    Replies (exec (.calRead h b) s) 0x0B03 h s .badParam noTick [] (s.advance h.wait) :=
  runCmd_refuses _ h s _ _ hk (State.refuseIf_true _ _ _ _ (by simpa using hb))

/-! ### CAL_RUN -/

/-- The targets of CAL_RUN with their ranges (R381): an ADC without RETIRE_CLEAR, the flatness of inputs, the clocks. -/
def CalTarget (t o k : Byte) : Prop :=
  (t = 0#8 ∧ k.toNat ≤ 2 ∧ o.toNat ≤ 1) ∨ (t = 1#8 ∧ 1 ≤ k.toNat ∧ k.toNat ≤ 7) ∨ t = 2#8

theorem CalTarget.inRange {t o k : Byte} (h : CalTarget t o k) :
    (decide (3 < t.toNat) || (t.toNat == 0 && (decide (2 < k.toNat) || decide (3 < o.toNat)))
      || (t.toNat == 1 && (k.toNat == 0 || decide (7 < k.toNat)))) = false := by
  obtain ⟨rfl, hk, ho⟩ | ⟨rfl, hlo, hhi⟩ | rfl := h
  · simp; omega
  · simp; omega
  · rfl

/-- None of the targets clears what is retired. -/
theorem CalTarget.keepsRetired {t o k : Byte} (h : CalTarget t o k) : (t.toNat == 0 && o.getLsbD 1) = false := by
  obtain ⟨rfl, -, ho⟩ | ⟨rfl, -⟩ | rfl := h
  · have hbit : o.getLsbD 1 = false := by
      rw [BitVec.getLsbD, Nat.testBit_eq_false_of_lt (by omega)]
    rw [hbit]; rfl
  · rfl
  · rfl

theorem CalTarget.options {t o k : Byte} (h : CalTarget t o k) :
    (if (t.toNat == 0) = true then o.toNat else 0) = if t = 0#8 then o.toNat else 0 := by
  obtain ⟨rfl, -⟩ | ⟨rfl, -⟩ | rfl := h <;> rfl

theorem CalTarget.notTrunk {t o k : Byte} (h : CalTarget t o k) : (t.toNat == 3) = false := by
  obtain ⟨rfl, -⟩ | ⟨rfl, -⟩ | rfl := h <;> rfl

theorem calRun_starts {h : CmdHdr} {s : State} {t o k : Byte} (hk : Taken ⟨0x0B01, .none, [.maintain], .none⟩ h s)
    (hcool : s.thermal.level = 0) (hjob : s.cal.job = none) (ht : CalTarget t o k) :
    Replies (exec (.calRun h t o k) s) 0x0B01 h s .ok noTick []
      { s.advance h.wait with
        cal := { s.cal with job := some ⟨t.toNat, if t = 0#8 then o.toNat else 0, k.toNat⟩ } } := by
  refine runCmd_replies _ h s _ _ _ _ _ hk ?_
  dsimp only
  rw [State.refuseIf_false _ _ _ _ ht.inRange, State.refuseIf_false _ _ _ _ (by simp [hcool]),
    State.refuseIf_false _ _ _ _ (by simp [hjob]), State.refuseIf_false _ _ _ _ (by simp [ht.notTrunk])]
  simp only [ht.keepsRetired, ht.options, Bool.false_and, Bool.false_eq_true, if_false]
  rfl

theorem calRun_hot {h : CmdHdr} {s : State} {o k : Byte} (hk : Taken ⟨0x0B01, .none, [.maintain], .none⟩ h s)
    (hhot : 1 ≤ s.thermal.level) :
    Replies (exec (.calRun h 2#8 o k) s) 0x0B01 h s .thermalLimit noTick [] (s.advance h.wait) := by
  refine runCmd_refuses _ h s _ _ hk ?_
  dsimp only
  rw [State.refuseIf_false _ _ _ _ (CalTarget.inRange (.inr (.inr rfl)))]
  exact State.refuseIf_true _ _ _ _ (decide_eq_true hhot)

/-! ### CAL_WRITE of the trim block -/

/-- Block, version and length of a trim block that CAL_WRITE reads (R382). -/
structure TrimBlock (b : CalBlock) : Prop where
  block : b.block = 0x40#8
  version : b.version = 1#8
  length : b.body.length = calLen 0x40

theorem TrimBlock.inRange {b : CalBlock} (h : TrimBlock b) :
    (!calOrder.contains b.block.toNat || b.version != 1#8 || b.body.length != calLen b.block.toNat) = false := by
  obtain ⟨hb, hv, hl⟩ := h
  rw [hb, hv, hl]
  rfl

theorem calWrite_trim {h : CmdHdr} {s : State} {b : CalBlock} (hk : Taken ⟨0x0B04, .none, [.dormant, .maintain], .none⟩ h s)
    (hb : TrimBlock b) (hunit : b.unit = Config.unitId) (hok : calValuesOk b = true) :
    Replies (exec (.calWrite h b) s) 0x0B04 h s .ok noTick []
      { s.advance h.wait with
        rtc := { s.rtc with trim := BitVec.ofNat 16 (field b.body 0 2) }
        cal := { s.cal with trim := ⟨writtenHead b, BitVec.ofNat 16 (field b.body 0 2),
          (BitVec.ofNat 32 (field b.body 4 4)).toInt⟩ } } := by
  refine runCmd_replies _ h s _ _ _ _ _ hk ?_
  dsimp only
  rw [State.refuseIf_false _ _ _ _ hb.inRange, State.refuseIf_false _ _ _ _ (by simp [hunit, hok])]
  simp [State.putBlock, hb.block, State.modCal, answer]

theorem calWrite_otherUnit {h : CmdHdr} {s : State} {b : CalBlock}
    (hk : Taken ⟨0x0B04, .none, [.dormant, .maintain], .none⟩ h s) (hb : TrimBlock b) (hunit : b.unit ≠ Config.unitId) :
    Replies (exec (.calWrite h b) s) 0x0B04 h s .calRejected noTick [] (s.advance h.wait) := by
  refine runCmd_refuses _ h s _ _ hk ?_
  dsimp only
  rw [State.refuseIf_false _ _ _ _ hb.inRange, State.refuseIf_true _ _ _ _ (by simp [hunit])]

/-- Settles O15. -/
theorem calibrationCommands : Obligations.CalibrationCommands := by
  unfold Obligations.CalibrationCommands
  intro h s
  exact ⟨fun hk => runCmd_reads _ h s _ _ hk rfl, fun _ => calRead_reads, fun _ => calRead_badParam,
    fun _ t hk hne ha => runCmd_sets _ h s _ (some 4) (fun a => { a with cal := t }) [] hk (itemCmd_put hne ha),
    fun hk => runCmd_reads _ h s _ _ hk rfl, fun _ _ _ => calRun_starts, fun _ _ _ hk ht hhot => by subst ht; exact calRun_hot hk hhot,
    fun _ hk hb hv hl hu hok => calWrite_trim hk ⟨hb, hv, hl⟩ hu hok, fun _ hk hb hv hl hu => calWrite_otherUnit hk ⟨hb, hv, hl⟩ hu⟩

/-! ### The backup domain behind its lock -/

/-- The first test of every command of the family: while the interface is locked it is LOCKED (R498). -/
theorem runCmd_locked {g : Gate} {h : CmdHdr} {s : State} {rest : State → State × Answer} (hk : Taken g h s)
    (hlock : s.rtc.locked = true) :
    Replies (.next (s.runCmd g h fun s => s.refuseIf s.rtc.locked .locked (rest s))) g.opcode h s .locked noTick []
      (s.advance h.wait) := runCmd_refuses _ h s _ _ hk (State.refuseIf_true _ _ _ _ hlock)

theorem refuseIf_unlocked {s : State} {n : Nat} {k : State × Answer} (h : s.rtc.locked = false) :
    (s.advance n).refuseIf (s.advance n).rtc.locked .locked k = k := State.refuseIf_false _ _ _ _ h

theorem rtcSet_waits {h : CmdHdr} {s : State} {c : Calendar} {o : Byte} (hk : Taken (gateAll 0x0E01) h s)
    (hopen : s.rtc.locked = false) (ho : o.toNat ≤ 1) (hc : calendarOk c = true) :
    Replies (exec (.rtcSet h c o) s) 0x0E01 h s .ok (tick32 (s.advance h.wait).rtcTick) []
      { s.advance h.wait with
        acc := { s.acc with gen := s.acc.gen + 1 }
        rtc := { s.rtc with write := s.rtc.write ++
          [⟨o.toNat, calendarRtc c, (s.advance h.wait).rtcTick - (s.advance h.wait).tickNow⟩] } } := by
  have ho2 : o ≠ 2#8 := fun e => by rw [e] at ho; exact absurd ho (by decide)
  have hrange : (decide (2 < o.toNat) || (o != 2#8 && !calendarOk c)) = false := by
    rw [hc, Bool.not_true, Bool.and_false, Bool.or_false, decide_eq_false_iff_not]; omega
  refine runCmd_replies _ h s _ _ _ _ _ hk ?_
  dsimp only
  rw [refuseIf_unlocked hopen, State.refuseIf_false _ _ _ _ hrange, if_neg (fun hx => ho2 hx.1)]
  rfl

theorem rtcQuery_reads {h : CmdHdr} {s : State} (hk : Taken (gateAll 0x0E02) h s) (hopen : s.rtc.locked = false) :
    Reads (exec (.rtcQuery h) s) 0x0E02 h s
      (s.rtc.cal.bytes 0 ++ le 1 ((if s.rtc.halt then 1 else 0) + (if s.rtc.osf then 2 else 0) + (if s.rtc.wasVbat then 4 else 0))
        ++ [0] ++ le 2 s.rtc.trim.toNat ++ s.rtc.alarm.bytes (if s.rtc.alarmEn then 1 else 0)) :=
  runCmd_reads _ h s _ _ hk (State.refuseIf_false _ _ _ _ hopen)

theorem core_setRtc (s : State) (r : RtcSt) : (s.setRtc r).core = ({ s with rtc := r } : State).core := by
  unfold State.setRtc
  dsimp only
  split <;> rfl

theorem rtcAlarm_sets {h : CmdHdr} {s : State} {c : Calendar} {e : Byte} (hk : Taken (gateAll 0x0E05) h s)
    (hopen : s.rtc.locked = false) (he : e.toNat ≤ 1) (hc : calendarOk c = true) :
    Replies (exec (.rtcAlarm h c e) s) 0x0E05 h s .ok noTick []
      { s.advance h.wait with rtc := { s.rtc with alarm := calendarRtc c, alarmEn := e == 1#8, alarmFlag := false } } := by
  refine Replies.of_core (t := (s.advance h.wait).setRtc _) (runCmd_replies _ h s _ _ _ _ _ hk ?_) (core_setRtc _ _)
  dsimp only
  rw [refuseIf_unlocked hopen, State.refuseIf_false _ _ _ _ (by simp [hc]; omega)]
  rfl

theorem backupOk_of_range {o n : Nat} (hn : 1 ≤ n) (h : o + n ≤ 32) : backupOk o n = true := by
  simp only [backupOk, decide_eq_true_eq]; omega

theorem backupOk_of_past {o n : Nat} (h : 32 < o + n) : backupOk o n = false := by
  simp only [backupOk, decide_eq_false_iff_not]; omega

theorem backupWrite_replaces {h : CmdHdr} {s : State} {o : Byte} {d : List Byte} (hk : Taken (gateAll 0x0E03) h s)
    (hopen : s.rtc.locked = false) (hd : 1 ≤ d.length) (hfit : o.toNat + d.length ≤ 32) :
    Replies (exec (.backupWrite h o d) s) 0x0E03 h s .ok noTick []
      { s.advance h.wait with rtc := { s.rtc with
          backup := s.rtc.backup.take o.toNat ++ d ++ s.rtc.backup.drop (o.toNat + d.length) } } := by
  refine runCmd_replies _ h s _ _ _ _ _ hk ?_
  dsimp only
  rw [refuseIf_unlocked hopen, State.refuseIf_false _ _ _ _ (by rw [backupOk_of_range hd hfit]; rfl)]
  rfl

theorem backupRead_reads {h : CmdHdr} {s : State} {o n : Byte} (hk : Taken (gateAll 0x0E04) h s)
    (hopen : s.rtc.locked = false) (hn : 1 ≤ n.toNat) (hfit : o.toNat + n.toNat ≤ 32) :
    Reads (exec (.backupRead h o n) s) 0x0E04 h s (pad4 ((s.rtc.backup.drop o.toNat).take n.toNat)) := by
  refine runCmd_reads _ h s _ _ hk ?_
  rw [refuseIf_unlocked hopen, State.refuseIf_false _ _ _ _ (by rw [backupOk_of_range hn hfit]; rfl)]
  rfl

theorem backupRead_badParam {h : CmdHdr} {s : State} {o n : Byte} (hk : Taken (gateAll 0x0E04) h s)
    (hopen : s.rtc.locked = false) (hpast : 32 < o.toNat + n.toNat) :
    Replies (exec (.backupRead h o n) s) 0x0E04 h s .badParam noTick [] (s.advance h.wait) := by
  refine runCmd_refuses _ h s _ _ hk ?_
  rw [refuseIf_unlocked hopen, State.refuseIf_true _ _ _ _ (by rw [backupOk_of_past hpast]; rfl)]

/-- Settles O18. -/
theorem clockAndBackupCommands : Obligations.ClockAndBackupCommands := by
  unfold Obligations.ClockAndBackupCommands
  intro h s
  exact ⟨fun _ _ => rtcSet_waits, rtcQuery_reads, fun _ _ => rtcAlarm_sets, fun _ _ => backupWrite_replaces,
    fun _ _ => backupRead_reads, fun _ _ => backupRead_badParam,
    fun hl => ⟨fun _ _ hk => runCmd_locked hk hl, fun hk => runCmd_locked hk hl, fun _ _ hk => runCmd_locked hk hl,
      fun _ _ hk => runCmd_locked hk hl, fun _ _ hk => runCmd_locked hk hl⟩⟩

end Sys2Proof.Machine
end

section
/-! PROOFS. The image commands, SETTINGS_QUERY and OTP_KEY (O17). -/

namespace Sys2Proof.Machine

/-! ### A slot -/

@[simp] theorem slot_modSlot (s : State) (i : Nat) (f : ImgSlot → ImgSlot) : (s.modSlot i f).slot i = f (s.slot i) := by
  unfold State.modSlot State.slot
  split <;> rfl

/-- EV_IMAGE_STATE changes nothing beside delivery. -/
@[simp] theorem core_imageEvent (s : State) (i reason : Nat) : (s.imageEvent i reason).core = s.core := core_raise_noSlot ..

@[simp] theorem slot_imageEvent (s : State) (i reason k : Nat) : (s.imageEvent i reason).slot k = s.slot k :=
  of_core (·.slot k) (fun _ => rfl) (core_imageEvent ..)

theorem imgOf_owner {s : State} {i : Nat} {t : ImgTransfer} (ht : (s.slot i).transfer = some t) : s.imgOf t.owner i = some t := by
  simp [State.imgOf, ht]

/-! ### The transfer -/

/-- A slot that receives an image of `len` bytes from its first one. -/
def receivingSlot (o : ImgOwner) (len : Nat) (seq : Byte) : ImgSlot := ⟨.receiving, 0, 0#32, 0, none, some ⟨o, len, 0, [], seq⟩⟩

/-- The state with the first sector of a slot erased. -/
def State.erased (s : State) (i : Nat) : State :=
  { s with flash := { s.flash with mem := Memory.clear s.flash.mem (s.slotBase i) 65536 } }

theorem imgBegin_receives {s : State} {o : ImgOwner} {i len : Nat} {seq : Byte} (hi : i ≤ 1) (hrun : s.runs i = false)
    (hsched : (s.slot i).state ≠ .scheduled) (hheld : (s.slot i).heldFrom o = false) (hcool : s.thermal.level = 0) :
    s.imgBegin o i len seq = (((s.erased i).modSlot i (fun _ => receivingSlot o len seq)).imageEvent i 0, .ok) := by
  unfold State.imgBegin
  rw [if_neg (by omega), if_neg (by simp [hrun, hsched, hheld]), if_neg (by simp [State.tooHot, hcool])]
  rfl

theorem imgBegin_running {s : State} {o : ImgOwner} {i len : Nat} {seq : Byte} (hi : i ≤ 1) (hrun : s.runs i = true) :
    s.imgBegin o i len seq = (s, .busyRunning) := by
  unfold State.imgBegin
  rw [if_neg (by omega), if_pos (by simp [hrun])]

/-- Bytes of the header program nothing: they stay in the header copy. -/
theorem imgProgram_header {s : State} {i off : Nat} {data : List Byte} (h : off + data.length < 384) (hne : 1 ≤ data.length) :
    s.imgProgram i off data = s := by
  have hdrop : data.drop (384 - off) = [] := List.drop_eq_nil_of_le (by omega)
  have hsectors : List.range ((off + data.length + 65535) / 65536 - (off + 65535) / 65536) = if off = 0 then [0] else [] := by
    split
    · rw [show (off + data.length + 65535) / 65536 - (off + 65535) / 65536 = 1 by omega]; rfl
    · rw [show (off + data.length + 65535) / 65536 - (off + 65535) / 65536 = 0 by omega]; rfl
  unfold State.imgProgram
  simp only [hdrop, hsectors, Memory.writeN]
  split
  · next h0 => subst h0; rfl
  · rfl

/-- Bytes that leave the header incomplete only grow the header copy. -/
theorem imgData_header {s : State} {i off : Nat} {data : List Byte} {seq : Byte} {t : ImgTransfer} (hi : i ≤ 1)
    (ht : (s.slot i).transfer = some t) (hrecv : (s.slot i).state = .receiving) (hoff : off = t.next)
    (hfit : t.next + data.length ≤ t.length) (hcool : s.thermal.level = 0) (hpart : t.head.length + data.length < 384)
    (hhead : t.head.length = t.next) (hne : 1 ≤ data.length) :
    s.imgData t.owner i off data seq = (s.modSlot i (fun x => { x with
      transfer := some { t with next := t.next + data.length, head := t.head ++ data, chainSeq := seq } }), .ok) := by
  subst hoff
  have htake : data.take (384 - t.head.length) = data := List.take_of_length_le (by omega)
  unfold State.imgData
  simp only [imgOf_owner ht, htake]
  rw [if_neg (by omega), if_neg (not_not_intro hrecv), if_neg (by omega), if_neg (by simp [State.tooHot, hcool])]
  have hdone : decide (t.head.length < 384 ∧ (t.head ++ data).length = 384) = false := by
    rw [decide_eq_false_iff_not, List.length_append]; omega
  simp only [hdone, Bool.false_eq_true, if_false, ne_eq, not_true_eq_false]
  rw [imgProgram_header (by omega) hne]

theorem imgEnd_incomplete {s : State} {i : Nat} {t : ImgTransfer} (ht : (s.slot i).transfer = some t)
    (hrecv : (s.slot i).state = .receiving) (hshort : t.next < t.length) :
    s.imgEnd t.owner i
      = ((s.modSlot i (fun x => { x with state := .refused, reason := 0x0E, transfer := none })).imageEvent i 0x0E, .imageRefused) := by
  unfold State.imgEnd
  simp only [imgOf_owner ht]
  rw [if_neg (not_not_intro hrecv), if_pos (.inl hshort)]
  rfl

/-- The state with a header page programmed into a slot, which is bootable. -/
def State.programmed (s : State) (i : Nat) (head : List Byte) : State :=
  ({ s with flash := { s.flash with mem := Memory.writeN flashDefault s.flash.mem (s.slotBase i) head } }).modSlot i
    (fun x => { x with state := .bootable, reason := 0, transfer := none })

theorem imgEnd_bootable {s : State} {i : Nat} {t : ImgTransfer} (ht : (s.slot i).transfer = some t)
    (hrecv : (s.slot i).state = .receiving) (hwhole : t.length ≤ t.next) (hhead : 384 ≤ t.head.length)
    (hdigest : s.digestOk i t.head = true) :
    s.imgEnd t.owner i = ((s.programmed i t.head).imageEvent i 0, .ok) := by
  unfold State.imgEnd
  simp only [imgOf_owner ht]
  rw [if_neg (not_not_intro hrecv), if_neg (by omega), if_neg (by simp [hdigest])]
  rfl

/-! ### Activation -/

theorem imgActivate_schedules {s : State} {i dt : Nat} (hi : i ≤ 1) (hrun : s.runs i = false)
    (hdt : s.effTickIdx * 1000000 < dt) (hloader : s.power.recovery = false) (hcool : s.thermal.level = 0)
    (h0 : (s.slot 0).state ≠ .scheduled) (h1 : (s.slot 1).state ≠ .scheduled) (hnv : s.journal.readOnly = false)
    (hboot : (s.slot i).state = .bootable) :
    s.imgActivate i dt = ((s.modSlot i (fun x => { x with
      state := .scheduled, reason := 0, activate := some (BitVec.ofNat 64 dt) })).imageEvent i 0, answer .ok) := by
  have hat : (if (dt = 0 || s.power.recovery : Bool) = true then s.effTickIdx * 1000000 else dt) = dt :=
    if_neg (by simp [hloader]; omega)
  unfold State.imgActivate
  simp only [hat]
  rw [if_neg (by omega), if_neg (by simp [hrun]), if_neg (by omega), if_neg (by simp [State.tooHot, hcool]),
    if_neg (by simp [h0, h1]), if_neg (by simp [hnv]), if_neg (not_not_intro hboot), if_neg (by omega)]
  rfl

/-! ### The commands -/

theorem imageBegin_receives {h : CmdHdr} {s : State} {i : Byte} {len : W32} (hk : Taken (gateAll 0x0D01) h s) (hi : i.toNat ≤ 1)
    (hrun : s.runs i.toNat = false) (hsched : (s.slot i.toNat).state ≠ .scheduled)
    (hheld : (s.slot i.toNat).heldFrom (.transport h.tr) = false) (hcool : s.thermal.level = 0) :
    Replies (exec (.imageBegin h i len) s) 0x0D01 h s .ok noTick []
      (((s.advance h.wait).erased i.toNat).modSlot i.toNat (fun _ => receivingSlot (.transport h.tr) len.toNat 0#8)) := by
  refine Replies.of_core (runCmd_replies _ h s _ _ _ _ _ hk ?_) (core_imageEvent _ i.toNat 0)
  rw [imgBegin_receives (s := s.advance h.wait) hi hrun hsched hheld hcool]
  rfl

theorem imageBegin_running {h : CmdHdr} {s : State} {i : Byte} {len : W32} (hk : Taken (gateAll 0x0D01) h s) (hi : i.toNat ≤ 1)
    (hrun : s.runs i.toNat = true) :
    Replies (exec (.imageBegin h i len) s) 0x0D01 h s .busyRunning noTick [] (s.advance h.wait) := by
  refine runCmd_refuses _ h s _ _ hk ?_
  rw [imgBegin_running (s := s.advance h.wait) hi hrun]
  rfl

theorem imageData_header {h : CmdHdr} {s : State} {i : Byte} {off : W32} {data : List Byte} {t : ImgTransfer}
    (hk : Taken (gateAll 0x0D02) h s) (hi : i.toNat ≤ 1) (ht : (s.slot i.toNat).transfer = some t)
    (howner : t.owner = .transport h.tr) (hrecv : (s.slot i.toNat).state = .receiving) (hoff : off.toNat = t.next)
    (hfit : t.next + data.length ≤ t.length) (hcool : s.thermal.level = 0) (hpart : t.head.length + data.length < 384)
    (hhead : t.head.length = t.next) (hne : 1 ≤ data.length) :
    Replies (exec (.imageData h i off data) s) 0x0D02 h s .ok noTick []
      ((s.advance h.wait).modSlot i.toNat (fun x => { x with
        transfer := some { t with next := t.next + data.length, head := t.head ++ data, chainSeq := 0#8 } })) := by
  refine runCmd_replies _ h s _ _ _ _ _ hk ?_
  rw [← howner, imgData_header (s := s.advance h.wait) hi ht hrecv hoff hfit hcool hpart hhead hne]
  rfl

/-- IMAGE_END answers the slot as it leaves it. -/
theorem imageEnd_replies {h : CmdHdr} {s u : State} {i : Byte} {st : Status} {reason : Nat} (hk : Taken (gateAll 0x0D03) h s)
    (hi : i.toNat ≤ 1) (hcool : s.thermal.level = 0) (hst : st ≠ .notFound)
    (hend : (s.advance h.wait).imgEnd (.transport h.tr) i.toNat = (u.imageEvent i.toNat reason, st)) :
    Replies (exec (.imageEnd h i) s) 0x0D03 h s st noTick (u.slot i.toNat).endReply u := by
  refine Replies.of_core (runCmd_replies _ h s _ _ _ _ _ hk ?_) (core_imageEvent u i.toNat reason)
  simp only [hend]
  rw [if_neg (by omega), if_neg (by simp [State.tooHot, hcool]), if_neg hst, slot_imageEvent]
  rfl

theorem imageEnd_incomplete {h : CmdHdr} {s : State} {i : Byte} {t : ImgTransfer} (hk : Taken (gateAll 0x0D03) h s)
    (hi : i.toNat ≤ 1) (hcool : s.thermal.level = 0) (ht : (s.slot i.toNat).transfer = some t) (howner : t.owner = .transport h.tr)
    (hrecv : (s.slot i.toNat).state = .receiving) (hshort : t.next < t.length) :
    let u := (s.advance h.wait).modSlot i.toNat (fun x => { x with state := .refused, reason := 0x0E, transfer := none })
    Replies (exec (.imageEnd h i) s) 0x0D03 h s .imageRefused noTick (u.slot i.toNat).endReply u := by
  refine imageEnd_replies (reason := 0x0E) hk hi hcool (by decide) ?_
  rw [← howner]
  exact imgEnd_incomplete (s := s.advance h.wait) ht hrecv hshort

theorem imageEnd_bootable {h : CmdHdr} {s : State} {i : Byte} {t : ImgTransfer} (hk : Taken (gateAll 0x0D03) h s)
    (hi : i.toNat ≤ 1) (hcool : s.thermal.level = 0) (ht : (s.slot i.toNat).transfer = some t) (howner : t.owner = .transport h.tr)
    (hrecv : (s.slot i.toNat).state = .receiving) (hwhole : t.length ≤ t.next) (hhead : 384 ≤ t.head.length)
    (hdigest : s.digestOk i.toNat t.head = true) :
    let u := (s.advance h.wait).programmed i.toNat t.head
    Replies (exec (.imageEnd h i) s) 0x0D03 h s .ok noTick (u.slot i.toNat).endReply u := by
  refine imageEnd_replies (reason := 0) hk hi hcool (by decide) ?_
  rw [← howner]
  exact imgEnd_bootable (s := s.advance h.wait) ht hrecv hwhole hhead hdigest

theorem imageActivate_schedules {h : CmdHdr} {s : State} {i : Byte} {dt : W64} (hk : Taken (gateAll 0x0D04) h s)
    (hi : i.toNat ≤ 1) (hrun : s.runs i.toNat = false) (hdt : (s.advance h.wait).effTickIdx * 1000000 < dt.toNat)
    (hloader : s.power.recovery = false) (hcool : s.thermal.level = 0) (h0 : (s.slot 0).state ≠ .scheduled)
    (h1 : (s.slot 1).state ≠ .scheduled) (hnv : s.journal.readOnly = false) (hboot : (s.slot i.toNat).state = .bootable) :
    Replies (exec (.imageActivate h i dt) s) 0x0D04 h s .ok noTick []
      ((s.advance h.wait).modSlot i.toNat (fun x => { x with state := .scheduled, reason := 0, activate := some dt })) := by
  refine Replies.of_core (runCmd_replies _ h s _ _ _ _ _ hk ?_) (core_imageEvent _ i.toNat 0)
  rw [imgActivate_schedules (s := s.advance h.wait) hi hrun hdt hloader hcool h0 h1 hnv hboot, BitVec.ofNat_toNat,
    BitVec.setWidth_eq]
  rfl

/-- The key slot that OTP_KEY names, and its operands in range. -/
theorem otpKey_inRange {k : Byte} (hk : k.toNat ≤ 3) :
    (decide (1 < (0#8 : Byte).toNat) || decide (3 < k.toNat) || (0x9484#16 : W16) != 0x9484#16) = false := by
  simp; omega

theorem otpKey_programs {h : CmdHdr} {s : State} {k : Byte} {hash : List Byte} {key : OtpKey}
    (hk : Taken ⟨0x0D08, .none, [.maintain], .none⟩ h s) (hk3 : k.toNat ≤ 3) (hkey : s.flash.keys[k.toNat]? = some key)
    (hempty : key.hash = none) :
    Replies (exec (.otpKey h 0#8 k 0x9484#16 hash) s) 0x0D08 h s .ok noTick []
      { s.advance h.wait with
        flash := { s.flash with keys := s.flash.keys.set k.toNat { key with hash := some hash } } } := by
  refine runCmd_replies _ h s _ _ _ _ _ hk ?_
  dsimp only
  rw [State.refuseIf_false _ _ _ _ (otpKey_inRange hk3)]
  simp only [State.advance_flash, List.getD, hkey, Option.getD_some, if_true]
  exact State.refuseIf_false _ _ _ _ (by rw [hempty]; rfl)

theorem otpKey_locked {h : CmdHdr} {s : State} {k : Byte} {hash : List Byte} {key : OtpKey}
    (hk : Taken ⟨0x0D08, .none, [.maintain], .none⟩ h s) (hk3 : k.toNat ≤ 3) (hkey : s.flash.keys[k.toNat]? = some key)
    (hfull : key.hash.isSome = true) :
    Replies (exec (.otpKey h 0#8 k 0x9484#16 hash) s) 0x0D08 h s .locked noTick [] (s.advance h.wait) := by
  refine runCmd_refuses _ h s _ _ hk ?_
  dsimp only
  rw [State.refuseIf_false _ _ _ _ (otpKey_inRange hk3)]
  simp only [State.advance_flash, List.getD, hkey, Option.getD_some, if_true]
  exact State.refuseIf_true _ _ _ _ hfull

/-- Settles O17. -/
theorem imageAndKeyCommands : Obligations.ImageAndKeyCommands := by
  unfold Obligations.ImageAndKeyCommands
  intro h s
  exact ⟨fun _ _ => imageBegin_receives, fun _ _ => imageBegin_running, fun _ _ _ _ => imageData_header,
    fun _ _ => imageEnd_incomplete, fun _ _ => imageEnd_bootable, fun _ _ => imageActivate_schedules, fun hk => runCmd_reads _ h s _ _ hk rfl, fun hk => runCmd_reads _ h s _ _ hk rfl,
    fun _ _ _ => otpKey_programs, fun _ _ _ => otpKey_locked⟩

end Sys2Proof.Machine
end

section
/-! PROOFS. The direct registers of a bus: interrupts (O19), DT_MATCH (O20), reads (O21) and writes (O22). -/

namespace Sys2Proof.Machine

/-! ### The registers of the two buses -/

@[simp] theorem bus_setBus_ne (s : State) {b c : Bus} (h : c ≠ b) (r : BusRegs) : (s.setBus b r).bus c = s.bus c := by
  cases b <;> cases c
  · exact absurd rfl h
  · rfl
  · rfl
  · exact absurd rfl h

@[simp] theorem bus_msix (s : State) (v : Nat) (b : Bus) : (s.msix v).bus b = s.bus b := by
  unfold State.msix; dsimp only; split <;> cases b <;> rfl

/-- Signalling a change of conditions touches no register of a bus. -/
@[simp] theorem bus_intEdge (s : State) (b c : Bus) (old : W32) : (s.intEdge b old).bus c = s.bus c := by
  unfold State.intEdge
  cases b <;> dsimp only
  · split
    · rfl
    · exact bus_msix ..
  · split <;> split <;> cases c <;> rfl

@[simp] theorem host_intEdge (s : State) (b : Bus) (old : W32) : (s.intEdge b old).host = s.host := by
  unfold State.intEdge
  cases b <;> dsimp only
  · split
    · rfl
    · exact msix_host ..
  · split <;> split <;> rfl

@[simp] theorem host_setIntWord (s : State) (b : Bus) (f : W32 → W32) : (s.setIntWord b f).host = s.host := by
  simp [State.setIntWord]

/-- INT_STATUS of a bus changes, and no other of its registers. -/
theorem bus_setIntWord (s : State) (b : Bus) (f : W32 → W32) :
    (s.setIntWord b f).bus b = { s.bus b with intStatus := f (s.bus b).intStatus } := by simp [State.setIntWord]

@[simp] theorem bus_setIntWord_ne (s : State) {b c : Bus} (h : c ≠ b) (f : W32 → W32) : (s.setIntWord b f).bus c = s.bus c := by
  simp [State.setIntWord, h]

/-! ### INT_STATUS and INT_ENABLE (O19) -/

/-- What a write to the interrupt registers of a bus leaves as it is. -/
structure OneBus (b : Bus) (s u : State) : Prop where
  core : u.core = s.core
  host : u.host = s.host
  other : ∀ c, c ≠ b → u.bus c = s.bus c

theorem oneBus_setIntWord (s : State) (b : Bus) (f : W32 → W32) : OneBus b s (s.setIntWord b f) :=
  ⟨core_setIntWord .., host_setIntWord .., fun _ hc => bus_setIntWord_ne s hc f⟩

theorem bus_writeIntEnable (s : State) (b : Bus) (v : W32) :
    (s.writeIntEnable b v).bus b = { s.bus b with intEnable := v &&& 0x3F3#32 } := by
  unfold State.writeIntEnable; rw [bus_intEdge, State.setBus_bus]; rfl

theorem oneBus_writeIntEnable (s : State) (b : Bus) (v : W32) : OneBus b s (s.writeIntEnable b v) := by
  unfold State.writeIntEnable
  exact ⟨by simp, by simp, fun c hc => by simp [hc]⟩

/-- The conditions that are enabled by a write. -/
def State.rises (s : State) (v : W32) : W32 := s.intStatus .pcie &&& (v &&& 0x3F3#32) &&& ~~~ s.intActive .pcie

/-- On PCIe an enable is signalled only where it turns a condition on (R435). -/
theorem writeIntEnable_pcie (s : State) (v : W32) :
    s.writeIntEnable .pcie v = let t := s.setBus .pcie { s.busP with intEnable := v &&& 0x3F3#32 }
      if s.rises v = 0#32 then t else t.msix 0 := rfl

theorem writeIntEnable_rises {s : State} {v : W32} (h : s.rises v ≠ 0#32) :
    s.writeIntEnable .pcie v = (s.setBus .pcie { s.busP with intEnable := v &&& 0x3F3#32 }).msix 0 :=
  (writeIntEnable_pcie s v).trans (if_neg h)

theorem writeIntEnable_quiet {s : State} {v : W32} (h : s.rises v = 0#32) :
    s.writeIntEnable .pcie v = s.setBus .pcie { s.busP with intEnable := v &&& 0x3F3#32 } :=
  (writeIntEnable_pcie s v).trans (if_pos h)

theorem msix_sends {s : State} (hon : s.pcie.msixOn = true) (hfunc : s.pcie.funcMask = false)
    (hmask : s.pcie.masked.getLsbD 0 = false) (hd0 : s.pcie.d3 = false) : s.msix 0 = s.emit (.msix 0) := by
  have hyes : (s.pcie.msixOn && !s.pcie.funcMask && !s.pcie.masked.getLsbD 0 && !s.pcie.d3) = true := by
    rw [hon, hfunc, hmask, hd0]; rfl
  unfold State.msix
  dsimp only
  rw [hyes]
  rfl

theorem msix_holds {s : State}
    (h : s.pcie.msixOn = false ∨ s.pcie.funcMask = true ∨ s.pcie.masked.getLsbD 0 = true ∨ s.pcie.d3 = true) :
    s.msix 0 = { s with pcie := { s.pcie with pba := s.pcie.pba ||| 1#64 } } := by
  have hno : (s.pcie.msixOn && !s.pcie.funcMask && !s.pcie.masked.getLsbD 0 && !s.pcie.d3) = false := by
    obtain h | h | h | h := h <;> simp [h]
  unfold State.msix
  dsimp only
  rw [hno]
  rfl

theorem msix_setBus_sends {s : State} {r : BusRegs} (hon : s.pcie.msixOn = true) (hfunc : s.pcie.funcMask = false)
    (hmask : s.pcie.masked.getLsbD 0 = false) (hd0 : s.pcie.d3 = false) :
    (s.setBus .pcie r).msix 0 = (s.setBus .pcie r).emit (.msix 0) := msix_sends hon hfunc hmask hd0

theorem msix_setBus_holds {s : State} {r : BusRegs}
    (h : s.pcie.msixOn = false ∨ s.pcie.funcMask = true ∨ s.pcie.masked.getLsbD 0 = true ∨ s.pcie.d3 = true) :
    (s.setBus .pcie r).msix 0 = { s.setBus .pcie r with pcie := { s.pcie with pba := s.pcie.pba ||| 1#64 } } := msix_holds h

/-- ATTN_N follows the events and the enabled conditions of the two-wire bus (R436). -/
theorem attnLow_intEdge (s : State) (old : W32) :
    (s.intEdge .twoWire old).tw.attnLow = true ↔
      (s.intEdge .twoWire old).pTw.events ≠ [] ∨ (s.intEdge .twoWire old).intActive .twoWire ≠ 0#32 := by
  have hlow : (s.intEdge .twoWire old).tw.attnLow = s.attnLevelLow := by
    unfold State.intEdge
    dsimp only
    by_cases h : s.attnLevelLow = s.tw.attnLow
    · rw [if_pos h]
      split <;> exact h.symm
    · rw [if_neg h]
      split <;> rfl
  have hport : (s.intEdge .twoWire old).pTw = s.pTw := port_intEdge s .twoWire old .twoWire
  have hactive : (s.intEdge .twoWire old).intActive .twoWire = s.intActive .twoWire := by
    simp [State.intActive, State.intStatus]
  rw [hlow, hport, hactive, State.attnLevelLow]
  simp

/-- Settles O19. -/
theorem interruptRegistersOfABus : Obligations.InterruptRegistersOfABus := by
  unfold Obligations.InterruptRegistersOfABus
  intro b v s
  have hstatus := oneBus_setIntWord s b (fun w => w &&& ~~~ (v &&& intStatusW1c))
  have henable := oneBus_writeIntEnable s b v
  refine ⟨⟨_, rfl, hstatus.core, hstatus.host, bus_setIntWord s b _, hstatus.other⟩,
    ⟨_, rfl, henable.core, henable.host, bus_writeIntEnable s b v, henable.other⟩, fun hrise => ⟨fun hon hf hm hd => ?_, fun hno => ?_⟩,
    fun hnone => ?_, ⟨_, rfl, attnLow_intEdge _ _⟩, ⟨_, rfl, attnLow_intEdge _ _⟩⟩
  · refine ⟨_, rfl, ?_⟩
    rw [writeIntEnable_rises hrise, msix_setBus_sends hon hf hm hd]
    exact ⟨rfl, rfl⟩
  · refine ⟨_, rfl, ?_⟩
    rw [writeIntEnable_rises hrise, msix_setBus_holds hno]
    exact ⟨rfl, rfl⟩
  · refine ⟨_, rfl, ?_⟩
    rw [writeIntEnable_quiet hnone]
    exact ⟨rfl, rfl⟩

/-! ### DT_MATCH (O20) -/

@[simp] theorem setBus_setBus (s : State) (b : Bus) (q r : BusRegs) : (s.setBus b q).setBus b r = s.setBus b r := by
  cases b <;> rfl

@[simp] theorem now_setBus (s : State) (b : Bus) (r : BusRegs) : (s.setBus b r).now = s.now := by cases b <;> rfl

/-- A match that is not armed, or that DT has not reached, does not fire. -/
theorem fireMatch_waits {s : State} {b : Bus} (h : (s.bus b).matchArmed = false ∨ s.now < (s.bus b).dtMatch.toNat) :
    s.fireMatch b = s := by
  have hno : ((s.bus b).matchArmed && decide ((s.bus b).dtMatch.toNat ≤ s.now)) = false := by
    obtain h | h := h
    · rw [h]; rfl
    · rw [decide_eq_false (by omega), Bool.and_false]
  unfold State.fireMatch
  exact if_neg (by rw [hno]; decide)

/-- An armed match that DT has reached sets DT_MATCH and disarms. -/
theorem fireMatch_fires {s : State} {b : Bus} (harm : (s.bus b).matchArmed = true) (hreach : (s.bus b).dtMatch.toNat ≤ s.now) :
    (s.fireMatch b).bus b
        = { s.bus b with matchArmed := false, intStatus := (s.bus b).intStatus ||| 0x200#32 } ∧ OneBus b s (s.fireMatch b) := by
  have hfire : s.fireMatch b = (s.setBus b { s.bus b with matchArmed := false }).setIntWord b (· ||| 0x200#32) := by
    unfold State.fireMatch
    exact if_pos (by rw [harm, decide_eq_true hreach]; rfl)
  have hone := oneBus_setIntWord (s.setBus b { s.bus b with matchArmed := false }) b (· ||| 0x200#32)
  rw [hfire]
  refine ⟨by rw [bus_setIntWord, State.setBus_bus], ?_, ?_, fun c hc => ?_⟩
  · rw [hone.core, core_setBus]
  · rw [hone.host, State.setBus_host]
  · rw [hone.other c hc, bus_setBus_ne s hc]

/-- A commit whose value DT has not reached, or is 0, only takes the value. -/
theorem commitMatch_waits {s : State} {b : Bus} {hi : W32} (h : hi ++ (s.bus b).stage = 0#64 ∨ s.now < (hi ++ (s.bus b).stage).toNat) :
    s.commitMatch b hi = s.setBus b { s.bus b with
      dtMatch := hi ++ (s.bus b).stage, matchArmed := hi ++ (s.bus b).stage != 0#64 } := by
  unfold State.commitMatch
  refine fireMatch_waits ?_
  rw [State.setBus_bus, now_setBus]
  exact h.imp (fun h => by simp [h]) id

theorem commitMatch_fires {s : State} {b : Bus} {hi : W32} (hne : hi ++ (s.bus b).stage ≠ 0#64)
    (hreach : (hi ++ (s.bus b).stage).toNat ≤ s.now) :
    (s.commitMatch b hi).bus b = { s.bus b with
        dtMatch := hi ++ (s.bus b).stage, matchArmed := false, intStatus := (s.bus b).intStatus ||| 0x200#32 } ∧
      OneBus b s (s.commitMatch b hi) := by
  obtain ⟨hbus, hcore, hhost, hother⟩ := fireMatch_fires (b := b)
    (s := s.setBus b { s.bus b with dtMatch := hi ++ (s.bus b).stage, matchArmed := hi ++ (s.bus b).stage != 0#64 })
    (by simpa using hne) (by simpa using hreach)
  refine ⟨by rw [State.commitMatch, hbus, State.setBus_bus], hcore.trans (core_setBus ..), hhost.trans (State.setBus_host ..),
    fun c hc => (hother c hc).trans (bus_setBus_ne s hc _)⟩

/-- Settles O20. -/
theorem dtMatchArmsFiresAndDisarms : Obligations.DtMatchArmsFiresAndDisarms := by
  unfold Obligations.DtMatchArmsFiresAndDisarms
  intro b hi wait s
  have hbus : (s.advance wait).bus b = s.bus b := State.advance_bus ..
  refine ⟨fun hne hlt => ?_, fun hz => ?_, fun hne hle => ?_, fun harm hle => ?_, fun h => ?_⟩
  · refine congrArg Host.Outcome.next ((commitMatch_waits (.inr (by rw [hbus]; exact hlt))).trans ?_)
    rw [hbus, show (hi ++ (s.bus b).stage != 0#64) = true by simpa using hne]
  · refine congrArg Host.Outcome.next ((commitMatch_waits (.inl (by rw [hbus]; exact hz))).trans ?_)
    rw [hbus, hz]
    rfl
  · obtain ⟨hb, hone⟩ := commitMatch_fires (s := s.advance wait) (by rw [hbus]; exact hne) (by rw [hbus]; exact hle)
    rw [hbus] at hb
    exact ⟨_, rfl, hone.core, hone.host, hb, fun c hc => (hone.other c hc).trans (State.advance_bus ..)⟩
  · obtain ⟨hb, hone⟩ := fireMatch_fires (s := s.advance wait) (b := b) (by rw [hbus]; exact harm) (by rw [hbus]; exact hle)
    rw [hbus] at hb
    exact ⟨_, rfl, hone.core, hone.host, hb, fun c hc => (hone.other c hc).trans (State.advance_bus ..)⟩
  · exact congrArg Host.Outcome.next (fireMatch_waits (by rw [hbus]; exact h))

/-! ### Reads (O21) -/

theorem snapshotRead_of_readWord {b : Bus} {a : W16} {wait : Nat} {s u : State} {v : Nat} (ha : a.toNat % 4 = 0)
    (h : (s.advance wait).readWord b a.toNat true = (u, v)) :
    exec (.multiwordSnapshotRead b a wait) s = .next (u.emit (.readData (le 4 v))) := by
  change execMultiwordSnapshotRead b a wait s = _
  unfold execMultiwordSnapshotRead
  dsimp only
  rw [if_pos ha, h]

theorem readWord_bank {s : State} {b : Bus} {a : Nat} {first : Bool} (hlo : 0x1000 ≤ a) (hhi : a < 0x2000) :
    s.readWord b a first = (s, unle (Memory.readN ramDefault (s.bus b).bank (a - 0x1000) 4)) := by
  unfold State.readWord
  dsimp only
  repeat rw [if_neg (by omega)]
  rw [if_pos ⟨hlo, hhi⟩]

/-- Below the bank no register lies past SCRATCH (Table 16.2). -/
theorem readWord_unlisted {s : State} {b : Bus} {a : Nat} {first : Bool} (hlo : 0x100 ≤ a) (hhi : a < 0x1000) :
    s.readWord b a first = (s, 0) := by
  unfold State.readWord
  dsimp only
  repeat rw [if_neg (by omega)]

/-- The MSI-X table and what follows it are not read over the two-wire bus. -/
theorem readWord_twoWire_high {s : State} {a : Nat} {first : Bool} (hlo : 0x2000 ≤ a) : s.readWord .twoWire a first = (s, 0) := by
  unfold State.readWord
  dsimp only
  repeat rw [if_neg (by omega)]
  simp

/-- Settles O21. -/
theorem registerReads : Obligations.RegisterReads := by
  unfold Obligations.RegisterReads
  intro b wait s
  have hnow (hs : s.time.seeded = true) : (s.advance wait).dtNow = (s.advance wait).now := if_pos hs
  have hready (hr : s.power.ready = false) : (s.advance wait).modeStatus = 0 := if_pos (by simp [hr])
  have hbus : (s.advance wait).bus b = s.bus b := State.advance_bus ..
  have hint : (s.advance wait).intStatus b
      = (s.bus b).intStatus ||| (if (s.port (busTransport b)).events.isEmpty then 0#32 else 2#32) := by
    rw [State.intStatus, hbus, State.advance_port]; rfl
  refine ⟨fun hs => ?_, ?_, ?_, ?_, ?_, fun hr => ?_, ?_, ?_, fun hs => ?_, ?_, ?_, fun a hlo hhi ha => ?_, fun a ha hlo hhi => ?_,
    fun a ha hb hlo => ?_⟩
  · refine snapshotRead_of_readWord rfl ?_
    simp [State.readWord, State.latch, hnow hs]
  · exact snapshotRead_of_readWord rfl (by simp [State.readWord])
  · exact snapshotRead_of_readWord rfl (by simp [State.readWord, State.latch])
  · exact snapshotRead_of_readWord rfl (by simp [State.readWord])
  · exact snapshotRead_of_readWord rfl rfl
  · exact snapshotRead_of_readWord rfl (by simp [State.readWord, hready hr])
  · exact snapshotRead_of_readWord rfl (by simp [State.readWord, hint])
  · exact snapshotRead_of_readWord rfl (by simp [State.readWord])
  · exact snapshotRead_of_readWord rfl (by simp [State.readWord, hnow hs])
  · exact snapshotRead_of_readWord rfl (by simp [State.readWord, State.tempReg])
  · exact snapshotRead_of_readWord rfl (by simp [State.readWord])
  · rw [← hbus]
    exact snapshotRead_of_readWord ha (readWord_bank hlo hhi)
  · exact snapshotRead_of_readWord ha (readWord_unlisted hlo hhi)
  · subst hb
    exact snapshotRead_of_readWord ha (readWord_twoWire_high hlo)

/-! ### Writes (O22) -/

/-- An aligned 4-byte write below the MSI-X table writes the word, over either bus. -/
theorem registerWrite_word {b : Bus} {a : W16} {v : W64} {s : State} (hio : s.power.ioUp = true) (ha : a.toNat % 4 = 0)
    (hlo : a.toNat < 0x2000) : exec (.registerWrite b a 4 v true) s = .next (s.writeWord b a.toNat (v.setWidth 32)) := by
  change execRegisterWrite b a 4 v true s = _
  have h4 : a.toNat + 4 ≤ 0x4000 := by omega
  unfold execRegisterWrite
  cases b <;> simp [hio, ha, hlo, h4]

theorem registerWrite_misaligned {b : Bus} {a : W16} {v : W64} {s : State} (ha : a.toNat % 4 ≠ 0) :
    exec (.registerWrite b a 4 v true) s = .next s := by
  change execRegisterWrite b a 4 v true s = _
  unfold execRegisterWrite
  cases b <;> simp [ha]

theorem registerWrite_highImpedance {b : Bus} {a : W16} {n : Nat} {v : W64} {en : Bool} {s : State} (hio : s.power.ioUp = false) :
    exec (.registerWrite b a n v en) s = .next s := by
  change execRegisterWrite b a n v en s = _
  unfold execRegisterWrite
  simp [hio]

theorem registerWrite_twoWire_high {a : W16} {n : Nat} {v : W64} {s : State} (ha : 0x2000 ≤ a.toNat) :
    exec (.registerWrite .twoWire a n v true) s = .next s := by
  change execRegisterWrite .twoWire a n v true s = _
  unfold execRegisterWrite
  simp [Nat.not_lt.2 ha]

theorem registerWrite_byteEnables {a : W16} {n : Nat} {v : W64} {s : State} :
    exec (.registerWrite .pcie a n v false) s = .next s := by
  change execRegisterWrite .pcie a n v false s = _
  unfold execRegisterWrite
  simp

/-- Past BAR0, of another length, or misaligned (R421, R423). -/
theorem registerWrite_pcie_ignored {a : W16} {n : Nat} {v : W64} {s : State}
    (h : 0x4000 ≤ a.toNat ∨ (n ≠ 4 ∧ n ≠ 8) ∨ a.toNat % n ≠ 0) : exec (.registerWrite .pcie a n v true) s = .next s := by
  change execRegisterWrite .pcie a n v true s = _
  have h4 : (n == 4 && a.toNat % 4 == 0 && decide (a.toNat + 4 ≤ 0x4000)) = false := by
    by_cases hn : n = 4
    · subst hn; simp; omega
    · simp [hn]
  have h8 : (n == 8 && a.toNat % 8 == 0 && decide (a.toNat + 8 ≤ 0x4000)) = false := by
    by_cases hn : n = 8
    · subst hn; simp; omega
    · simp [hn]
  unfold execRegisterWrite
  simp only [Bool.true_and, h4, h8, Bool.false_eq_true, if_false, ite_self]

theorem registerWrite_pcie_two {a : W16} {v : W64} {s : State} (hio : s.power.ioUp = true) (ha : a.toNat % 8 = 0)
    (hlo : a.toNat < 0x4000) : exec (.registerWrite .pcie a 8 v true) s
      = .next ((s.writeWord .pcie a.toNat (v.setWidth 32)).writeWord .pcie (a.toNat + 4) ((v >>> 32).setWidth 32)) := by
  change execRegisterWrite .pcie a 8 v true s = _
  have h8 : a.toNat + 8 ≤ 0x4000 := by omega
  unfold execRegisterWrite
  simp [hio, ha, h8]

theorem writeWord_bank {s : State} {b : Bus} {a : Nat} {v : W32} (hlo : 0x1000 ≤ a) (hhi : a < 0x2000) :
    s.writeWord b a v = if (s.bus b).bankBusy then s else
      s.setBus b { s.bus b with bank := Memory.writeN ramDefault (s.bus b).bank (a - 0x1000) (le 4 v.toNat) } := by
  unfold State.writeWord State.writePlain
  repeat rw [if_neg (by omega)]
  rw [if_pos ⟨hlo, hhi⟩]

theorem writeWord_unlisted {s : State} {b : Bus} {a : Nat} {v : W32} (hlo : 0x100 ≤ a) (hhi : a < 0x1000) :
    s.writeWord b a v = s := by
  unfold State.writeWord State.writePlain
  repeat rw [if_neg (by omega)]

theorem doorbell_mailbox {s : State} {b : Bus} {v : W32} (h : v.toNat / 2 ^ 30 = 1) : s.doorbell b v = s.mailboxBell b := by
  rw [State.doorbell, h]; rfl

theorem doorbell_none {s : State} {b : Bus} {v : W32} (h : v.toNat / 2 ^ 30 = 0 ∨ v.toNat / 2 ^ 30 = 3) : s.doorbell b v = s := by
  obtain h | h := h <;> (rw [State.doorbell, h]; rfl)

/-- The RO words of Table 16.2 take no write. -/
theorem writeWord_readOnly {s : State} {b : Bus} {a : W16} {v : W32}
    (ha : a ∈ [0x0000#16, 0x0008#16, 0x000C#16, 0x0010#16, 0x0040#16, 0x0044#16, 0x0048#16, 0x0060#16]) :
    a.toNat % 4 = 0 ∧ a.toNat < 0x2000 ∧ s.writeWord b a.toNat v = s := by
  simp only [List.mem_cons, List.not_mem_nil, or_false] at ha
  obtain rfl | rfl | rfl | rfl | rfl | rfl | rfl | rfl := ha <;> simp [State.writeWord, State.writePlain]

/-- Settles O22. -/
theorem registerWrites : Obligations.RegisterWrites := by
  unfold Obligations.RegisterWrites
  intro b v s
  refine ⟨fun hio => ⟨?_, ?_, fun a hlo hhi ha => ?_, fun hk => ?_, fun hk => ?_, fun a ha => ?_, fun a hlo hhi => ?_,
    fun a n => registerWrite_twoWire_high, fun a n => registerWrite_byteEnables, fun a n => registerWrite_pcie_ignored,
    fun a ha hlo => registerWrite_pcie_two hio ha hlo⟩, fun hio a n en => registerWrite_highImpedance hio⟩
  · exact registerWrite_word hio rfl (by decide)
  · exact registerWrite_word hio rfl (by decide)
  · rw [registerWrite_word hio ha hhi, writeWord_bank hlo hhi]
  · rw [← doorbell_mailbox hk]
    exact registerWrite_word hio rfl (by decide)
  · refine (registerWrite_word hio rfl (by decide)).trans ?_
    exact congrArg Host.Outcome.next (doorbell_none hk)
  · obtain ⟨h4, hlo, hw⟩ := writeWord_readOnly (s := s) (b := b) (v := v.setWidth 32) ha
    rw [registerWrite_word hio h4 hlo, hw]
  · by_cases ha : a.toNat % 4 = 0
    · rw [registerWrite_word hio ha (by omega), writeWord_unlisted hlo hhi]
    · exact registerWrite_misaligned ha

end Sys2Proof.Machine
end

section
/-! PROOFS. The doors by which packets reach the interpreter (O23), the doorbells that are ignored (O55), and what the service
port sends (O24). -/

namespace Sys2Proof.Machine

/-! ### The mailbox -/

theorem mailboxBell_unserved {s : State} {b : Bus} (h : s.serves (busTransport b) = false ∨ (s.bus b).bankBusy = true) :
    s.mailboxBell b = s := by
  unfold State.mailboxBell
  exact if_pos (by obtain h | h := h <;> simp [h])

/-- A packet that passes checks 1 to 4 is interpreted as the command that it spells. -/
theorem takePacket_command {s : State} {tr : Transport} {viaRing exact_ : Bool} {n : Nat} {bs : List Byte} {op : W16} {h : CmdHdr}
    {i : Instr} (hp : parsePacket tr viaRing exact_ n 0 bs = .command op h i) : s.takePacket tr viaRing exact_ n bs = s.interpret i := by
  unfold State.takePacket
  rw [hp]

/-- The state in which a mailbox doorbell hands its packet to the interpreter (R389, R426). -/
def State.belled (s : State) (b : Bus) : State :=
  (s.setBus b { s.bus b with bankBusy := true }).setIntWord b (· &&& ~~~ 1#32)

theorem bus_belled (s : State) (b : Bus) :
    (s.belled b).bus b = { s.bus b with bankBusy := true, intStatus := (s.bus b).intStatus &&& ~~~ 1#32 } := by
  rw [State.belled, bus_setIntWord, State.setBus_bus]

theorem mailboxBell_command {s : State} {b : Bus} {op : W16} {h : CmdHdr} {i : Instr} (hserves : s.serves (busTransport b) = true)
    (hfree : (s.bus b).bankBusy = false) (hp : parsePacket (busTransport b) false false 4072 0 (s.bankBytes b) = .command op h i) :
    s.mailboxBell b = (s.belled b).interpret i := by
  have hbytes : (s.belled b).bankBytes b = s.bankBytes b := by rw [State.bankBytes, bus_belled]; rfl
  unfold State.mailboxBell
  refine (if_neg (by simp [hserves, hfree])).trans ?_
  refine takePacket_command (s := s.belled b) (op := op) (h := h) ?_
  change parsePacket _ _ _ _ _ ((s.belled b).bankBytes b) = _
  rw [hbytes, hp]

/-! ### The command ring -/

theorem ringBell_ignored {s : State} {b : Bus} {p : Nat} (h : s.serves .pcie = false ∨ b = .twoWire ∨ s.force.cmdRing.nat 1 ≠ 1) :
    s.ringBell b p = s := by
  unfold State.ringBell
  exact if_pos (by obtain h | h | h := h <;> simp [h])

/-- A PRODUCER that is no multiple of 64 or lies beyond the ring is counted as refused (R429). -/
theorem ringBell_badProducer {s : State} {p : Nat} (hserves : s.serves .pcie = true) (hon : s.force.cmdRing.nat 1 = 1)
    (hbad : p % 64 ≠ 0 ∨ s.cmdSize ≤ p) :
    s.ringBell .pcie p = { s with pPcie := { s.pPcie with refused := min (s.pPcie.refused + 1) 0xFFFFFFFF } } := by
  unfold State.ringBell
  exact (if_neg (by simp [hserves, hon])).trans (if_pos hbad)

theorem cmdRingOn_iff (s : State) : s.cmdRingOn = true ↔
    s.serves .pcie = true ∧ s.force.cmdRing.nat 1 = 1 ∧ s.replyRingOn = true ∧ 4096 ≤ s.replyFree := by
  simp [State.cmdRingOn, and_assoc]

theorem ringBell_serves {s : State} {p : Nat} (hon : s.cmdRingOn = true) (h64 : p % 64 = 0) (hp : p < s.cmdSize) :
    s.ringBell .pcie p = ({ s with rings := { s.rings with cmdProducer := p } }).serveRing (s.cmdSize / 64 + 1) := by
  obtain ⟨hserves, hnat, -, -⟩ := (cmdRingOn_iff s).1 hon
  unfold State.ringBell
  exact (if_neg (by simp [hserves, hnat])).trans (if_neg (by omega))

/-- A packet that spells a command is whole, has an opcode, and is not longer than its limit. -/
theorem parsePacket_command {tr : Transport} {viaRing exact_ : Bool} {n wait : Nat} {bs : List Byte} {op : W16} {h : CmdHdr} {i : Instr}
    (hp : parsePacket tr viaRing exact_ n wait bs = .command op h i) : field bs 0 2 ≠ 0 ∧ field bs 6 2 ≤ n := by
  unfold parsePacket at hp
  dsimp only at hp
  split at hp
  · cases hp
  · split at hp
    · cases hp
    · split at hp
      · cases hp
      next hlen =>
        split at hp
        · cases hp
        next hop =>
          refine ⟨fun h0 => hop (.inr (.inr ?_)), Nat.le_of_not_lt fun hlt => hlen (.inl hlt)⟩
          rw [f16, h0]
          rfl

/-- A field within the first bytes of memory read is the field of any longer read. -/
theorem field_readN {m : Memory} {x a b o n : Nat} (h : o + n ≤ a) (hab : a ≤ b) :
    field (Memory.readN ramDefault m x a) o n = field (Memory.readN ramDefault m x b) o n := by
  obtain ⟨c, rfl⟩ := Nat.exists_eq_add_of_le hab
  rw [Memory.readN_add, field, field, List.drop_append_of_le_length (by rw [Memory.length_readN]; omega),
    List.take_append_of_le_length (by rw [List.length_drop, Memory.length_readN]; omega)]

/-- The ring takes the packet at its consumer, which lies whole below the producer (R391). -/
theorem serveRing_command {s : State} {k : Nat} {op : W16} {h : CmdHdr} {i : Instr} (hon : s.cmdRingOn = true)
    (hne : s.rings.cmdConsumer ≠ s.rings.cmdProducer) {n : Nat}
    (hn : n = field (Memory.readN ramDefault s.host (s.cmdBase + s.rings.cmdConsumer) 16) 6 2)
    (hfit : s.rings.cmdConsumer + roundUp 64 (20 + n) ≤ s.cmdSize)
    (hwhole : s.rings.cmdProducer < s.rings.cmdConsumer ∨ s.rings.cmdConsumer + roundUp 64 (20 + n) ≤ s.rings.cmdProducer)
    (hp : parsePacket .pcie true true 4072 0 (Memory.readN ramDefault s.host (s.cmdBase + s.rings.cmdConsumer) (20 + n))
      = .command op h i) :
    s.serveRing (k + 1)
      = ((s.interpret i).cmdConsumed ((s.rings.cmdConsumer + roundUp 64 (20 + n)) % s.cmdSize)).serveRing k := by
  obtain ⟨-, -, -, hfree⟩ := (cmdRingOn_iff s).1 hon
  obtain ⟨hop, hlen⟩ := parsePacket_command hp
  rw [← field_readN (a := 16) (by omega) (by omega)] at hop hlen
  rw [← hn] at hlen
  have hsize : (s.interpret i).cmdSize = s.cmdSize := by rw [State.cmdSize, (sameForce_interpret s i).1]; rfl
  have hread : (if (s.replyRingOn && decide (s.replyFree < 4096) : Bool) = true then s.readReplyConsumer else s) = s :=
    if_neg (by simp; omega)
  rw [State.serveRing]
  simp only [hread, ← hn]
  rw [if_neg (by simp [hon, hne]), if_neg hop, if_neg (by omega), if_neg (by omega), takePacket_command hp, hsize]

/-! ### Settling O23 -/

theorem cmdRingDoorbell_serves {p : BitVec 24} {ws : List (Nat × Byte)} {wait : Nat} {s : State} {op : W16} {h : CmdHdr} {i : Instr} :
    let s1 := s.advance wait
    let s2 := { s1.hostCells ws with rings := { s.rings with cmdProducer := p.toNat } }
    let at_ := s.force.cmdRing.nat 2 + s.rings.cmdConsumer
    let n := field (Memory.readN ramDefault s2.host at_ 16) 6 2
    let size := roundUp 64 (20 + n)
    s2.cmdRingOn = true → p.toNat % 64 = 0 → p.toNat < s.cmdSize →
    s.rings.cmdConsumer ≠ p.toNat → s.rings.cmdConsumer + size ≤ s.cmdSize →
    (p.toNat < s.rings.cmdConsumer ∨ s.rings.cmdConsumer + size ≤ p.toNat) →
    parsePacket .pcie true true 4072 0 (Memory.readN ramDefault s2.host at_ (20 + n)) = .command op h i →
    exec (.cmdRingDoorbell .pcie p ws wait) s
      = .next (State.serveRing (s.cmdSize / 64) ((s2.interpret i).cmdConsumed ((s.rings.cmdConsumer + size) % s.cmdSize))) := by
  intro s1 s2 at_ n size hon h64 hlt hne hfit hwhole hp
  refine congrArg Host.Outcome.next ((ringBell_serves (s := s1.hostCells ws) hon h64 hlt).trans ?_)
  exact serveRing_command (s := s2) hon hne rfl hfit hwhole hp

theorem serves_emit (s : State) (o : Out) (t : Transport) : (s.emit o).serves t = s.serves t := rfl

theorem writePacket_command {bs : List Byte} {op : W16} {h : CmdHdr} {i : Instr} {wait : Nat} {s : State}
    (hio : s.power.ioUp = true) (hserves : s.serves .service = true)
    (hp : parsePacket .service false true 4072 0 bs = .command op h i) :
    exec (.writePacket bs false wait) s = .next (State.interpret
      { (s.advance wait).emit (.svcStatus (BitVec.ofNat 8 s.svcStatus)) with svc := ⟨false⟩ } i) := by
  change execWritePacket bs false wait s = _
  unfold execWritePacket
  dsimp only
  rw [if_neg (by simp [hio]), if_neg (by simp [serves_emit, hserves]), takePacket_command hp]

theorem writePacket_discards {bs : List Byte} {cut : Bool} {wait : Nat} {s : State} (hio : s.power.ioUp = true)
    (h : cut = true ∨ s.serves .service = false) :
    exec (.writePacket bs cut wait) s
      = .next { (s.advance wait).emit (.svcStatus (BitVec.ofNat 8 s.svcStatus)) with svc := ⟨true⟩ } := by
  change execWritePacket bs cut wait s = _
  unfold execWritePacket
  dsimp only
  rw [if_neg (by simp [hio]), if_pos (by obtain h | h := h <;> simp [serves_emit, h])]

/-- Settles O23. -/
theorem doorsLeadToTheInterpreter : Obligations.DoorsLeadToTheInterpreter := by
  unfold Obligations.DoorsLeadToTheInterpreter
  intro wait s
  have hbus (b : Bus) : (s.advance wait).bus b = s.bus b := State.advance_bus ..
  have hbytes (b : Bus) : (s.advance wait).bankBytes b = s.bankBytes b := by rw [State.bankBytes, hbus]; rfl
  refine ⟨fun b op h i hserves hfree hp => ?_, fun b h => ?_, fun p ws op h i hon _ => cmdRingDoorbell_serves hon,
    fun b p ws h => ?_, fun bs op h i => writePacket_command, fun bs cut => writePacket_discards⟩
  · refine ⟨(s.advance wait).belled b, ?_, ?_, ?_, ?_, fun c => ?_⟩
    · exact congrArg Host.Outcome.next (mailboxBell_command hserves (by rw [hbus]; exact hfree) (by rw [hbytes]; exact hp))
    · simp [State.belled]
    · simp [State.belled]
    · rw [bus_belled, hbus]
    · simp [State.belled]
  · exact congrArg Host.Outcome.next (mailboxBell_unserved (by rw [hbus]; exact h))
  · exact congrArg Host.Outcome.next (ringBell_ignored (s := (s.advance wait).hostCells ws) h)

/-! ### Ignored doorbells (O55) -/

/-- The value that the host writes into CMD_DOORBELL: a KIND and a PRODUCER (Table 16.2). -/
def bellWord (kind : Nat) (p : BitVec 24) : W64 := BitVec.ofNat 64 (kind * 2 ^ 30 + p.toNat)

theorem toNat_bellWord {kind : Nat} {p : BitVec 24} (hk : kind ≤ 3) :
    ((bellWord kind p).setWidth 32).toNat = kind * 2 ^ 30 + p.toNat := by
  have hp := p.isLt
  simp only [bellWord, BitVec.toNat_setWidth, BitVec.toNat_ofNat]
  omega

theorem doorbell_bellWord_mailbox (s : State) (b : Bus) (p : BitVec 24) :
    s.doorbell b ((bellWord 1 p).setWidth 32) = s.mailboxBell b := by
  have hp := p.isLt
  refine doorbell_mailbox ?_
  rw [toNat_bellWord (by decide)]
  omega

theorem doorbell_bellWord_ring (s : State) (b : Bus) (p : BitVec 24) :
    s.doorbell b ((bellWord 2 p).setWidth 32) = s.ringBell b p.toNat := by
  have hp := p.isLt
  have hkind : (2 * 2 ^ 30 + p.toNat) / 2 ^ 30 = 2 := by omega
  have hproducer : (2 * 2 ^ 30 + p.toNat) % 2 ^ 24 = p.toNat := by omega
  rw [State.doorbell, toNat_bellWord (by decide), hkind, hproducer]
  rfl

/-- A write of CMD_DOORBELL whose doorbell leaves the state as it is. -/
theorem registerWrite_doorbell_ignored {b : Bus} {v : W64} {s : State} (h : s.doorbell b (v.setWidth 32) = s) :
    exec (.registerWrite b 0x0080#16 4 v true) s = .next s := by
  cases hio : s.power.ioUp
  · exact registerWrite_highImpedance hio
  · exact (registerWrite_word hio rfl (by decide)).trans (congrArg Host.Outcome.next h)

theorem serves_of_notReady {s : State} (h : s.power.ready = false) (t : Transport) : s.serves t = false := by
  simp [State.serves, State.serving, h]

/-- Settles O55. -/
theorem ignoredDoorbells : Obligations.IgnoredDoorbells := by
  unfold Obligations.IgnoredDoorbells
  intro s wait w p
  have hring (b : Bus) (h : s.serves .pcie = false ∨ b = .twoWire ∨ s.force.cmdRing.nat 1 ≠ 1) :
      exec (.cmdRingDoorbell b p w wait) s = .next ((s.advance wait).hostCells w) ∧
        exec (.registerWrite b 0x0080#16 4 (bellWord 2 p) true) s = .next s :=
    ⟨congrArg Host.Outcome.next (ringBell_ignored (s := (s.advance wait).hostCells w) h),
      registerWrite_doorbell_ignored ((doorbell_bellWord_ring ..).trans (ringBell_ignored h))⟩
  refine ⟨fun hr b => ⟨?_, (hring b (.inl (serves_of_notReady hr _))).1, ?_, (hring .pcie (.inl (serves_of_notReady hr _))).2⟩,
    (hring .twoWire (.inr (.inl rfl))).1, (hring .twoWire (.inr (.inl rfl))).2, fun hoff => hring .pcie (.inr (.inr hoff)),
    fun hserves hon hbad => ⟨?_, fun hio => ?_⟩⟩
  · exact congrArg Host.Outcome.next (mailboxBell_unserved (.inl (serves_of_notReady (s := s.advance wait) hr _)))
  · exact registerWrite_doorbell_ignored
      ((doorbell_bellWord_mailbox ..).trans (mailboxBell_unserved (.inl (serves_of_notReady hr _))))
  · exact congrArg Host.Outcome.next
      (ringBell_badProducer (s := (s.advance wait).hostCells w) hserves hon (hbad.imp id Nat.le_of_lt))
  · refine (registerWrite_word hio rfl (by decide)).trans (congrArg Host.Outcome.next ?_)
    exact (doorbell_bellWord_ring ..).trans (ringBell_badProducer hserves hon (hbad.imp id Nat.le_of_lt))

/-! ### The service port (O24) -/

theorem readPacket_nothing {s : State} {c : Bool} (hio : s.power.ioUp = true) (ho : s.pSvc.outbox = []) (he : s.pSvc.events = []) :
    exec (.readPacket c) s = .next ((s.emit (.svcStatus (BitVec.ofNat 8 s.svcStatus))).emit (.svcBytes [0, 0])) := by
  change execReadPacket c s = _
  unfold execReadPacket
  rw [if_neg (by simp [hio])]
  simp only [State.emit_pSvc, ho, he]
  rfl

/-- The state in which a packet has left the service port to its last byte: SVC_REQ_N follows what waits (R393). -/
def State.svcSent (s : State) (pkt : List Byte) (p : Port) : State :=
  let t := { (s.emit (.svcStatus (BitVec.ofNat 8 s.svcStatus))).emit (.svcBytes (le 2 pkt.length ++ pkt)) with pSvc := p }
  let u := t.deliverReplies t.pSvc.outbox.length .service
  if u.svcPending = s.svcPending then u else u.emit (.pin "SVC_REQ_N" (!u.svcPending))

theorem readPacket_reply {s : State} {c : Bool} {id : Nat} {v n : Bool} {r : Reply} {rest : List OutEntry}
    (hio : s.power.ioUp = true) (ho : s.pSvc.outbox = ⟨id, v, n, some r⟩ :: rest) :
    exec (.readPacket c) s = .next (if c then s.svcSent r.packet { s.pSvc with outbox := rest } else
      (s.emit (.svcStatus (BitVec.ofNat 8 s.svcStatus))).emit (.svcBytes (le 2 r.packet.length ++ r.packet))) := by
  change execReadPacket c s = _
  unfold execReadPacket
  rw [if_neg (by simp [hio])]
  simp only [State.emit_pSvc, ho]
  rfl

theorem readPacket_event {s : State} {c : Bool} {e : Event} {rest : List Event} (hio : s.power.ioUp = true)
    (ho : s.pSvc.outbox = []) (he : s.pSvc.events = e :: rest) :
    exec (.readPacket c) s = .next (if c then s.svcSent e.packet { s.pSvc with events := rest } else
      (s.emit (.svcStatus (BitVec.ofNat 8 s.svcStatus))).emit (.svcBytes (le 2 e.packet.length ++ e.packet))) := by
  change execReadPacket c s = _
  unfold execReadPacket
  rw [if_neg (by simp [hio])]
  simp only [State.emit_pSvc, ho, he]
  rfl

/-- With no reply left, nothing else leaves with the packet but the level of SVC_REQ_N. -/
theorem svcSent_last {s : State} {pkt : List Byte} {p : Port} (hp : p.outbox = []) :
    s.svcSent pkt p = { s with
      pSvc := p
      out := s.out ++ [.svcStatus (BitVec.ofNat 8 s.svcStatus), .svcBytes (le 2 pkt.length ++ pkt)]
        ++ if (!p.events.isEmpty) = s.svcPending then [] else [.pin "SVC_REQ_N" p.events.isEmpty] } := by
  have hnone : ∀ {t : State} {n : Nat}, n = 0 → State.deliverReplies n t .service = t := fun h => by rw [h]; rfl
  have hpend : ∀ {t : State}, t.pSvc = p → t.svcPending = !p.events.isEmpty := fun h => by
    rw [State.svcPending, h, Port.replyWaits, hp, Bool.false_or]
  unfold State.svcSent
  dsimp only
  rw [hnone (by rw [hp]; rfl), hpend rfl]
  by_cases h : (!p.events.isEmpty) = s.svcPending
  · rw [if_pos h, if_pos h]
    simp [State.emit]
  · rw [if_neg h, if_neg h]
    simp [State.emit]

/-- Settles O24. -/
theorem servicePortReads : Obligations.ServicePortReads := by
  unfold Obligations.ServicePortReads
  intro s hio
  refine ⟨?_, fun ho he c => readPacket_nothing hio ho he, fun id v n r rest ho => readPacket_reply hio ho, fun id v n r ho => ?_,
    fun e rest ho he => ⟨readPacket_event hio ho he, ?_⟩⟩
  · change execReadStatus s = _
    unfold execReadStatus
    rw [if_pos hio]
    rfl
  · refine ⟨_, readPacket_reply hio ho, ?_⟩
    rw [if_pos rfl, svcSent_last rfl]
    refine ⟨rfl, rfl, rfl, ?_⟩
    rw [List.isPrefixOf_iff_prefix]
    exact List.prefix_append ..
  · refine ⟨_, readPacket_event hio ho he, ?_⟩
    have hpend : s.svcPending = true := by rw [State.svcPending, he]; simp
    have hlast := svcSent_last (s := s) (pkt := e.packet) (p := { s.pSvc with events := rest }) ho
    rw [if_pos rfl, hlast]
    refine ⟨rfl, rfl, rfl, ?_⟩
    cases rest <;> simp [hpend, State.svcStatus]

end Sys2Proof.Machine
end

section
/-! PROOFS. The PCIe endpoint's messages, power state and reset (O26), and the steps of thermal shedding (O29). -/

namespace Sys2Proof.Machine

/-! ### Delivery keeps how the ports are set -/

/-- What PCIE_POWER_STATE sets (whether the endpoint is in D3hot and whether PME is enabled), and the sampled address bits of the
two-wire port. -/
def State.portSetup (s : State) : Bool × Bool × Nat := (s.pcie.d3, s.pcie.pme, s.tw.addrBits)

@[simp] theorem portSetup_setPort (s : State) (t : Transport) (p : Port) : (s.setPort t p).portSetup = s.portSetup := by
  cases t <;> rfl
@[simp] theorem portSetup_setBus (s : State) (b : Bus) (r : BusRegs) : (s.setBus b r).portSetup = s.portSetup := by
  cases b <;> rfl
@[simp] theorem portSetup_hostWrite (s : State) (a : Nat) (bs : List Byte) : (s.hostWrite a bs).portSetup = s.portSetup := (rfl)
@[simp] theorem portSetup_rings (s : State) (r : CmdRings) : ({ s with rings := r } : State).portSetup = s.portSetup := (rfl)
@[simp] theorem portSetup_pPcie (s : State) (p : Port) : ({ s with pPcie := p } : State).portSetup = s.portSetup := (rfl)

@[simp] theorem portSetup_msix (s : State) (v : Nat) : (s.msix v).portSetup = s.portSetup := by
  unfold State.msix
  dsimp only
  split <;> rfl

@[simp] theorem portSetup_intEdge (s : State) (b : Bus) (old : W32) : (s.intEdge b old).portSetup = s.portSetup := by
  unfold State.intEdge
  cases b
  case pcie =>
    dsimp only
    split
    · rfl
    · exact portSetup_msix s 0
  case twoWire => dsimp only; split <;> split <;> rfl

@[simp] theorem portSetup_setInt (s : State) (b : Bus) (n : Nat) : (s.setInt b n).portSetup = s.portSetup := by
  simp [State.setInt, State.setIntWord]
@[simp] theorem portSetup_setIntBoth (s : State) (n : Nat) : (s.setIntBoth n).portSetup = s.portSetup := by
  simp [State.setIntBoth]
@[simp] theorem portSetup_ringsFault (s : State) : s.ringsFault.portSetup = s.portSetup := by simp [State.ringsFault]
@[simp] theorem portSetup_signalReplyRing (s : State) : s.signalReplyRing.portSetup = s.portSetup := by
  simp [State.signalReplyRing]

@[simp] theorem portSetup_readReplyConsumer (s : State) : s.readReplyConsumer.portSetup = s.portSetup := by
  unfold State.readReplyConsumer
  split
  · dsimp only
    split
    · rfl
    · split
      · rfl
      · split
        · rfl
        · exact portSetup_ringsFault s
  · rfl

@[simp] theorem portSetup_replyRingPut (s : State) (pkt : List Byte) : (s.replyRingPut pkt).portSetup = s.portSetup := by
  unfold State.replyRingPut
  dsimp only
  split
  all_goals
    split
    · rw [portSetup_signalReplyRing]
      simp [State.portSetup, State.hostWrite]
    · split <;> simp [State.portSetup]

@[simp] theorem portSetup_replyRingTry (s : State) (pkt : List Byte) : (s.replyRingTry pkt).1.portSetup = s.portSetup := by
  unfold State.replyRingTry
  split
  · rfl
  · split
    · simp
    · dsimp only; split <;> simp

@[simp] theorem portSetup_mailboxAnswer (s : State) (b : Bus) (e : OutEntry) (r : Reply) :
    (s.mailboxAnswer b e r).portSetup = s.portSetup := by simp [State.mailboxAnswer]

@[simp] theorem portSetup_deliverOne (s : State) (t : Transport) : (s.deliverOne t).1.portSetup = s.portSetup := by
  unfold State.deliverOne
  dsimp only
  split
  · rfl
  · split
    · rfl
    · cases t <;> dsimp only
      case pcie =>
        split
        · split
          · simp
          · have hr := portSetup_replyRingTry s ‹Reply›.packet
            split <;> (rename_i heq; rw [heq] at hr; simpa using hr)
        · simp
      case twoWire => simp
      all_goals split <;> simp

@[simp] theorem portSetup_deliverReplies (n : Nat) (s : State) (t : Transport) :
    (State.deliverReplies n s t).portSetup = s.portSetup := by
  induction n generalizing s with
  | zero => rfl
  | succ n ih =>
    have hone := portSetup_deliverOne s t
    unfold State.deliverReplies
    split <;> (rename_i heq; rw [heq] at hone)
    · rw [ih]; exact hone
    · exact hone

@[simp] theorem portSetup_deliverEvents (n : Nat) (s : State) : (State.deliverEvents n s).portSetup = s.portSetup := by
  induction n generalizing s with
  | zero => rfl
  | succ n ih =>
    unfold State.deliverEvents
    split
    · rfl
    · split
      · rfl
      · have hr := portSetup_replyRingTry s ‹Event›.packet
        split <;> (rename_i heq; rw [heq] at hr)
        · rw [ih]; simpa using hr
        · simpa using hr

theorem portSetup_flush_pcie (s : State) : (s.flush .pcie).portSetup = s.portSetup := by
  unfold State.flush
  simp

theorem core_releaseMsix (s : State) : s.releaseMsix.core = s.core := by
  unfold State.releaseMsix
  dsimp only
  split <;> rfl

theorem portSetup_releaseMsix (s : State) : s.releaseMsix.portSetup = s.portSetup := by
  unfold State.releaseMsix
  dsimp only
  split <;> rfl

/-! ### Messages, power state, and PERST_N (O26) -/

theorem msixUnmask_releases {s : State} {m : W64} (h : s.pcie.d3 = false) : exec (.msixUnmask true false m) s
    = .next { s with
        pcie := { s.pcie with msixOn := true, funcMask := false, masked := m, pba := s.pcie.pba &&& m }
        out := s.out ++ ((List.range 64).filter (fun v => s.pcie.pba.getLsbD v && !m.getLsbD v)).map .msix } := by
  change execMsixUnmask true false m s = _
  unfold execMsixUnmask State.releaseMsix
  exact congrArg Host.Outcome.next (if_pos (by simp [h]))

theorem msixUnmask_holds {s : State} {en fm : Bool} {m : W64} (h : en = false ∨ fm = true ∨ s.pcie.d3 = true) :
    exec (.msixUnmask en fm m) s = .next { s with pcie := { s.pcie with msixOn := en, funcMask := fm, masked := m } } := by
  change execMsixUnmask en fm m s = _
  unfold execMsixUnmask State.releaseMsix
  refine congrArg Host.Outcome.next (if_neg ?_)
  obtain h | h | h := h <;> simp [h]

theorem pciePowerState_d3 (s : State) (p : Bool) : exec (.pciePowerState true p) s = .next { s with
    pcie := { s.pcie with d3 := true, pme := p }
    out := s.out ++ (if (p && !s.pPcie.events.isEmpty) = (s.pcie.pme && !s.pPcie.events.isEmpty) then []
      else [.pin "PCIE_WAKE_N" (!(p && !s.pPcie.events.isEmpty))]) } := by
  change execPciePowerState true p s = _
  unfold execPciePowerState
  dsimp only [State.pcieWake]
  by_cases h : (p && !s.pPcie.events.isEmpty) = (s.pcie.pme && !s.pPcie.events.isEmpty)
  · rw [if_pos h, List.append_nil]
    exact congrArg Host.Outcome.next (if_pos h)
  · rw [if_neg h]
    exact congrArg Host.Outcome.next (if_neg h)

theorem power_of_portSetup {u : State} {d p : Bool} {a : Nat} (h : u.portSetup = (d, p, a)) : u.pcie.d3 = d ∧ u.pcie.pme = p :=
  ⟨congrArg Prod.fst h, congrArg (·.2.1) h⟩

/-- PCIE_WAKE_N changes nothing beside what leaves the device. -/
theorem pinIf_keeps {s : State} {c : Prop} [Decidable c] {o : Out} :
    (if c then s else s.emit o).core = s.core ∧ (if c then s else s.emit o).portSetup = s.portSetup := by
  split <;> exact ⟨rfl, rfl⟩

theorem pciePowerState_d0 (s : State) (p : Bool) :
    ∃ u, exec (.pciePowerState false p) s = .next u ∧ u.core = s.core ∧ u.pcie.d3 = false ∧ u.pcie.pme = p := by
  refine ⟨_, rfl, ?_, power_of_portSetup (a := s.tw.addrBits) ?_⟩
  · change (State.flush (State.releaseMsix _) .pcie).core = _
    rw [core_flush, core_releaseMsix]
    exact pinIf_keeps.1
  · change (State.flush (State.releaseMsix _) .pcie).portSetup = _
    rw [portSetup_flush_pcie, portSetup_releaseMsix]
    exact pinIf_keeps.2

/-- Settles O26. -/
theorem pcieEndpoint : Obligations.PcieEndpoint := by
  unfold Obligations.PcieEndpoint
  intro s
  refine ⟨fun m => msixUnmask_releases, fun en fm m => msixUnmask_holds, pciePowerState_d3 s, pciePowerState_d0 s,
    _, rfl, rfl, rfl, rfl, rfl, rfl, rfl, rfl, rfl, rfl, rfl, rfl, rfl, rfl, fun r hr => ?_, List.length_map .., rfl⟩
  obtain ⟨x, -, rfl⟩ := List.mem_map.mp hr
  rfl

/-! ### Shedding, and the end of a shutdown -/

section Shedding
variable {s : State} {w : W16}

theorem shedStep_sheds (hl : s.thermal.level = 2) (ht : 1000 ≤ s.thermal.shedTicks) : exec .thermalShedStep s
    = .next { s with thermal := { s.thermal with shedTicks := 0, shedSteps := min 10 (s.thermal.shedSteps + 1) } } := by
  change execThermalShedStep s = _
  unfold execThermalShedStep
  dsimp only
  rw [if_pos hl, if_neg (by omega)]

theorem shedStep_restores (hl : s.thermal.level ≠ 2) (ht : 10000 ≤ s.thermal.shedTicks) (hn : 0 < s.thermal.shedSteps) :
    exec .thermalShedStep s
      = .next { s with thermal := { s.thermal with shedTicks := 0, shedSteps := s.thermal.shedSteps - 1 } } := by
  change execThermalShedStep s = _
  unfold execThermalShedStep
  dsimp only
  rw [if_neg hl, if_neg (by omega)]

theorem shedStep_early (h : (s.thermal.level = 2 ∧ s.thermal.shedTicks < 1000)
    ∨ (s.thermal.level ≠ 2 ∧ (s.thermal.shedTicks < 10000 ∨ s.thermal.shedSteps = 0))) : exec .thermalShedStep s = .next s := by
  change execThermalShedStep s = _
  unfold execThermalShedStep
  dsimp only
  obtain ⟨hl, ht⟩ | ⟨hl, ht⟩ := h
  · rw [if_pos hl, if_pos ht]
  · rw [if_neg hl, if_pos ht.symm]

theorem thermalRestart_running (h : s.thermal.shutdown = false) : exec (.thermalRestart w) s = .next s := by
  change execThermalRestart w s = _
  unfold execThermalRestart
  exact congrArg Host.Outcome.next (if_pos (by simp [h]))

theorem thermalRestart_first (h : s.thermal.shutdown = true) (hc : w.toInt < 1000) (hn : s.thermal.coldReads = 0) :
    exec (.thermalRestart w) s = .next { s with thermal := { s.thermal with coldReads := 1, temp := w } } := by
  change execThermalRestart w s = _
  unfold execThermalRestart
  dsimp only
  rw [if_neg (by simp [h]), if_pos (show deg w < 1000 from hc), if_pos hn]

theorem thermalRestart_second (h : s.thermal.shutdown = true) (hc : w.toInt < 1000) (hn : s.thermal.coldReads ≠ 0) :
    exec (.thermalRestart w) s
      = .next { s with thermal := { s.thermal with shutdown := false, coldReads := 0, temp := w } } := by
  change execThermalRestart w s = _
  unfold execThermalRestart
  dsimp only
  rw [if_neg (by simp [h]), if_pos (show deg w < 1000 from hc), if_neg hn]

theorem thermalRestart_hot (h : s.thermal.shutdown = true) (hc : 1000 ≤ w.toInt) :
    exec (.thermalRestart w) s = .next { s with thermal := { s.thermal with coldReads := 0, temp := w } } := by
  change execThermalRestart w s = _
  unfold execThermalRestart
  dsimp only
  rw [if_neg (by simp [h]), if_neg (show ¬ deg w < 1000 from Int.not_lt.mpr hc)]

end Shedding

/-! ### A reading of 125 °C -/

/-- From 125 °C on the next level is 3, whatever the level was (R494). -/
theorem next_of_hot {t : ThermalSt} (h : 1250 ≤ t.temp.toInt) : t.next = 3 := by
  unfold ThermalSt.next
  exact if_pos h

/-- A change of level leaves the backup domain alone. -/
theorem rtc_setLevel (s : State) (n : Nat) : (s.setLevel n).rtc = s.rtc := by
  unfold State.setLevel
  exact (of_core State.rtc (fun _ => rfl) (core_raise_noSlot ..)).trans
    ((of_core State.rtc (fun _ => rfl) (core_setIntBoth ..)).trans rfl)

/-- A shutdown is a reset with source 7 that leaves the backup domain alone, in which the reading stays (R494). -/
theorem shutDown_resets (s : State) : s.shutDown.thermal.shutdown = true ∧ s.shutDown.thermal.temp = s.thermal.temp ∧
    s.shutDown.power.ioUp = false ∧ s.shutDown.power.lastReset = 7 ∧ s.shutDown.power.ready = false ∧
    s.shutDown.services = [] ∧ s.shutDown.rtc.backup = s.rtc.backup ∧ s.shutDown.rtc.cal = s.rtc.cal := by
  have hrtc : s.shutDown.rtc = s.rtc.afterReset := congrArg RtcSt.afterReset (rtc_setLevel s 3)
  exact ⟨rfl, rfl, rfl, rfl, rfl, rfl, by rw [hrtc]; rfl, by rw [hrtc]; rfl⟩

theorem tick_tooHot {s : State} {inp : TickIn} (hup : s.up = true) (hserv : s.serving = true)
    (hb : s.time.boundary < 2 ^ 64) (hot : 1250 ≤ inp.temp.toInt) :
    ∃ t : State, t.thermal.temp = inp.temp ∧ t.rtc = s.rtc ∧ exec (.tick inp) s = .next t.shutDown := by
  obtain ⟨u, hu⟩ : ∃ u, u = s.nextTick.hostCells inp.writes := ⟨_, rfl⟩
  have hshut : u.thermalTick inp.temp = ({ u with thermal := u.readThermal inp.temp } : State).shutDown := by
    rw [thermalTick_eq]
    exact if_pos (next_of_hot hot)
  refine ⟨{ u with thermal := u.readThermal inp.temp }, rfl, by rw [hu]; rfl, ?_⟩
  change execTick inp s = _
  unfold execTick State.servedTick
  rw [if_neg (by simp [hup]), if_neg (by simp [hserv]), if_neg (by omega), ← hu, hshut]
  rfl

/-- Settles O29. -/
theorem temperatureAndShedding : Obligations.TemperatureAndShedding := by
  unfold Obligations.TemperatureAndShedding
  intro s
  refine ⟨fun hl ht hn => ?_, fun hl ht hn => ?_, shedStep_restores, shedStep_early,
    fun w h => ⟨thermalRestart_first h, thermalRestart_second h, thermalRestart_hot h⟩, fun w => thermalRestart_running,
    fun inp hup hserv hb hot => ?_⟩
  · rw [shedStep_sheds hl ht, Nat.min_eq_right (by omega)]
  · rw [shedStep_sheds hl ht, Nat.min_eq_left (by omega)]
  · obtain ⟨t, htemp, hrtc, heq⟩ := tick_tooHot hup hserv hb hot
    obtain ⟨hsh, hte, hio, hlast, hready, hsvc, hback, hcal⟩ := shutDown_resets t
    exact ⟨_, heq, hsh, hte.trans htemp, hio, hlast, hready, hsvc, by rw [hback, hrtc], by rw [hcal, hrtc]⟩

end Sys2Proof.Machine
end

section
/-! PROOFS. The chain port (O27). -/

namespace Sys2Proof.Machine

/-! ### Frames of the chain port -/

section Chain
variable {f : ChainFrame} {wait : Nat} {s : State}

/-- A port that is off, another HW and a wrong CRC are each enough for a frame to be no frame. -/
theorem chainFrame_ignored (h : s.chainOn = false ∨ f.hw ≠ 0x9484#16 ∨ ∀ t, ChainFrame_ok f t = false) (t : Nat) :
    (!s.chainOn || !ChainFrame_ok f t) = true := by
  obtain h | h | h := h
  · simp [h]
  · simp [ChainFrame_ok, h]
  · simp [h]

theorem chainFrames_ignored (h : s.chainOn = false ∨ f.hw ≠ 0x9484#16 ∨ ∀ t, ChainFrame_ok f t = false) :
    exec (.chainImageStart f wait) s = .next s ∧ exec (.chainImageBlock f wait) s = .next s ∧
    exec (.chainImageDone f wait) s = .next s ∧ exec (.chainActivate f wait) s = .next s := by
  have hno := chainFrame_ignored h
  refine ⟨?_, ?_, ?_, ?_⟩
  · change execChainImageStart f wait s = _
    unfold execChainImageStart
    exact congrArg Host.Outcome.next (if_pos (by rw [hno, Bool.true_or]))
  · change execChainImageBlock f wait s = _
    unfold execChainImageBlock
    exact congrArg Host.Outcome.next (if_pos (by rw [hno, Bool.true_or]))
  · change execChainImageDone f wait s = _
    unfold execChainImageDone
    exact congrArg Host.Outcome.next (if_pos (by rw [hno, Bool.true_or]))
  · change execChainActivate f wait s = _
    unfold execChainActivate
    exact congrArg Host.Outcome.next (if_pos (by rw [hno, Bool.true_or]))

variable {i : Nat} (hon : s.chainOn = true) (hloader : s.power.recovery = false) (hrun : s.flash.running ≤ 1)
  (hi : i = 1 - s.flash.running) (hcool : s.thermal.level = 0)

include hloader hi in
/-- The frames of the chain act on the slot that does not run. -/
theorem chainSlot_other : (s.advance wait).chainSlot = i := by
  rw [State.chainSlot, State.advance_power, if_neg (by simp [hloader]), State.advance_flash, hi]

include hrun hi in
theorem runs_other : (s.advance wait).runs i = false := by
  have hne : s.flash.running ≠ i := by omega
  simp [State.runs, hne]

theorem chainTransfer {t : ImgTransfer} (ht : (s.slot i).transfer = some t) (hown : t.owner = .chain) :
    (s.advance wait).imgOf .chain i = some t := by
  have h := imgOf_owner (s := s.advance wait) ht
  rwa [hown] at h

include hon hloader hrun hi hcool

theorem chainImageStart_receives (hok : ChainFrame_ok f 1 = true) (hlen : f.payload.length = 4)
    (hsched : (s.slot i).state ≠ .scheduled) (hheld : (s.slot i).heldFrom .chain = false) :
    ∃ u, exec (.chainImageStart f wait) s = .next u ∧
      u.core = (((s.advance wait).erased i).modSlot i (fun _ => receivingSlot .chain (unle f.payload) f.seq)).core := by
  have hbegin := imgBegin_receives (s := s.advance wait) (o := .chain) (len := unle f.payload) (seq := f.seq)
    (by omega : i ≤ 1) (runs_other hrun hi) hsched hheld hcool
  refine ⟨_, ?_, core_imageEvent _ i 0⟩
  change execChainImageStart f wait s = _
  unfold execChainImageStart
  rw [if_neg (by simp [hon, hok, hlen])]
  dsimp only
  rw [chainSlot_other hloader hi]
  exact congrArg (fun r => Host.Outcome.next r.1) hbegin

section Transfer
variable {t : ImgTransfer} (ht : (s.slot i).transfer = some t) (hown : t.owner = .chain)
  (hrecv : (s.slot i).state = .receiving)
include ht hown hrecv

omit hrun hcool in
theorem chainImageBlock_gap (hok : ChainFrame_ok f 2 = true) (hlen : 4 ≤ f.payload.length)
    (hgap : f.seq ≠ t.chainSeq + 1#8 ∨ field f.payload 0 4 ≠ t.next) :
    ∃ u, exec (.chainImageBlock f wait) s = .next u ∧ u.core
      = ((s.advance wait).modSlot i (fun x => { x with state := .refused, reason := 0x0E, transfer := none })).core := by
  refine ⟨_, ?_, core_imageEvent _ i 0x0E⟩
  change execChainImageBlock f wait s = _
  unfold execChainImageBlock
  rw [if_neg (by simp [hon, hok]; omega)]
  dsimp only
  rw [chainSlot_other hloader hi, chainTransfer ht hown]
  dsimp only
  rw [if_neg (not_not_intro (show ((s.advance wait).slot i).state = .receiving from hrecv)), if_pos hgap]
  rfl

theorem chainImageBlock_header (hok : ChainFrame_ok f 2 = true) (hlen : 5 ≤ f.payload.length)
    (hseq : f.seq = t.chainSeq + 1#8) (hoff : field f.payload 0 4 = t.next)
    (hfit : t.next + (f.payload.length - 4) ≤ t.length) (hhead : t.head.length = t.next)
    (hpart : t.head.length + (f.payload.length - 4) < 384) :
    exec (.chainImageBlock f wait) s = .next ((s.advance wait).modSlot i (fun x => { x with transfer := some { t with
      next := t.next + (f.payload.length - 4), head := t.head ++ f.payload.drop 4, chainSeq := f.seq } })) := by
  have hdata := imgData_header (s := s.advance wait) (data := f.payload.drop 4) (seq := f.seq) (by omega : i ≤ 1) ht hrecv hoff
    (by simpa using hfit) hcool (by simpa using hpart) hhead (by simp; omega)
  rw [hown, List.length_drop] at hdata
  change execChainImageBlock f wait s = _
  unfold execChainImageBlock
  rw [if_neg (by simp [hon, hok]; omega)]
  dsimp only
  rw [chainSlot_other hloader hi, chainTransfer ht hown]
  dsimp only
  rw [if_neg (not_not_intro (show ((s.advance wait).slot i).state = .receiving from hrecv)),
    if_neg (by simp [hseq, hoff]), hdata, hown]

omit hrun in
theorem chainImageDone_bootable (hok : ChainFrame_ok f 3 = true) (hwhole : t.length ≤ t.next) (hhead : 384 ≤ t.head.length)
    (hdigest : s.digestOk i t.head = true) :
    ∃ u, exec (.chainImageDone f wait) s = .next u ∧ u.core = ((s.advance wait).programmed i t.head).core := by
  have hend := imgEnd_bootable (s := s.advance wait) ht hrecv hwhole hhead hdigest
  rw [hown] at hend
  refine ⟨_, ?_, core_imageEvent _ i 0⟩
  change execChainImageDone f wait s = _
  unfold execChainImageDone
  rw [if_neg (by simp [hon, hok, State.tooHot, hcool])]
  dsimp only
  rw [chainSlot_other hloader hi]
  exact congrArg (fun r => Host.Outcome.next r.1) hend

end Transfer

theorem chainActivate_schedules (hok : ChainFrame_ok f 4 = true) (hlen : f.payload.length = 2)
    (hboot : (s.slot i).state = .bootable) (hother : (s.slot (1 - i)).state ≠ .scheduled) (hro : s.journal.readOnly = false)
    (hdt : (s.advance wait).effTickIdx * 1000000 < (s.advance wait).now + unle f.payload * 1000000000) :
    ∃ u, exec (.chainActivate f wait) s = .next u ∧ u.core = ((s.advance wait).modSlot i (fun x => { x with
      state := .scheduled, reason := 0
      activate := some (BitVec.ofNat 64 ((s.advance wait).now + unle f.payload * 1000000000)) })).core := by
  have hself : (s.slot i).state ≠ .scheduled := by rw [hboot]; decide
  have hneither : (s.slot 0).state ≠ .scheduled ∧ (s.slot 1).state ≠ .scheduled := by
    obtain rfl | rfl : i = 0 ∨ i = 1 := by omega
    · exact ⟨hself, hother⟩
    · exact ⟨hother, hself⟩
  have hact := imgActivate_schedules (s := s.advance wait) (by omega : i ≤ 1) (runs_other hrun hi) hdt hloader hcool
    hneither.1 hneither.2 hro hboot
  refine ⟨_, ?_, core_imageEvent _ i 0⟩
  change execChainActivate f wait s = _
  unfold execChainActivate
  rw [if_neg (by simp [hon, hok, hlen])]
  dsimp only
  rw [chainSlot_other hloader hi]
  exact congrArg (fun r => Host.Outcome.next r.1) hact

end Chain

/-- Settles O27. -/
theorem chainPort : Obligations.ChainPort := by
  unfold Obligations.ChainPort
  intro f wait s
  refine ⟨fun b h => ?_, fun b h => ?_, chainFrames_ignored, fun i hon hloader hrun hi hcool =>
    ⟨chainImageStart_receives hon hloader hrun hi hcool, fun t ht hown hrecv =>
      ⟨chainImageBlock_gap hon hloader hi ht hown hrecv,
        chainImageBlock_header hon hloader hrun hi hcool ht hown hrecv,
        chainImageDone_bootable hon hloader hi hcool ht hown hrecv⟩,
      chainActivate_schedules hon hloader hrun hi hcool⟩⟩
  · change execChainByteReceived b s = _
    unfold execChainByteReceived
    rw [if_pos h]
    rfl
  · change execChainByteReceived b s = _
    unfold execChainByteReceived
    rw [if_neg (by simp [h])]

end Sys2Proof.Machine
end

section
/-! PROOFS. The two-wire port's transactions and its ATTN writes (O25). -/

namespace Sys2Proof.Machine

/-! ### Bytes written -/

section Bytes
variable {s : State} {v : Byte}

/-- A byte that continues a word, or begins one, joins the part that waits. -/
theorem twWriteByte_part (h : s.tw.pointer.toNat % 4 = s.tw.partWord.length) (hlen : s.tw.partWord.length < 3) :
    s.twWriteByte v = { s with tw := { s.tw with pointer := s.tw.pointer + 1, partWord := s.tw.partWord ++ [v] } } := by
  unfold State.twWriteByte
  dsimp only
  rw [if_pos h, if_neg (by simp; omega)]

/-- The fourth byte of a word writes its register (R443). -/
theorem twWriteByte_word (h : s.tw.pointer.toNat % 4 = s.tw.partWord.length) (hlen : s.tw.partWord.length = 3)
    (hp : s.tw.pointer.toNat < 0x2000) :
    s.twWriteByte v = ({ s with tw := { s.tw with pointer := s.tw.pointer + 1, partWord := [] } } : State).writeWord .twoWire
      (s.tw.pointer.toNat - 3) (BitVec.ofNat 32 (unle (s.tw.partWord ++ [v]))) := by
  unfold State.twWriteByte
  dsimp only
  rw [if_pos h, if_pos (by simp [hlen]), if_pos hp]

/-- Four bytes from an aligned pointer on are one register write. -/
theorem twWriteByte_four {x0 x1 x2 x3 : Byte} (hpart : s.tw.partWord = []) (h4 : s.tw.pointer.toNat % 4 = 0)
    (hp : s.tw.pointer.toNat < 0x2000) :
    [x0, x1, x2, x3].foldl State.twWriteByte s
      = ({ s with tw := { s.tw with pointer := s.tw.pointer + 4, partWord := [] } } : State).writeWord .twoWire
          s.tw.pointer.toNat (BitVec.ofNat 32 (unle [x0, x1, x2, x3])) := by
  have h1 : (s.tw.pointer + 1).toNat = s.tw.pointer.toNat + 1 := by bv_omega
  have h2 : (s.tw.pointer + 1 + 1).toNat = s.tw.pointer.toNat + 2 := by bv_omega
  have h3 : (s.tw.pointer + 1 + 1 + 1).toNat = s.tw.pointer.toNat + 3 := by bv_omega
  have hend : s.tw.pointer + 1 + 1 + 1 + 1 = s.tw.pointer + 4 := by bv_omega
  simp only [List.foldl_cons, List.foldl_nil]
  rw [twWriteByte_part (s := s) (by rw [hpart, h4]; rfl) (by rw [hpart]; decide), hpart]
  rw [twWriteByte_part (v := x1) (by dsimp only; rw [h1]; simp; omega) (by simp)]
  rw [twWriteByte_part (v := x2) (by dsimp only; rw [h2]; simp; omega) (by simp)]
  rw [twWriteByte_word (v := x3) (by dsimp only; rw [h3]; simp; omega) (by simp) (by dsimp only; rw [h3]; omega)]
  dsimp only
  rw [h3, hend]
  rfl

end Bytes

/-- The end of a transaction discards a word that is not whole. -/
def State.twDone (s : State) : State := { s with tw := { s.tw with partWord := [] } }

/-! ### Write transactions -/

section Transactions
variable {wait : Nat} {s : State} {a : Byte}

theorem twMine_other {r : Bool} (h : a.toNat ≠ 2 * (0x58 + s.tw.addrBits % 8) + (if r then 1 else 0) ∨ s.power.ioUp = false) :
    (s.advance wait).twMine a r = false := by
  simp only [State.twMine, State.advance_power, State.advance_tw, Bool.and_eq_false_iff, beq_eq_false_iff_ne]
  exact h.symm

theorem twMine_own {r : Bool} (h : a.toNat = 2 * (0x58 + s.tw.addrBits % 8) + (if r then 1 else 0)) (hio : s.power.ioUp = true) :
    (s.advance wait).twMine a r = true := by
  simp only [State.twMine, State.advance_power, State.advance_tw, Bool.and_eq_true, beq_iff_eq]
  exact ⟨hio, h⟩

theorem twWrite_other {bs : List Byte} {st : Bool}
    (h : a.toNat ≠ 2 * (0x58 + s.tw.addrBits % 8) ∨ s.power.ioUp = false) :
    exec (.twWriteTransaction a bs st wait) s = .next (s.advance wait) := by
  change execTwWriteTransaction a bs st wait s = _
  unfold execTwWriteTransaction
  exact congrArg Host.Outcome.next (if_pos (by rw [twMine_other (r := false) h]; rfl))

theorem twRead_other {n : Nat} (h : a.toNat ≠ 2 * (0x58 + s.tw.addrBits % 8) + 1 ∨ s.power.ioUp = false) :
    exec (.twReadTransaction a n wait) s = .next (s.advance wait) := by
  change execTwReadTransaction a n wait s = _
  unfold execTwReadTransaction
  exact if_neg (by rw [twMine_other (r := true) h]; simp)

section Own
variable (ha : a.toNat = 2 * (0x58 + s.tw.addrBits % 8)) (hio : s.power.ioUp = true)
include ha hio

theorem twWrite_short {b : Byte} {st : Bool} : exec (.twWriteTransaction a [b] st wait) s
    = .next { s.advance wait with tw := { s.tw with partWord := [] } } := by
  change execTwWriteTransaction a [b] st wait s = _
  unfold execTwWriteTransaction
  exact congrArg Host.Outcome.next (if_neg (by rw [twMine_own (r := false) ha hio]; simp))

/-- Two bytes set the pointer; those that follow are written from there on, and a STOP ends the word in progress. -/
theorem twWrite_stopped {hi lo : Byte} {rest : List Byte} : exec (.twWriteTransaction a (hi :: lo :: rest) true wait) s
    = .next (rest.foldl State.twWriteByte
        { s.advance wait with tw := { s.tw with pointer := hi ++ lo, partWord := [] } }).twDone := by
  change execTwWriteTransaction a (hi :: lo :: rest) true wait s = _
  unfold execTwWriteTransaction
  exact congrArg Host.Outcome.next (if_neg (by rw [twMine_own (r := false) ha hio]; simp))

theorem twWrite_one {hi lo x : Byte} (h4 : (hi ++ lo : W16).toNat % 4 = 0) :
    exec (.twWriteTransaction a [hi, lo, x] true wait) s
      = .next { s.advance wait with tw := { s.tw with pointer := (hi ++ lo) + 1, partWord := [] } } := by
  rw [twWrite_stopped ha hio, List.foldl_cons, List.foldl_nil, twWriteByte_part h4 (by simp)]
  rfl

theorem twWrite_word {hi lo x0 x1 x2 x3 : Byte} (h4 : (hi ++ lo : W16).toNat % 4 = 0) (hp : (hi ++ lo : W16).toNat < 0x2000) :
    exec (.twWriteTransaction a [hi, lo, x0, x1, x2, x3] true wait) s
      = .next (({ s.advance wait with tw := { s.tw with pointer := (hi ++ lo) + 4, partWord := [] } } : State).writeWord .twoWire
          (hi ++ lo : W16).toNat (BitVec.ofNat 32 (unle [x0, x1, x2, x3]))).twDone := by
  rw [twWrite_stopped ha hio, twWriteByte_four rfl h4 hp]

end Own

/-! ### Read transactions -/

/-- The first byte of a read reads the word at the pointer and moves the pointer on (R442). -/
theorem twReadByte_first {t : State} {v : Nat}
    (h : t.readWord .twoWire (t.tw.pointer.toNat - t.tw.pointer.toNat % 4) (t.tw.pointer.toNat % 4 = 0) = (t, v)) :
    t.twReadByte true = ({ t with tw := { t.tw with
        readWord := BitVec.ofNat 32 (if t.tw.pointer.toNat < 0x2000 then v else 0), pointer := t.tw.pointer + 1 } },
      (le 4 (BitVec.ofNat 32 (if t.tw.pointer.toNat < 0x2000 then v else 0)).toNat).getD (t.tw.pointer.toNat % 4) 0) := by
  unfold State.twReadByte
  dsimp only
  rw [if_pos (by simp), h]

section Reads
variable (ha : a.toNat = 2 * (0x58 + s.tw.addrBits % 8) + 1) (hio : s.power.ioUp = true)
include ha hio

theorem twRead_one {p : W16} {v : Nat} (hp : s.tw.pointer = p)
    (hread : ∀ t : State, t.scratch = s.scratch → t.readWord .twoWire (p.toNat - p.toNat % 4) (p.toNat % 4 = 0) = (t, v)) :
    exec (.twReadTransaction a 1 wait) s = .next (({ s.advance wait with tw :=
      { s.tw with partWord := [], readWord := BitVec.ofNat 32 (if p.toNat < 0x2000 then v else 0), pointer := p + 1 } } : State).emit
        (.readData [(le 4 (BitVec.ofNat 32 (if p.toNat < 0x2000 then v else 0)).toNat).getD (p.toNat % 4) 0])) := by
  subst hp
  change execTwReadTransaction a 1 wait s = _
  unfold execTwReadTransaction
  refine (if_pos (twMine_own (r := true) ha hio)).trans ?_
  exact congrArg (fun r : State × Byte => (Host.Outcome.next (r.1.emit (.readData [r.2])) : Res))
    (twReadByte_first (hread (s.advance wait).twDone rfl))

theorem twRead_high (hp : 0x2000 ≤ s.tw.pointer.toNat) :
    exec (.twReadTransaction a 1 wait) s = .next (({ s.advance wait with tw :=
      { s.tw with partWord := [], readWord := 0#32, pointer := s.tw.pointer + 1 } } : State).emit (.readData [0#8])) := by
  have hzero : (le 4 0).getD (s.tw.pointer.toNat % 4) 0 = 0#8 := by
    have hall : ∀ k < 4, (le 4 0).getD k 0 = 0#8 := by decide
    exact hall _ (Nat.mod_lt _ (by decide))
  have h := twRead_one (wait := wait) ha hio rfl (v := 0) fun t _ => readWord_twoWire_high (by omega)
  rw [if_neg (by omega)] at h
  rw [h]
  simp only [BitVec.toNat_ofNat, Nat.zero_mod]
  rw [hzero]

theorem twRead_scratch (hp : s.tw.pointer = 0x00F0#16) :
    exec (.twReadTransaction a 1 wait) s = .next (({ s.advance wait with tw :=
      { s.tw with partWord := [], readWord := s.scratch, pointer := 0x00F1#16 } } : State).emit
        (.readData [s.scratch.setWidth 8])) := by
  have hword : ∀ t : State, t.scratch = s.scratch → t.readWord .twoWire 0xF0 true = (t, s.scratch.toNat) := fun t ht => by
    rw [← ht]; rfl
  have h := twRead_one (wait := wait) ha hio hp hword
  have hbyte : (le 4 s.scratch.toNat).getD 0 0 = s.scratch.setWidth 8 := by
    simp only [le, List.getD_cons_zero]
    bv_omega
  rw [h]
  simp only [if_pos (show (0x00F0#16).toNat < 0x2000 by decide), BitVec.ofNat_toNat, BitVec.setWidth_eq]
  exact congrArg (fun b => Host.Outcome.next (State.emit _ (.readData [b]))) hbyte

end Reads
end Transactions

/-! ### ATTN writes -/

/-- A write of ATTN that is given up counts as a dropped event (R451). -/
def State.attnGone (s : State) : State :=
  { s with tw := { s.tw with attn := none }, pTw := { s.pTw with evDropped := min (s.pTw.evDropped + 1) 0xFFFFFFFF } }

/-- An ATTN write put off to a later instant. -/
def State.attnLater (s : State) (due : W64) (arbLost nacks : Nat) : State :=
  { s with tw := { s.tw with attn := some ⟨due, arbLost, nacks⟩ } }

section Attn
variable {wait : Nat} {s : State} {w : AttnWrite} {r : AttnResult}

theorem attnAttempt_nack (h : w.nacks + 1 < 3) :
    s.attnAttempt w .nack = s.attnLater (BitVec.ofNat 64 (s.now + 10000000)) w.arbLost (w.nacks + 1) := by
  unfold State.attnAttempt
  exact if_neg (by omega)

theorem attnAttempt_lastNack (h : 3 ≤ w.nacks + 1) : s.attnAttempt w .nack = s.attnGone := by
  unfold State.attnAttempt
  exact if_pos h

theorem attnAttempt_arbLost (h : w.arbLost + 1 < 8) :
    s.attnAttempt w .arbLost = s.attnLater (BitVec.ofNat 64 (s.now + 100000)) (w.arbLost + 1) w.nacks := by
  unfold State.attnAttempt
  exact if_neg (by omega)

theorem attnAttempt_lastArbLost (h : 8 ≤ w.arbLost + 1) : s.attnAttempt w .arbLost = s.attnGone := by
  unfold State.attnAttempt
  exact if_pos h

theorem attnWrite_none (h : s.tw.attn = none) : exec (.attnWrite r wait) s = .next (s.advance wait) ∧
    exec (.attnWriteRetry r wait) s = .next (s.advance wait) := by
  constructor
  · change execAttnWrite r wait s = _
    simp only [execAttnWrite, State.advance_tw, h]
  · change execAttnWriteRetry r wait s = _
    simp only [execAttnWriteRetry, State.advance_tw, h]

variable (hw : s.tw.attn = some w)
include hw

theorem attnWrite_eq : exec (.attnWrite r wait) s
    = .next (if w.due.toNat ≤ (s.advance wait).now ∧ w.arbLost = 0 ∧ w.nacks = 0 then (s.advance wait).attnAttempt w r
        else s.advance wait) := by
  change execAttnWrite r wait s = _
  simp only [execAttnWrite, State.advance_tw, hw]

theorem attnWriteRetry_eq : exec (.attnWriteRetry r wait) s
    = .next (if w.due.toNat ≤ (s.advance wait).now ∧ 0 < w.arbLost + w.nacks then (s.advance wait).attnAttempt w r
        else s.advance wait) := by
  change execAttnWriteRetry r wait s = _
  simp only [execAttnWriteRetry, State.advance_tw, hw]

theorem attnWrite_early (h : (s.advance wait).now < w.due.toNat) : exec (.attnWrite r wait) s = .next (s.advance wait) ∧
    exec (.attnWriteRetry r wait) s = .next (s.advance wait) := by
  rw [attnWrite_eq hw, attnWriteRetry_eq hw, if_neg (by omega), if_neg (by omega)]
  exact ⟨rfl, rfl⟩

variable (hdue : w.due.toNat ≤ (s.advance wait).now)
include hdue

theorem attnWrite_first (ha : w.arbLost = 0) (hn : w.nacks = 0) :
    exec (.attnWrite r wait) s = .next ((s.advance wait).attnAttempt w r) := by
  rw [attnWrite_eq hw, if_pos ⟨hdue, ha, hn⟩]

omit hdue in
theorem attnRetry_unattempted (ha : w.arbLost = 0) (hn : w.nacks = 0) :
    exec (.attnWriteRetry r wait) s = .next (s.advance wait) := by
  rw [attnWriteRetry_eq hw, if_neg (by omega)]

theorem attnRetry_later (h : 0 < w.arbLost + w.nacks) :
    exec (.attnWriteRetry r wait) s = .next ((s.advance wait).attnAttempt w r) := by
  rw [attnWriteRetry_eq hw, if_pos ⟨hdue, h⟩]

omit hdue in
theorem attnWrite_attempted (h : 0 < w.arbLost + w.nacks) : exec (.attnWrite r wait) s = .next (s.advance wait) := by
  rw [attnWrite_eq hw, if_neg (by omega)]

end Attn

/-- Settles O25. -/
theorem twoWirePort : Obligations.TwoWirePort := by
  unfold Obligations.TwoWirePort
  refine ⟨fun wait s => ⟨fun a bs st => twWrite_other, fun a n => twRead_other, fun a ha hio => ⟨fun b st => twWrite_short ha hio,
      fun hi lo => twWrite_stopped ha hio, fun hi lo x => twWrite_one ha hio, fun hi lo x0 x1 x2 x3 => twWrite_word ha hio⟩,
      fun a ha hio => twRead_high ha hio, fun a ha hio => twRead_scratch ha hio, rfl⟩,
    fun wait s => ⟨fun w hw hdue => ⟨fun ha hn => ⟨attnWrite_first hw hdue ha hn, ?_, ⟨BitVec.ofNat 64 ((s.advance wait).now + 100000), ?_⟩,
        fun r => attnRetry_unattempted hw ha hn⟩,
      fun h => ⟨attnRetry_later hw hdue h, fun r => attnWrite_attempted hw h, fun hn => ?_, fun hn => ?_, 
        fun ha => ⟨BitVec.ofNat 64 ((s.advance wait).now + 100000), ?_⟩, fun ha => ?_⟩⟩, ?_⟩⟩
  · rw [attnWrite_first hw hdue ha hn, attnAttempt_nack (by omega), ha, hn]
    rfl
  · rw [attnWrite_first hw hdue ha hn, attnAttempt_arbLost (by omega), ha, hn]
    rfl
  · rw [attnRetry_later hw hdue h, attnAttempt_nack hn]
    rfl
  · rw [attnRetry_later hw hdue h, attnAttempt_lastNack hn]
    rfl
  · rw [attnRetry_later hw hdue h, attnAttempt_arbLost ha]
    rfl
  · rw [attnRetry_later hw hdue h, attnAttempt_lastArbLost ha]
    rfl
  · intro h r
    obtain h | ⟨w, hw, h⟩ := h
    · exact attnWrite_none h
    · exact attnWrite_early hw h

end Sys2Proof.Machine
end

section
/-! PROOFS. The results of the calibration in service (O42). -/

namespace Sys2Proof.Machine

/-! ### The journal and the blocks -/

theorem markDirty_eq (s : State) (g : Option Nat) : ∃ j, s.markDirty g = { s with journal := j } := by
  unfold State.markDirty
  split
  · exact ⟨s.journal, rfl⟩
  · split
    · exact ⟨s.journal, rfl⟩
    · exact ⟨_, rfl⟩

/-- Noting the retired slices of an ADC changes nothing but the journal. -/
theorem journalRetired_eq (s : State) (adc : Nat) (m : W32) : ∃ j, s.journalRetired adc m = { s with journal := j } := by
  unfold State.journalRetired
  dsimp only
  generalize (if adc = 0 then _ else _ : SysRecord) = y
  split
  · exact ⟨s.journal, rfl⟩
  · split
    · exact ⟨s.journal, rfl⟩
    · obtain ⟨j, hj⟩ := markDirty_eq { s with journal := { s.journal with sys := y } } (some 31)
      exact ⟨j, hj⟩

theorem adcCal_modAdc (s : State) (i : Nat) (f : AdcCal → AdcCal) : (s.modAdc i f).adcCal i = f (s.adcCal i) := by
  unfold State.modAdc State.adcCal State.modCal
  split <;> rfl

theorem adcCal_modAdc_other (s : State) {i : Nat} (h : i < 2) (f : AdcCal → AdcCal) :
    (s.modAdc i f).adcCal (1 - i) = s.adcCal (1 - i) := by
  obtain rfl | rfl : i = 0 ∨ i = 1 := by omega
  · rfl
  · rfl

theorem modAdc_modAdc (s : State) (i : Nat) (f g : AdcCal → AdcCal) : (s.modAdc i f).modAdc i g = s.modAdc i (fun a => g (f a)) := by
  unfold State.modAdc State.modCal
  split <;> rfl

/-! ### Rotation (R371 to R373) -/

section Rotation
variable {s : State} {r : RotationIn}

theorem rotationStep_idle
    (h : s.adcRuns = false ∨ (s.adcCal r.adc).mode ≠ 0 ∨ s.force.cal.nat 1 1 ≠ 1 ∨ r.usable < 25) :
    exec (.rotationStep r) s = .next s := by
  change execRotationStep r s = _
  unfold execRotationStep
  refine congrArg Host.Outcome.next (if_pos ?_)
  obtain h | h | h | h := h <;> simp [h]

/-- The result of a step of the rotation. -/
def rotationTrim (r : RotationIn) : SliceTrim := ⟨r.offset, r.gain, r.skew⟩

/-- The block of an ADC after a rejected result: its spare's failure is counted, and the target moves on. -/
def AdcCal.rotationFailed (a : AdcCal) : AdcCal :=
  { a with fails := a.fails.modify a.spare (fun n => min 255 (n + 1)), target := (a.aim + 1) % 17 }

variable (hadc : r.adc < 2) (hruns : s.adcRuns = true) (hon : s.force.cal.nat 1 1 = 1) (hfull : (s.adcCal r.adc).mode = 0)
  (husable : 25 ≤ r.usable)
include hadc hruns hon hfull husable

theorem rotationStep_counts :
    (decide (2 ≤ r.adc) || !s.adcRuns || (s.adcCal r.adc).mode != 0 || s.force.cal.nat 1 1 != 1 || decide (r.usable < 25)) = false := by
  simp [hruns, hon, hfull]
  omega

theorem rotationStep_accepted (hok : (rotationTrim r).ok = true)
    (hnear : (rotationTrim r).near ((s.adcCal r.adc).trim s.plan.plan (s.adcCal r.adc).spare) = true) :
    exec (.rotationStep r) s = .next (s.modAdc r.adc (fun _ =>
      { (s.adcCal r.adc).setTrim s.plan.plan (s.adcCal r.adc).spare (rotationTrim r) with
        head := CalHead.accept s.time.dt r.quality r.quality2, fails := (s.adcCal r.adc).fails.set (s.adcCal r.adc).spare 0
        status := ((s.adcCal r.adc).status.set (s.adcCal r.adc).spare 0).set (s.adcCal r.adc).aim 1
        spare := (s.adcCal r.adc).aim, target := ((s.adcCal r.adc).aim + 1) % 17 })) := by
  change execRotationStep r s = _
  unfold execRotationStep
  dsimp only
  rw [rotationStep_counts hadc hruns hon hfull husable, if_neg Bool.false_ne_true]
  exact congrArg Host.Outcome.next (if_pos (Bool.and_eq_true_iff.mpr ⟨hok, hnear⟩))

/-- A result outside the limits is counted; at the third the spare is retired (R373). -/
theorem rotationStep_rejected
    (hrej : ((rotationTrim r).ok && (rotationTrim r).near ((s.adcCal r.adc).trim s.plan.plan (s.adcCal r.adc).spare)) = false) :
    exec (.rotationStep r) s = .next (
      if 3 ≤ (s.adcCal r.adc).rotationFailed.fails.getD (s.adcCal r.adc).spare 0 then
        (s.modAdc r.adc (fun _ => (s.adcCal r.adc).rotationFailed)).retireSlice r.adc (s.adcCal r.adc).spare r.quality r.quality2
      else (s.modAdc r.adc (fun _ => (s.adcCal r.adc).rotationFailed)).calEvent (r.adc + 1) (s.adcCal r.adc).spare
        (if (rotationTrim r).ok then 2 else 1) r.quality r.quality2) := by
  change execRotationStep r s = _
  unfold execRotationStep
  dsimp only
  rw [rotationStep_counts hadc hruns hon hfull husable, if_neg Bool.false_ne_true]
  exact congrArg Host.Outcome.next (if_neg (by rw [rotationTrim] at hrej; rw [hrej]; exact Bool.false_ne_true))

end Rotation

/-- A retirement marks the slice in its ADC's block and in the journal, and says so (R373). -/
theorem retireSlice_eq (s : State) {adc : Nat} (h : adc < 2) (sl : Nat) (q q2 : Int) : ∃ t : State,
    s.retireSlice adc sl q q2 = t.calEvent (adc + 1) sl 3 q q2 ∧ t.adcCal adc = (s.adcCal adc).retire sl ∧
    t.adcCal (1 - adc) = s.adcCal (1 - adc) ∧ t.services = s.services := by
  obtain ⟨j, hj⟩ := journalRetired_eq (s.modAdc adc (fun a => a.retire sl)) adc
    ((s.modAdc adc (fun a => a.retire sl)).adcCal adc).retired
  refine ⟨{ s.modAdc adc (fun a => a.retire sl) with journal := j }, ?_, adcCal_modAdc s adc (fun a => a.retire sl), adcCal_modAdc_other s h (fun a => a.retire sl), rfl⟩
  rw [← hj]
  rfl

/-! ### Estimation (R374) -/

section Estimation
variable {s : State} {r : EstimationIn}

theorem estimationWindow_idle
    (h : s.adcRuns = false ∨ (s.adcCal r.adc).mode = 0 ∨ s.force.cal.nat 1 1 ≠ 1 ∨ r.rms < -4000) :
    exec (.estimationWindow r) s = .next s := by
  change execEstimationWindow r s = _
  unfold execEstimationWindow
  refine congrArg Host.Outcome.next (if_pos ?_)
  obtain h | h | h | h := h <;> simp [h]

theorem estimationWindow_one {sl : Nat} {o g k : Int} (hadc : r.adc < 2) (hruns : s.adcRuns = true)
    (hon : s.force.cal.nat 1 1 = 1) (hrms : -4000 ≤ r.rms) (hone : r.estimates = [(sl, o, g, k)])
    (hmode : (s.adcCal r.adc).mode ≠ 0) :
    exec (.estimationWindow r) s = .next (s.estimateSlice r.adc r.quality r.quality2 (sl, o, g, k)) := by
  change execEstimationWindow r s = _
  unfold execEstimationWindow
  refine congrArg Host.Outcome.next ((if_neg ?_).trans ?_)
  · simp [hruns, hon, hmode]
    omega
  · rw [hone]
    rfl

variable {adc sl : Nat} {o g k q q2 : Int}

/-- The block of an ADC after a slice's estimate failed for the `n`-th time in succession. -/
def AdcCal.estimateFailed (a : AdcCal) (sl : Nat) : AdcCal :=
  { a with fails := a.fails.modify sl (fun n => min 255 (n + 1)), estFails := a.estFails.set sl (a.estFails.getD sl 0 + 1) }

variable (hstatus : (s.adcCal adc).status.getD sl 9 = 0) (hfew : (s.adcCal adc).status.count 3 < 5)
include hstatus hfew

theorem estimateSlice_counts : ((s.adcCal adc).status.getD sl 9 != 0 || decide (5 ≤ (s.adcCal adc).status.count 3)) = false := by
  rw [hstatus, Bool.or_eq_false_iff]
  exact ⟨rfl, decide_eq_false (by omega)⟩

theorem estimateSlice_accepted (hok : (⟨o, g, k⟩ : SliceTrim).ok = true)
    (hnear : (⟨o, g, k⟩ : SliceTrim).near ((s.adcCal adc).trim s.plan.plan sl) = true) :
    s.estimateSlice adc q q2 (sl, o, g, k) = s.modAdc adc (fun _ =>
      { (s.adcCal adc).setTrim s.plan.plan sl (((s.adcCal adc).trim s.plan.plan sl).quarter ⟨o, g, k⟩) with
        head := CalHead.accept s.time.dt q q2, fails := (s.adcCal adc).fails.set sl 0
        estFails := (s.adcCal adc).estFails.set sl 0 }) := by
  unfold State.estimateSlice
  dsimp only
  rw [estimateSlice_counts hstatus hfew, if_neg Bool.false_ne_true]
  exact if_pos (Bool.and_eq_true_iff.mpr ⟨hok, hnear⟩)

theorem estimateSlice_failed (hok : (⟨o, g, k⟩ : SliceTrim).ok = false) (hn : (s.adcCal adc).estFails.getD sl 0 + 1 < 3) :
    s.estimateSlice adc q q2 (sl, o, g, k)
      = (s.modAdc adc (fun _ => (s.adcCal adc).estimateFailed sl)).calEvent (adc + 1) sl 1 q q2 := by
  unfold State.estimateSlice
  dsimp only
  rw [estimateSlice_counts hstatus hfew, if_neg Bool.false_ne_true, hok, if_neg (by simp), if_pos hn]
  rfl

/-- At the third failure in succession the slice is interpolated, and the ADC is DEGRADED (R518). -/
theorem estimateSlice_interpolated (hok : (⟨o, g, k⟩ : SliceTrim).ok = false)
    (hn : 3 ≤ (s.adcCal adc).estFails.getD sl 0 + 1) :
    s.estimateSlice adc q q2 (sl, o, g, k)
      = ((s.modAdc adc (fun _ => { (s.adcCal adc).estimateFailed sl with
          status := (s.adcCal adc).status.set sl 3, mode := 2 })).raise 0x800A noSlot
            (le 1 adc ++ le 1 sl ++ le 1 (((s.adcCal adc).status.set sl 3).count 3) ++ zeros 1)).calEvent (adc + 1) sl 4 q q2 := by
  unfold State.estimateSlice
  dsimp only
  rw [estimateSlice_counts hstatus hfew, if_neg Bool.false_ne_true, hok, if_neg (by simp), if_neg (by omega)]
  rfl

end Estimation

/-! ### Flatness bursts (R376) -/

section Burst
variable {s : State} {b : BurstIn}

theorem flatnessBurst_idle (h : s.burstTick b.input s.tickNow = false ∨ s.coex.reqIn = true) :
    exec (.flatnessBurst b) s = .next s := by
  change execFlatnessBurst b s = _
  unfold execFlatnessBurst
  refine congrArg Host.Outcome.next (if_pos ?_)
  obtain h | h := h <;> simp [h]

variable (hin : b.input < 3) (htick : s.burstTick b.input s.tickNow = true) (hreq : s.coex.reqIn = false)
  (hlen : b.lines.length = (s.flat b.input).lines.length)
include hin htick hreq hlen

/-- A burst on its tick ends 450 us before the next boundary. -/
theorem flatnessBurst_counts : (decide (2 < b.input) || !s.burstTick b.input s.tickNow || s.coex.reqIn
    || b.lines.length != (s.flat b.input).lines.length) = false := by
  simp [htick, hreq, hlen]
  omega

theorem flatnessBurst_accepted (hok : linesOk b.input b.lines = true) (hnear : within 50 b.lines (s.flat b.input).lines = true) :
    exec (.flatnessBurst b) s = .next ((s.advance (s.time.boundary - 450000 - s.now)).modFlat b.input (fun f => { f with
      head := CalHead.accept (s.advance (s.time.boundary - 450000 - s.now)).time.dt b.quality 0, lines := b.lines })) := by
  change execFlatnessBurst b s = _
  unfold execFlatnessBurst
  dsimp only
  rw [flatnessBurst_counts hin htick hreq hlen, if_neg Bool.false_ne_true, if_pos (Bool.and_eq_true_iff.mpr ⟨hok, hnear⟩)]

theorem flatnessBurst_rejected (hok : linesOk b.input b.lines = false) :
    exec (.flatnessBurst b) s = .next (((s.advance (s.time.boundary - 450000 - s.now)).modFlat b.input
      (fun f => { f with head := f.head.reject })).calEvent (flatBlock b.input) b.input 1 b.quality 0) := by
  change execFlatnessBurst b s = _
  unfold execFlatnessBurst
  dsimp only
  rw [flatnessBurst_counts hin htick hreq hlen, if_neg Bool.false_ne_true, hok, if_neg (by simp)]
  rfl

end Burst

/-! ### The RTC trim (R380) -/

section RtcTrim
variable {s : State} {e : Int} {wait : Nat}

theorem rtcTrimMeasure_idle (h : s.force.cal.nat 4 1 ≠ 1 ∨ s.refs.tstate ≠ .locked ∨ s.cal.lockTicks < 1000000) :
    exec (.rtcTrimMeasure e wait) s = .next s := by
  change execRtcTrimMeasure e wait s = _
  unfold execRtcTrimMeasure
  refine congrArg Host.Outcome.next (if_pos ?_)
  obtain h | h | h := h <;> simp [h]

variable (hon : s.force.cal.nat 4 1 = 1) (hlock : s.refs.tstate = .locked) (hticks : 1000000 ≤ s.cal.lockTicks)
include hon hlock hticks

theorem rtcTrimMeasure_counts :
    (s.force.cal.nat 4 1 != 1 || s.refs.tstate != .locked || decide (s.cal.lockTicks < 1000000)) = false := by
  simp [hon, hlock]
  omega

theorem rtcTrimMeasure_accepted (hok : e.natAbs ≤ 10000) : exec (.rtcTrimMeasure e wait) s = .next { s.advance wait with
    rtc := { s.rtc with trim := trimFor s.rtc.trim e }
    cal := { s.cal with lockTicks := 0, trim := ⟨CalHead.accept (s.advance wait).time.dt e.natAbs 0, trimFor s.rtc.trim e, e⟩ } } := by
  change execRtcTrimMeasure e wait s = _
  unfold execRtcTrimMeasure
  rw [rtcTrimMeasure_counts hon hlock hticks, if_neg Bool.false_ne_true]
  exact congrArg Host.Outcome.next (if_pos (decide_eq_true hok))

theorem rtcTrimMeasure_rejected (hbad : 10000 < e.natAbs) : exec (.rtcTrimMeasure e wait) s
    = .next (({ s.advance wait with cal := { s.cal with lockTicks := 0, trim := { s.cal.trim with head := s.cal.trim.head.reject } } }
        : State).calEvent 0x40 0 1 (min 65535 (e.natAbs : Int)) 0) := by
  change execRtcTrimMeasure e wait s = _
  unfold execRtcTrimMeasure
  rw [rtcTrimMeasure_counts hon hlock hticks, if_neg Bool.false_ne_true]
  exact congrArg Host.Outcome.next (if_neg (by simp [errorOk]; omega))

end RtcTrim

/-! ### The trunk's equaliser (R379) -/

section Equaliser
variable {s : State} {f : EqFit} {wait : Nat}

theorem equaliserFit_notDue (h : (s.advance wait).fitDue = false) : exec (.equaliserFit f wait) s = .next s := by
  change execEqualiserFit f wait s = _
  unfold execEqualiserFit
  exact congrArg Host.Outcome.next (if_pos (Bool.not_eq_true' _ |>.mpr h))

variable (hdue : (s.advance wait).fitDue = true) (hjob : s.cal.job = none)
include hdue hjob

theorem equaliserFit_accepted (hok : f.spread ≤ 400) : exec (.equaliserFit f wait) s = .next { s.advance wait with
    cal := { s.cal with eq := ⟨CalHead.accept (s.advance wait).time.dt f.ripple 0,
      if s.trunk.state = .data ∧ 50 < f.change then f.stepTap else f.taps, some (s.advance wait).time.dt⟩ } } := by
  change execEqualiserFit f wait s = _
  unfold execEqualiserFit
  simp only [hdue, Bool.not_true, Bool.false_eq_true, if_false, if_pos hok, State.advance_cal, hjob, State.modCal]
  rfl

theorem equaliserFit_rejected (hbad : 400 < f.spread) : exec (.equaliserFit f wait) s
    = .next (({ s.advance wait with cal := { s.cal with eq := { s.cal.eq with
        last := some (s.advance wait).time.dt, head := s.cal.eq.head.reject } } } : State).calEvent 0x30 0 1 f.ripple 0) := by
  change execEqualiserFit f wait s = _
  unfold execEqualiserFit
  simp only [hdue, Bool.not_true, Bool.false_eq_true, if_false, if_neg (show ¬ f.spread ≤ 400 by omega), State.advance_cal, hjob,
    State.modCal]

end Equaliser

/-- Settles O42. -/
theorem calibrationResults : Obligations.CalibrationResults := by
  unfold Obligations.CalibrationResults
  intro s
  refine ⟨fun r hadc hruns hon hfull husable => ⟨rotationStep_accepted hadc hruns hon hfull husable, fun hbad hn => ?_,
      fun hok hfar hn => ?_, fun hbad hn => ?_⟩, fun r => rotationStep_idle,
    fun r sl o g k hadc hruns hon hrms hone hmode hstatus hfew => ⟨fun hok hnear => ?_, fun hbad hn => ?_, fun hbad hn => ?_⟩,
    fun r => estimationWindow_idle,
    fun b hin htick hreq hlen => ⟨flatnessBurst_accepted hin htick hreq hlen, flatnessBurst_rejected hin htick hreq hlen⟩,
    fun b => flatnessBurst_idle,
    fun e wait hon hlock hticks => ⟨rtcTrimMeasure_accepted hon hlock hticks, rtcTrimMeasure_rejected hon hlock hticks⟩,
    fun e wait => rtcTrimMeasure_idle,
    fun f wait => ⟨equaliserFit_accepted, equaliserFit_rejected, equaliserFit_notDue⟩⟩
  · have hout : (rotationTrim r).ok = false := hbad
    have hfew : ¬ 3 ≤ (s.adcCal r.adc).rotationFailed.fails.getD (s.adcCal r.adc).spare 0 := Nat.not_le.mpr hn
    rw [rotationStep_rejected hadc hruns hon hfull husable (by rw [hout, Bool.false_and]), if_neg hfew, hout,
      if_neg Bool.false_ne_true]
    rfl
  · have hin : (rotationTrim r).ok = true := hok
    have hfew : ¬ 3 ≤ (s.adcCal r.adc).rotationFailed.fails.getD (s.adcCal r.adc).spare 0 := Nat.not_le.mpr hn
    rw [rotationStep_rejected hadc hruns hon hfull husable (Bool.and_eq_false_iff.mpr (.inr hfar)), if_neg hfew, if_pos hin]
    rfl
  · obtain ⟨t, heq, hself, hother, hsvc⟩ := retireSlice_eq (s.modAdc r.adc (fun _ => (s.adcCal r.adc).rotationFailed)) hadc
      (s.adcCal r.adc).spare r.quality r.quality2
    refine ⟨t, ?_, ?_, hother.trans (adcCal_modAdc_other s hadc _), hsvc⟩
    · have hthird : 3 ≤ (s.adcCal r.adc).rotationFailed.fails.getD (s.adcCal r.adc).spare 0 := hn
      rw [rotationStep_rejected hadc hruns hon hfull husable (Bool.and_eq_false_iff.mpr (.inl hbad)), if_pos hthird, heq]
      rfl
    · rw [hself, adcCal_modAdc]
      rfl
  · rw [estimationWindow_one hadc hruns hon hrms hone hmode, estimateSlice_accepted hstatus hfew hok hnear]
    rfl
  · rw [estimationWindow_one hadc hruns hon hrms hone hmode, estimateSlice_failed hstatus hfew hbad hn]
    rfl
  · rw [estimationWindow_one hadc hruns hon hrms hone hmode, estimateSlice_interpolated hstatus hfew hbad hn]
    rfl

end Sys2Proof.Machine
end

section
/-! PROOFS. A retry is answered and not executed, and the last 32 packets are kept (O54). -/

namespace Sys2Proof.Machine

/-- What a packet adds to the entries kept for its transport: the oldest beyond 32 go (R396). -/
theorem dups_post (s : State) (h : CmdHdr) (r : Option Reply) : (s.post h true r).dups h.tr
    = (s.dups h.tr ++ [(⟨h.seq, h.trailer, s.nextId, r⟩ : DupEntry)]).drop ((s.dups h.tr).length + 1 - 32) := by
  unfold State.post
  cases r <;> simp only [if_true, dups_flush, dups_nextId_setPort, count_dups] <;> rfl

/-- The reply that an answer makes at once (R395). -/
def State.replyOf (s : State) (dt : W64) (h : CmdHdr) (op : Nat) : Answer → Option Reply
  | .later => none
  | .now st params gen eff => some ⟨BitVec.ofNat 16 op, h.seq, st, gen.getD (s.replyGen h.slot), eff, dt, params⟩

theorem finish_eq_post (s : State) (dt : W64) (h : CmdHdr) (op : Nat) (a : Answer) :
    s.finish dt h op a = s.post h true (s.replyOf dt h op a) := by
  cases a <;> rfl

theorem replyOf_header {s : State} {dt : W64} {h : CmdHdr} {op : Nat} {a : Answer} {r : Reply}
    (e : s.replyOf dt h op a = some r) : r.seq = h.seq ∧ r.opcode = BitVec.ofNat 16 op := by
  cases a <;> cases e
  exact ⟨rfl, rfl⟩

/-- A strict keeping of all transports is one of each. -/
theorem keys_port_of_kept {s u : State} (h : Keeps true s.kept u.kept) (t : Transport) : (u.port t).keys = (s.port t).keys := by
  obtain ⟨-, -, hkeys⟩ := h
  have hall := hkeys rfl
  simp only [Kept.keys, List.cons.injEq] at hall
  obtain ⟨hp, ht, hs, hk, -⟩ := hall
  cases t
  case pcie => exact hp
  case twoWire => exact ht
  case service => exact hs
  case trunk => exact hk

section
variable {s : State} {h : CmdHdr} {g : Gate} {body : State → State × Answer} (hserves : s.serves h.tr = true)
include hserves

theorem runCmd_retry {d : DupEntry} (hd : (s.port h.tr).dup? h.seq h.trailer = some d) :
    s.runCmd g h body = (s.advance h.wait).resend h d := by
  have hd' : ((s.advance h.wait).port h.tr).dup? h.seq h.trailer = some d := by rw [State.advance_port]; exact hd
  unfold State.runCmd
  rw [if_neg (by simp [hserves])]
  dsimp only
  rw [hd']

theorem runCmd_new (hd : (s.port h.tr).dup? h.seq h.trailer = none) :
    s.runCmd g h body = ((s.advance h.wait).checked g h body).1.finish (s.advance h.wait).time.dt h g.opcode
      ((s.advance h.wait).checked g h body).2 := by
  have hd' : ((s.advance h.wait).port h.tr).dup? h.seq h.trailer = none := by rw [State.advance_port]; exact hd
  unfold State.runCmd
  rw [if_neg (by simp [hserves])]
  dsimp only
  rw [hd']

/-- A retry is not executed: the kept reply joins those that leave. -/
theorem runCmd_retry_keeps {d : DupEntry} (hd : (s.port h.tr).dup? h.seq h.trailer = some d) :
    (s.runCmd g h body).core = (s.advance h.wait).core ∧ ((s.runCmd g h body).port h.tr).dups = (s.port h.tr).dups := by
  rw [runCmd_retry hserves hd]
  refine ⟨core_resend .., ?_⟩
  have hdups : ((s.advance h.wait).resend h d).dups h.tr = (s.advance h.wait).dups h.tr := by
    unfold State.resend
    rw [dups_flush]
    exact dups_setPort _ _ _ _ rfl
  rw [State.dups, State.dups, State.advance_port] at hdups
  exact hdups

/-- A new packet is executed and kept as the last entry, whose reply is its own (R396). -/
theorem runCmd_new_keeps (hd : (s.port h.tr).dup? h.seq h.trailer = none) (hbody : ∀ u, KeepsIn u (body u)) :
    ((s.runCmd g h body).port h.tr).keys
      = ((s.port h.tr).keys ++ [(h.seq, h.trailer)]).drop ((s.port h.tr).dups.length + 1 - 32) ∧
    ∃ d, ((s.runCmd g h body).port h.tr).dups.getLast? = some d ∧
      ∀ r, d.reply = some r → r.seq = h.seq ∧ r.opcode = BitVec.ofNat 16 g.opcode := by
  obtain ⟨u, hu⟩ : ∃ u, u = (s.advance h.wait).checked g h body := ⟨_, rfl⟩
  have hkeys : (u.1.port h.tr).keys = (s.port h.tr).keys := by
    rw [hu, keys_port_of_kept (keeps_checked g h body hbody), State.advance_port]
  have hlen : (u.1.port h.tr).dups.length = (s.port h.tr).dups.length := by
    simpa [Port.keys] using congrArg List.length hkeys
  rw [runCmd_new hserves hd, ← hu, finish_eq_post]
  constructor
  · have hpost := congrArg (List.map fun d : DupEntry => (d.seq, d.trailer))
      (dups_post u.1 h (u.1.replyOf (s.advance h.wait).time.dt h g.opcode u.2))
    rw [List.map_drop, List.map_append] at hpost
    refine hpost.trans ?_
    rw [← hkeys, ← hlen]
    rfl
  · exact ⟨_, lastEntry_post u.1 h _, fun r hr => replyOf_header hr⟩

end

/-- Settles O54. -/
theorem retriesAreNotExecuted : Obligations.RetriesAreNotExecuted := by
  unfold Obligations.RetriesAreNotExecuted
  intro i op h p s e hserves
  obtain ⟨g, body, hop, hrun, hbody⟩ := runsKeeping e
  have hexec : exec i s = .next (s.runCmd g h body) := by rw [exec_eq_interpret e, hrun]
  refine ⟨fun d hd => ?_, fun hd _ => ?_⟩
  · obtain ⟨hcore, hdups⟩ := runCmd_retry_keeps (g := g) (body := body) hserves hd
    refine ⟨_, hexec, hcore, hdups, ?_⟩
    rw [runCmd_retry hserves hd, State.resend, State.advance_port]
    rfl
  · obtain ⟨hkeys, d, hlast, hreply⟩ := runCmd_new_keeps (g := g) (body := body) hserves hd hbody
    refine ⟨_, hexec, hkeys, fun r d' hd' hr => ?_⟩
    rw [hlast] at hd'
    cases hd'
    rw [← hop]
    exact hreply r hr

end Sys2Proof.Machine
end

section
/-! PROOFS. Events join the queues of the transports that want them, and EVENT_FETCH takes the oldest eight (O56). -/

namespace Sys2Proof.Machine

/-! ### Delivery of replies keeps the events that wait -/

/-- The events that wait for a transport and their counters. -/
def Port.queue (p : Port) : List Event × W16 × Nat := (p.events, p.evSeq, p.evDropped)

/-- The queue of a transport is not touched where its replies are delivered. -/
theorem queue_deliverOne (s : State) (t : Transport) : ((s.deliverOne t).1.port t).queue = (s.port t).queue := by
  have hset : ∀ (s : State) (p : Port), (s.setPort t p).port t = p := fun s p => by cases t <;> rfl
  unfold State.deliverOne
  dsimp only
  split
  · rfl
  · split
    · rfl
    · cases t <;> dsimp only
      case pcie =>
        split
        · split
          · rw [hset]; rfl
          · have hr := port_replyRingTry s ‹Reply›.packet .pcie
            split <;> (rename_i heq; rw [heq] at hr; dsimp only at hr)
            · rw [hset, ← hr]; rfl
            · rw [hr]
        · rw [port_mailboxAnswer, hset]; rfl
      case twoWire => rw [port_mailboxAnswer, hset]; rfl
      all_goals
        split
        · rw [hset]; rfl
        · rfl

theorem queue_deliverReplies (n : Nat) (s : State) (t : Transport) :
    ((State.deliverReplies n s t).port t).queue = (s.port t).queue := by
  induction n generalizing s with
  | zero => rfl
  | succ n ih =>
    have hone := queue_deliverOne s t
    unfold State.deliverReplies
    split <;> (rename_i heq; rw [heq] at hone)
    · rw [ih]; exact hone
    · exact hone

/-! ### While the reply ring is off it takes nothing -/

@[simp] theorem rings_msix (s : State) (v : Nat) : (s.msix v).rings = s.rings := by
  unfold State.msix
  dsimp only
  split <;> rfl

@[simp] theorem rings_intEdge (s : State) (b : Bus) (old : W32) : (s.intEdge b old).rings = s.rings := by
  unfold State.intEdge
  cases b
  case pcie =>
    dsimp only
    split
    · rfl
    · exact rings_msix s 0
  case twoWire => dsimp only; split <;> split <;> rfl

/-- Whether the reply ring is on is a matter of the settings, of its fault, and of the endpoint's power state. -/
theorem replyRingOn_of {s u : State} (hc : u.core = s.core) (hr : u.rings = s.rings) (hp : u.portSetup = s.portSetup) :
    u.replyRingOn = s.replyRingOn := by
  have hforce : u.force = s.force := of_core State.force (fun _ => rfl) hc
  have hd3 : u.pcie.d3 = s.pcie.d3 := congrArg Prod.fst hp
  rw [State.replyRingOn, State.replyRingOn, hforce, hr, hd3]

theorem replyRingOn_intEdge (s : State) (b : Bus) (old : W32) : (s.intEdge b old).replyRingOn = s.replyRingOn :=
  replyRingOn_of (core_intEdge ..) (rings_intEdge ..) (portSetup_intEdge ..)

theorem replyRingOn_setPort (s : State) (t : Transport) (p : Port) : (s.setPort t p).replyRingOn = s.replyRingOn := by
  cases t <;> rfl

theorem replyRingOn_mailboxAnswer (s : State) (b : Bus) (e : OutEntry) (r : Reply) :
    (s.mailboxAnswer b e r).replyRingOn = s.replyRingOn := by
  unfold State.mailboxAnswer State.setInt State.setIntWord
  rw [replyRingOn_intEdge]
  cases b <;> rfl

theorem replyRingTry_off {s : State} (h : s.replyRingOn = false) (pkt : List Byte) : s.replyRingTry pkt = (s, false) := by
  unfold State.replyRingTry
  rw [if_pos (by rw [h]; rfl)]

theorem replyRingOn_deliverOne {s : State} (h : s.replyRingOn = false) (t : Transport) :
    (s.deliverOne t).1.replyRingOn = false := by
  unfold State.deliverOne
  dsimp only
  split
  · exact h
  · split
    · exact h
    · cases t <;> dsimp only
      case pcie =>
        split
        · split
          · exact h
          · rw [replyRingTry_off h]
            exact h
        · rw [replyRingOn_mailboxAnswer]; exact h
      case twoWire => rw [replyRingOn_mailboxAnswer]; exact h
      all_goals split <;> exact h

theorem replyRingOn_deliverReplies (n : Nat) {s : State} (h : s.replyRingOn = false) (t : Transport) :
    (State.deliverReplies n s t).replyRingOn = false := by
  induction n generalizing s with
  | zero => exact h
  | succ n ih =>
    have hone := replyRingOn_deliverOne h t
    unfold State.deliverReplies
    split <;> (rename_i heq; rw [heq] at hone)
    · exact ih hone
    · exact hone

theorem deliverEvents_off (n : Nat) {s : State} (h : s.replyRingOn = false) : State.deliverEvents n s = s := by
  cases n with
  | zero => rfl
  | succ n =>
    unfold State.deliverEvents
    split
    · rfl
    · split
      · rfl
      · rw [replyRingTry_off h]

theorem queue_flush_pcie {s : State} (h : s.replyRingOn = false) : ((s.flush .pcie).port .pcie).queue = (s.port .pcie).queue := by
  unfold State.flush
  dsimp only
  rw [deliverEvents_off _ (replyRingOn_deliverReplies _ h .pcie)]
  exact queue_deliverReplies ..

/-! ### An event joins a queue (R400) -/

theorem port_pcie (s : State) : s.port .pcie = s.pPcie := rfl
theorem port_twoWire (s : State) : s.port .twoWire = s.pTw := rfl
theorem port_service (s : State) : s.port .service = s.pSvc := rfl
theorem port_trunk (s : State) : s.port .trunk = s.pTrunk := rfl

/-- A port whose queue an event has joined. -/
def Port.Joined (p q : Port) (e : Event) : Prop :=
  q.events = joinQueue p.events e ∧ q.evSeq = p.evSeq + 1 ∧
    q.evDropped = (if 128 ≤ p.events.length then min (p.evDropped + 1) 0xFFFFFFFF else p.evDropped) ∧ q.dups = p.dups

/-- The port of a transport whose queue an event joins. -/
def Port.join (p : Port) (e : Event) : Port :=
  { p with events := joinQueue p.events e, evSeq := p.evSeq + 1
           evDropped := if p.events.length ≥ 128 then sat32 (p.evDropped + 1) else p.evDropped }

theorem Port.joined_of {p q : Port} {e : Event} (hq : q.queue = (p.join e).queue) (hd : q.dups = p.dups) : p.Joined q e := by
  obtain ⟨hev, hrest⟩ := Prod.mk.inj hq
  obtain ⟨hseq, hdrop⟩ := Prod.mk.inj hrest
  exact ⟨hev, hseq, hdrop, hd⟩

theorem queueEvent_joined {s : State} {t : Transport} {c f : W16} {ps : List Byte} (h : t = .pcie → s.replyRingOn = false) :
    (s.port t).Joined ((s.queueEvent t c f ps).port t) (s.eventFor (s.port t) c f ps) := by
  refine Port.joined_of ?_ (dups_queueEvent ..)
  cases t
  case pcie =>
    have hoff : ((s.setPort .pcie (s.pPcie.join (s.eventFor s.pPcie c f ps))).intEdge .pcie (s.intActive .pcie)).replyRingOn
        = false := by
      rw [replyRingOn_intEdge, replyRingOn_setPort]
      exact h rfl
    refine (queue_flush_pcie hoff).trans ?_
    rw [port_intEdge]
    rfl
  case twoWire =>
    change ((State.intEdge _ .twoWire _).port .twoWire).queue = _
    rw [port_intEdge]
    rfl
  case service =>
    unfold State.queueEvent
    dsimp only
    split <;> rfl
  case trunk => rfl

/-! ### An event that names no slot is offered to every transport (R399) -/

theorem port_offerEvent_ne (s : State) (c f : W16) (ps : List Byte) {t u : Transport} (h : t ≠ u) :
    (s.offerEvent c f ps u).port t = s.port t := by
  unfold State.offerEvent
  split
  · exact port_queueEvent_ne s c f ps h
  · rfl

/-- Each transport is offered the event by a state that differs only in the delivery on others. -/
theorem port_raise_noSlot (s : State) (code : Nat) (ps : List Byte) (t : Transport) : ∃ v : State,
    v.core = s.core ∧ v.port t = s.port t ∧ (t = .pcie → v = s) ∧
    (s.raise code noSlot ps).port t = (v.offerEvent (BitVec.ofNat 16 code) noSlot ps t).port t := by
  rw [raise_noSlot_eq]
  cases t
  case pcie =>
    refine ⟨s, rfl, rfl, fun _ => rfl, ?_⟩
    rw [port_offerEvent_ne _ _ _ _ (u := .trunk) (by decide), port_offerEvent_ne _ _ _ _ (u := .service) (by decide),
      port_offerEvent_ne _ _ _ _ (u := .twoWire) (by decide)]
  case twoWire =>
    refine ⟨s.offerEvent (BitVec.ofNat 16 code) noSlot ps .pcie, core_offerEvent .., port_offerEvent_ne _ _ _ _ (by decide),
      Transport.noConfusion, ?_⟩
    rw [port_offerEvent_ne _ _ _ _ (u := .trunk) (by decide), port_offerEvent_ne _ _ _ _ (u := .service) (by decide)]
  case service =>
    refine ⟨(s.offerEvent (BitVec.ofNat 16 code) noSlot ps .pcie).offerEvent (BitVec.ofNat 16 code) noSlot ps .twoWire, ?_, ?_,
      Transport.noConfusion, ?_⟩
    · rw [core_offerEvent, core_offerEvent]
    · rw [port_offerEvent_ne _ _ _ _ (u := .twoWire) (by decide), port_offerEvent_ne _ _ _ _ (u := .pcie) (by decide)]
    · rw [port_offerEvent_ne _ _ _ _ (u := .trunk) (by decide)]
  case trunk =>
    refine ⟨_, ?_, ?_, Transport.noConfusion, rfl⟩
    · rw [core_offerEvent, core_offerEvent, core_offerEvent]
    · rw [port_offerEvent_ne _ _ _ _ (u := .service) (by decide), port_offerEvent_ne _ _ _ _ (u := .twoWire) (by decide),
        port_offerEvent_ne _ _ _ _ (u := .pcie) (by decide)]

theorem raise_joined {s : State} {code : Nat} {ps : List Byte} {t : Transport}
    (hm : s.masked t (BitVec.ofNat 16 code) = true) (h : t = .pcie → s.replyRingOn = false) :
    (s.port t).Joined ((s.raise code noSlot ps).port t) (s.eventFor (s.port t) (BitVec.ofNat 16 code) noSlot ps) := by
  obtain ⟨v, hcore, hport, hself, heq⟩ := port_raise_noSlot s code ps t
  rw [heq, State.offerEvent, if_pos ((masked_of_core hcore ..).trans hm), ← hport, ← eventFor_of_core hcore]
  exact queueEvent_joined (fun ht => by rw [hself ht]; exact h ht)

theorem raise_unwanted {s : State} {code : Nat} {ps : List Byte} {t : Transport}
    (hm : s.masked t (BitVec.ofNat 16 code) = false) : (s.raise code noSlot ps).port t = s.port t := by
  obtain ⟨v, hcore, hport, -, heq⟩ := port_raise_noSlot s code ps t
  rw [heq, State.offerEvent, if_neg (by rw [masked_of_core hcore, hm]; exact Bool.false_ne_true), hport]

/-- Which bit of a mask is an event code's (R399). -/
theorem masked_of_bit {s : State} {t : Transport} {c : Nat} {b : Bool} (hc : c < 65536) (ht : t ≠ .trunk)
    (hb : (s.force.evMask.getD (transportIdx t) 0).getLsbD (c - 0x8000) = b) : s.masked t (BitVec.ofNat 16 c) = b := by
  rw [State.masked, BitVec.toNat_ofNat, Nat.mod_eq_of_lt hc, hb, bne_iff_ne.mpr ht, Bool.true_or, Bool.and_true]

theorem masked_trunk {s : State} {c : Nat} (hc : c < 65536) :
    s.masked .trunk (BitVec.ofNat 16 c) = ((s.force.evMask.getD 3 0).getLsbD (c - 0x8000) && s.isMast) := by
  rw [State.masked, BitVec.toNat_ofNat, Nat.mod_eq_of_lt hc]
  rfl

/-! ### EVENT_FETCH -/

/-- The state in which the oldest eight events have left the queue of a transport. -/
def State.fetched (s : State) (t : Transport) : State :=
  let u := s.setPort t { s.port t with events := (s.port t).events.drop 8 }
  match t with
  | .pcie => u.intEdge .pcie (s.intActive .pcie)
  | .twoWire => u.intEdge .twoWire (s.intActive .twoWire)
  | _ => u

@[simp] theorem core_fetched (s : State) (t : Transport) : (s.fetched t).core = s.core := by
  cases t
  case pcie => exact (core_intEdge ..).trans (core_setPort ..)
  case twoWire => exact (core_intEdge ..).trans (core_setPort ..)
  all_goals rfl

/-- What EVENT_FETCH answers: how many events, and their packets. -/
def Port.fetchBytes (p : Port) : List Byte :=
  le 2 (min 8 p.events.length) ++ [0, 0] ++ (p.events.take 8).flatMap (fun e => pad4 e.packet)

theorem eventFetch_runs (h : CmdHdr) (s : State) :
    exec (.eventFetch h) s = .next (s.runCmd ⟨0x0005, .none, allModes, .mailboxes⟩ h fun s =>
      (s.fetched h.tr, answer .ok (s.port h.tr).fetchBytes)) := by
  change execEventFetch h s = _
  unfold execEventFetch State.fetched Port.fetchBytes
  simp only [List.length_take] <;> rfl

theorem eventFetch_reads {h : CmdHdr} {s : State} (hk : Taken ⟨0x0005, .none, allModes, .mailboxes⟩ h s) :
    Reads (exec (.eventFetch h) s) 0x0005 h s (s.port h.tr).fetchBytes := by
  have hr := runCmd_replies _ h s (fun s => (s.fetched h.tr, answer .ok (s.port h.tr).fetchBytes)) _ _ _ _ hk rfl
  rw [eventFetch_runs, ← State.advance_port s h.wait]
  exact hr.of_core (core_fetched ..)

/-- No reply of the two-wire mailbox is written into host memory. -/
theorem host_deliverOne_twoWire (s : State) : (s.deliverOne .twoWire).1.host = s.host := by
  unfold State.deliverOne
  dsimp only
  split
  · rfl
  · split
    · rfl
    · unfold State.mailboxAnswer State.setInt State.setIntWord
      rw [host_intEdge]
      rfl

theorem host_deliverReplies_twoWire (n : Nat) (s : State) : (State.deliverReplies n s .twoWire).host = s.host := by
  induction n generalizing s with
  | zero => rfl
  | succ n ih =>
    have hone := host_deliverOne_twoWire s
    unfold State.deliverReplies
    split <;> (rename_i heq; rw [heq] at hone)
    · rw [ih]; exact hone
    · exact hone

theorem queue_flush_twoWire (s : State) (t : Transport) : ((s.flush .twoWire).port t).queue = (s.port t).queue := by
  by_cases h : t = .twoWire
  · subst h
    exact queue_deliverReplies ..
  · rw [port_flush_ne s h]

theorem queue_setPort {s : State} {u : Transport} {p : Port} (hp : p.queue = (s.port u).queue) (t : Transport) :
    ((s.setPort u p).port t).queue = (s.port t).queue := by
  by_cases h : t = u
  · subst h
    cases t <;> exact hp
  · rw [port_setPort_ne s p h]

@[simp] theorem queue_count (p : Port) (st : Status) : (p.count st).queue = p.queue := by
  unfold Port.count
  split <;> rfl

/-- An answer on the two-wire mailbox touches no queue of events and no host memory. -/
theorem post_twoWire {s : State} {h : CmdHdr} (htr : h.tr = .twoWire) (keep : Bool) (r : Option Reply) :
    (∀ t, ((s.post h keep r).port t).queue = (s.port t).queue) ∧ (s.post h keep r).host = s.host := by
  obtain ⟨p, hp, hpost⟩ : ∃ p : Port, p.queue = (s.port .twoWire).queue ∧
      s.post h keep r = ({ s with nextId := s.nextId + 1 }.setPort .twoWire p).flush .twoWire := by
    rw [← htr]
    refine ⟨_, ?_, rfl⟩
    cases r
    case none => rfl
    case some r => exact queue_count ..
  rw [hpost]
  refine ⟨fun t => ?_, host_deliverReplies_twoWire ..⟩
  rw [queue_flush_twoWire]
  refine (queue_setPort (s := { s with nextId := s.nextId + 1 }) hp t).trans ?_
  cases t <;> rfl

theorem fetched_twoWire (s : State) : (s.fetched .twoWire).host = s.host ∧ ∀ t, (s.fetched .twoWire).port t
    = (s.setPort .twoWire { s.pTw with events := s.pTw.events.drop 8 }).port t :=
  ⟨host_intEdge .., fun _ => port_intEdge ..⟩

/-- By the two-wire mailbox the oldest eight events leave its queue, and the rest stay (R407). -/
theorem eventFetch_takes {h : CmdHdr} {s : State} (hk : Taken ⟨0x0005, .none, allModes, .mailboxes⟩ h s) (htr : h.tr = .twoWire) :
    ∃ u, exec (.eventFetch h) s = .next u ∧ u.pTw.events = s.pTw.events.drop 8 ∧ u.pPcie.events = s.pPcie.events ∧
      u.pSvc.events = s.pSvc.events ∧ u.pTrunk.events = s.pTrunk.events ∧ u.host = s.host := by
  refine ⟨_, eventFetch_runs h s, ?_⟩
  rw [runCmd_taken _ _ _ _ hk]
  dsimp only
  rw [finish_eq_post]
  obtain ⟨r, hr⟩ : ∃ r, r = ((s.advance h.wait).fetched h.tr).replyOf (s.advance h.wait).time.dt h 0x0005
    (answer .ok ((s.advance h.wait).port h.tr).fetchBytes) := ⟨_, rfl⟩
  rw [← hr, htr]
  obtain ⟨hqueue, hhost⟩ := post_twoWire (s := (s.advance h.wait).fetched .twoWire) htr true r
  obtain ⟨hfhost, hfport⟩ := fetched_twoWire (s.advance h.wait)
  have hevents : ∀ t, ((((s.advance h.wait).fetched .twoWire).post h true r).port t).events
      = (((s.advance h.wait).setPort .twoWire { s.pTw with events := s.pTw.events.drop 8 }).port t).events := fun t =>
    (congrArg Prod.fst (hqueue t)).trans (congrArg Port.events (hfport t))
  exact ⟨hevents .twoWire, hevents .pcie, hevents .service, hevents .trunk, hhost.trans hfhost⟩

/-- EVENT_FETCH by what is no mailbox is WRONG_MODE (R407). -/
theorem eventFetch_wrongMode {h : CmdHdr} {s : State} (hk : Taken (gateAll 0x0005) h s) (htw : h.tr ≠ .twoWire)
    (hring : h.tr = .pcie → h.viaRing = true) :
    Replies (exec (.eventFetch h) s) 0x0005 h s .wrongMode noTick [] (s.advance h.wait) := by
  obtain ⟨hserves, hnew, hslot, -⟩ := hk
  have hmode : (s.advance h.wait).modeOk ⟨0x0005, .none, allModes, .mailboxes⟩ h = false := by
    have hno : ((h.tr == .pcie && !h.viaRing) || h.tr == .twoWire) = false := by
      by_cases hp : h.tr = .pcie
      · simp [hring hp, htw]
      · simp [hp, htw]
    unfold State.modeOk
    dsimp only
    rw [hno, Bool.and_false]
  have hrun : s.runCmd ⟨0x0005, .none, allModes, .mailboxes⟩ h (fun s => (s.fetched h.tr, answer .ok (s.port h.tr).fetchBytes))
      = (s.advance h.wait).finish (s.advance h.wait).time.dt h 0x0005 (answer .wrongMode) := by
    have hslot' : (s.advance h.wait).slotOk .none h.slot = true := hslot
    simp only [State.runCmd, hserves, hnew, State.checked, hslot', hmode, Bool.not_true, Bool.not_false, Bool.false_eq_true,
      if_false, if_true]
  refine ⟨_, eventFetch_runs h s, ?_, ?_⟩
  · rw [hrun, core_finish]
  · rw [hrun]
    exact lastReply_finish ..

/-- Settles O56. -/
theorem eventsAreQueuedAndFetched : Obligations.EventsAreQueuedAndFetched := by
  unfold Obligations.EventsAreQueuedAndFetched
  refine ⟨fun s c ps hlo hhi => ?_, fun h s hk => ⟨eventFetch_reads hk, eventFetch_takes hk⟩, fun h s => eventFetch_wrongMode⟩
  have hc : c < 65536 := Nat.lt_of_le_of_lt hhi (by decide)
  refine ⟨core_raise_noSlot .., fun hb => ?_, fun hb => ?_, fun hb => ?_, fun hb => ?_, fun hb hmast => ?_, fun hb => ?_,
    fun hb hoff => ?_, fun hb => ?_⟩
  · rw [← port_twoWire, ← port_twoWire]
    exact raise_joined (masked_of_bit hc (by decide) hb) Transport.noConfusion
  · rw [← port_twoWire, ← port_twoWire]
    exact raise_unwanted (masked_of_bit hc (by decide) hb)
  · rw [← port_service, ← port_service]
    exact raise_joined (masked_of_bit hc (by decide) hb) Transport.noConfusion
  · rw [← port_service, ← port_service]
    exact raise_unwanted (masked_of_bit hc (by decide) hb)
  · rw [← port_trunk, ← port_trunk]
    exact raise_joined ((masked_trunk hc).trans (Bool.and_eq_true_iff.mpr ⟨hb, hmast⟩)) Transport.noConfusion
  · rw [← port_trunk, ← port_trunk]
    exact raise_unwanted ((masked_trunk hc).trans (Bool.and_eq_false_iff.mpr hb))
  · rw [← port_pcie, ← port_pcie]
    exact raise_joined (masked_of_bit hc (by decide) hb) (fun _ => hoff)
  · rw [← port_pcie, ← port_pcie]
    exact raise_unwanted (masked_of_bit hc (by decide) hb)

end Sys2Proof.Machine
end

section
/-! PROOFS. The JTAG port (O47). -/

namespace Sys2Proof.Machine

/-! ### Edges of TCK -/

/-- What an edge does with TDI in the TAP state that it leaves. -/
def State.tckShift (s : State) (tdi : Bool) : State :=
  match s.jtag.tap with
  | .captureDr => let r := s.captureDr; { r.1 with jtag := { s.jtag with dr := r.2 } }
  | .captureIr => { s with jtag := { s.jtag with irSh := true :: List.replicate (Config.jtagIrWidth - 1) false } }
  | .shiftDr => { s with jtag := { s.jtag with dr := s.jtag.dr.drop 1 ++ [tdi] } }
  | .shiftIr => { s with jtag := { s.jtag with irSh := s.jtag.irSh.drop 1 ++ [tdi] } }
  | _ => s

/-- What TDO drives in a TAP state. -/
def JtagSt.tdo (j : JtagSt) (t : TapState) : Option Bool :=
  match t with
  | .shiftDr => j.dr.head?
  | .shiftIr => j.irSh.head?
  | _ => none

theorem tckEdge_eq (s : State) (e : Bool × Bool) : s.tckEdge e
    = ({ s.tckShift e.2 with jtag := { (s.tckShift e.2).jtag with
          tap := s.jtag.tap.next e.1
          ir := if s.jtag.tap.next e.1 = .updateIr then (s.tckShift e.2).jtag.irSh
            else if s.jtag.tap.next e.1 = .testLogicReset then [] else (s.tckShift e.2).jtag.ir } } : State).emit
        (.tdo ((s.tckShift e.2).jtag.tdo (s.jtag.tap.next e.1))) := by
  unfold State.tckEdge State.tckShift
  rfl

theorem tckEdge_tap (s : State) (e : Bool × Bool) : (s.tckEdge e).jtag.tap = s.jtag.tap.next e.1 := by
  rw [tckEdge_eq]
  rfl

theorem captureDr_changes (s : State) : ∃ n, s.captureDr.1 = { s with freeCtr := n } := by
  unfold State.captureDr
  dsimp only
  generalize (if s.jtag.ir.isEmpty then 1 else Config.jtagSelect s.jtag.ir) = k
  split
  · exact ⟨s.freeCtr, rfl⟩
  · split
    · exact ⟨_, rfl⟩
    · exact ⟨s.freeCtr, rfl⟩

theorem tckShift_changes (s : State) (b : Bool) :
    ∃ j n, s.tckShift b = { s with jtag := j, freeCtr := n } := by
  unfold State.tckShift
  split
  · obtain ⟨n, hn⟩ := captureDr_changes s
    dsimp only
    rw [hn]
    exact ⟨_, n, rfl⟩
  · exact ⟨_, s.freeCtr, rfl⟩
  · exact ⟨_, s.freeCtr, rfl⟩
  · exact ⟨_, s.freeCtr, rfl⟩
  · exact ⟨s.jtag, s.freeCtr, rfl⟩

/-- An edge changes nothing but the TAP, what left TDO, and the count of free values. -/
theorem tckEdge_changes (s : State) (e : Bool × Bool) :
    ∃ j o n, s.tckEdge e = { s with jtag := j, out := o, freeCtr := n } := by
  obtain ⟨j, n, h⟩ := tckShift_changes s e.2
  rw [tckEdge_eq, h]
  exact ⟨_, _, _, rfl⟩

theorem tckEdges_change (es : List (Bool × Bool)) (s : State) :
    ∃ j o n, es.foldl State.tckEdge s = { s with jtag := j, out := o, freeCtr := n } := by
  induction es generalizing s with
  | nil => exact ⟨s.jtag, s.out, s.freeCtr, rfl⟩
  | cons e es ih =>
    obtain ⟨j, o, n, h⟩ := tckEdge_changes s e
    obtain ⟨j', o', n', h'⟩ := ih (s.tckEdge e)
    rw [List.foldl_cons, h', h]
    exact ⟨j', o', n', rfl⟩

/-- An edge into Test-Logic-Reset selects IDCODE. -/
theorem tckEdge_reset {s : State} {e : Bool × Bool} (h : s.jtag.tap.next e.1 = .testLogicReset) :
    (s.tckEdge e).jtag.tap = .testLogicReset ∧ (s.tckEdge e).jtag.ir = [] := by
  rw [tckEdge_eq, h]
  exact ⟨rfl, rfl⟩

/-- Five edges with TMS high reach Test-Logic-Reset from every state (IEEE 1149.1). -/
theorem tap_five (t : TapState) : ((((t.next true).next true).next true).next true).next true = .testLogicReset := by
  cases t <;> rfl

/-! ### BOUNDARY_SCAN -/

theorem boundaryScan_good {s : State} (h : s.power.railsGood = true) (es : List (Bool × Bool)) :
    exec (.boundaryScan es) s = .next (es.foldl State.tckEdge s) := by
  change execBoundaryScan es s = _
  unfold execBoundaryScan
  rw [if_pos h]

theorem boundaryScan_bad {s : State} (h : s.power.railsGood = false) (es : List (Bool × Bool)) :
    exec (.boundaryScan es) s = .next s := by
  change execBoundaryScan es s = _
  unfold execBoundaryScan
  rw [if_neg (by rw [h]; exact Bool.false_ne_true)]

theorem boundaryScan_changes (es : List (Bool × Bool)) (s : State) :
    ∃ t, exec (.boundaryScan es) s = .next t ∧ t = { s with jtag := t.jtag, out := t.out, freeCtr := t.freeCtr } := by
  cases h : s.power.railsGood with
  | false => exact ⟨s, boundaryScan_bad h es, rfl⟩
  | true =>
    obtain ⟨j, o, n, heq⟩ := tckEdges_change es s
    exact ⟨_, boundaryScan_good h es, by rw [heq]⟩

theorem boundaryScan_append {a b : List (Bool × Bool)} {s t : State} (ha : exec (.boundaryScan a) s = .next t) :
    exec (.boundaryScan (a ++ b)) s = exec (.boundaryScan b) t := by
  cases h : s.power.railsGood with
  | false =>
    rw [boundaryScan_bad h] at ha
    cases ha
    rw [boundaryScan_bad h, boundaryScan_bad h]
  | true =>
    rw [boundaryScan_good h] at ha
    cases ha
    obtain ⟨j, o, n, heq⟩ := tckEdges_change a s
    rw [boundaryScan_good h, List.foldl_append, boundaryScan_good (by rw [heq]; exact h)]

theorem boundaryScan_resets {s : State} (h : s.power.railsGood = true) (a b c d e : Bool) :
    ∃ t, exec (.boundaryScan [(true, a), (true, b), (true, c), (true, d), (true, e)]) s = .next t ∧
      t.jtag.tap = .testLogicReset ∧ t.jtag.ir = [] := by
  refine ⟨_, boundaryScan_good h _, ?_⟩
  simp only [List.foldl_cons, List.foldl_nil]
  refine tckEdge_reset ?_
  rw [tckEdge_tap, tckEdge_tap, tckEdge_tap, tckEdge_tap]
  exact tap_five _

/-! ### The identification code leaves TDO -/

theorem tckEdge_shiftDr {s : State} {x y : Bool} {l : List Bool} (ht : s.jtag.tap = .shiftDr) (hd : s.jtag.dr = x :: y :: l) :
    (s.tckEdge (false, false)).jtag.tap = .shiftDr ∧ (s.tckEdge (false, false)).jtag.dr = y :: (l ++ [false]) ∧
    (s.tckEdge (false, false)).out = s.out ++ [.tdo (some y)] := by
  have hs : s.tckShift false = { s with jtag := { s.jtag with dr := y :: (l ++ [false]) } } := by
    simp only [State.tckShift, ht, hd]
    rfl
  rw [tckEdge_eq, hs, ht]
  exact ⟨rfl, rfl, rfl⟩

/-- In Shift-DR each edge sends the next bit of the register. -/
theorem tckEdges_shiftDr (l : List Bool) {s : State} {x : Bool} {rest : List Bool} (ht : s.jtag.tap = .shiftDr)
    (hd : s.jtag.dr = x :: (l ++ rest)) :
    ((List.replicate l.length (false, false)).foldl State.tckEdge s).out = s.out ++ l.map (fun b => .tdo (some b)) := by
  induction l generalizing s x rest with
  | nil => simp
  | cons y l ih =>
    obtain ⟨htap, hdr, hout⟩ := tckEdge_shiftDr (l := l ++ rest) ht hd
    rw [List.length_cons, List.replicate_succ, List.foldl_cons, ih (rest := rest ++ [false]) htap (by rw [hdr, List.append_assoc]), hout,
      List.map_cons, List.append_assoc]
    rfl

/-- An edge between TAP states that neither shift nor load. -/
theorem tckEdge_moves {s : State} {e : Bool × Bool} {t : TapState} (hs : s.tckShift e.2 = s) (ht : s.jtag.tap.next e.1 = t)
    (hno : t ≠ .updateIr ∧ t ≠ .testLogicReset ∧ s.jtag.tdo t = none) :
    (s.tckEdge e).jtag = { s.jtag with tap := t } ∧ (s.tckEdge e).out = s.out ++ [.tdo none] := by
  obtain ⟨hupdate, hreset, hnone⟩ := hno
  rw [tckEdge_eq, hs, ht, if_neg hupdate, if_neg hreset, hnone]
  exact ⟨rfl, rfl⟩

/-- The register that Capture-DR loads under IDCODE. -/
theorem captureDr_idcode {s : State} (h : s.jtag.ir = []) : s.captureDr = (s, (List.range 32).map idcode.getLsbD) := by
  unfold State.captureDr
  rw [h]
  rfl

/-- Out of Capture-DR the first bit of the identification code leaves. -/
theorem tckEdge_captureDr {s : State} (ht : s.jtag.tap = .captureDr) (hi : s.jtag.ir = []) :
    (s.tckEdge (false, false)).jtag.tap = .shiftDr ∧
    (s.tckEdge (false, false)).jtag.dr = (List.range 32).map idcode.getLsbD ∧
    (s.tckEdge (false, false)).out = s.out ++ [.tdo (some (idcode.getLsbD 0))] := by
  have hs : s.tckShift false = { s with jtag := { s.jtag with dr := (List.range 32).map idcode.getLsbD } } := by
    simp only [State.tckShift, ht, captureDr_idcode hi]
  rw [tckEdge_eq, hs, ht]
  exact ⟨rfl, rfl, rfl⟩

/-- Three edges from Test-Logic-Reset reach Capture-DR. -/
theorem tckEdges_toCapture {s : State} (ht : s.jtag.tap = .testLogicReset) (hi : s.jtag.ir = []) :
    ∃ u, [(false, false), (true, false), (false, false)].foldl State.tckEdge s = u ∧ u.jtag.tap = .captureDr ∧ u.jtag.ir = [] ∧
      u.out = s.out ++ List.replicate 3 (.tdo none) := by
  obtain ⟨h1, o1⟩ := tckEdge_moves (s := s) (e := (false, false)) (t := .runTestIdle) (by simp only [State.tckShift, ht])
    (by rw [ht]; rfl) ⟨by decide, by decide, rfl⟩
  obtain ⟨h2, o2⟩ := tckEdge_moves (s := s.tckEdge (false, false)) (e := (true, false)) (t := .selectDr)
    (by simp only [State.tckShift, h1]) (by rw [h1]; rfl) ⟨by decide, by decide, rfl⟩
  obtain ⟨h3, o3⟩ := tckEdge_moves (s := (s.tckEdge (false, false)).tckEdge (true, false)) (e := (false, false)) (t := .captureDr)
    (by simp only [State.tckShift, h2]) (by rw [h2]; rfl) ⟨by decide, by decide, rfl⟩
  refine ⟨_, rfl, ?_, ?_, ?_⟩
  · exact congrArg JtagSt.tap h3
  · simp only [List.foldl_cons, List.foldl_nil, h3, h2, h1, hi]
  · simp only [List.foldl_cons, List.foldl_nil, o3, o2, o1, List.append_assoc]
    rfl

theorem boundaryScan_idcode {s : State} (h : s.power.railsGood = true) (ht : s.jtag.tap = .testLogicReset) (hi : s.jtag.ir = []) :
    ∃ t, exec (.boundaryScan ([(false, false), (true, false), (false, false)] ++ List.replicate 32 (false, false))) s = .next t ∧
      t.out = s.out ++ List.replicate 3 (.tdo none) ++ (List.range 32).map (fun i => .tdo (some (idcode.getLsbD i))) := by
  obtain ⟨u, hu, htap, hir, hout⟩ := tckEdges_toCapture ht hi
  obtain ⟨htap', hdr, hout'⟩ := tckEdge_captureDr htap hir
  have hbits : (List.range 32).map idcode.getLsbD = idcode.getLsbD 0 :: ((List.range 31).map (fun i => idcode.getLsbD (i + 1)) ++ []) := rfl
  have hlen : ((List.range 31).map (fun i => idcode.getLsbD (i + 1))).length = 31 := by rw [List.length_map, List.length_range]
  have hrest := tckEdges_shiftDr ((List.range 31).map (fun i => idcode.getLsbD (i + 1))) htap' (hdr.trans hbits)
  rw [hlen] at hrest
  refine ⟨_, boundaryScan_good h _, ?_⟩
  rw [List.foldl_append, hu, List.replicate_succ, List.foldl_cons, hrest, hout', hout, List.append_assoc _ [_]]
  rfl

/-- Settles O47. -/
theorem boundaryScan : Obligations.BoundaryScan := by
  unfold Obligations.BoundaryScan
  intro s
  refine ⟨fun es h => boundaryScan_bad h es, ?_, fun es => boundaryScan_changes es s, fun a b t => boundaryScan_append,
    fun a b c d e h => boundaryScan_resets h a b c d e, boundaryScan_idcode⟩
  change execBoundaryScan [] s = _
  unfold execBoundaryScan
  rw [List.foldl_nil, ite_self]

end Sys2Proof.Machine
end

section
/-! PROOFS. The backup domain counts, unlocks, commits writes, is corrected from DT, and resets (O46). -/

namespace Sys2Proof.Machine

/-! ### The registers of the backup domain -/

/-- While ALARM_FLAG stays, nothing else changes with the registers. -/
theorem setRtc_quiet {s : State} {r : RtcSt} (h : r.alarmFlag = s.rtc.alarmFlag) : s.setRtc r = { s with rtc := r } := by
  unfold State.setRtc
  exact if_pos h

theorem rtc_setRtc (s : State) (r : RtcSt) : (s.setRtc r).rtc = r := by
  unfold State.setRtc
  dsimp only
  split <;> rfl

/-- Registers of the backup domain change nothing else but RTC_INT_N. -/
theorem setRtc_rest (s : State) (r : RtcSt) : { s.setRtc r with rtc := s.rtc, out := s.out } = s := by
  unfold State.setRtc
  dsimp only
  split <;> rfl

theorem out_setRtc (s : State) (r : RtcSt) : (s.setRtc r).out
    = s.out ++ (if r.alarmFlag = s.rtc.alarmFlag then [] else [.pin "RTC_INT_N" (!r.alarmFlag)]) := by
  unfold State.setRtc
  dsimp only
  by_cases h : r.alarmFlag = s.rtc.alarmFlag
  · rw [if_pos h, if_pos h, List.append_nil]
  · rw [if_neg h, if_neg h]
    rfl

/-! ### The unlock (R498) -/

/-- The events that a start held back change nothing beside delivery. -/
theorem core_raiseAll (evs : List (Nat × List Byte)) (s : State) :
    (evs.foldl (fun s e => s.raise e.1 noSlot e.2) s).core = s.core := core_foldl _ _ (fun _ _ => core_raise_noSlot ..) s

/-- READY is set, beside what says so (R425). -/
theorem core_setReady (s : State) : s.setReady.core
    = ({ s with power := { s.power with ready := true, startPend := false, bootEvents := [] } } : State).core := by
  unfold State.setReady
  refine (core_raiseAll ..).trans ?_
  split
  · rfl
  · exact (core_raise_noSlot ..).trans ((core_setIntBoth ..).trans (core_setIntBoth ..))

/-- The backup domain after the unlock. -/
def RtcSt.unlocked (r : RtcSt) : RtcSt := { r with locked := false, onVbat := false, wasVbat := r.vbatSeen, vbatSeen := false }

theorem core_unlock (s : State) : s.unlock.core = ({ ({ s with rtc := s.rtc.unlocked } : State).seedDt with
    power := { s.power with ready := true, startPend := false, bootEvents := [] } } : State).core := core_setReady _

theorem unlock_fields (s : State) : s.unlock.rtc = s.rtc.unlocked ∧ s.unlock.power.ready = true ∧
    s.unlock.power.startPend = false ∧ s.unlock.time = ({ s with rtc := s.rtc.unlocked } : State).seedDt.time := by
  have h := core_unlock s
  exact ⟨of_core State.rtc (fun _ => rfl) h, of_core (·.power.ready) (fun _ => rfl) h,
    of_core (·.power.startPend) (fun _ => rfl) h, (of_core State.time (fun _ => rfl) h).trans rfl⟩

/-! ### Seconds (R503, R506, R516) -/

section Seconds
variable {s : State}

/-- The registers a second later. -/
def RtcSt.secondLater (r : RtcSt) (c : RtcCal) (wrapped : Bool) : RtcSt :=
  { r with cal := c, osf := r.osf || wrapped, alarmFlag := r.alarmFlag || (r.alarmEn && c == r.alarm) }

theorem secondRollover_halted (h : s.rtc.halt = true) : exec .rtcSecondRollover s = .next s := by
  change execRtcSecondRollover s = _
  unfold execRtcSecondRollover
  exact if_pos h

/-- The registers after a rollover: the last second of the calendar wraps to the first, with OSF (R503). -/
def RtcSt.rolled (r : RtcSt) : RtcSt :=
  r.secondLater (if r.cal == calendarEnd then calendarStart else RtcCal.ofSeconds (r.cal.seconds + 1)) (r.cal == calendarEnd)

theorem rolled_of_ne {r : RtcSt} (h : r.cal ≠ calendarEnd) : r.rolled = r.secondLater (RtcCal.ofSeconds (r.cal.seconds + 1)) false := by
  rw [RtcSt.rolled, beq_eq_false_iff_ne.mpr h, if_neg Bool.false_ne_true]

theorem rolled_of_last {r : RtcSt} (h : r.cal = calendarEnd) : r.rolled = r.secondLater calendarStart true := by
  rw [RtcSt.rolled, beq_iff_eq.mpr h, if_pos rfl]

theorem power_setRtc (s : State) (r : RtcSt) : (s.setRtc r).power = s.power :=
  (of_core State.power (fun _ => rfl) (core_setRtc s r)).trans rfl

variable (h : s.rtc.halt = false)
include h

theorem secondRollover_eq : exec .rtcSecondRollover s = .next (
    if s.power.startPend && s.rtc.locked then (s.setRtc s.rtc.rolled).unlock else s.setRtc s.rtc.rolled) := by
  change execRtcSecondRollover s = _
  unfold execRtcSecondRollover
  dsimp only
  rw [if_neg (by rw [h]; exact Bool.false_ne_true), power_setRtc]
  rfl

theorem secondRollover_idle (hidle : s.power.startPend = false ∨ s.rtc.locked = false) :
    exec .rtcSecondRollover s = .next (s.setRtc s.rtc.rolled) := by
  rw [secondRollover_eq h, if_neg]
  obtain hp | hl := hidle
  · simp [hp]
  · simp [hl]

theorem secondRollover_unlocks (hp : s.power.startPend = true) (hl : s.rtc.locked = true) :
    exec .rtcSecondRollover s = .next (s.setRtc s.rtc.rolled).unlock := by
  rw [secondRollover_eq h, if_pos (by rw [hp, hl]; rfl)]

omit h in
/-- RTC_INT_N falls where ALARM_FLAG rises (R506). -/
theorem out_rolled (s : State) : (s.setRtc s.rtc.rolled).out
    = s.out ++ (if (s.setRtc s.rtc.rolled).rtc.alarmFlag = s.rtc.alarmFlag then [] else [.pin "RTC_INT_N" false]) := by
  rw [out_setRtc, rtc_setRtc]
  by_cases hflag : s.rtc.rolled.alarmFlag = s.rtc.alarmFlag
  · rw [if_pos hflag, if_pos hflag]
  · have hrose : s.rtc.rolled.alarmFlag = true := by
      change (s.rtc.alarmFlag || _) = true
      change ¬ (s.rtc.alarmFlag || _) = s.rtc.alarmFlag at hflag
      cases hold : s.rtc.alarmFlag with
      | true => rfl
      | false =>
        rw [hold] at hflag
        exact Bool.eq_true_of_not_eq_false hflag
    rw [if_neg hflag, if_neg hflag, hrose]
    rfl

end Seconds

/-! ### The unlock's timeout, writes, corrections and resets -/

theorem unlockTimeout_idle {s : State} (h : s.power.startPend = false ∨ s.rtc.locked = false) :
    exec .rtcUnlockTimeout s = .next s := by
  change execRtcUnlockTimeout s = _
  unfold execRtcUnlockTimeout
  rw [if_neg]
  obtain hp | hl := h
  · simp [hp]
  · simp [hl]

theorem unlockTimeout_unlocks {s : State} (hp : s.power.startPend = true) (hl : s.rtc.locked = true) :
    exec .rtcUnlockTimeout s = .next s.unlock := by
  change execRtcUnlockTimeout s = _
  unfold execRtcUnlockTimeout
  rw [if_pos (by rw [hp, hl]; rfl)]

/-- The seed of DT without a running oscillator (R507). -/
theorem seedDt_stopped {s : State} (h : s.rtc.osf = true) : s.seedDt.time.dt = 0#64 ∧ s.seedDt.time.rtcSeed = false := by
  unfold State.seedDt
  dsimp only
  rw [h]
  exact ⟨rfl, rfl⟩

section Writes
variable {s : State} {wait : Nat}

theorem writeCommit_locked (h : s.rtc.locked = true) : exec (.rtcWriteCommit wait) s = .next (s.advance wait) := by
  change execRtcWriteCommit wait s = _
  unfold execRtcWriteCommit
  exact if_pos h

variable {w : RtcWrite} (hl : s.rtc.locked = false) (hw : s.rtc.write = [w])
include hl hw

/-- A lone write is committed where its second has begun (R502). -/
theorem writeCommit_one : exec (.rtcWriteCommit wait) s = .next ((s.advance wait).setRtc
    (if w.ticksLeft = 0 then { s.rtc.apply w with write := [] } else s.rtc)) := by
  change execRtcWriteCommit wait s = _
  unfold execRtcWriteCommit
  dsimp only
  rw [if_neg (by rw [State.advance_rtc, hl]; exact Bool.false_ne_true), State.advance_rtc, hw]
  by_cases h0 : w.ticksLeft = 0
  · simp [h0]
  · have hsame : { s.rtc with write := [w] } = s.rtc := by rw [← hw]
    simp [h0, hsame]

theorem writeCommit_waits (h0 : w.ticksLeft ≠ 0) : exec (.rtcWriteCommit wait) s = .next (s.advance wait) := by
  rw [writeCommit_one hl hw, if_neg h0]
  exact congrArg Host.Outcome.next (setRtc_quiet rfl)

theorem writeCommit_commits (h0 : w.ticksLeft = 0) : exec (.rtcWriteCommit wait) s = .next { s.advance wait with
    rtc := if w.option = 2 then { s.rtc with halt := false, write := [] }
      else { s.rtc with cal := w.cal, halt := w.option == 1, osf := false, write := [] } } := by
  have happly : { s.rtc.apply w with write := [] } = if w.option = 2 then { s.rtc with halt := false, write := [] }
      else { s.rtc with cal := w.cal, halt := w.option == 1, osf := false, write := [] } := by
    unfold RtcSt.apply
    split <;> rfl
  rw [writeCommit_one hl hw, if_pos h0, happly]
  refine congrArg Host.Outcome.next (setRtc_quiet ?_)
  split <;> rfl

end Writes

section Correction
variable {s : State} {wait d : Nat}

theorem dtCorrection_not (h : s.rtc.locked = true ∨ s.rtc.halt = true ∨ s.refs.tstate ≠ .locked ∨ s.refs.timeSrc = none ∨
    (s.advance wait).now % 1000000000 ≠ 0 ∨
    calendarEnd.seconds < ((s.advance wait).utcSeconds (s.advance wait).now).toNat) :
    exec (.rtcDtCorrection d wait) s = .next (s.advance wait) := by
  change execRtcDtCorrection d wait s = _
  unfold execRtcDtCorrection
  refine if_neg fun ⟨hlock, hsrc, hsec, _, hhalt, hopen, _, _, hend⟩ => ?_
  simp only [State.advance_rtc, State.advance_refs] at hlock hsrc hhalt hopen
  obtain h | h | h | h | h | h := h
  · rw [hopen] at h; exact Bool.false_ne_true h
  · rw [hhalt] at h; exact Bool.false_ne_true h
  · exact h hlock
  · rw [h] at hsrc; exact Bool.false_ne_true hsrc
  · exact h hsec
  · exact absurd hend (by omega)

variable (hopen : s.rtc.locked = false) (hhalt : s.rtc.halt = false) (hlock : s.refs.tstate = .locked)
  (hsrc : s.refs.timeSrc ≠ none) (hsec : (s.advance wait).now % 1000000000 = 0)
  (hleap : inLeapSecond s.leapTable (s.advance wait).now = false)
  (hutc : 0 ≤ (s.advance wait).utcSeconds (s.advance wait).now)
  (hend : ((s.advance wait).utcSeconds (s.advance wait).now).toNat ≤ calendarEnd.seconds)

include hopen hhalt hlock hsrc hsec hleap hutc hend in
theorem dtCorrection_sets (hdue : s.rtc.lockedDue = true ∨
    (100 < d ∧ ∀ l, s.rtc.lastSet = some l → l.toNat + 3600000000000 ≤ (s.advance wait).now)) :
    exec (.rtcDtCorrection d wait) s = .next { s.advance wait with rtc := { s.rtc with
      cal := RtcCal.ofSeconds ((s.advance wait).utcSeconds (s.advance wait).now).toNat, osf := false, lockedDue := false
      lastSet := some (s.advance wait).time.dt } } := by
  change execRtcDtCorrection d wait s = _
  unfold execRtcDtCorrection
  refine (if_pos ⟨hlock, Option.isSome_iff_ne_none.mpr hsrc, hsec, ?_, hhalt, hopen, hleap, hutc, hend⟩).trans
    (congrArg Host.Outcome.next (setRtc_quiet rfl))
  rw [State.advance_rtc, Bool.or_eq_true_iff, Bool.and_eq_true_iff]
  refine hdue.imp_right fun ⟨hd, hlate⟩ => ⟨decide_eq_true hd, ?_⟩
  cases hlast : s.rtc.lastSet with
  | none => rfl
  | some l => exact decide_eq_true (hlate l hlast)

theorem dtCorrection_notDue (hdue : s.rtc.lockedDue = false)
    (h : d ≤ 100 ∨ ∃ l, s.rtc.lastSet = some l ∧ (s.advance wait).now < l.toNat + 3600000000000) :
    exec (.rtcDtCorrection d wait) s = .next (s.advance wait) := by
  change execRtcDtCorrection d wait s = _
  unfold execRtcDtCorrection
  refine if_neg fun ⟨_, _, _, hd, _⟩ => ?_
  rw [State.advance_rtc, hdue, Bool.false_or, Bool.and_eq_true_iff, decide_eq_true_eq] at hd
  obtain ⟨hd, hlate⟩ := hd
  obtain h | ⟨l, hl, hearly⟩ := h
  · omega
  · rw [hl] at hlate
    exact absurd (of_decide_eq_true hlate) (by omega)

end Correction

theorem oscillatorStopped_sets (s : State) : exec .oscillatorStopped s = .next { s with rtc := { s.rtc with osf := true } } := by
  change execOscillatorStopped s = _
  unfold execOscillatorStopped
  exact congrArg Host.Outcome.next (setRtc_quiet rfl)

/-- Settles O46. -/
theorem clockChipRows : Obligations.ClockChipRows := by
  unfold Obligations.ClockChipRows
  intro wait s
  refine ⟨secondRollover_halted, fun h hidle hcal => ⟨_, secondRollover_idle h hidle, ?_, setRtc_rest .., out_rolled s⟩,
    fun h hidle hcal => ⟨_, secondRollover_idle h hidle, ?_, setRtc_rest ..⟩, fun h hp hl => ⟨_, secondRollover_unlocks h hp hl, ?_⟩,
    unlockTimeout_idle, fun hp hl => ⟨_, unlockTimeout_unlocks hp hl, ?_⟩, writeCommit_locked, fun w => writeCommit_waits,
    fun w => writeCommit_commits,
    fun hopen hhalt hlock hsrc hsec hleap hutc hend d =>
      ⟨dtCorrection_sets hopen hhalt hlock hsrc hsec hleap hutc hend, dtCorrection_notDue⟩,
    fun d => dtCorrection_not, oscillatorStopped_sets s, ⟨_, rfl, setRtc_rest .., ?_⟩⟩
  · rw [rtc_setRtc, rolled_of_ne hcal]
    rfl
  · rw [rtc_setRtc, rolled_of_last hcal]
    rfl
  · obtain ⟨hrtc, hready, hpend, htime⟩ := unlock_fields (s.setRtc s.rtc.rolled)
    rw [hrtc, htime, rtc_setRtc]
    exact ⟨rfl, rfl, rfl, rfl, hready, hpend, rfl⟩
  · obtain ⟨hrtc, hready, hpend, htime⟩ := unlock_fields s
    rw [hrtc, htime]
    exact ⟨rfl, rfl, rfl, hready, hpend, fun hosf => seedDt_stopped hosf⟩
  · rw [rtc_setRtc]
    exact ⟨rfl, rfl, rfl, rfl, rfl, rfl, rfl, rfl, rfl⟩

end Sys2Proof.Machine
end

section
/-! PROOFS. Activations, trials and the journal (O44). -/

namespace Sys2Proof.Machine

/-! ### A record is put into the journal -/

@[simp] theorem sys_modSector (j : JournalSt) (i : Nat) (f : JSector → JSector) : (j.modSector i f).sys = j.sys := rfl

@[simp] theorem sys_open (j : JournalSt) (i : Nat) : (j.open_ i).sys = j.sys := rfl

@[simp] theorem sys_append (j : JournalSt) (r : JRecord) : (j.append r).sys = j.sys := rfl

@[simp] theorem sys_erase_blank (j : JournalSt) (i : Nat) : (j.erase i true).sys = j.sys := rfl

theorem sys_copies (j : JournalSt) (rs : List JRecord) :
    (rs.foldl (fun (j : JournalSt) r => { (j.append { r with rseq := j.rseq }) with rseq := j.rseq + 1 }) j).sys = j.sys := by
  induction rs generalizing j with
  | nil => rfl
  | cons r rs ih => exact (ih _).trans rfl

/-- Where every erase reads blank, a compaction keeps the SYSTEM record (R474). -/
theorem compact_blank (w : JWork) (lo hi : Nat) (trial : Bool) (into : Nat) (h : w.blank = []) :
    (w.compact lo hi trial into).j.sys = w.j.sys ∧ (w.compact lo hi trial into).blank = [] := by
  unfold JWork.compact
  dsimp only
  split
  · exact ⟨rfl, h⟩
  · simp only [h, List.headD_nil, List.drop_nil, sys_erase_blank, and_true]
    exact (sys_copies _ _).trans (sys_open ..)

theorem sys_room (fuel : Nat) (w : JWork) (n lo hi : Nat) (trial hot : Bool) (h : w.blank = []) :
    (w.room fuel n lo hi trial hot).1.j.sys = w.j.sys := by
  induction fuel generalizing w with
  | zero => rfl
  | succ fuel ih =>
    unfold JWork.room
    dsimp only
    split
    · rfl
    · split
      · rfl
      · split
        · rfl
        · next i _ =>
          split
          · exact (ih { w with j := w.j.open_ i } h).trans (sys_open ..)
          · split
            · rfl
            · obtain ⟨hsys, hblank⟩ := compact_blank w lo hi trial i h
              exact (ih _ hblank).trans hsys

/-- The first copy of a record reads back right: it goes where there is room. -/
theorem program_first (w : JWork) (r : JRecord) (lo hi : Nat) (trial hot : Bool) :
    JWork.program 0 w r lo hi trial hot =
      let x := w.room 16 (recordPages r.len) lo hi trial hot
      if !x.2 then x
      else ({ x.1 with j := { (x.1.j.append { r with rseq := x.1.j.rseq }) with rseq := x.1.j.rseq + 1 } }, true) := rfl

theorem sys_program_first (w : JWork) (r : JRecord) (lo hi : Nat) (trial hot : Bool) (h : w.blank = []) :
    (JWork.program 0 w r lo hi trial hot).1.j.sys = w.j.sys := by
  rw [program_first]
  dsimp only
  split
  · exact sys_room _ _ _ _ _ _ _ h
  · exact sys_room _ _ _ _ _ _ _ h

/-- The current sector has room. -/
theorem room_here (w : JWork) (n lo hi : Nat) (trial hot : Bool) (hnv : w.j.readOnly = false)
    (huse : (w.j.sector w.j.current).inUse = true) (hfit : (w.j.sector w.j.current).nextPage + n ≤ 256) :
    w.room 16 n lo hi trial hot = (w, true) := by
  unfold JWork.room
  dsimp only
  rw [if_neg (by simp [hnv]), if_pos ⟨huse, hfit⟩]

/-! ### A group is written -/

@[simp] theorem core_nvEvent (s : State) : s.nvEvent.core = s.core := core_raise_noSlot ..

/-- Beside what it says, the writing of a group changes the journal only. -/
theorem core_writeGroup (s : State) (c : CommitIn) : ∃ j, (s.writeGroup c).core = ({ s with journal := j } : State).core := by
  unfold State.writeGroup
  dsimp only
  split
  · exact ⟨s.journal, rfl⟩
  · generalize JWork.program _ _ _ _ _ _ _ = x
    split
    · exact ⟨_, rfl⟩
    · split
      · exact ⟨x.1.j, core_nvEvent _⟩
      · exact ⟨s.journal, rfl⟩

theorem core_writeSystem (s : State) (f : SysRecord → SysRecord) :
    ∃ j, (s.writeSystem f).core = ({ s with journal := j } : State).core :=
  core_writeGroup _ _

/-- What a state says beside delivery and the journal is the same after the SYSTEM record is written. -/
theorem of_writeSystem {α : Type} (p : State → α) (hp : ∀ s : State, p s.core = p s)
    (hj : ∀ (s : State) (j : JournalSt), p { s with journal := j } = p s) (s : State) (f : SysRecord → SysRecord) :
    p (s.writeSystem f) = p s := by
  obtain ⟨j, hj'⟩ := core_writeSystem s f
  exact (of_core p hp hj').trans (hj s j)

@[simp] theorem flash_writeSystem (s : State) (f : SysRecord → SysRecord) : (s.writeSystem f).flash = s.flash :=
  of_writeSystem (·.flash) (fun _ => rfl) (fun _ _ => rfl) s f

@[simp] theorem power_writeSystem (s : State) (f : SysRecord → SysRecord) : (s.writeSystem f).power = s.power :=
  of_writeSystem (·.power) (fun _ => rfl) (fun _ _ => rfl) s f

@[simp] theorem acc_writeSystem (s : State) (f : SysRecord → SysRecord) : (s.writeSystem f).acc = s.acc :=
  of_writeSystem (·.acc) (fun _ => rfl) (fun _ _ => rfl) s f

/-- The SYSTEM record holds its new contents whether or not the flash takes them. -/
@[simp] theorem sys_writeSystem (s : State) (f : SysRecord → SysRecord) : (s.writeSystem f).journal.sys = f s.journal.sys := by
  unfold State.writeSystem State.writeGroup
  dsimp only
  split
  · rfl
  · have hsys := sys_program_first
      ⟨(({ s.journal with sys := f s.journal.sys, rseq := s.journal.rseq } : JournalSt).modSector s.journal.current
        (fun x => { x with nextPage := x.nextPage + 0 })), []⟩
      ⟨31, s.flash.format, s.journal.rseq, 32, s.acc, f s.journal.sys⟩ s.flash.formatMin s.flash.format
      (!(f s.journal.sys).confirmed) (decide (1 ≤ s.thermal.level)) rfl
    simp only [Bool.false_eq_true, if_false]
    split
    · exact hsys
    · split
      · exact (of_core (·.journal.sys) (fun _ => rfl) (core_nvEvent _)).trans hsys
      · rfl

/-! ### Trials -/

theorem trialFail_first {s : State} (h : s.journal.sys.trialCount = 0) :
    s.trialFail = s.writeSystem (fun y => { y with trialCount := 1 }) := if_pos h

/-- The slot of a trial that failed twice says so (R462). -/
def State.slotFailed (s : State) (i : Nat) : State :=
  let s := s.modSlot i (fun x => { x with state := .failed, reason := 0x10 })
  { s with flash := { s.flash with notes := s.flash.notes ++ [(i, 0x10)] } }

theorem journal_slotFailed (s : State) (i : Nat) : (s.slotFailed i).journal = s.journal := rfl

theorem power_slotFailed (s : State) (i : Nat) : (s.slotFailed i).power = s.power := rfl

theorem slot_slotFailed (s : State) (i : Nat) : (s.slotFailed i).slot i = { s.slot i with state := .failed, reason := 0x10 } :=
  slot_modSlot s i (fun x => { x with state := .failed, reason := 0x10 })

/-- At the second failure the slots change places. -/
theorem trialFail_second {s : State} (h : s.journal.sys.trialCount ≠ 0) :
    s.trialFail = (s.writeSystem (fun y => { y with
      bootSlot := y.prevSlot, prevSlot := y.bootSlot, trialCount := 2, confirmed := true })).slotFailed s.journal.sys.bootSlot :=
  if_neg h

@[simp] theorem power_trialFail (s : State) : s.trialFail.power = s.power := by
  by_cases h : s.journal.sys.trialCount = 0
  · rw [trialFail_first h, power_writeSystem]
  · rw [trialFail_second h, power_slotFailed, power_writeSystem]

/-- The slot of a trial that held is the running one (R461). -/
def State.slotConfirmed (s : State) (i : Nat) : State :=
  ({ s with flash := { s.flash with trialTick := none } } : State).modSlot i (fun x => { x with state := .running, reason := 0x11 })

theorem slot_slotConfirmed (s : State) (i : Nat) :
    (s.slotConfirmed i).slot i = { s.slot i with state := .running, reason := 0x11 } :=
  slot_modSlot _ i (fun x => { x with state := .running, reason := 0x11 })

theorem flash_slotConfirmed (s : State) (i : Nat) :
    (s.slotConfirmed i).flash.trialTick = none ∧ (s.slotConfirmed i).flash.mem = s.flash.mem := by
  unfold State.slotConfirmed State.modSlot
  split <;> exact ⟨rfl, rfl⟩

theorem rest_slotConfirmed (s : State) (i : Nat) : (s.slotConfirmed i).journal = s.journal ∧
    (s.slotConfirmed i).power = s.power ∧ (s.slotConfirmed i).acc = s.acc := ⟨rfl, rfl, rfl⟩

@[simp] theorem slot_writeSystem (s : State) (f : SysRecord → SysRecord) (i : Nat) : (s.writeSystem f).slot i = s.slot i := by
  simp only [State.slot, flash_writeSystem]

theorem trialConfirm_exec {s : State} {n : Nat} (htrial : s.flash.trialTick = some n) (hdue : 60000 ≤ n) (hserving : s.serving = true) :
    exec .trialConfirm s = .next (((s.writeSystem (fun y => { y with confirmed := true })).slotConfirmed s.flash.running).imageEvent
      s.flash.running 0x11) := by
  change execTrialConfirm s = _
  unfold execTrialConfirm
  rw [htrial]
  exact congrArg Host.Outcome.next (if_neg (by simp [hserving]; omega))

theorem trialConfirm_confirms {s : State} {n : Nat} (htrial : s.flash.trialTick = some n) (hdue : 60000 ≤ n)
    (hserving : s.serving = true) :
    let x : ImgSlot := { s.slot s.flash.running with state := .running, reason := 0x11 }
    ∃ t : State, exec .trialConfirm s = .next (t.raise 0x8011 noSlot (imageParams s.flash.running x 0x11)) ∧
      t.slot s.flash.running = x ∧ t.flash.trialTick = none ∧ t.journal.sys.confirmed = true ∧
      t.flash.mem = s.flash.mem ∧ t.power = s.power ∧ t.acc = s.acc := by
  dsimp only
  have hslot := slot_slotConfirmed (s.writeSystem (fun y => { y with confirmed := true })) s.flash.running
  obtain ⟨htick, hmem⟩ := flash_slotConfirmed (s.writeSystem (fun y => { y with confirmed := true })) s.flash.running
  obtain ⟨hjournal, hpower, hacc⟩ := rest_slotConfirmed (s.writeSystem (fun y => { y with confirmed := true })) s.flash.running
  rw [slot_writeSystem] at hslot
  refine ⟨_, (trialConfirm_exec htrial hdue hserving).trans ?_, hslot, htick, ?_, ?_, ?_, ?_⟩
  · unfold State.imageEvent
    rw [hslot]
  · rw [hjournal, sys_writeSystem]
  · rw [hmem, flash_writeSystem]
  · rw [hpower, power_writeSystem]
  · rw [hacc, acc_writeSystem]

/-! ### Commits -/

theorem modSector_id (j : JournalSt) (i : Nat) : j.modSector i (fun x => { x with nextPage := x.nextPage + 0 }) = j := by
  exact congrArg (fun l => { j with sectors := l }) (List.modify_id i j.sectors)

theorem sector_modSector {j : JournalSt} {i : Nat} (f : JSector → JSector) (h : i < j.sectors.length) :
    (j.modSector i f).sector i = f (j.sector i) := by
  simp [JournalSt.sector, JournalSt.modSector, h]

/-- A sector in use is one of the journal's. -/
theorem inUse_lt {j : JournalSt} {i : Nat} (h : (j.sector i).inUse = true) : i < j.sectors.length := by
  by_contra hn
  rw [JournalSt.sector, List.getD_eq_default _ _ (by omega)] at h
  exact absurd h (by decide)

theorem journalCommit_exec {s : State} {c : CommitIn} (hdirty : s.journal.dirty.any (·.1 == c.group) = true) (hlen : c.len ≤ 4064)
    (halign : c.len % 4 = 0) : exec (.journalCommit c) s = .next (s.writeGroup c) :=
  congrArg Host.Outcome.next (if_pos (by simp [hdirty, hlen, halign]))

/-- A group's record with room in the current sector goes to its next free page (R469, R473). -/
theorem writeGroup_here {s : State} {c : CommitIn} (hnv : s.journal.readOnly = false) (hmiss : c.misreads = 0)
    (hcrc : c.crcOnes = false) (hskip : c.skip = 0) (huse : (s.journal.sector s.journal.current).inUse = true)
    (hfit : (s.journal.sector s.journal.current).nextPage + recordPages c.len ≤ 256) :
    s.writeGroup c = { s with journal := { (s.journal.append ⟨c.group, s.flash.format, s.journal.rseq, c.len, s.acc, s.journal.sys⟩) with
      rseq := s.journal.rseq + 1, dirty := s.journal.dirty.filter (·.1 != c.group) } } := by
  have hroom := room_here ⟨s.journal, c.blank⟩ (recordPages c.len) s.flash.formatMin s.flash.format s.onTrial
    (decide (1 ≤ s.thermal.level)) hnv huse hfit
  unfold State.writeGroup
  dsimp only
  rw [if_neg (by simp [hnv]), hmiss, hcrc, hskip]
  simp only [Bool.false_eq_true, if_false]
  rw [modSector_id, program_first]
  dsimp only
  rw [hroom]
  rfl

/-- Settles O44. The SYSTEM record holds its new contents whether or not the flash takes them, and a group whose record
has room in the current sector goes there. -/
theorem imagesTrialsAndJournal : Obligations.ImagesTrialsAndJournal := by
  unfold Obligations.ImagesTrialsAndJournal
  intro s
  refine ⟨fun h => ?_, fun i hi hserving => ?_, fun h => ?_, fun n hn hlt => ?_, fun n hn hle hserving => ?_, fun h => ?_,
    fun hstart htrial => ?_, fun c h => ?_, fun c hdirty hnv => ?_, fun c hdirty hlen halign hnv hmiss hcrc hskip huse hfit => ?_⟩
  · change execImageActivation s = _
    unfold execImageActivation
    refine congrArg Host.Outcome.next ?_
    split
    · rfl
    · next i hi => exact if_pos (by simpa [hi] using h)
  · dsimp only
    change execImageActivation s = _
    unfold execImageActivation
    rw [hi]
    exact congrArg Host.Outcome.next (if_neg (by simp [hserving]))
  · change execTrialConfirm s = _
    unfold execTrialConfirm
    refine congrArg Host.Outcome.next ?_
    split
    · rfl
    · next n hn => exact if_pos (by simp only [hn, reduceCtorEq, false_or] at h; simp [h])
  · change execTrialConfirm s = _
    unfold execTrialConfirm
    rw [hn]
    exact congrArg Host.Outcome.next (if_pos (by simp [hlt]))
  · exact trialConfirm_confirms hn hle hserving
  · refine congrArg Host.Outcome.next (if_neg ?_)
    rcases h with h | h <;> simp [h]
  · refine ⟨congrArg Host.Outcome.next (if_pos ?_), ?_, rfl, rfl, fun h0 => ?_, fun h0 => ?_⟩
    · simp [hstart, Option.isSome_iff_ne_none, htrial]
    · exact congrArg (·.lastReset) (power_trialFail s)
    · rw [trialFail_first h0, sys_writeSystem, flash_writeSystem]
      exact ⟨rfl, rfl⟩
    · rw [trialFail_second h0, journal_slotFailed, sys_writeSystem, slot_slotFailed]
      exact ⟨rfl, rfl, rfl, rfl, rfl⟩
  · refine congrArg Host.Outcome.next (if_neg ?_)
    rw [Bool.and_eq_true, decide_eq_true_eq]
    rintro ⟨hdirty, hlen, halign⟩
    rcases h with h | h | h
    · simp [h] at hdirty
    · omega
    · exact h halign
  · refine congrArg Host.Outcome.next (ite_keeps id (if_pos hnv) rfl)
  · refine ⟨_, journalCommit_exec hdirty hlen halign, ?_⟩
    rw [writeGroup_here hnv hmiss hcrc hskip huse hfit]
    exact ⟨rfl, sector_modSector _ (inUse_lt huse), rfl, rfl, rfl, rfl⟩

end Sys2Proof.Machine
end

section
/-! PROOFS. What an operation leaves as it is of the mode, the settings accepted, the clock chip and PLL-G (O43, O45). Each lemma is
a rewriting rule for the function that it names. -/

namespace Sys2Proof.Machine

/-- The mode and all that stands with it, the settings accepted, the clock chip and PLL-G are the same in two states. -/
@[simp] abbrev SameStand (t s : State) : Prop :=
  t.power = s.power ∧ t.acc = s.acc ∧ t.rtc = s.rtc ∧ t.clk.pllG = s.clk.pllG

theorem SameStand.trans {a b c : State} (h : SameStand a b) (k : SameStand b c) : SameStand a c := by
  obtain ⟨h1, h2, h3, h4⟩ := h
  obtain ⟨k1, k2, k3, k4⟩ := k
  exact ⟨h1.trans k1, h2.trans k2, h3.trans k3, h4.trans k4⟩

theorem sameStand_of_core {s t : State} (h : t.core = s.core) : SameStand t s :=
  ⟨of_core (·.power) (fun _ => rfl) h, of_core (·.acc) (fun _ => rfl) h, of_core (·.rtc) (fun _ => rfl) h,
    of_core (·.clk.pllG) (fun _ => rfl) h⟩

@[simp] theorem sameStand_foldl {α : Type} (f : State → α → State) (l : List α) (h : ∀ s x, SameStand (f s x) s) (s : State) :
    SameStand (l.foldl f s) s :=
  ⟨foldl_keeps (·.power) f l (fun s x => (h s x).1) s, foldl_keeps (·.acc) f l (fun s x => (h s x).2.1) s,
    foldl_keeps (·.rtc) f l (fun s x => (h s x).2.2.1) s, foldl_keeps (·.clk.pllG) f l (fun s x => (h s x).2.2.2) s⟩

@[simp] theorem ite_power {c : Prop} [Decidable c] (a b : State) : (if c then a else b).power = if c then a.power else b.power :=
  apply_ite State.power c a b

@[simp] theorem ite_acc {c : Prop} [Decidable c] (a b : State) : (if c then a else b).acc = if c then a.acc else b.acc :=
  apply_ite State.acc c a b

@[simp] theorem ite_rtc {c : Prop} [Decidable c] (a b : State) : (if c then a else b).rtc = if c then a.rtc else b.rtc :=
  apply_ite State.rtc c a b

@[simp] theorem ite_pllG {c : Prop} [Decidable c] (a b : State) :
    (if c then a else b).clk.pllG = if c then a.clk.pllG else b.clk.pllG :=
  apply_ite (·.clk.pllG) c a b

/-! ### Events and lines -/

@[simp] theorem sameStand_setIntBoth (s : State) (n : Nat) : SameStand (s.setIntBoth n) s := sameStand_of_core (core_setIntBoth ..)

@[simp] theorem sameStand_eventCopy (s : State) (code slot : W16) (ps : List Byte) : SameStand (s.eventCopy code slot ps) s := by
  unfold State.eventCopy
  split <;> exact ⟨rfl, rfl, rfl, rfl⟩

@[simp] theorem sameStand_copyEvent (s : State) (c f : W16) (ps : List Byte) : SameStand (s.copyEvent c f ps) s := by
  unfold State.copyEvent
  split
  · exact ⟨rfl, rfl, rfl, rfl⟩
  · exact sameStand_eventCopy ..

@[simp] theorem sameStand_raise (s : State) (code : Nat) (slot : W16) (ps : List Byte) : SameStand (s.raise code slot ps) s :=
  (sameStand_of_core (core_raise ..)).trans (sameStand_copyEvent ..)

@[simp] theorem sameStand_wire (s : State) (name : String) (i : Nat) (asserted : Bool) : SameStand (s.wire name i asserted) s :=
  ⟨rfl, rfl, rfl, rfl⟩

@[simp] theorem sameStand_setReqOut (s : State) (b : Bool) : SameStand (s.setReqOut b) s := by simp [State.setReqOut]

@[simp] theorem sameStand_imageEvent (s : State) (i reason : Nat) : SameStand (s.imageEvent i reason) s := by
  simp [State.imageEvent]

@[simp] theorem sameStand_markDirty (s : State) (g : Option Nat) : SameStand (s.markDirty g) s := by
  obtain ⟨j, hj⟩ := markDirty_eq s g
  rw [hj]
  exact ⟨rfl, rfl, rfl, rfl⟩

/-! ### References -/

@[simp] theorem sameStand_refEvent (s : State) (reason role prev new ref : Nat) : SameStand (s.refEvent reason role prev new ref) s := by
  simp [State.refEvent]

@[simp] theorem sameStand_refSay (s : State) (reason role ref : Nat) : SameStand (s.refSay reason role ref) s := by
  simp [State.refSay]

@[simp] theorem sameStand_setTState (s : State) (t : TState) : SameStand (s.setTState t) s := by simp [State.setTState]

@[simp] theorem sameStand_modRef (s : State) (c : Nat) (f : RefState → RefState) : SameStand (s.modRef c f) s := ⟨rfl, rfl, rfl, rfl⟩

@[simp] theorem sameStand_freqLost (s : State) (c : Nat) : SameStand (s.freqLost c) s := by simp [State.freqLost]

@[simp] theorem sameStand_dropSource (s : State) (c : Nat) : SameStand (s.dropSource c) s := by simp [State.dropSource]

@[simp] theorem sameStand_beginHoldover (s : State) (c : Nat) : SameStand (s.beginHoldover c) s := by simp [State.beginHoldover]

@[simp] theorem sameStand_timeLost (s : State) (c : Nat) : SameStand (s.timeLost c) s := by
  unfold State.timeLost
  split <;> simp

@[simp] theorem sameStand_disqualify (s : State) (c : Nat) (freq time : Bool) : SameStand (s.disqualify c freq time) s := by
  simp [State.disqualify]

@[simp] theorem sameStand_loseRef (s : State) (c : Nat) : SameStand (s.loseRef c) s := by simp [State.loseRef]

@[simp] theorem sameStand_modTrunk (s : State) (f : TrunkSt → TrunkSt) : SameStand (s.modTrunk f) s := ⟨rfl, rfl, rfl, rfl⟩

@[simp] theorem sameStand_enterSearch (s : State) : SameStand s.enterSearch s := by
  unfold State.enterSearch
  exact ⟨by simp, by simp, by simp, by simp⟩

/-! ### Services, ports and the plan -/

@[simp] theorem sameStand_modSvc (s : State) (n : Nat) (f : Service → Service) : SameStand (s.modSvc n f) s := ⟨rfl, rfl, rfl, rfl⟩

@[simp] theorem sameStand_nextOrder (s : State) : SameStand s.nextOrder.1 s := ⟨rfl, rfl, rfl, rfl⟩

@[simp] theorem sameStand_serviceEvent (s : State) (v : Service) (old new : SvcState) (reason : Nat) :
    SameStand (s.serviceEvent v old new reason) s := by
  simp [State.serviceEvent]

@[simp] theorem sameStand_moveState (s : State) (n : Nat) (st : SvcState) (reason : Nat) : SameStand (s.moveState n st reason) s := by
  unfold State.moveState
  split <;> simp [State.enterState]

@[simp] theorem sameStand_leaveLanes (s : State) (n : Nat) : SameStand (s.leaveLanes n) s := ⟨rfl, rfl, rfl, rfl⟩

@[simp] theorem sameStand_park (s : State) (n : Nat) (reason : Nat) : SameStand (s.park n reason) s := by simp [State.park]

@[simp] theorem sameStand_modAudio (s : State) (p : Nat) (f : AudioSt → AudioSt) : SameStand (s.modAudio p f) s := ⟨rfl, rfl, rfl, rfl⟩

@[simp] theorem sameStand_portStopped (s : State) (p : Nat) : SameStand (s.portStopped p) s := ⟨rfl, rfl, rfl, rfl⟩

@[simp] theorem sameStand_zcAdd (s : State) (p : Nat) (g : Prog) (k : ZcKind) : SameStand (s.zcAdd p g k) s := ⟨rfl, rfl, rfl, rfl⟩

@[simp] theorem sameStand_stopDone (s : State) (p : Nat) : SameStand (s.stopDone p) s := by simp [State.stopDone]

@[simp] theorem sameStand_stopPort (s : State) (p : Nat) : SameStand (s.stopPort p) s := by simp [State.stopPort]

@[simp] theorem sameStand_stopPorts (s : State) : SameStand s.stopPorts s := by simp [State.stopPorts]

@[simp] theorem sameStand_planEvent (s : State) (proposed reason changeTick : Nat) :
    SameStand (s.planEvent proposed reason changeTick) s := by
  simp [State.planEvent]

@[simp] theorem sameStand_dropProposal (s : State) : SameStand s.dropProposal s := by
  unfold State.dropProposal
  split <;> simp

@[simp] theorem sameStand_planLeave (s : State) : SameStand s.planLeave s := by simp [State.planLeave]

/-! ### The start calibration -/

@[simp] theorem sameStand_modCal (s : State) (f : CalSt → CalSt) : SameStand (s.modCal f) s := ⟨rfl, rfl, rfl, rfl⟩

@[simp] theorem sameStand_modAdc (s : State) (i : Nat) (f : AdcCal → AdcCal) : SameStand (s.modAdc i f) s := ⟨rfl, rfl, rfl, rfl⟩

@[simp] theorem sameStand_modFlat (s : State) (i : Nat) (f : FlatCal → FlatCal) : SameStand (s.modFlat i f) s := ⟨rfl, rfl, rfl, rfl⟩

@[simp] theorem sameStand_calEvent (s : State) (block target outcome : Nat) (q q2 : Int) :
    SameStand (s.calEvent block target outcome q q2) s := by
  simp [State.calEvent]

@[simp] theorem sameStand_journalRetired (s : State) (adc : Nat) (m : W32) : SameStand (s.journalRetired adc m) s := by
  simp [State.journalRetired]

@[simp] theorem sameStand_retireSlice (s : State) (adc sl : Nat) (q q2 : Int) : SameStand (s.retireSlice adc sl q q2) s := by
  simp [State.retireSlice]

@[simp] theorem sameStand_measureSlice (s : State) (adc plan : Nat) (q : Int × Int) (e : Nat × Nat × List (Int × Int × Int)) :
    SameStand (s.measureSlice adc plan q e) s := by
  simp [State.measureSlice]

@[simp] theorem sameStand_measureAdc (s : State) (c : StartCal) (adc plan : Nat) : SameStand (s.measureAdc c adc plan) s := by
  simp [State.measureAdc]

@[simp] theorem sameStand_measureFlat (s : State) (c : StartCal) (i : Nat) : SameStand (s.measureFlat c i) s := by
  simp [State.measureFlat]

@[simp] theorem sameStand_measureClocks (s : State) (c : StartCal) (keep : Bool) : SameStand (s.measureClocks c keep) s := by
  simp [State.measureClocks]

@[simp] theorem sameStand_lockS (s : State) (lock : LockRun) : SameStand (s.lockS lock) s := by simp [State.lockS]

@[simp] theorem sameStand_startCal (s : State) (c : StartCal) : SameStand (s.startCal c) s := by simp [State.startCal]

@[simp] theorem sameStand_calWindow (s : State) : SameStand s.calWindow s := by simp [State.calWindow]

@[simp] theorem sameStand_wakeRf (s : State) (c : StartCal) : SameStand (s.wakeRf c) s := by simp [State.wakeRf]

@[simp] theorem sameStand_leaveMode (s : State) (target : Mode) : SameStand (s.leaveMode target) s := by simp [State.leaveMode]

end Sys2Proof.Machine
end

section
/-! PROOFS. Every reset leaves the state of a reset, and a start boots an image or the recovery loader (O45). -/

namespace Sys2Proof.Machine

/-! ### Resets -/

/-- What a reset from `src` makes of a state (R489, R491, R498). -/
def Wiped (s t : State) (src : Nat) : Prop :=
  t.acc = Settings.default ∧ t.force = Settings.default ∧ t.sched = [] ∧ t.services = [] ∧ t.lanes = [] ∧ t.streams = [] ∧
  t.carriers = [] ∧ t.units = [] ∧ t.map = MapSt.reset ∧ t.trunk = TrunkSt.reset ∧ t.time.armed = false ∧ t.alerts = [] ∧
  t.cal = CalSt.factory 0#32 0#32 ∧ t.power.ready = false ∧ t.power.ioUp = false ∧ t.power.lastReset = src ∧
  t.busP = BusRegs.reset ∧ t.busT = BusRegs.reset ∧ t.host = s.host ∧ t.flash.mem = s.flash.mem ∧ t.flash.keys = s.flash.keys ∧
  t.rtc.cal = s.rtc.cal ∧ t.rtc.backup = s.rtc.backup ∧ t.rtc.alarm = s.rtc.alarm ∧ t.rtc.osf = s.rtc.osf ∧
  t.rtc.halt = s.rtc.halt ∧ t.rtc.trim = s.rtc.trim ∧ t.rtc.alarmFlag = s.rtc.alarmFlag ∧ t.rtc.locked = true ∧
  t.out = s.out ++ [.floated true] ∧ t.pending = s.pending

/-- Resets differ in what they leave of the power state, of the supply of the clock chip and of the trial's mark. -/
theorem wiped_with (s : State) (src : Nat) (p : PowerSt) (v b hit : Bool)
    (hp : p.ready = false ∧ p.ioUp = false ∧ p.lastReset = src) :
    Wiped s { s.afterReset src with
      power := p, rtc := { s.rtc.afterReset with onVbat := v, vbatSeen := b }
      flash := { s.flashAfter src with trialHit := hit } } src := by
  obtain ⟨hready, hio, hsrc⟩ := hp
  exact ⟨rfl, rfl, rfl, rfl, rfl, rfl, rfl, rfl, rfl, rfl, rfl, rfl, rfl, hready, hio, hsrc, rfl, rfl, rfl, rfl, rfl, rfl, rfl, rfl, rfl,
    rfl, rfl, rfl, rfl, rfl, rfl⟩

theorem wiped_afterReset (s : State) (src : Nat) : Wiped s (s.afterReset src) src :=
  wiped_with s src (s.afterReset src).power s.rtc.onVbat s.rtc.vbatSeen (s.flashAfter src).trialHit ⟨rfl, rfl, rfl⟩

/-! ### A failed trial keeps the ports -/

@[simp] theorem portSetup_flush (s : State) (t : Transport) : (s.flush t).portSetup = s.portSetup := by
  cases t
  case pcie => exact portSetup_flush_pcie s
  case service =>
    unfold State.flush
    dsimp only
    split
    · exact portSetup_deliverReplies ..
    · exact (rfl : (State.emit _ _).portSetup = _).trans (portSetup_deliverReplies ..)
  all_goals exact portSetup_deliverReplies ..

@[simp] theorem portSetup_queueEvent (s : State) (t : Transport) (c f : W16) (ps : List Byte) :
    (s.queueEvent t c f ps).portSetup = s.portSetup := by
  unfold State.queueEvent
  cases t
  case service => dsimp only; split <;> rfl
  all_goals simp

@[simp] theorem portSetup_raise (s : State) (code : Nat) (ps : List Byte) : (s.raise code noSlot ps).portSetup = s.portSetup := by
  rw [raise_eq]
  refine (foldl_keeps State.portSetup _ _ (fun s t => ?_) _).trans rfl
  unfold State.offerEvent
  split
  · exact portSetup_queueEvent ..
  · rfl

@[simp] theorem portSetup_writeSystem (s : State) (f : SysRecord → SysRecord) : (s.writeSystem f).portSetup = s.portSetup := by
  unfold State.writeSystem State.writeGroup
  dsimp only
  split
  · rfl
  · generalize JWork.program _ _ _ _ _ _ _ = x
    split
    · rfl
    · split
      · exact portSetup_raise ..
      · rfl

@[simp] theorem sameStand_writeSystem (s : State) (f : SysRecord → SysRecord) : SameStand (s.writeSystem f) s := by
  obtain ⟨j, hj⟩ := core_writeSystem s f
  exact (sameStand_of_core hj).trans ⟨rfl, rfl, rfl, rfl⟩

theorem slotFailed_leaves (s : State) (i : Nat) :
    SameStand (s.slotFailed i) s ∧ (s.slotFailed i).portSetup = s.portSetup ∧ (s.slotFailed i).flash.size = s.flash.size := by
  refine ⟨⟨rfl, rfl, rfl, rfl⟩, rfl, ?_⟩
  unfold State.slotFailed State.modSlot
  exact ite_keeps FlashSt.size rfl rfl

theorem trialFail_leaves (s : State) :
    SameStand s.trialFail s ∧ s.trialFail.portSetup = s.portSetup ∧ s.trialFail.flash.size = s.flash.size := by
  by_cases h : s.journal.sys.trialCount = 0
  · rw [trialFail_first h]
    exact ⟨sameStand_writeSystem .., portSetup_writeSystem .., by rw [flash_writeSystem]⟩
  · rw [trialFail_second h]
    obtain ⟨hstand, hports, hsize⟩ := slotFailed_leaves (s.writeSystem (fun y => { y with
      bootSlot := y.prevSlot, prevSlot := y.bootSlot, trialCount := 2, confirmed := true })) s.journal.sys.bootSlot
    exact ⟨hstand.trans (sameStand_writeSystem ..), hports.trans (portSetup_writeSystem ..), by rw [hsize, flash_writeSystem]⟩

/-! ### The start -/

/-- The balls are sampled, the flash is sized, and PLL-G locks (Table 19.6). -/
def State.sampled (s : State) (inp : StartIn) : State :=
  ({ s.emit (.floated false) with
    power := { s.power with ioUp := true }
    tw := { s.tw with addrBits := inp.twAddr % 8 }
    flash := { s.flash with size := inp.sfdpSize }
    rtc := { s.rtc with locked := true }
    clk := { s.clk with pllG := { s.clk.pllG with locked := true, band := inp.bandG } } } : State).modCal
      (fun c => { c with clocks := { c.clocks with bandG := inp.bandG } })

/-- What a start has brought up before any image is chosen. -/
def Started (s t : State) (inp : StartIn) : Prop :=
  t.power = { s.power with ioUp := true } ∧ t.rtc.locked = true ∧ t.clk.pllG.locked = true ∧ t.flash.size = inp.sfdpSize ∧
    t.tw.addrBits = inp.twAddr % 8

theorem started_trialFail {s t : State} {inp : StartIn} (h : Started s t inp) : Started s t.trialFail inp := by
  obtain ⟨hpower, hrtc, hclk, hsize, htw⟩ := h
  obtain ⟨⟨h1, -, h2, h3⟩, h4, h5⟩ := trialFail_leaves t
  exact ⟨h1.trans hpower, by rw [h2, hrtc], by rw [h3, hclk], h5.trans hsize, (congrArg (·.2.2) h4).trans htw⟩

theorem startHard_eq (s : State) (inp : StartIn) : s.startHard inp =
    let t := if (s.sampled inp).flash.trialHit then (s.sampled inp).trialFail else s.sampled inp
    { t with flash := { t.flash with trialHit := false, slot0 := t.slotAtStart 0, slot1 := t.slotAtStart 1 } } := rfl

theorem started_startHard (s : State) (inp : StartIn) : Started s (s.startHard inp) inp := by
  have hsampled : Started s (s.sampled inp) inp := ⟨rfl, rfl, rfl, rfl, rfl⟩
  rw [startHard_eq]
  dsimp only
  split
  · exact started_trialFail hsampled
  · exact hsampled

/-- The settings accepted are those in force, and the power state and the clock chip are as they were. -/
def Applied (s t : State) : Prop := t.acc = t.force ∧ t.power = s.power ∧ t.rtc = s.rtc

theorem applied_ite {s a b : State} {c : Prop} [Decidable c] (ha : Applied s a) (hb : Applied s b) :
    Applied s (if c then a else b) := by
  split
  · exact ha
  · exact hb

theorem applied_dirtied {s t : State} (h : Applied s t) (l : List Nat) :
    Applied s (l.foldl (fun (s : State) g => s.markDirty (some g)) t) := by
  induction l generalizing t with
  | nil => exact h
  | cons g l ih =>
    obtain ⟨j, hj⟩ := markDirty_eq t (some g)
    refine ih ?_
    dsimp only
    rw [hj]
    exact h

theorem applied_plan {s t : State} (h : Applied s t) (p : PlanSt) : Applied s { t with plan := p } := h

theorem applied_enterSearch {s t : State} (h : Applied s t) : Applied s t.enterSearch := by
  obtain ⟨hacc, hpower, hrtc⟩ := h
  obtain ⟨h1, h2, h3, -⟩ := sameStand_enterSearch t
  exact ⟨by rw [h2, (sameForce_enterSearch t).1, hacc], h1.trans hpower, h3.trans hrtc⟩

/-- The journal's groups take force, whatever the link then does. -/
theorem applied_startJournal (s : State) : Applied s s.startJournal.1 := by
  have hdirtied (a : Settings) : Applied s ((s.journal.apply s.flash.formatMin s.flash.format).moved.foldl
      (fun (s : State) g => s.markDirty (some g)) { s with acc := a, force := a }) :=
    applied_dirtied ⟨rfl, rfl, rfl⟩ _
  unfold State.startJournal
  refine applied_ite ?plan (applied_enterSearch ?plan)
  exact applied_ite (applied_plan (hdirtied _) _) (hdirtied _)

theorem startLeap_eq (s : State) (i : Nat) : ∃ τ, s.startLeap i = { s with time := τ } := by
  unfold State.startLeap
  dsimp only
  split
  · exact ⟨_, rfl⟩
  · split
    · exact ⟨_, rfl⟩
    · exact ⟨_, rfl⟩

/-- An image runs with its settings, in the mode that a start goes to (R490). -/
theorem startImage_runs (s : State) (i : Nat) (trial : Bool) (boot : Nat) :
    let t := s.startImage i trial boot [] false
    t.flash.running = i ∧ t.acc = t.force ∧ t.rtc = s.rtc ∧ t.power.startPend = true ∧ t.power.ready = s.power.ready ∧
      t.power.ioUp = s.power.ioUp ∧ t.power.mode = if s.power.enterMaintain || boot == 2 then .maintain else .dormant := by
  obtain ⟨hacc, hpower, hrtc⟩ := applied_startJournal (s.modSlot i (fun x => { x with state := if trial then .trial else .running, reason := 0 }))
  obtain ⟨τ, hτ⟩ := startLeap_eq (s.modSlot i (fun x => { x with state := if trial then .trial else .running, reason := 0 })).startJournal.1 i
  unfold State.startImage
  dsimp only
  rw [hτ]
  dsimp only
  rw [hpower]
  exact ⟨rfl, hacc, hrtc, rfl, rfl, rfl, by rw [Bool.or_false]; rfl⟩

/-! ### The rows -/

/-- The image in a slot says what version and journal format it is. -/
def State.imageChosen (s : State) (i : Nat) : State :=
  let hd := s.slotBytes i 0 384
  { s with flash := { s.flash with
    fwVersion := BitVec.ofNat 32 (field hd 24 4), format := field hd 32 2, formatMin := field hd 34 2 } }

theorem imageChosen_power (s : State) (i : Nat) : (s.imageChosen i).power = s.power := rfl

theorem imageChosen_rtc (s : State) (i : Nat) : (s.imageChosen i).rtc = s.rtc := rfl

theorem loadSegs_nil (s : State) (i : Nat) : s.loadSegs i [] = ([], false) := rfl

theorem deviceStart_starts {s : State} {inp : StartIn} (hgood : s.power.railsGood = true) (hio : s.power.ioUp = false)
    (hcool : s.thermal.shutdown = false) : execDeviceStart inp s = .next (
      match (if inp.boot = 1 then none else (s.startHard inp).bootChoice) with
      | none => (s.startHard inp).startLoader
      | some i =>
        let s := (s.startHard inp).imageChosen i
        let trial := s.onTrial && s.journal.sys.bootSlot == i
        let g := s.loadSegs i inp.segs
        if trial && g.2 then s.trialFail.restart else s.startImage i trial inp.boot g.1 g.2) :=
  congrArg Host.Outcome.next (if_neg (by simp [hgood, hio, hcool]))

theorem deviceStart_loader {s : State} {inp : StartIn} (hgood : s.power.railsGood = true) (hio : s.power.ioUp = false)
    (hcool : s.thermal.shutdown = false) (h : inp.boot = 1 ∨ (s.startHard inp).bootChoice = none) :
    execDeviceStart inp s = .next (s.startHard inp).startLoader := by
  rw [deviceStart_starts hgood hio hcool, show (if inp.boot = 1 then none else (s.startHard inp).bootChoice) = none by
    split
    · rfl
    · next hboot => exact h.resolve_left hboot]

theorem deviceStart_image {s : State} {inp : StartIn} {i : Nat} (hgood : s.power.railsGood = true) (hio : s.power.ioUp = false)
    (hcool : s.thermal.shutdown = false) (hboot : inp.boot ≠ 1) (hi : (s.startHard inp).bootChoice = some i) (hsegs : inp.segs = []) :
    ∃ (u : State) (trial : Bool), execDeviceStart inp s = .next (u.startImage i trial inp.boot [] false) ∧
      u.power = (s.startHard inp).power ∧ u.rtc = (s.startHard inp).rtc := by
  refine ⟨(s.startHard inp).imageChosen i, ((s.startHard inp).imageChosen i).onTrial
    && ((s.startHard inp).imageChosen i).journal.sys.bootSlot == i, ?_, imageChosen_power .., imageChosen_rtc ..⟩
  rw [deviceStart_starts hgood hio hcool, if_neg hboot, hi, hsegs]
  dsimp only
  rw [loadSegs_nil, Bool.and_false, if_neg Bool.false_ne_true]

/-- Settles O45. A reset builds the state anew from what the backup domain, the flash and the host keep; a start first brings up
what an image or the recovery loader then runs on. -/
theorem resetsAndStart : Obligations.ResetsAndStart := by
  unfold Obligations.ResetsAndStart
  intro s wiped
  refine ⟨fun hgood hcool => ?_, fun h => ?_, fun hgood hio hcool => ?_, fun h => ?_, fun allDown vbatOk => ?_, fun allDown hbad => ?_,
    fun allDown hgood => ?_, fun inp h => ?_, fun inp hgood hio hcool => ⟨fun h => ?_, fun i hboot hi hsegs => ?_⟩⟩
  · exact ⟨_, congrArg Host.Outcome.next (if_pos (by simp [hgood, hcool])), wiped_afterReset s 2, hgood, rfl⟩
  · exact congrArg Host.Outcome.next (if_neg (by rcases h with h | h <;> simp [h]))
  · refine ⟨_, congrArg Host.Outcome.next (if_pos (by simp [State.up, hgood, hio, hcool])), wiped_afterReset s 5, rfl, ?_⟩
    change (s.flash.trialHit || (s.onTrial && true)) = _
    rw [Bool.and_true]
    rfl
  · exact congrArg Host.Outcome.next (if_neg (by rcases h with h | h | h <;> simp [State.up, h]))
  · exact ⟨_, rfl, wiped_with s 0 { (s.afterReset 0).power with
      railsGood := false, resets := s.power.resets, mode := if allDown && vbatOk then .backup else .dormant } true
      (s.rtc.vbatSeen || vbatOk) s.flash.trialHit ⟨rfl, rfl, rfl⟩, rfl, rfl, rfl⟩
  · have hwiped (src : Nat) := wiped_with s src { (s.afterReset src).power with railsGood := true } s.rtc.onVbat s.rtc.vbatSeen
      (s.flashAfter src).trialHit ⟨rfl, rfl, rfl⟩
    refine ⟨_, congrArg Host.Outcome.next (if_neg (by simp [hbad])), hwiped _, rfl, ?_⟩
    cases allDown <;> rfl
  · exact congrArg Host.Outcome.next (if_pos hgood)
  · exact congrArg Host.Outcome.next (if_pos (by rcases h with h | h | h <;> simp [h]))
  · obtain ⟨hpower, hrtc, hclk, hsize, htw⟩ := started_startHard s inp
    exact ⟨_, deviceStart_loader hgood hio hcool h, rfl, rfl, congrArg (·.ioUp) hpower, rfl, congrArg (·.ready) hpower, hrtc, hclk, hsize,
      htw⟩
  · obtain ⟨hpower, hrtc, -⟩ := started_startHard s inp
    obtain ⟨u, trial, hu, hupower, hurtc⟩ := deviceStart_image hgood hio hcool hboot hi hsegs
    obtain ⟨hrun, hacc, htrtc, hpend, hready, hup, hmode⟩ := startImage_runs u i trial inp.boot
    rw [hupower, hpower] at hready hup hmode
    refine ⟨_, hu, hrun, ?_, hpend, hready, hup, by rw [htrtc, hurtc, hrtc], hacc⟩
    simpa using hmode

end Sys2Proof.Machine
end

section
/-! PROOFS. Changes of mode (O43). -/

namespace Sys2Proof.Machine

/-! ### What a change of mode says -/

theorem modeEvent_says {s : State} {mode : Mode} {sub : SubState} (hmode : s.power.mode = mode) (hsub : s.power.sub = sub)
    (old cause : Nat) : s.modeEvent old cause = s.raise 0x8016 noSlot
      (le 1 old ++ le 1 mode.code ++ le 1 cause ++ le 1 (if mode = .dormant then sub.code else 0xFF)) := by
  subst hmode hsub
  rfl

theorem intStatus_setIntBoth (s : State) (n : Nat) (b : Bus) :
    ((s.setIntBoth n).bus b).intStatus = (s.bus b).intStatus ||| bitW n := by
  unfold State.setIntBoth State.setInt
  cases b
  · rw [bus_setIntWord_ne _ (by decide), bus_setIntWord]
  · rw [bus_setIntWord, bus_setIntWord_ne _ (by decide)]

/-- MODE_CHANGE is set on both buses. -/
theorem modeChange_set (s : State) : (s.setIntBoth intModeChange).busP.intStatus.getLsbD 5 = true ∧
    (s.setIntBoth intModeChange).busT.intStatus.getLsbD 5 = true := by
  have hbit (w : W32) : (w ||| bitW intModeChange).getLsbD 5 = true := by
    rw [BitVec.getLsbD_or, Bool.or_eq_true]
    exact .inr rfl
  exact ⟨(congrArg (·.getLsbD 5) (intStatus_setIntBoth s intModeChange .pcie)).trans (hbit _),
    (congrArg (·.getLsbD 5) (intStatus_setIntBoth s intModeChange .twoWire)).trans (hbit _)⟩

/-! ### The power of a sub-state -/

/-- The references that a sub-state leaves without their services are lost: nothing else of the clocks or the calibration changes. -/
theorem beyond_loseRefs (s : State) (l : List Nat) : (l.foldl State.loseRef s).beyond = s.beyond :=
  foldl_keeps State.beyond State.loseRef l (fun s c => beyond_loseRef s c) s

theorem sameStand_sleepUnlessHot (s : State) (sub : SubState) : SameStand (if sub = .hot then s else s.sleepRf) s := by
  split <;> exact ⟨rfl, rfl, rfl, rfl⟩

theorem dormantPower_stand (s : State) (sub : SubState) : (s.dormantPower sub).power = s.power ∧ (s.dormantPower sub).acc = s.acc ∧
    (s.dormantPower sub).rtc = s.rtc ∧ (s.dormantPower sub).clk.pllG.locked = (sub != .cold) := by
  obtain ⟨hpower, hacc, hrtc, -⟩ := (sameStand_foldl State.loseRef [5, 6, 7] sameStand_loseRef _).trans (sameStand_sleepUnlessHot s sub)
  exact ⟨hpower, hacc, hrtc, rfl⟩

theorem dormantPower_asleep (s : State) {sub : SubState} (h : sub ≠ .hot) : (s.dormantPower sub).clk.adcOn = false ∧
    (s.dormantPower sub).clk.pllS.locked = false ∧ (s.dormantPower sub).cal.startDone = false := by
  have hb := beyond_loseRefs s.sleepRf [5, 6, 7]
  have hclk : ([5, 6, 7].foldl State.loseRef s.sleepRf).clk = s.sleepRf.clk := of_beyond (·.clk) (fun _ => rfl) hb
  have hcal : ([5, 6, 7].foldl State.loseRef s.sleepRf).cal = s.sleepRf.cal := of_beyond (·.cal) (fun _ => rfl) hb
  unfold State.dormantPower
  rw [if_neg h]
  exact ⟨congrArg (·.adcOn) hclk, congrArg (·.pllS.locked) hclk, congrArg (·.startDone) hcal⟩

/-! ### The new mode comes into force -/

/-- The state with a mode in force and no change pending, and with MODE_CHANGE set. -/
def State.changed (s : State) (mode : Mode) (sub : SubState) : State :=
  ({ s with power := { s.power with mode := mode, sub := sub, change := none } } : State).setIntBoth intModeChange

theorem core_changed (s : State) (mode : Mode) (sub : SubState) : (s.changed mode sub).core
    = ({ s with power := { s.power with mode := mode, sub := sub, change := none } } : State).core := core_setIntBoth ..

/-- What a state says beside delivery and power is the same once the mode is in force. -/
theorem of_changed {α : Type} (p : State → α) (hp : ∀ s : State, p s.core = p s)
    (hq : ∀ (s : State) (q : PowerSt), p { s with power := q } = p s) (s : State) (mode : Mode) (sub : SubState) :
    p (s.changed mode sub) = p s :=
  (of_core p hp (core_changed s mode sub)).trans (hq s _)

theorem power_changed (s : State) (mode : Mode) (sub : SubState) :
    (s.changed mode sub).power = { s.power with mode := mode, sub := sub, change := none } :=
  of_core (·.power) (fun _ => rfl) (core_changed s mode sub)

/-- EV_MODE says the mode in force. -/
theorem changed_says (s : State) (mode : Mode) (sub : SubState) (old cause : Nat) :
    (s.changed mode sub).modeEvent old cause = (s.changed mode sub).raise 0x8016 noSlot
      (le 1 old ++ le 1 mode.code ++ le 1 cause ++ le 1 (if mode = .dormant then sub.code else 0xFF)) :=
  modeEvent_says (congrArg (·.mode) (power_changed s mode sub)) (congrArg (·.sub) (power_changed s mode sub)) old cause

theorem subNow_eq {s : State} (h : s.power.mode = .dormant) (sub : SubState) (cause : Nat) :
    s.subNow sub cause = ((s.dormantPower sub).changed .dormant sub).modeEvent 1 cause := by
  have hmode : (s.dormantPower sub).power.mode = .dormant := by rw [(dormantPower_stand s sub).1, h]
  unfold State.subNow State.changed
  dsimp only
  rw [← hmode]

/-! ### A change begins -/

/-- The state with a change begun: PLL-G is up, and MODE_CHANGE is set. -/
def State.begun (s : State) (m : ModeChange) : State :=
  ({ s with
    clk := { s.clk with pllG := { s.clk.pllG with locked := true } }
    power := { s.power with change := some { m with begun := true }, segFailed := s.power.segFailed || false } } : State).setIntBoth
      intModeChange

theorem begun_stand (s : State) (m : ModeChange) :
    (s.begun m).power = { s.power with change := some { m with begun := true }, segFailed := s.power.segFailed || false } ∧
    (s.begun m).acc = s.acc ∧ (s.begun m).rtc = s.rtc ∧ (s.begun m).clk.pllG = { s.clk.pllG with locked := true } :=
  sameStand_setIntBoth _ intModeChange

/-- With no segment to load, what the old mode held ends, and the RF ADCs come up where the new one needs them. -/
theorem beginChange_nil (s : State) (m : ModeChange) (c : StartCal) : s.beginChange m c [] =
    let u := (if m.target = s.power.mode then s else s.leaveMode m.target).begun m
    if m.target.receives || m.target == .maintain || m.sub == .hot then u.wakeRf c else u := by
  have hload : s.reload [] = ([], false) := ite_keeps id rfl rfl
  unfold State.beginChange
  rw [hload]
  rfl

theorem beginChange_begins (s : State) (m : ModeChange) (c : StartCal) :
    let t := s.beginChange m c []
    t.power.change = some { m with begun := true } ∧ t.power.mode = s.power.mode ∧ t.power.sub = s.power.sub ∧
      t.inTransition = true ∧ t.clk.pllG.locked = true ∧ t.acc = s.acc ∧ t.rtc = s.rtc := by
  have hleft : SameStand (if m.target = s.power.mode then s else s.leaveMode m.target) s := by
    split
    · exact ⟨rfl, rfl, rfl, rfl⟩
    · exact sameStand_leaveMode ..
  rw [beginChange_nil]
  dsimp only
  generalize (if m.target = s.power.mode then s else s.leaveMode m.target) = u at hleft ⊢
  have hwoken : SameStand (if (m.target.receives || m.target == .maintain || m.sub == .hot) = true then (u.begun m).wakeRf c
      else u.begun m) (u.begun m) := by
    split
    · exact sameStand_wakeRf ..
    · exact ⟨rfl, rfl, rfl, rfl⟩
  generalize (if (m.target.receives || m.target == .maintain || m.sub == .hot) = true then (u.begun m).wakeRf c
      else u.begun m) = t at hwoken ⊢
  obtain ⟨hpower, hacc, hrtc, -⟩ := hleft
  obtain ⟨hbpower, hbacc, hbrtc, hbpll⟩ := begun_stand u m
  obtain ⟨htpower, htacc, htrtc, htpll⟩ := hwoken
  have hp : t.power = _ := htpower.trans hbpower
  rw [State.inTransition, hp, htpll, hbpll, htacc, hbacc, htrtc, hbrtc, hpower]
  exact ⟨rfl, rfl, rfl, rfl, rfl, hacc, hrtc⟩

/-! ### The rows -/

section
variable {s : State} {m : ModeChange} (hm : s.power.change = some m) (hserving : s.serving = true)
include hm

theorem modeTransition_waits (c : StartCal) (segs : List SegLoad) (h : s.serving = false ∨ m.begun = true ∨ m.ticksLeft ≠ 0) :
    exec (.modeTransition c segs) s = .next s := by
  change execModeTransition c segs s = _
  unfold execModeTransition
  rw [hm]
  exact congrArg Host.Outcome.next (if_pos (by rcases h with h | h | h <;> simp [h]))

theorem modeTransitionComplete_waits (wait : Nat) (h : s.serving = false ∨ m.begun = false) :
    exec (.modeTransitionComplete wait) s = .next s := by
  change execModeTransitionComplete wait s = _
  unfold execModeTransitionComplete
  rw [hm]
  exact congrArg Host.Outcome.next (if_pos (by rcases h with h | h <;> simp [h]))

include hserving

theorem modeTransition_due (c : StartCal) (segs : List SegLoad) (hbegun : m.begun = false) (hdue : m.ticksLeft = 0) :
    exec (.modeTransition c segs) s = .next
      (if m.target = .dormant ∧ s.power.mode = .dormant ∧ s.power.sub.code ≤ m.sub.code then s.subNow m.sub m.cause
        else s.beginChange m c segs) := by
  change execModeTransition c segs s = _
  unfold execModeTransition
  rw [hm]
  exact congrArg Host.Outcome.next (if_neg (by simp [hserving, hbegun, hdue]))

theorem modeTransitionComplete_due (wait : Nat) (hbegun : m.begun = true) :
    exec (.modeTransitionComplete wait) s = .next
      (((if m.target = .dormant then (s.advance wait).dormantPower m.sub else s.advance wait).changed m.target m.sub).modeEvent
        s.power.mode.code m.cause) := by
  change execModeTransitionComplete wait s = _
  unfold execModeTransitionComplete
  rw [hm]
  exact congrArg Host.Outcome.next (if_neg (by simp [hserving, hbegun]))

end

/-- What completing a change leaves of the power state, and of what stands with it. -/
theorem completed_stand (s : State) (wait : Nat) (m : ModeChange) :
    let u := if m.target = .dormant then (s.advance wait).dormantPower m.sub else s.advance wait
    u.power = s.power ∧ u.acc = s.acc ∧ u.rtc = s.rtc := by
  dsimp only
  split
  · obtain ⟨hpower, hacc, hrtc, -⟩ := dormantPower_stand (s.advance wait) m.sub
    exact ⟨hpower, hacc, hrtc⟩
  · exact ⟨rfl, rfl, rfl⟩

/-- Settles O43. Whatever the old mode held ends and whatever the new one needs comes up without touching the mode, the settings
accepted or the clock chip. -/
theorem modeTransitions : Obligations.ModeTransitions := by
  unfold Obligations.ModeTransitions
  intro c wait s
  refine ⟨fun segs h => ?_, fun h => ?_, fun m hm hserving => ⟨fun segs h => modeTransition_waits hm c segs (.inr h),
    fun h => modeTransitionComplete_waits hm wait (.inr h), fun segs hbegun hdue htarget hmode hdeep => ?_, fun hbegun hdue hnot => ?_,
    fun hbegun => ?_⟩⟩
  · cases hm : s.power.change with
    | none => change execModeTransition c segs s = _; unfold execModeTransition; rw [hm]
    | some m => exact modeTransition_waits hm c segs (.inl (by simpa [hm] using h))
  · cases hm : s.power.change with
    | none => change execModeTransitionComplete wait s = _; unfold execModeTransitionComplete; rw [hm]
    | some m => exact modeTransitionComplete_waits hm wait (.inl (by simpa [hm] using h))
  · obtain ⟨hpower, hacc, hrtc, hpll⟩ := dormantPower_stand s m.sub
    obtain ⟨hp, ht⟩ := modeChange_set { s.dormantPower m.sub with
      power := { (s.dormantPower m.sub).power with mode := .dormant, sub := m.sub, change := none } }
    have hclk : ((s.dormantPower m.sub).changed .dormant m.sub).clk = _ := of_changed (·.clk) (fun _ => rfl) (fun _ _ => rfl) ..
    have hcal : ((s.dormantPower m.sub).changed .dormant m.sub).cal = _ := of_changed (·.cal) (fun _ => rfl) (fun _ _ => rfl) ..
    refine ⟨(s.dormantPower m.sub).changed .dormant m.sub, ?_, ?_, by rw [hclk, hpll], fun hsub => ?_, ?_, ?_, hp, ht⟩
    · rw [modeTransition_due hm hserving c segs hbegun hdue, if_pos ⟨htarget, hmode, hdeep⟩, subNow_eq hmode, changed_says]
      rfl
    · rw [power_changed, hpower, ← hmode]
    · rw [hclk, hcal]
      exact dormantPower_asleep s hsub
    · exact (of_changed (·.acc) (fun _ => rfl) (fun _ _ => rfl) ..).trans hacc
    · exact (of_changed (·.rtc) (fun _ => rfl) (fun _ _ => rfl) ..).trans hrtc
  · exact ⟨_, (modeTransition_due hm hserving c [] hbegun hdue).trans (congrArg Host.Outcome.next (if_neg hnot)), beginChange_begins s m c⟩
  · obtain ⟨hpower, hacc, hrtc⟩ := completed_stand s wait m
    refine ⟨_, (modeTransitionComplete_due hm hserving wait hbegun).trans (congrArg Host.Outcome.next (changed_says ..)), ?_, ?_,
      (modeChange_set _).1, (modeChange_set _).2, ?_, ?_, fun hawake => ?_⟩
    · rw [power_changed, hpower]
    · rw [State.inTransition, power_changed]
    · exact (of_changed (·.acc) (fun _ => rfl) (fun _ _ => rfl) ..).trans hacc
    · exact (of_changed (·.rtc) (fun _ => rfl) (fun _ _ => rfl) ..).trans hrtc
    · rw [if_neg hawake]
      exact ⟨of_changed (·.clk) (fun _ => rfl) (fun _ _ => rfl) .., of_changed (·.cal) (fun _ => rfl) (fun _ _ => rfl) ..,
        of_changed (·.refs) (fun _ => rfl) (fun _ _ => rfl) ..⟩

end Sys2Proof.Machine
end
